-- ==== Sys2Proof/Word.lean ====
section
/-! DEFINITION. The plain words of the model: bytes, register words, sparse tables. -/
namespace Sys2Proof

/-- One byte (host memory, stacked memory, scratchpad, payloads). -/
abbrev Byte := BitVec 8

/-- One BAR0 register word (spec/00, Registers: registers are 32 bits wide). -/
abbrev Word := BitVec 32

/-- A sparse table: key and value pairs, keys strictly ascending, no pair holding the table's
default value.  The operations and the canonical form stand in Machine/Tab.lean. -/
abbrev Tab (α : Type) := List (Nat × α)

end Sys2Proof
end

