-- ==== Sys2Proof/Types.lean ====
section
/-! DEFINITION. The data that commands carry: frames, descriptors, requests, measurements. -/
namespace Sys2Proof

/-- How the frame check sequence of a received frame came out (spec/03 R78, R90). -/
inductive Fcs where
  | good | bad | stomped
deriving DecidableEq, Repr, Inhabited

/-- The 32-byte fabric header of Table 02-1 (spec/02 R29). -/
structure FabHdr where
  ver : BitVec 4
  vc : BitVec 3
  cls : BitVec 2
  colour : BitVec 2
  cm : Bool
  order : Bool
  mcast : Bool
  coll : Bool
  swatch : Bool
  part : BitVec 12
  dst : BitVec 24
  src : BitVec 24
  hopAge : BitVec 8
  plen : BitVec 14
  swatchId : BitVec 16
  user : BitVec 96
  hcrc : BitVec 32
deriving DecidableEq, Repr, Inhabited

/-- The 24-byte contribution header of Table 07-8 (spec/07 R181). -/
structure CollHdr where
  handle : BitVec 20
  kind : BitVec 4
  gen : BitVec 8
  chunk : BitVec 32
  rank : BitVec 20
  op : BitVec 4
  sig : BitVec 32
  seg : BitVec 2
  elems : BitVec 14
  itype : BitVec 4
  otype : BitVec 4
  mode : BitVec 2
  credit : BitVec 32
  reason : BitVec 8
deriving DecidableEq, Repr, Inhabited

/-- An Ethernet frame on a fabric port (spec/02, Frame format).  `payload` is what follows the
headers, padding included; of a foreign frame (R33) it is all that follows the EtherType. -/
structure Frame where
  dmac : BitVec 48
  smac : BitVec 48
  etype : BitVec 16
  hdr : FabHdr
  chdr : CollHdr
  payload : List Byte
  fcs : Fcs
deriving DecidableEq, Repr, Inhabited

/-- A link-control frame's body (spec/03 R73). -/
structure Lcf where
  ver : BitVec 8
  init : Bool
  cg : List (BitVec 16)
  fcs : Fcs
deriving DecidableEq, Repr, Inhabited

/-- What the check code finds at an access (spec/09 R257, spec/03 R81, spec/06 R144): nothing, an
error it corrects (with the lane), or one that it detects and cannot correct. -/
inductive Ecc where
  | clean
  | ce (lane : Nat)
  | ue
deriving DecidableEq, Repr, Inhabited

/-- An operand with what the check code finds in sectors of stacked memory that the row reads: the sector, address / 64, and
the finding (spec/09 R257). -/
structure Flawed (α : Type) where
  val : α
  flaws : List (Nat × Ecc)
deriving DecidableEq, Repr, Inhabited

/-- The path that carried a command (spec/14): command ring 0-7, the table window of a die, or
the management port. -/
inductive Path where
  | ring (i : Nat)
  | window (d : Nat)
  | mgmt
deriving DecidableEq, Repr, Inhabited

/-- The part of a command descriptor that is not its parameters (spec/14 R353): the path that carried it, and TAG. -/
structure CmdHdr where
  path : Path
  tag : BitVec 32
  /-- What the check code finds in sectors of stacked memory that the command reads (spec/09 R257). -/
  flaws : List (Nat × Ecc)
deriving DecidableEq, Repr, Inhabited

/-- What a read of host memory by the device returned: bytes, or a failed completion (spec/14 R348). -/
inductive DmaRead where
  | ok (bytes : List Byte)
  | err
deriving DecidableEq, Repr, Inhabited

/-- Parameters of COLL_CREATE: Table 07-2, then Table 08-4 (spec/07 R177, spec/08 R214). -/
structure CollParams where
  handle : BitVec 20
  part : BitVec 12
  pattern : BitVec 14
  op : BitVec 4
  mode : BitVec 2
  itype : BitVec 4
  otype : BitVec 4
  root : BitVec 20
  total : BitVec 64
  chunkElems : BitVec 14
  window : BitVec 16
  ordHold : BitVec 4
  stragUs : BitVec 20
  place : BitVec 64
  downGroup : BitVec 16
  roundEvt : Bool
  spillEn : Bool
  shard : BitVec 13
  stepBase : BitVec 32
  gradOut : Bool
  prime : Bool
  mirrorEn : Bool
  partnerEp : BitVec 24
  partnerTarget : BitVec 10
  partnerHandle : BitVec 20
  partnerGen : BitVec 8
  partnerSig : BitVec 32
deriving DecidableEq, Repr, Inhabited

/-- Parameters of SHARD_SET (spec/08 R228, Table 08-6): the segment list and the initial side as
the device's reads of host memory return them. -/
structure ShardParams where
  sh : BitVec 13
  part : BitVec 12
  role : BitVec 1
  elems : BitVec 64
  step : BitVec 32
  segAddr : BitVec 64
  segCount : BitVec 32
  initAddr : BitVec 64
  segData : DmaRead
  initData : DmaRead
deriving DecidableEq, Repr, Inhabited

/-- Parameters of HPARAM_SET (spec/08 R213). -/
structure HparamParams where
  sh : BitVec 13
  set : BitVec 4
  step : BitVec 32
  words : List (BitVec 32)
deriving DecidableEq, Repr, Inhabited

/-- A stacked-memory window of STITCH_LAUNCH: base and size in bytes (spec/14 R354). -/
structure MemWin where
  base : BitVec 40
  size : BitVec 40
deriving DecidableEq, Repr, Inhabited

/-- Parameters of STITCH_LAUNCH (spec/08 R228, R230). -/
structure LaunchParams where
  k : BitVec 8
  g : BitVec 32
  place : BitVec 64
  srSeed : BitVec 32
  argAddr : BitVec 64
  wins : List MemWin
  limitUs : BitVec 32
deriving DecidableEq, Repr, Inhabited

/-- Parameters of TIME_LAUNCH and FRAME_SEND (spec/14 R358, R465): the frame as read from host
memory; `flen` is the length that the descriptor gives. -/
structure SendParams where
  slot : BitVec 6
  tick : BitVec 32
  port : BitVec 9
  vc : BitVec 3
  tsv : Bool
  tsid : BitVec 16
  flen : BitVec 14
  frame : Frame
  dmaOk : Bool
deriving DecidableEq, Repr, Inhabited

/-- Who issued a stacked-memory request (spec/09 R247, R248): a core for a chunk of a context slot; a tile for a
spilled operand of one, by the operand's number; a Stitch thread, with the register, the byte position in it, the bytes that return and the
instruction; the stores and reductions of a Stitch group; the scrubber; the Bolt store. -/
inductive Requester where
  | core (c : Nat) (slot chunk : Nat)
  | tile (t : Nat) (slot chunk op : Nat)
  | thread (launch group lane reg pos bytes idx : Nat)
  | store (launch group idx : Nat)
  | scrub
  | bolt
deriving DecidableEq, Repr, Inhabited

/-- A stacked-memory request (spec/09 R247, R251): address, bytes covered, data sent. A reduction
that merges scattered elements of one unit lists their offsets from the address (spec/09 R254);
none: the elements follow one another. A read or write of part of its sectors lists the offset of that part. -/
structure MemReq where
  src : Requester
  addr : Nat
  len : Nat
  data : List Byte
  offs : List Nat
deriving DecidableEq, Repr, Inhabited

/-- A flit on a Seam link: 2,048 data bits and the 64 sideband bits of Table 03-4 (spec/03 R82). -/
structure SeamFlit where
  data : BitVec 2048
  side : BitVec 64
deriving DecidableEq, Repr, Inhabited

/-- A training frame up to its PRBS (spec/11 R300, Table 11-2). -/
structure TrainFrame where
  marker : BitVec 64
  state : BitVec 4
  width : BitVec 2
  lane : BitVec 9
  rxmap : BitVec 4
  minfom : BitVec 8
  rsvd : BitVec 5
  serial : BitVec 32
  crc : BitVec 32
deriving DecidableEq, Repr, Inhabited

/-- What one strand's FOM window shows (spec/11 R295, R296): the error slicer's counts at its 64 thresholds, the
bins of the two data levels. -/
structure StrandWin where
  counts : List Nat
  lo : Nat
  hi : Nat
deriving DecidableEq, Repr, Inhabited

/-- A resonance seen by a ring sweep (spec/12 R312): heater code and the channel of its tone. -/
structure Resonance where
  h : Nat
  tone : Nat
deriving DecidableEq, Repr, Inhabited

/-- What a broadcast on channel M reaches (spec/04, Weft and warp broadcast). -/
inductive BcastKind where
  | weft | warp | all
deriving DecidableEq, Repr, Inhabited

/-- A unit that Patrol tests (spec/16 R421, Table 16-5). -/
inductive PatrolUnit where
  | core (c : Nat)
  | pre (tile : Nat)
  | seam (die link : Nat)
  | mesh (tile : Nat)
deriving DecidableEq, Repr, Inhabited

/-- The trigger of a PCIE reset (spec/15 R383). -/
inductive PcieResetKind where
  | perst | hotReset | flr
deriving DecidableEq, Repr, Inhabited

/-- The rails that a brown-out detector watches (spec/15 R382). -/
inductive Rail where
  | aon
  | fab (d : Nat)
deriving DecidableEq, Repr, Inhabited

/-- System-area records of the Bolt store (spec/10 R283). -/
inductive BoltRec where
  | laneCache (lane : Nat)
  | memTrain
  | seamMap
  | laserAging
  | repair
  | boots
deriving DecidableEq, Repr, Inhabited

/-- A page of the Bolt store: die of the package, plane, block and page (spec/10 R268). -/
structure FlashPage where
  die : BitVec 7
  plane : BitVec 2
  block : BitVec 13
  page : BitVec 7
deriving DecidableEq, Repr, Inhabited

/-- A codeword of an image that a read finds other than clean: page of the image, codeword of the page, wrong bits, and what
it decodes to where that is not what was written: its 4,096 data bytes and 32 metadata bytes (spec/10 R270). -/
structure CwRead where
  idx : Nat
  cw : BitVec 2
  bits : Nat
  word : Option (List Byte × List Byte)
deriving DecidableEq, Repr, Inhabited

/-- What the start-up sequence finds outside the register space (spec/15 R399, Table 15-6):
references, self-test of the dies, the store's mount, Seam wire failures, cores that fail their
self-test, stacks that fail training, the laser sources that answer. -/
structure StartupIn where
  priOk : Bool
  bakOk : Bool
  dieFail : BitVec 4
  mountOk : Bool
  seamFail : Option (Nat × Nat)
  coreFail : List Nat
  stackFail : BitVec 12
  elsSerial : List (Option (BitVec 64))
  elsCap : List (List (BitVec 16))
  elsBias : List (List (BitVec 16))
  perstHigh : Bool
  /-- System-area records whose copies both fail their CRC (spec/10 R283). -/
  badRecs : List BoltRec
  /-- Of the newest journal records, the newest first: does the CRC of each copy fail (spec/10 R280)? -/
  journalBad : List (Bool × Bool)
  /-- Wires that training finds failing, beside those of the stored map: die, link, wire (spec/03 R84). -/
  seamWires : List (Nat × Nat × Nat)
  /-- Lanes that fail their eye margin: stack, channel, lane (spec/09 R260). -/
  laneFail : List (Nat × Nat × Nat)
  /-- Stacks whose cached training settings fail (spec/09 R260). -/
  cacheFail : BitVec 12
  /-- The straps I3C_ADDR1 and I3C_ADDR0 (spec/18 R449). -/
  i3cAddr : BitVec 2
deriving DecidableEq, Repr, Inhabited

/-- What the host's PCIe configuration space enables of ASPM, and what the idle link asks for (spec/15 R393): 0 L0, 1 L1,
2 L1.1, 3 L1.2. -/
structure PcieLow where
  l1 : Bool
  l11 : Bool
  l12 : Bool
  want : Fin 4
deriving DecidableEq, Repr, Inhabited

/-- Outputs beside KILL (spec/18 Table 18-2). -/
inductive OutPin where
  | pcieTx | pcieSide | mgmtTx | ppsOut | thermtrip | i3cSda | tdo | laserBus
deriving DecidableEq, Repr

/-- A management frame as received (spec/14 R365), its EtherType and its tag as received. -/
structure MgmtFrame where
  etype : BitVec 16
  ver : BitVec 8
  typ : BitVec 8
  len : BitVec 16
  seq : BitVec 64
  body : List Byte
  tag : BitVec 128
deriving DecidableEq, Repr, Inhabited

/-- A broadcast or multicast-free frame that Tailor sends on its own account (spec/13 R339). -/
structure TailorFrame where
  port : Nat
  vc : Nat
  tsv : Bool
  tsid : BitVec 16
  frame : Frame
deriving DecidableEq, Repr, Inhabited

/-! Operands that a row takes together. -/

/-- A BAR0 read by its offset: of 64 bits (`wide`) or of 32 (spec/00 R4, spec/01 R11). -/
structure BarRead where
  off : Nat
  wide : Bool
deriving DecidableEq, Repr, Inhabited

/-- A core at work on its oldest operand, and what the check of its Bobbin finds (spec/06 R144). -/
structure CoreTurn where
  core : Fin 72
  ecc : Ecc
  /-- What the check code finds in sectors of stacked memory that the core reads back (spec/09 R257). -/
  flaws : List (Nat × Ecc)
deriving DecidableEq, Repr, Inhabited

/-- A chunk whose results are compared; `differ`: the shadow's work has come out otherwise (spec/06 R169). -/
structure ShadowCompare where
  chunk : BitVec 32
  differ : Bool
  /-- What the check code finds in sectors of shard state that the comparison reads (spec/09 R257). -/
  flaws : List (Nat × Ecc)
deriving DecidableEq, Repr, Inhabited

/-- A thread group that issues, and what the check of its scratchpad finds (spec/06 R144). -/
structure MmaTurn where
  g : Nat
  ecc : Ecc
deriving DecidableEq, Repr, Inhabited

/-- A write request and what the check code finds in each sector that it reads first (spec/09 R257). -/
structure MemWr where
  r : MemReq
  ecc : List Ecc
deriving DecidableEq, Repr, Inhabited

/-- A scrub read of a page: its codewords found other than clean, their page left open (spec/10 R270, R273). -/
structure PageRead where
  rs : List CwRead
deriving DecidableEq, Repr, Inhabited

/-- A band to relocate, and the codewords that its reads find other than clean (spec/10 R270, R273). -/
structure BandMove where
  band : Nat
  rs : List CwRead
deriving DecidableEq, Repr, Inhabited

/-- A record to write; `whole`: both copies have been programmed (spec/10 R283). -/
structure RecWrite where
  r : BoltRec
  whole : Bool
deriving DecidableEq, Repr, Inhabited

/-- The end of an export: the image's generation and the codewords that were not clean (spec/10 R270, R277). -/
structure ExportRead where
  gen : BitVec 32
  rs : List CwRead
deriving DecidableEq, Repr, Inhabited

/-- A group sensor's sample, °C, and whether the ring's receive fibre is at or above the Thimble threshold (spec/12
R313, R317). -/
structure GroupSample where
  temp : BitVec 8
  rx : Bool
deriving DecidableEq, Repr, Inhabited

/-- A tone window beside its tone: the heater code that the loop has put, and the group's sample (spec/12 R313, R315). -/
structure RingWindow where
  heater : BitVec 16
  temp : BitVec 8
  rx : Bool
deriving DecidableEq, Repr, Inhabited

end Sys2Proof
end

