-- ==== Sys2Proof/Syntax.lean ====
section
/-! DEFINITION. The commands: one constructor per row of the opcode table. -/
namespace Sys2Proof

/-- A command to the device, or one of the events and steps of its own engines: the rows of
spec/opcode_table.json, each whole and indivisible (spec/95). -/
inductive Instr where
  /-- REGISTER_WRITE (R7): A BAR0 write by the host or Tailor to a register that has no row of its own is applied according to the access types of its fields. -/
  | registerWrite (off : Nat) (host : Option Word) (tailor : Option Word)
  /-- BLOCK_LOCK (R8): A write of 1 to a block's W1S lock bit locks the RWL fields of that block until a reset that covers the block. -/
  | blockLock (off : Nat) (val : Word)
  /-- RSVD_ACCESS (R6): An access to a reserved BAR0 offset reads 0 or is discarded, and is counted and reported. -/
  | rsvdAccess (off : Nat) (write : Bool) (wide : Bool)
  /-- UNSUPPORTED_ACCESS (R4): A BAR0 access of the wrong width or alignment completes with Unsupported Request status and has no effect. -/
  | unsupportedAccess (off : Nat) (bytes : Nat) (write : Bool)
  /-- PAIR_LO_WRITE (R10): A 32-bit write to NAME_LO is held in a staging register until the next write to NAME_HI. -/
  | pairLoWrite (off : Nat) (val : Word)
  /-- PAIR_HI_WRITE (R10): A 32-bit write to NAME_HI applies both halves, using the held LO value or the current NAME_LO. -/
  | pairHiWrite (off : Nat) (val : Word)
  /-- PAIR_64_WRITE (R10): An aligned 64-bit write updates both halves in one cycle and discards any held LO value. -/
  | pair64Write (off : Nat) (val : BitVec 64)
  /-- PAIR_LO_READ (R11): A 32-bit read of NAME_LO copies NAME_HI into a snapshot register for the next read of NAME_HI; an aligned 64-bit read returns both halves. -/
  | pairLoRead (a : BarRead)
  /-- FRAME_RECEIVE (R37): A frame received whole on a fabric port is checked, metered and looked up, then buffered and forwarded, flooded, passed to Tailor or discarded. -/
  | frameReceive (p : Fin 512) (f : Frame)
  /-- FOREIGN_DEQUEUE (R33): Tailor takes a frame from a die's foreign queue, which gives room to a held frame. -/
  | foreignDequeue (die : Fin 4)
  /-- FRAME_TX_START (R134): When a port can start a frame, the scheduler picks the head of a VC queue by tier and transmission begins. -/
  | frameTxStart (p : Fin 512)
  /-- FRAME_TX_END (R110): The last bit of the last copy of a frame leaves, and the frame's tracker half is decremented. -/
  | frameTxEnd (p : Fin 512)
  /-- ORDER_FENCE_REQUEST (R110): A fence request arriving on channel Q flips CUR at the named index on another die. -/
  | orderFenceRequest (die : Fin 4) (idx : BitVec 16)
  /-- ORDER_RELEASE (R110): When the old half reaches 0 on all dies, the ORDER frame is released to the mesh and the next waiting ORDER frame opens its fence. -/
  | orderRelease (idx : BitVec 16)
  /-- LCF_RECEIVE (R74): A received link-control frame updates the sender's credit on each VC, and the first one lets the port come into service. -/
  | lcfReceive (p : Fin 512) (l : Lcf)
  /-- LCF_SEND (R75): The Selvedge sends a link-control frame when unadvertised grants reach BATCH or the interval expires. -/
  | lcfSend (p : Fin 512)
  /-- LEARN_INSERT (R49): A request taken from a learn queue inserts, moves or refreshes a learned endpoint entry. -/
  | learnInsert (die : Fin 4)
  /-- AGING_SWEEP (R51): Every PERIOD_US the sweep clears HIT or ages learned entries, and removes those at AGE_MAX. -/
  | agingSweep
  /-- FWD_AGE_CTL_WRITE (R51): A write of PERIOD_US restarts the aging sweep timer. -/
  | fwdAgeCtlWrite (die : Fin 4) (val : Word)
  /-- FWD_EM_SEED_WRITE (R44): A write of a table hash seed is applied only while the table is empty and nothing is staged or settling. -/
  | fwdEmSeedWrite (die : Fin 4) (tbl : Fin 2) (val : Word)
  /-- FLOOD_RELEASE (R53): A frame waiting in the flood queue is released once its partition's flood bucket has enough tokens. -/
  | floodRelease (id : Nat)
  /-- PART_DRAINED (R38): A DRAIN partition whose buffer occupancy reaches zero on all dies moves to OFF. -/
  | partDrained (part : BitVec 12)
  /-- TBL_EM_STAGE (R56): The command stages an endpoint entry for the next epoch through the table sequencer. -/
  | tblEmStage (h : CmdHdr) (entry : BitVec 64)
  /-- TBL_EM_DELETE (R56): The command stages a delete that clears the next-parity valid bit of an endpoint entry. -/
  | tblEmDelete (h : CmdHdr) (part : BitVec 12) (ep : BitVec 24)
  /-- TBL_EM_READ (R358): The command returns the endpoint entry of the active parity, or NOT_FOUND. -/
  | tblEmRead (h : CmdHdr) (part : BitVec 12) (ep : BitVec 24)
  /-- TBL_GRP_STAGE (R56): The command stages a multicast group entry into the copy of the next parity. -/
  | tblGrpStage (h : CmdHdr) (g : BitVec 16) (valid : Bool) (part : BitVec 12) (mask : DmaRead)
  /-- TBL_GRP_READ (R358): The command returns a multicast group entry and writes its mask to host memory. -/
  | tblGrpRead (h : CmdHdr) (g : BitVec 16) (addr : BitVec 64)
  /-- TBL_PART_STAGE (R56): The command stages the fields of a partition entry other than STATE. -/
  | tblPartStage (h : CmdHdr) (part : BitVec 12) (learnEn : Bool) (ageMax : BitVec 3)
      (floodRate : BitVec 10) (mask : DmaRead)
  /-- TBL_PART_STATE (R40): The command sets a partition's STATE at once on all four dies, and aborts its contexts when the partition leaves LIVE. -/
  | tblPartState (h : CmdHdr) (part : BitVec 12) (st : BitVec 2)
  /-- TBL_BUNDLE_STAGE (R99): The command stages a link bundle's member list for the next epoch. -/
  | tblBundleStage (h : CmdHdr) (b : BitVec 8) (n : BitVec 32) (list : DmaRead)
  /-- TBL_COMMIT (R58): The command requests an epoch commit at a named or earliest tick, holding later staging until settling ends. -/
  | tblCommit (h : CmdHdr) (tick : BitVec 32) (tickv : Bool)
  /-- FWD_EPOCH_COMMIT (R58): A write of FWD_EPOCH_CTL.COMMIT requests an epoch commit. -/
  | fwdEpochCommit (die : Fin 4)
  /-- EPOCH_FLIP (R58): On the commit tick the active parity flips on all dies, FWD_EPOCH increments and settling begins. -/
  | epochFlip
  /-- SETTLING_END (R58): Settling ends after the changed entries are copied into the other parity, and the held operations join the next epoch. -/
  | settlingEnd
  /-- SCRUB_SLOT_READ (R60): The scrubber reads one endpoint slot on all four replicas and repairs a replica that disagrees. -/
  | scrubSlotRead (shadow : DmaRead)
  /-- SHADOW_PASS (R62): A scrub pass compares the static entries against the host shadow image and repairs mismatches, or is skipped on an epoch mismatch. -/
  | shadowPass (img : DmaRead)
  /-- SW_RSV_WRITE (R70): A reserve write is applied or discarded under the 33-cell floor, the tile total and the link-up rules. -/
  | swRsvWrite (lane : Fin 512) (vc : Fin 8) (val : Word)
  /-- MESH_INJECT (R79): A frame enters the mesh once its destination has reserved space for all of its flits. -/
  | meshInject (tile : Fin 64)
  /-- MESH_FLIT_ROUTE (R107): A head flit at a router takes the productive direction with more free credits, after a SECDED check. -/
  | meshFlitRoute (fid : Nat) (ecc : Ecc)
  /-- MESH_ESCAPE (R80): A head flit that has waited ESC_WAIT cycles on channel A moves to channel E. -/
  | meshEscape (fid : Nat)
  /-- SEAM_FLIT_RECEIVE (R83): A Seam flit is checked by CRC, and a failing flit is kept and answered with NAK. -/
  | seamFlitReceive (die : Fin 4) (link : Fin 16) (f : SeamFlit)
  /-- SEAM_NAK_RECEIVE (R83): On a NAK the transmitter replays from its replay buffer, and 16 failures of one SEQ fail the link. -/
  | seamNakReceive (die : Fin 4) (link : Fin 16) (ack : BitVec 8)
  /-- SEAM_REPAIR (R84): A wire whose errors reach THRESH within the window is mapped onto a spare while the link holds. -/
  | seamRepair (die : Fin 4) (link : Fin 16) (wire : BitVec 10)
  /-- DEPTH_SAMPLE (R102): Every PERIOD cycles each tile sends the egress depths of its ports to all tiles. -/
  | depthSample (tile : Fin 64)
  /-- PORT_ACTIVATE (R96): A write of ACTIVE to RT_PORT.STATE lets the port train and come into service. -/
  | portActivate (p : Fin 512) (val : Word)
  /-- PORT_DRAIN (R115): A write of DRAINING takes the port out of service and resolves its direct frames again. -/
  | portDrain (p : Fin 512) (val : Word)
  /-- PORT_DISABLE (R96): A write of DISABLED stops the port's training and takes its lanes down. -/
  | portDisable (p : Fin 512) (val : Word)
  /-- PORT_RESTORE (R118): A write of RESTORING from BYPASS makes the port train its link anew. -/
  | portRestore (p : Fin 512) (val : Word)
  /-- PORT_BYPASS (R115): A DRAINING port whose staging and waiting frames are gone moves to BYPASS. -/
  | portBypass (p : Fin 512)
  /-- PORT_DISABLED_DRAINED (R116): A port written DISABLED from DRAINING reaches DISABLED once its egress staging is empty. -/
  | portDisabledDrained (p : Fin 512)
  /-- PORT_DEAD_RELEASE (R116): After tDEAD_REL with the link down, a DRAINING port's frames are released without transmission. -/
  | portDeadRelease (p : Fin 512)
  /-- PORT_RESTORED (R118): A RESTORING port that comes into service moves to ACTIVE. -/
  | portRestored (p : Fin 512)
  /-- BCAST_REQUEST (R114): A weft, warp or ALL broadcast is accepted or refused according to the mode of its origin die. -/
  | bcastRequest (tile : Fin 64) (kind : BcastKind) (unit : Option PatrolUnit)
  /-- MIR_CTL_WRITE (R119): A mirror session write that names VC0, VC1 or VC2 is discarded. -/
  | mirCtlWrite (die : Fin 4) (session : Fin 16) (val : Word)
  /-- MIRROR_COPY_SEND (R120): A held mirror copy is sent once its session queue has room. -/
  | mirrorCopySend (session : Fin 16)
  /-- RT_ORD_SEED_WRITE (R123): A write of the flow hash seed is discarded while any port is in service. -/
  | rtOrdSeedWrite (die : Fin 4) (val : Word)
  /-- POL_ENTRY_READ (R137): POL_CMD with OP 0 reads a policer entry and its counters, and optionally clears the counters. -/
  | polEntryRead (die : Fin 4) (idx : BitVec 14) (clr : Bool)
  /-- POL_ENTRY_WRITE (R130): POL_CMD with OP 1 writes a policer entry on all dies, or discards it under R131. -/
  | polEntryWrite (die : Fin 4) (idx : BitVec 14)
  /-- POL_CMD_COMPLETE (R136): A policer command finishes on all four dies and BUSY clears. -/
  | polCmdComplete
  /-- SHP_WRITE (R135): A shaper write is accepted before the port's next frame, or discarded. -/
  | shpWrite (p : Fin 512) (cls : Fin 4) (reg : Fin 3) (val : Word)
  /-- PRE_REDUCE_ADD (R162): A taken contribution is added into a pre-reducer partial or passed singly. -/
  | preReduceAdd (tile : Fin 64) (mismatch : Bool)
  /-- PRE_WAIT_EXPIRY (R163): A partial whose WAIT has expired is sent with what it holds. -/
  | preWaitExpiry (tile : Fin 64) (idx : Nat)
  /-- CL_BOB_WRITE (R145): A write of Bobbin SLOTS is discarded while Bobbins are held or a kernel is resident. -/
  | clBobWrite (cluster : Fin 8) (val : Word)
  /-- CORE_ACCUMULATE (R189): A partial or single arriving at a chunk's core is accumulated into its Bobbin, and the member count is checked for completion. -/
  | coreAccumulate (x : CoreTurn)
  /-- RESULT_SEND (R190): A finished chunk's result is sent down in segments with the current GRANTED. -/
  | resultSend (slot : BitVec 14) (chunk : BitVec 32)
  /-- OVERLOCK_COMPARE (R169): The shadow's result of a sampled chunk is compared bitwise with the primary's result. -/
  | overlockCompare (slot : BitVec 14) (x : ShadowCompare)
  /-- PAT_SET (R175): The command reads and checks a member list and sets the Pattern entry VALID with a new PGEN. -/
  | patSet (h : CmdHdr) (pat : BitVec 14) (part : BitVec 12) (n : BitVec 32) (list : DmaRead)
  /-- PAT_CLEAR (R175): The command clears a Pattern entry's VALID. -/
  | patClear (h : CmdHdr) (pat : BitVec 14)
  /-- COLL_CREATE (R177): The command creates a collective context in a slot, with a new GEN and signature. -/
  | collCreate (h : CmdHdr) (c : DmaRead)
  /-- COLL_DESTROY (R198): The command takes a context to CLOSING, or with GRACEFUL 0 aborts it and moves it to QUIESCE. -/
  | collDestroy (h : CmdHdr) (handle : BitVec 20) (graceful : Bool)
  /-- COLL_ABORT (R186): The command aborts a context with reason HOST. -/
  | collAbort (h : CmdHdr) (handle : BitVec 20)
  /-- COLL_QUERY (R198): The command returns a context's state, GEN, first abort, GRANTED and HWM. -/
  | collQuery (h : CmdHdr) (handle : BitVec 20)
  /-- CONTRIB_RECEIVE (R183): A frame taken for a context is checked in order and either counted, discarded as stale, or aborts the context. -/
  | contribReceive (tile : Flawed (Fin 64))
  /-- CREDIT_SEND (R195): A CREDIT frame is sent when GRANTED has advanced by BATCH or INT has passed since an advance. -/
  | creditSend (slot : BitVec 14)
  /-- STRAGGLER_TIMEOUT (R197): A chunk not complete within STRAG_US of its first contribution aborts its context with reason STRAGGLER. -/
  | stragglerTimeout (slot : BitVec 14) (chunk : BitVec 32)
  /-- QUARANTINE_EXPIRY (R198): A QUIESCE slot becomes FREE after the quarantine time once its partials have left the mesh. -/
  | quarantineExpiry (slot : BitVec 14)
  /-- COLL_MEM_WRITE (R202): A write of the collective state region's base or size is discarded while the region is in use or out of range. -/
  | collMemWrite (die : Fin 4) (reg : Fin 3) (val : Word)
  /-- SPILL_CNT_ISSUE (R253): After the REDs of a spilled operand are acknowledged, the tile issues CNT with its member count. -/
  | spillCntIssue (tile : Fin 64)
  /-- SHARD_SET (R204): The command sets up a shard entry with its segments, step and initial committed side. -/
  | shardSet (h : CmdHdr) (p : ShardParams)
  /-- SHARD_CLEAR (R208): The command frees an unbound shard. -/
  | shardClear (h : CmdHdr) (sh : BitVec 13)
  /-- HPARAM_SET (R213): The command writes a pending hyperparameter set that becomes current at the named step. -/
  | hparamSet (h : CmdHdr) (c : DmaRead)
  /-- OPT_COMMIT (R223): The command arms a shard commit of a partition at a tick. -/
  | optCommit (h : CmdHdr) (part : BitVec 12) (step : BitVec 32) (tick : BitVec 32)
  /-- OPT_COMMIT_TICK (R223): On the commit tick every sealed bound shard flips and commit credits are sent, or the commit fails NOT_SEALED. -/
  | optCommitTick (part : BitVec 12)
  /-- OPT_ROLLBACK (R225): The command flips back the shards of a partition that committed the named step. -/
  | optRollback (h : CmdHdr) (part : BitVec 12) (step : BitVec 32)
  /-- OPT_CKPT (R226): The command captures the committed sides in scope and starts a Bolt checkpoint image. -/
  | optCkpt (h : CmdHdr) (part : BitVec 12) (scope : BitVec 2) (gen : BitVec 32)
  /-- OPT_CKPT_END (R278): A checkpoint image ends COMPLETE, CKPT_POISON or IMAGE_BAD, and its completion is written. -/
  | optCkptEnd (part : BitVec 12) (gen : BitVec 32) (rs : List CwRead)
  /-- OPT_RESTORE (R227): The command loads a checkpoint image into the committed sides of the partition's shards. -/
  | optRestore (h : CmdHdr) (part : BitVec 12) (gen : BitVec 32)
  /-- SHARD_READ (R376): The command copies slot values of the committed side to host memory, pinning that side. -/
  | shardRead (h : CmdHdr) (sh : BitVec 13) (slot : BitVec 2) (first : BitVec 40)
      (count : BitVec 40) (addr : BitVec 64)
  /-- KERNEL_LOAD (R229): The command decodes and loads a Stitch kernel, or refuses it. -/
  | kernelLoad (h : CmdHdr) (k : BitVec 8) (regs : BitVec 8) (spad : BitVec 32) (slots : BitVec 2)
      (len : BitVec 32) (code : DmaRead)
  /-- STITCH_LAUNCH (R230): The command starts a standalone Stitch grid on the placed cores. -/
  | stitchLaunch (h : CmdHdr) (c : DmaRead)
  /-- STITCH_GRID_END (R230): The last group of a launch exits and the launch completes. -/
  | stitchGridEnd (l : Nat)
  /-- STITCH_WATCHDOG (R238): A launch that exceeds LIMIT_US faults with cause 4. -/
  | stitchWatchdog (l : Nat)
  /-- RUB_UPDATE (R218): A completed RUB chunk is mirrored to the partner and updated by its program into the basted side. -/
  | rubUpdate (slot : BitVec 14) (chunk : Flawed (BitVec 32))
  /-- RUB_UPDATE_DONE (R218): After the update the PARAM and GRAD segments are sent and the chunk digest is recorded. -/
  | rubUpdateDone (slot : BitVec 14) (chunk : Flawed (BitVec 32))
  /-- ORTHO_BLOCK_UPDATE (R211): Once every chunk of an ORTHO block has written its momentum, the block's orthogonalised update runs. -/
  | orthoBlockUpdate (slot : BitVec 14) (seg : BitVec 6) (block : Flawed Nat)
  /-- MIRROR_RECEIVE (R217): A MIRROR frame is checked, and once all segments of the chunk have arrived the mirror chunk is applied. -/
  | mirrorReceive (tile : Flawed (Fin 64))
  /-- MACK_RECEIVE (R217): A MACK frame is checked and its digest is compared with the primary's digest. -/
  | mackReceive (tile : Fin 64)
  /-- MACK_SEND (R220): A recorded MACK is sent to the primary whenever VC2 credit allows. -/
  | mackSend (slot : Flawed (BitVec 14))
  /-- SHARD_SEAL (R222): A BASTING shard whose round meets the seal conditions becomes SEALED and raises OPT_SEALED. -/
  | shardSeal (sh : BitVec 13)
  /-- STITCH_NOP (R233): Stitch NOP does nothing. -/
  | stitchNop (l : Nat) (g : Nat)
  /-- EXIT (R233): The thread ends. -/
  | exit (l : Nat) (g : Nat)
  /-- BRA (R231): A branch is taken where the guard holds, with masked paths reconverging at JOIN. -/
  | bra (l : Nat) (g : Nat)
  /-- BAR (R233): The group waits for every group of the launch on its core. -/
  | bar (l : Nat) (g : Nat)
  /-- BAR_RELEASE (R233): The last group reaching the barrier releases the waiting groups. -/
  | barRelease (l : Nat) (core : Fin 72)
  /-- FENCE (R248): The thread waits for the responses of all its earlier stacked-memory accesses. -/
  | fence (l : Nat) (g : Nat)
  /-- SVAL (R234): The instruction writes a special value into D. -/
  | sval (l : Nat) (g : Nat)
  /-- IADD (R233): Integer add into D. -/
  | iadd (l : Nat) (g : Nat)
  /-- ISUB (R233): Integer subtract into D. -/
  | isub (l : Nat) (g : Nat)
  /-- IMUL (R233): Integer multiply, keeping the low 32 bits. -/
  | imul (l : Nat) (g : Nat)
  /-- AND (R233): Bitwise AND into D. -/
  | and (l : Nat) (g : Nat)
  /-- OR (R233): Bitwise OR into D. -/
  | or (l : Nat) (g : Nat)
  /-- XOR (R233): Bitwise XOR into D. -/
  | xor (l : Nat) (g : Nat)
  /-- SHL (R233): Shift left into D. -/
  | shl (l : Nat) (g : Nat)
  /-- SHR (R233): Logical shift right into D. -/
  | shr (l : Nat) (g : Nat)
  /-- SAR (R233): Arithmetic shift right into D. -/
  | sar (l : Nat) (g : Nat)
  /-- ICMP (R233): Signed integer compare that writes a predicate. -/
  | icmp (l : Nat) (g : Nat)
  /-- MOVI (R233): The immediate is written into D. -/
  | movi (l : Nat) (g : Nat)
  /-- SEL (R233): D takes A or B according to the guard. -/
  | sel (l : Nat) (g : Nat)
  /-- IADD64 (R233): A 64-bit add on register pairs. -/
  | iadd64 (l : Nat) (g : Nat)
  /-- FADD (R233): An fp32 add. -/
  | fadd (l : Nat) (g : Nat)
  /-- FMUL (R233): An fp32 multiply. -/
  | fmul (l : Nat) (g : Nat)
  /-- FFMA (R233): An fp32 fused multiply-add rounded by RM. -/
  | ffma (l : Nat) (g : Nat)
  /-- FMAX (R233): fp32 maximum. -/
  | fmax (l : Nat) (g : Nat)
  /-- FMIN (R233): fp32 minimum. -/
  | fmin (l : Nat) (g : Nat)
  /-- FCMP (R233): fp32 compare that writes a predicate. -/
  | fcmp (l : Nat) (g : Nat)
  /-- CVT (R237): A format conversion with the rounding mode and SAT, including stochastic rounding. -/
  | cvt (l : Nat) (g : Nat)
  /-- RCP (R467): A correctly rounded reciprocal. -/
  | rcp (l : Nat) (g : Nat)
  /-- RSQRT (R467): A correctly rounded reciprocal square root. -/
  | rsqrt (l : Nat) (g : Nat)
  /-- SQRT (R467): A correctly rounded square root. -/
  | sqrt (l : Nat) (g : Nat)
  /-- EXP2 (R467): A correctly rounded base-2 exponential. -/
  | exp2 (l : Nat) (g : Nat)
  /-- LOG2 (R467): A correctly rounded base-2 logarithm. -/
  | log2 (l : Nat) (g : Nat)
  /-- LDS (R233): A load from the scratchpad. -/
  | lds (l : Nat) (g : Nat) (ecc : Ecc)
  /-- STS (R233): A store to the scratchpad. -/
  | sts (l : Nat) (g : Nat)
  /-- LDG (R236): A load from stacked memory through a window or slot. -/
  | ldg (l : Nat) (g : Nat)
  /-- STG (R236): A store to stacked memory through a window or slot. -/
  | stg (l : Nat) (g : Nat)
  /-- ATOM (R254): A memory-side operation issued from a kernel, merged per unit across the group. -/
  | atom (l : Nat) (g : Nat)
  /-- MMA (R233): A matrix instruction is issued to the matrix engines. -/
  | mma (l : Nat) (x : MmaTurn)
  /-- MMA_COMPLETE (R142): A matrix instruction's accumulator becomes final. -/
  | mmaComplete (l : Nat) (g : Nat)
  /-- MWAIT (R233): The group waits for its outstanding MMA instructions. -/
  | mwait (l : Nat) (g : Nat)
  /-- OPT_MEM_WRITE (R241): A write of the optimizer region's base or size is discarded while the region is in use, overlapping or out of range. -/
  | optMemWrite (die : Fin 4) (reg : Fin 3) (val : Word)
  /-- MEM_READ (R247): A read request of 64 to 256 bytes is applied at its pseudo-channel, with ECC check. -/
  | memRead (r : MemReq) (ecc : List Ecc)
  /-- MEM_WRITE (R247): A write request of 64 to 256 bytes is applied at its pseudo-channel. -/
  | memWrite (w : MemWr)
  /-- MEM_RESPONSE (R248): A memory response arrives at its requester on channel P. -/
  | memResponse (n : Nat)
  /-- RED_F32 (R251): An fp32 element-wise reduce into memory. -/
  | redF32 (r : MemReq) (ecc : List Ecc)
  /-- RED_BF16 (R251): A bf16 element-wise reduce into memory. -/
  | redBf16 (r : MemReq) (ecc : List Ecc)
  /-- RED_BF16W (R251): A bf16 input reduced into fp32 memory. -/
  | redBf16w (r : MemReq) (ecc : List Ecc)
  /-- RED_I32 (R251): An int32 element-wise reduce into memory. -/
  | redI32 (r : MemReq) (ecc : List Ecc)
  /-- RED_I64 (R251): An int64 element-wise reduce into memory. -/
  | redI64 (r : MemReq) (ecc : List Ecc)
  /-- ADD_F32 (R251): An fp32 atomic add that returns the old value. -/
  | addF32 (r : MemReq) (ecc : List Ecc)
  /-- ADD_BF16 (R251): A bf16 atomic add that returns the old value. -/
  | addBf16 (r : MemReq) (ecc : List Ecc)
  /-- ADD_I32 (R251): An int32 atomic add that returns the old value. -/
  | addI32 (r : MemReq) (ecc : List Ecc)
  /-- ADD_I64 (R251): An int64 atomic add that returns the old value. -/
  | addI64 (r : MemReq) (ecc : List Ecc)
  /-- CNT (R253): A count is added to a chunk accumulator's COUNT and a count notice is sent to the chunk's core. -/
  | cnt (r : MemReq) (ecc : List Ecc)
  /-- RDCLR (R253): Bytes are read and then cleared to zero, as when a core reads a spilled accumulator. -/
  | rdclr (r : MemReq) (ecc : List Ecc)
  /-- MEM_HASH_SEED_WRITE (R246): A write of the interleave seed is applied only while no region is in use. -/
  | memHashSeedWrite (val : Word)
  /-- MEM_SCRUB_READ (R259): The scrubber reads the next sector and writes back a corrected one. -/
  | memScrubRead (ecc : Ecc)
  /-- MEM_LANE_PENDING (R261): A lane whose corrected errors reach 64 within an hour is recorded for repair. -/
  | memLanePending (stack : Fin 12) (channel : BitVec 6) (lane : BitVec 7)
  /-- MEM_TEMP_SAMPLE (R263): A stack temperature sample updates the refresh interval, the co-throttle level and the trip check. -/
  | memTempSample (stack : Fin 12) (temp : BitVec 8)
  /-- MEM_REFRESH (R262): An all-bank refresh runs at each refresh interval. -/
  | memRefresh (stack : Fin 12)
  /-- BOLT_LIST (R276): The command writes the catalogue entries to host memory. -/
  | boltList (h : CmdHdr) (addr : BitVec 64) (limit : BitVec 32)
  /-- BOLT_DELETE (R277): The command removes a catalogue entry and frees its bands once the change is journalled. -/
  | boltDelete (h : CmdHdr) (part : BitVec 12) (gen : BitVec 32)
  /-- BOLT_EXPORT (R277): The command copies an image to host memory by DMA. -/
  | boltExport (h : CmdHdr) (part : BitVec 12) (gen : BitVec 32) (addr : BitVec 64)
  /-- BOLT_HEALTH (R284): The command writes the flash health record. -/
  | boltHealth (h : CmdHdr) (addr : BitVec 64)
  /-- BOLT_PROGRAM_FAIL (R271): A failed program or erase marks the block bad and rewrites its data in a spare. -/
  | boltProgramFail (fdie : BitVec 7) (plane : BitVec 2) (block : BitVec 13)
  /-- BOLT_WL_MOVE (R272): An erase-count spread above SPREAD moves the coldest band's contents to a free band. -/
  | boltWlMove
  /-- BOLT_BAND_ERASE (R272): A freed band is erased in the background, oldest first. -/
  | boltBandErase
  /-- BOLT_SCRUB_READ (R273): The retention scrub reads a written page and counts its reads toward read disturb. -/
  | boltScrubRead (x : PageRead)
  /-- BOLT_RELOCATE (R273): A band with too many corrected bits or reads is relocated to a fresh band, after any read of it ends. -/
  | boltRelocate (band : BandMove)
  /-- BOLT_RECORD_WRITE (R283): A system-area record is written as a new version in two copies. -/
  | boltRecordWrite (w : RecWrite)
  /-- LN_PORT_WRITE (R292): A port width write is applied or discarded under the lane alignment rules. -/
  | lnPortWrite (tile : Fin 64) (val : Word)
  /-- FEC_CODEWORD (R291): A received codeword is decoded, and an uncorrectable codeword is replaced by error blocks. -/
  | fecCodeword (lane : Fin 512) (errs : Nat)
  /-- UCW_LINK_DOWN (R304): Uncorrectable codewords reaching their threshold take the lane down with cause UCW. -/
  | ucwLinkDown (lane : Fin 512)
  /-- CDR_LOSS (R294): Loss of lock on a strand takes the lane down with cause CDR. -/
  | cdrLoss (lane : Fin 512) (strand : Fin 5)
  /-- FOM_WINDOW_END (R295): At the end of each window the FOM is latched, adaptation steps and the training progression are evaluated. -/
  | fomWindowEnd (lane : Fin 512) (wins : List StrandWin) (signs : List (List Int))
  /-- TRAINING_FRAME_RECEIVE (R301): A good training frame checks the cache key, giving a warm or cold start, and gives the partner's width and mapping. -/
  | trainingFrameReceive (lane : Fin 512) (f : TrainFrame)
  /-- TRAIN_TIMEOUT (R302): At tTRAIN_TO a lane maps its spare or fails training. -/
  | trainTimeout (lane : Fin 512)
  /-- ALIGN_DONE (R290): Codeword lock and deskew end, and the port's lanes go UP. -/
  | alignDone (p : Fin 512) (skewed : Bool)
  /-- HOLD_EXPIRY (R303): The retrain delay ends and the lane goes to WAIT_OPTICS. -/
  | holdExpiry (lane : Fin 512)
  /-- LANE_RETRAIN (R463): A write of LN_CTL.RETRAIN restarts training of every lane of the port. -/
  | laneRetrain (lane : Fin 512) (val : Word)
  /-- TX_QUIET_ENTER (R305): An idle transmitter sends QUIET and enters Tx-quiet. -/
  | txQuietEnter (lane : Fin 512)
  /-- TX_WAKE (R305): A queued frame or unadvertised grants wake the transmitter, which sends the WAKE pattern. -/
  | txWake (lane : Fin 512)
  /-- RX_QUIET_ENTER (R306): A receiver with RX_EN enters Rx-quiet on receiving QUIET. -/
  | rxQuietEnter (lane : Fin 512)
  /-- RX_WAKE (R306): A receiver in Rx-quiet resumes on detecting the WAKE pattern. -/
  | rxWake (lane : Fin 512)
  /-- RING_SWEEP_DONE (R312): A ring sweep ends locked at a qualifying resonance or fails. -/
  | ringSweepDone (oe : Fin 16) (tx : Bool) (f : Fin 16) (c : Fin 9) (res : List Resonance)
      (t : GroupSample)
  /-- TONE_WINDOW_END (R315): At the end of each tone window a ring's tone, order and range are checked for a re-sweep cause. -/
  | toneWindowEnd (oe : Fin 16) (tx : Bool) (f : Fin 16) (c : Fin 9) (tone : Option (Fin 9))
      (w : RingWindow)
  /-- OE_LANE_READY (R318): The engine reports a lane ready and the lane leaves WAIT_OPTICS for TRAIN. -/
  | oeLaneReady (lane : Fin 512)
  /-- RXPWR_SAMPLE (R319): A received-power sample below LOS twice gives the lane the LOS cause. -/
  | rxpwrSample (oe : Fin 16) (f : Fin 16) (c : Fin 9) (pwr : BitVec 16)
  /-- ELS_BUS_TRANSACTION (R320): A laser bus transaction completes, with CRC retries and bus-fail counting. -/
  | elsBusTransaction (m : Fin 8) (cmd : BitVec 8) (reg : BitVec 8) (data : BitVec 16)
      (replies : List (Option (BitVec 16)))
  /-- ELS_BIAS_WRITE (R322): A bias write is clamped at CAP and checked against the aging thresholds. -/
  | elsBiasWrite (m : Fin 8) (w : Fin 9) (val : Word) (low : Bool)
  /-- ELS_CTL_WRITE (R331): A write of OUT_EN is forwarded to the source's OUT_EN register. -/
  | elsCtlWrite (m : Fin 8) (val : Word)
  /-- ELS_ALERT (R322): An ALERT input from a source is counted and its ALARM value is read. -/
  | elsAlert (m : Fin 8) (alarm : BitVec 16)
  /-- FEED_KILL (R324): A feed dark for 10 µs while enabled has its KILL asserted. -/
  | feedKill (oe : Fin 16) (g : Fin 4)
  /-- FEED_PROBE (R324): Every PERIOD_S the device releases a killed feed's KILL to probe for light. -/
  | feedProbe (oe : Fin 16) (g : Fin 4)
  /-- FEED_PROBE_END (R324): A feed probe without light by 1 ms has its KILL reasserted at 2 ms. -/
  | feedProbeEnd (oe : Fin 16) (g : Fin 4) (light : Bool)
  /-- THIMBLE_TRIP (R325): A receive fibre below the Thimble threshold for 10 µs closes the LIT fibre's shutter. -/
  | thimbleTrip (oe : Fin 16) (f : Fin 16)
  /-- THIMBLE_PROBE (R326): A SHUT fibre probes on its timer, on feed return, or on a port becoming ACTIVE or RESTORING. -/
  | thimbleProbe (oe : Fin 16) (f : Fin 16)
  /-- THIMBLE_PROBE_END (R325): A probe without confirmation returns the fibre to SHUT at the end of tPROBE_ON. -/
  | thimbleProbeEnd (oe : Fin 16) (f : Fin 16)
  /-- THIMBLE_RESP (R325): A SHUT fibre that sees probe light for 20 µs enters RESP. -/
  | thimbleResp (oe : Fin 16) (f : Fin 16)
  /-- THIMBLE_LIT (R325): After tPROBE_CONF of continuous light the fibre becomes LIT. -/
  | thimbleLit (oe : Fin 16) (f : Fin 16)
  /-- TIME_INC_WRITE (R334): A new increment takes effect on all dies on the same TIME cycle. -/
  | timeIncWrite (dom : Fin 2) (val : BitVec 64)
  /-- TIME_ADJ (R335): A signed step is added to a domain's NS, firing any bound targets it carries past. -/
  | timeAdj (dom : Fin 2) (step : BitVec 32)
  /-- TIME_SET_LOAD (R335): A load of TIME_SET is applied on the next cycle unless the domain is active or bound. -/
  | timeSetLoad (dom : Fin 2)
  /-- DOMAIN_SWITCH_GO (R336): A write of TIME_CTL.GO arms a switch of the active domain at TIME_SWITCH_AT. -/
  | domainSwitchGo
  /-- TIME_SWITCHED (R336): On the switch tick the other domain becomes active on all dies. -/
  | timeSwitched
  /-- TSQ_POP (R341): A write of POP removes the head transmit timestamp entry. -/
  | tsqPop (die : Fin 4)
  /-- TIME_LAUNCH (R342): The command arms a launch slot with a frame copied from host memory and a target tick. -/
  | timeLaunch (h : CmdHdr) (c : SendParams)
  /-- LAUNCH_TARGET (R342): At the target tick the launched frame is placed at the head of its VC queue, or completes LAUNCH_FAIL. -/
  | launchTarget (slot : Fin 64)
  /-- FRAME_SEND (R465): The command queues a host frame at the tail of its VC queue, optionally timestamped. -/
  | frameSend (h : CmdHdr) (c : SendParams)
  /-- PPS_IN_EDGE (R343): A rising 1PPS input edge captures both domains' NS. -/
  | ppsInEdge
  /-- PPS_LOST (R343): 1.1 s without an input edge is reported. -/
  | ppsLost
  /-- PPS_OUT_EDGE (R343): The output rises when NS of OUT_DOM reaches a second boundary. -/
  | ppsOutEdge
  /-- PPS_OUT_END (R343): The output falls after WIDTH_US. -/
  | ppsOutEnd
  /-- RING_DOORBELL (R349): A host write of a command ring's PROD makes new descriptors available. -/
  | ringDoorbell (ring : Fin 8) (val : Word)
  /-- DESCRIPTOR_FETCH (R352): The device fetches a command descriptor and accepts it once its completion entry is reserved. -/
  | descriptorFetch (ring : Fin 8) (d : DmaRead)
  /-- RING_CONS_WRITE (R349): A host write of a producer ring's CONS frees entries. -/
  | ringConsWrite (ring : Fin 18) (val : Word)
  /-- RING_ENABLE (R350): A write of EN = 1 clears the indices and ERR and starts the ring. -/
  | ringEnable (ring : Fin 18) (val : Word)
  /-- RING_DISABLE (R350): A write of EN = 0 stops the ring at once. -/
  | ringDisable (ring : Fin 18) (val : Word)
  /-- RING_INTERRUPT (R364): A producer ring raises its MSI-X vector after COUNT entries or USEC. -/
  | ringInterrupt (ring : Fin 18)
  /-- EVENT_RECORD_WRITE (R362): A held event record is written to the event ring when it has room. -/
  | eventRecordWrite
  /-- COAL_WINDOW_CLOSE (R414): A root's window closes and one SUMMARY record is written per folded code. -/
  | coalWindowClose (n : Nat)
  /-- COAL_RATE_INTERVAL_END (R416): At each 1 ms boundary the rate-limited events of a code are written as a SUMMARY. -/
  | coalRateIntervalEnd
  /-- NOP (R358): The NOP command does nothing and completes. -/
  | nop (h : CmdHdr)
  /-- REG_READ (R465): The management command reads up to 16 consecutive BAR0 words. -/
  | regRead (h : CmdHdr) (off : BitVec 32) (count : BitVec 32)
  /-- FW_STAGE (R371): The command collects an image piece and checks the whole image on FINAL. -/
  | fwStage (h : CmdHdr) (off : BitVec 32) (total : BitVec 32) (final : Bool) (piece : List Byte)
  /-- FW_ACTIVATE (R371): The command restarts the Tailor cores on the staged image. -/
  | fwActivate (h : CmdHdr)
  /-- FW_COMMIT_SVN (R373): The command programs the minimum SVN fuses to the running image's SVN. -/
  | fwCommitSvn (h : CmdHdr)
  /-- ESTOP (R368): The command aborts contexts, turns partitions OFF, disables ports and kills the lasers. -/
  | estop (h : CmdHdr)
  /-- ESTOP_CLEAR (R368): The command releases KILL and the probes and accepts commands again. -/
  | estopClear (h : CmdHdr)
  /-- MGMT_FRAME_RECEIVE (R365): A management CMD frame is authenticated and its SEQ checked before the command runs. -/
  | mgmtFrameReceive (f : MgmtFrame)
  /-- BOOT_REQ_SEND (R370): The boot ROM sends a BOOT_REQ frame every tBOOT_REQ while it has no image. -/
  | bootReqSend
  /-- BOOT_IMG_RECEIVE (R370): A boot image delivered in BOOT_IMG frames is checked and run. -/
  | bootImgReceive (off : BitVec 32) (total : BitVec 32) (final : Bool) (piece : List Byte)
  /-- TLR_BOOT_GO (R370): A write of TLR_BOOT_CTL.GO makes the boot ROM take the host image. -/
  | tlrBootGo (img : DmaRead)
  /-- TLR_WATCHDOG_EXPIRY (R372): A Tailor core missing its watchdog for 1 s restarts Tailor, or stops it on a second restart within 60 s. -/
  | tlrWatchdogExpiry (core : Fin 4)
  /-- TLR_RESTART_DONE (R371): A Tailor restart ends and command rings accept again. -/
  | tlrRestartDone
  /-- POR_ASSERT (R383): POR_N low starts a cold reset of every block. -/
  | porAssert
  /-- BROWNOUT (R382): A rail below its brown-out threshold for 1 µs starts a cold reset. -/
  | brownout (rail : Rail)
  /-- POR_RELEASE (R399): POR_N rising starts the start-up sequence: PLL lock, fuse load, self-test, endpoint, mount and training. -/
  | porRelease (found : StartupIn)
  /-- STARTUP_COMPLETE (R399): With the image running and all steps done, READY is set and the mode becomes SERVICE. -/
  | startupComplete
  /-- WARM_RESET (R383): A write of RST_CTL.WARM with KEY 0xA5 resets every block except identity and clocks, and reruns start-up from fuse load. -/
  | warmReset (val : Word)
  /-- I3C_WARM (R386): The board controller's WARM command over I3C starts a warm reset. -/
  | i3cWarm
  /-- PCIE_RESET (R385): PERST#, Hot Reset or FLR resets the endpoint and disables every ring. -/
  | pcieReset (k : PcieResetKind)
  /-- REF_FAIL (R387): An active reference found bad starts a switch to the other input, or holdover when both are bad. -/
  | refFail (input : Fin 2)
  /-- REF_SWITCH (R387): The root PLL relocks on the other reference input. -/
  | refSwitch
  /-- REF_REVERT (R387): With REVERT set the device returns to the primary after 100 ms of good input. -/
  | refRevert
  /-- REF_SELECT (R388): A write of CLK_REF_CTL.SEL requests a switch to the named input. -/
  | refSelect (val : Word)
  /-- HOLDOVER_RELOCK (R389): An input good for 100 ms ends holdover with a slewed relock. -/
  | holdoverRelock (input : Fin 2)
  /-- PWR_EVAL (R394): Every tPWR_EVAL each domain is set to the deepest allowed state. -/
  | pwrEval (dom : Fin 128) (link : PcieLow)
  /-- DOMAIN_WAKE (R392): A demand on a sleeping domain starts its wake to ON. -/
  | domainWake (dom : Fin 128)
  /-- DOMAIN_WAKE_DONE (R395): A domain reaches ON and its waiting work proceeds. -/
  | domainWakeDone (dom : Fin 128) (late : Bool)
  /-- THM_SAMPLE (R396): A die sensor sample sets the throttle level and checks the trip. -/
  | thmSample (die : Fin 4) (temps : List (BitVec 8))
  /-- ILIM_ASSERT (R396): ILIM_Nd low forces the die to at least T3. -/
  | ilimAssert (die : Fin 4)
  /-- ILIM_HOLD_END (R396): 100 µs after ILIM_Nd rises the forced level is released. -/
  | ilimHoldEnd (die : Fin 4)
  /-- ISSUE_RAMP_STEP (R397): A cluster's permitted issue fraction rises by one quarter per tRAMP. -/
  | issueRampStep (cluster : Fin 8)
  /-- INJECT_ARM (R408): A write of ARM arms an injection, or is discarded. -/
  | injectArm (val : Word)
  /-- INJECT_DISARM (R408): A write of DISARM ends an injection of any mode. -/
  | injectDisarm (val : Word)
  /-- INJECTION (R407): At the detector's next opportunity the armed corruption or condition is injected. -/
  | injection
  /-- ERROR_LOG_POP (R412): A write of REL_LOG_CTL.POP removes the oldest log entry. -/
  | errorLogPop
  /-- SUSPICION_DECAY (R417): A suspicion count with no addition for WINDOW_H hours returns to 0. -/
  | suspicionDecay (core : Fin 72)
  /-- PATROL_UNIT_START (R420): A Patrol unit starts on an eligible unit, with its core in PATROL. -/
  | patrolUnitStart (u : PatrolUnit)
  /-- PATROL_UNIT_END (R421): A Patrol unit completes and a failure acts under Table 16-5. -/
  | patrolUnitEnd (u : PatrolUnit) (fail : Option (BitVec 8))
  /-- PATROL_YIELD (R420): Work arriving for a core abandons its Patrol unit. -/
  | patrolYield (u : PatrolUnit)
  /-- PATROL_FULL (R422): A write of FULL runs every Patrol unit and a destructive memory march. -/
  | patrolFull
  /-- PATROL_DONE (R422): A FULL run ends and its failures are reported. -/
  | patrolDone (fails : List (PatrolUnit × BitVec 8))
  /-- SPARE_IN (R419): The spare passes its tests and takes the failed core's name. -/
  | spareIn (cluster : Fin 8) (pass : Bool)
  /-- PMC_SEL_WRITE (R432): A selector write clears its occupancy counter, or is discarded. -/
  | pmcSelWrite (off : Nat) (val : Word)
  /-- PMC_MODE_WRITE (R434): A collector MODE write takes effect now, or when the current dump ends. -/
  | pmcModeWrite (val : Word)
  /-- PMC_DUMP (R435): Every PERIOD_US a dump of the masked counters starts, or is skipped. -/
  | pmcDump
  /-- PMC_DUMP_END (R434): A dump's last record is written and a deferred MODE takes effect. -/
  | pmcDumpEnd
  /-- PMC_FREEZE_GO (R436): A write of GO snapshots every counter on one edge. -/
  | pmcFreezeGo (val : Word)
  /-- PMC_FREEZE_TICK (R436): The armed freeze tick snapshots every counter. -/
  | pmcFreezeTick
  /-- SWATCH_RECORD_WRITE (R440): A Swatch record is written after S7, or at once on release or stomp. -/
  | swatchRecordWrite (die : Fin 4)
  /-- THIMBLE_RESP_DARK (R325): A fibre in RESP whose receive light falls below the probe threshold returns to SHUT. -/
  | thimbleRespDark (oe : Fin 16) (f : Fin 16)
  /-- OPT_RESTORE_END (R279): A restore finishes reading and checking the image, writes the committed sides or marks the image BAD, and completes. -/
  | optRestoreEnd (part : BitVec 12) (gen : BitVec 32) (rs : List CwRead)
  /-- BOLT_EXPORT_END (R277): An export finishes copying the image to host memory, frees the image from IMAGE_BUSY and completes. -/
  | boltExportEnd (part : BitVec 12) (x : ExportRead)
  /-- SHARD_READ_END (R376): A SHARD_READ finishes its copy, unpins the committed side and completes. -/
  | shardReadEnd (sh : BitVec 13)
  /-- CKPT_SIDE_READ_DONE (R226): A checkpoint has finished reading a captured side, which is then no longer pinned. -/
  | ckptSideReadDone (part : BitVec 12) (sh : Flawed (BitVec 13))
  /-- BOLT_DELETE_JOURNALLED (R280): Both copies of a delete's journal record are programmed, so the delete takes effect and BOLT_DELETE completes. -/
  | boltDeleteJournalled (part : BitVec 12) (gen : BitVec 32)
  /-- PERST_RELEASE (R399): PERST# rising lets the PCIe endpoint become ready for configuration within tCFG_READY. -/
  | perstRelease
  /-- REF_GOOD (R387): A reference input becomes good, updating PRI_OK or BAK_OK and, at start-up, letting the root PLL lock. -/
  | refGood (input : Fin 2)
  /-- ILIM_RELEASE (R396): ILIM_Nd rising starts the 100 µs hold after which the forced T3 level is released. -/
  | ilimRelease (die : Fin 4)
  /-- TAILOR_FRAME_SEND (R339): Tailor sends a frame of its own, such as a PTP message, optionally with a transmit-timestamp request. -/
  | tailorFrameSend (t : TailorFrame)
  /-- I3C_DYNAMIC_ADDRESS (R449): The I3C target takes a dynamic address on SETDASA or ENTDAA. -/
  | i3cDynamicAddress (addr : BitVec 7)
deriving DecidableEq, Repr

end Sys2Proof
end

