-- ==== Sys2Proof/Decode.lean ====
section
/-! DEFINITION. Reading a command from a word by the table's bits: no row of spec/opcode_table.json
gives any bits, so no word spells a command. -/
namespace Sys2Proof

/-- The command that a word spells: none, since no row of the table has bits (log entry 1). -/
def decodeTableWord (_nbits _w : Nat) : Option Instr := none

end Sys2Proof
end

