-- ==== Sys2Proof/Machine/Bits.lean ====
section
/-! DEFINITION. Bit fields, byte order, CRC-32C and the packing rule of parameters. -/
namespace Sys2Proof.Machine

/-- Bits [msb:lsb] of a number (spec/00 R1). -/
def bits (x msb lsb : Nat) : Nat := (x >>> lsb) % 2 ^ (msb + 1 - lsb)

/-- One bit of a number. -/
def bit (x n : Nat) : Bool := (x >>> n) % 2 == 1

/-- 1 for true, 0 for false. -/
def b2n (b : Bool) : Nat := if b then 1 else 0

/-- A number with bits [msb:lsb] replaced. -/
def putBits (x msb lsb v : Nat) : Nat :=
  x - bits x msb lsb * 2 ^ lsb + (v % 2 ^ (msb + 1 - lsb)) * 2 ^ lsb

/-- A bit set in a number. -/
def setBit (x n : Nat) : Nat := if bit x n then x else x + 2 ^ n

/-- A bit cleared in a number. -/
def clrBit (x n : Nat) : Nat := if bit x n then x - 2 ^ n else x

/-- Two's complement reading of the low `w` bits. -/
def sx (w x : Nat) : Int :=
  let m := x % 2 ^ w
  if m < 2 ^ (w - 1) then (m : Int) else (m : Int) - (2 ^ w : Nat)

/-- An integer as `w` bits. -/
def ofInt (w : Nat) (i : Int) : Nat := (i % ((2 ^ w : Nat) : Int)).toNat

/-- Little-endian bytes of a number (spec/00 R2). -/
def leBytes : Nat → Nat → List Byte
  | 0, _ => []
  | n + 1, x => BitVec.ofNat 8 x :: leBytes n (x / 256)

/-- The number that little-endian bytes spell. -/
def leVal : List Byte → Nat
  | [] => 0
  | b :: r => b.toNat + 256 * leVal r

/-- Big-endian bytes of a number (spec/00 R3). -/
def beBytes (n x : Nat) : List Byte := (leBytes n x).reverse

/-- The number that big-endian bytes spell. -/
def beVal (l : List Byte) : Nat := leVal l.reverse

/-- `n` bytes from position `k` of a list, zero past its end. -/
def slice (l : List Byte) (k n : Nat) : List Byte :=
  let p := (l.drop k).take n
  p ++ List.replicate (n - p.length) 0

/-- Little-endian value at a byte position. -/
def leAt (l : List Byte) (k n : Nat) : Nat := leVal (slice l k n)

/-- The reflected CRC-32C shift register over one byte's remaining bits (spec/02 R30):
polynomial 0x1EDC6F41, reflected 0x82F63B78. -/
def crcBits : Nat → Nat → Nat
  | 0, c => c
  | n + 1, c => crcBits n (if c % 2 = 1 then (c / 2) ^^^ 0x82F63B78 else c / 2)

/-- The CRC-32C register after bytes, from a start value, with no final XOR (spec/02 R30, R43). -/
def crcReg : Nat → List Byte → Nat
  | c, [] => c
  | c, b :: r => crcReg (crcBits 8 (c ^^^ b.toNat)) r

/-- CRC-32C with the parameters of spec/02 R30: initial value and final XOR all ones. -/
def crc32c (l : List Byte) : Nat := crcReg 0xFFFFFFFF l ^^^ 0xFFFFFFFF

/-- CRC-32C with another initial value and the final XOR of spec/02 R30. -/
def crc32cFrom (init : Nat) (l : List Byte) : Nat := crcReg init l ^^^ 0xFFFFFFFF

/-- Bytes that hold a width under the packing rule: 1, 2, 4 or 8 (spec/14 R354). -/
def packSize (w : Nat) : Nat := if w ≤ 8 then 1 else if w ≤ 16 then 2 else if w ≤ 32 then 4 else 8

/-- The next multiple of `m`. -/
def alignUp (x m : Nat) : Nat := (x + m - 1) / m * m

/-- Pack (width, value) fields from a byte offset on (spec/14 R354). -/
def packFrom : Nat → List (Nat × Nat) → List Byte
  | _, [] => []
  | o, (w, v) :: r =>
    let s := packSize w
    let o' := alignUp o s
    List.replicate (o' - o) 0 ++ leBytes s v ++ packFrom (o' + s) r

/-- Pack (width, value) fields, little-endian, each at a multiple of its own size. -/
def packFields (fs : List (Nat × Nat)) : List Byte := packFrom 0 fs

/-- Event arguments: (bytes, value) little-endian with no padding (spec/14 R459). -/
def packArgs : List (Nat × Nat) → List Byte
  | [] => []
  | (n, v) :: r => leBytes n v ++ packArgs r

/-- Bits of a mask that is 1 below `n`, ascending. -/
def maskList (n mask : Nat) : List Nat := (List.range n).filter (fun i => bit mask i)

/-- Number of ones among the low `n` bits. -/
def popcount (n mask : Nat) : Nat := (maskList n mask).length

/-- Saturating subtraction spelled as a floor at 0. -/
def natMin (a b : Nat) : Nat := if a ≤ b then a else b

/-- The greater of two numbers. -/
def natMax (a b : Nat) : Nat := if a ≤ b then b else a

/-- A number as a register word. -/
def w32 (x : Nat) : Word := BitVec.ofNat 32 x

end Sys2Proof.Machine
end

