-- ==== Sys2Proof/Machine/Fp.lean ====
section
/-! DEFINITION. Number formats and arithmetic (spec/06 R142, R147–R159, R467): exact values as signed
dyadic numbers, one rounding at the end. -/
namespace Sys2Proof.Machine

/-- A floating value: NaN, an infinity, or (−1)^s × m × 2^e. -/
inductive Fv where
  | nan
  | inf (s : Bool)
  | num (s : Bool) (m : Nat) (e : Int)
deriving DecidableEq, Repr

/-- What an all-ones exponent means: infinities and NaNs, the one NaN of E4M3, or plain numbers. -/
inductive FKind where
  | ieee | e4m3 | finite
deriving DecidableEq, Repr

/-- A floating format: exponent bits, mantissa bits, bias. -/
structure Fmt where
  eb : Nat
  mb : Nat
  bias : Int
  kind : FKind
deriving DecidableEq, Repr

/-- The formats of Table 06-3 by type code; the integer codes have none. -/
def fmtOf (c : Nat) : Option Fmt :=
  match c with
  | 0 => some ⟨8, 23, 127, .ieee⟩
  | 1 => some ⟨8, 7, 127, .ieee⟩
  | 2 => some ⟨5, 10, 15, .ieee⟩
  | 3 => some ⟨4, 3, 7, .e4m3⟩
  | 4 => some ⟨5, 2, 15, .ieee⟩
  | 8 => some ⟨4, 3, 7, .e4m3⟩
  | 9 => some ⟨5, 2, 15, .ieee⟩
  | 0xA => some ⟨3, 2, 3, .finite⟩
  | 0xB => some ⟨2, 3, 1, .finite⟩
  | 0xC => some ⟨2, 1, 1, .finite⟩
  | _ => none

/-- Width of a type in bits (Table 06-3). -/
def typeBits (c : Nat) : Nat :=
  match c with
  | 0 | 5 => 32
  | 1 | 2 => 16
  | 3 | 4 | 8 | 9 => 8
  | 6 => 64
  | 0xA | 0xB => 6
  | 0xC => 4
  | _ => 0

/-- Width of a contribution type in bytes. -/
def typeBytes (c : Nat) : Nat := typeBits c / 8

/-- Is this an MX format? -/
def isMx (c : Nat) : Bool := decide (8 ≤ c) && decide (c ≤ 0xC)

/-- Value of a bit pattern. -/
def fdec (f : Fmt) (x : Nat) : Fv :=
  let s := bit x (f.eb + f.mb)
  let m := x % 2 ^ f.mb
  let e := bits x (f.eb + f.mb - 1) f.mb
  let ones := 2 ^ f.eb - 1
  if f.kind = .ieee ∧ e = ones then (if m = 0 then .inf s else .nan)
  else if f.kind = .e4m3 ∧ e = ones ∧ m = 2 ^ f.mb - 1 then .nan
  else if e = 0 then .num s m (1 - f.bias - f.mb)
  else .num s (2 ^ f.mb + m) ((e : Int) - f.bias - f.mb)

/-- The magnitude code of the largest finite value. -/
def maxCode (f : Fmt) : Nat :=
  match f.kind with
  | .ieee => (2 ^ f.eb - 1) * 2 ^ f.mb - 1
  | .e4m3 => 2 ^ (f.eb + f.mb) - 2
  | .finite => 2 ^ (f.eb + f.mb) - 1

/-- The canonical NaN (spec/06 R151). -/
def fnan (f : Fmt) : Nat :=
  match f.kind with
  | .ieee => (2 ^ f.eb - 1) * 2 ^ f.mb + 2 ^ (f.mb - 1)
  | .e4m3 => 2 ^ (f.eb + f.mb) - 1
  | .finite => 0

/-- Sign bit of a format. -/
def fsign (f : Fmt) (s : Bool) : Nat := b2n s * 2 ^ (f.eb + f.mb)

/-- An infinity, which E4M3 writes as NaN (spec/06 R152). -/
def finf (f : Fmt) (s : Bool) : Nat :=
  match f.kind with
  | .ieee => fsign f s + (2 ^ f.eb - 1) * 2 ^ f.mb
  | .e4m3 => fnan f
  | .finite => fsign f s + maxCode f

/-- Number of bits of a number. -/
def bitLen (m : Nat) : Nat := if m = 0 then 0 else Nat.log2 m + 1

/-- How a value is rounded: nearest even, toward zero, or stochastic with the bits of `r` (spec/08
R232, R237). -/
inductive Rm where
  | rne | rtz | sr (r : Nat)
deriving DecidableEq, Repr

/-- Round (−1)^s × m × 2^e, or the value just above it in magnitude when `st`, to a format.
`sat`: a finite overflow saturates (spec/06 R152). -/
def fround (f : Fmt) (rm : Rm) (sat : Bool) (s : Bool) (m : Nat) (e : Int) (st : Bool) : Nat :=
  let emin := 1 - f.bias - f.mb
  -- enough low bits that a sticky remainder always falls among the dropped ones
  let m := if st then m * 2 ^ 32 + 1 else m
  let e := if st then e - 32 else e
  if m = 0 then fsign f s
  else
    let top := e + (bitLen m : Int) - 1 - f.mb
    let q := if emin ≤ top then top else emin
    let keep :=
      if q ≤ e then m * 2 ^ (e - q).toNat
      else
        let k := (q - e).toNat
        let low := m % 2 ^ k
        let hi := m / 2 ^ k
        match rm with
        | .rtz => hi
        | .sr r => (m + r % 2 ^ k) / 2 ^ k
        | .rne =>
          if 2 ^ (k - 1) < low then hi + 1
          else if low = 2 ^ (k - 1) then hi + hi % 2
          else hi
    let code := (q - emin).toNat * 2 ^ f.mb + keep
    if code ≤ maxCode f then fsign f s + code
    else if sat ∨ f.kind = .finite then fsign f s + maxCode f
    else if f.kind = .ieee ∧ rm = .rtz ∧ 8 ≤ f.mb + 1 then fsign f s + maxCode f
    else finf f s

/-- Encode a value with one rounding. -/
def fenc (f : Fmt) (rm : Rm) (sat : Bool) (v : Fv) : Nat :=
  match v with
  | .nan => fnan f
  | .inf s => finf f s
  | .num s m e => fround f rm sat s m e false

/-- Exact sum; −0 only from two negative zeros (spec/06 R153). -/
def fvAdd (a b : Fv) : Fv :=
  match a, b with
  | .nan, _ => .nan
  | _, .nan => .nan
  | .inf s, .inf t => if s = t then .inf s else .nan
  | .inf s, _ => .inf s
  | _, .inf t => .inf t
  | .num s m e, .num t n g =>
    let lo := if e ≤ g then e else g
    let x := m * 2 ^ (e - lo).toNat
    let y := n * 2 ^ (g - lo).toNat
    if s = t then .num s (x + y) lo
    else if y < x then .num s (x - y) lo
    else if x < y then .num t (y - x) lo
    else .num false 0 lo

/-- Exact product; 0 × ∞ is NaN (spec/06 R151). -/
def fvMul (a b : Fv) : Fv :=
  match a, b with
  | .nan, _ => .nan
  | _, .nan => .nan
  | .inf s, .inf t => .inf (s != t)
  | .inf s, .num t n _ => if n = 0 then .nan else .inf (s != t)
  | .num s m _, .inf t => if m = 0 then .nan else .inf (s != t)
  | .num s m e, .num t n g => .num (s != t) (m * n) (e + g)

/-- Negation. -/
def fvNeg (a : Fv) : Fv :=
  match a with
  | .nan => .nan
  | .inf s => .inf (!s)
  | .num s m e => .num (!s) m e

/-- Is the value zero? -/
def fvZero (a : Fv) : Bool :=
  match a with
  | .num _ m _ => m == 0
  | _ => false

/-- Order of two values that are not NaN: negative, zero or positive as `a` compares with `b`. -/
def fvCmp (a b : Fv) : Int :=
  match a, b with
  | .inf s, .inf t => (if s then -1 else 1) - (if t then -1 else 1)
  | .inf s, _ => if s then -1 else 1
  | _, .inf t => if t then 1 else -1
  | .num s m e, .num t n g =>
    let lo := if e ≤ g then e else g
    let x : Int := (m * 2 ^ (e - lo).toNat : Nat)
    let y : Int := (n * 2 ^ (g - lo).toNat : Nat)
    (if s then -x else x) - (if t then -y else y)
  | _, _ => 0

/-! ### fp32 -/

/-- The fp32 format. -/
def f32 : Fmt := ⟨8, 23, 127, .ieee⟩

/-- Value of an fp32 pattern. -/
def d32 (x : Nat) : Fv := fdec f32 x

/-- Round a value to fp32. -/
def e32 (v : Fv) : Nat := fenc f32 .rne false v

/-- fp32 addition. -/
def fadd (a b : Nat) : Nat := e32 (fvAdd (d32 a) (d32 b))

/-- fp32 subtraction. -/
def fsub (a b : Nat) : Nat := e32 (fvAdd (d32 a) (fvNeg (d32 b)))

/-- fp32 multiplication. -/
def fmul (a b : Nat) : Nat := e32 (fvMul (d32 a) (d32 b))

/-- fp32 fused multiply-add, one rounding. -/
def ffma (a b c : Nat) : Nat := e32 (fvAdd (fvMul (d32 a) (d32 b)) (d32 c))

/-- Maximum (or minimum) of two patterns of a format: a NaN gives the canonical NaN, +0 is greater
than −0 (spec/06 R153, R155). -/
def fmaxmin (f : Fmt) (mx : Bool) (a b : Nat) : Nat :=
  match fdec f a, fdec f b with
  | .nan, _ => fnan f
  | _, .nan => fnan f
  | x, y =>
    let c := fvCmp x y
    let aBig := if c = 0 then !bit a (f.eb + f.mb) else decide (0 < c)
    if aBig = mx then a else b

/-- Convert a pattern exactly or with one rounding to another format. -/
def fconv (src dst : Nat) (x : Nat) : Nat :=
  match fmtOf src, fmtOf dst with
  | some f, some g => fenc g .rne false (fdec f x)
  | _, _ => x

/-! ### Correctly rounded functions (spec/06 R467) -/

/-- Integer square root, bit by bit from bit `n − 1` down: the root found so far is `r`. -/
def isqrt (x : Nat) : Nat → Nat → Nat
  | 0, r => r
  | n + 1, r => if (r + 2 ^ n) * (r + 2 ^ n) ≤ x then isqrt x n (r + 2 ^ n) else isqrt x n r

/-- RCP. -/
def frcp (a : Nat) : Nat :=
  match d32 a with
  | .nan => fnan f32
  | .inf s => fsign f32 s
  | .num s m e =>
    if m = 0 then finf f32 s
    else
      let k := bitLen m + 40
      fround f32 .rne false s (2 ^ k / m) (-(k : Int) - e) (2 ^ k % m ≠ 0)

/-- SQRT. -/
def fsqrt (a : Nat) : Nat :=
  match d32 a with
  | .nan => fnan f32
  | .inf s => if s then fnan f32 else finf f32 false
  | .num s m e =>
    if m = 0 then fsign f32 s
    else if s then fnan f32
    else
      let m1 := if e % 2 = 0 then m else 2 * m
      let e1 := if e % 2 = 0 then e else e - 1
      let x := m1 * 2 ^ 60
      let r := isqrt x 45 0
      fround f32 .rne false false r (e1 / 2 - 30) (r * r ≠ x)

/-- RSQRT: one rounding of the exact reciprocal root. -/
def frsqrt (a : Nat) : Nat :=
  match d32 a with
  | .nan => fnan f32
  | .inf s => if s then fnan f32 else 0
  | .num s m e =>
    if m = 0 then finf f32 s
    else if s then fnan f32
    else
      let m1 := if e % 2 = 0 then m else 2 * m
      let e1 := if e % 2 = 0 then e else e - 1
      -- floor of 2^60 / sqrt m1, from floor of 2^120 / m1
      let y := 2 ^ 120 / m1
      let r := isqrt y 61 0
      fround f32 .rne false false r (-(e1 / 2) - 60) (r * r * m1 ≠ 2 ^ 120)

/-- log 2 (natural) in units of 2^-200. -/
def ln2 : Nat := 1113844574712631719546256151097547306333272293549090750737802

/-- Taylor sum of exp(y) − 1 on y in units of 2^-200: terms from `k` on, `t` the last term. -/
def expTaylor (y : Nat) : Nat → Nat → Nat → Nat
  | 0, _, _ => 0
  | n + 1, k, t => let t' := t * y / (2 ^ 200 * k); t' + expTaylor y n (k + 1) t'

/-- EXP2: 200 fraction bits decide every rounding. -/
def fexp2 (a : Nat) : Nat :=
  match d32 a with
  | .nan => fnan f32
  | .inf s => if s then 0 else finf f32 false
  | .num s m e =>
    let v : Int := if s then -(m : Int) else m
    -- whole part and fraction of v × 2^e
    let n : Int := if 0 ≤ e then v * 2 ^ e.toNat else v / 2 ^ (-e).toNat
    let fr : Nat := if 0 ≤ e then 0 else (v % 2 ^ (-e).toNat).toNat
    if 128 ≤ n then finf f32 false
    else if n < -152 then 0
    else if fr = 0 then fround f32 .rne false false 1 n false
    else
      let fx := fr * 2 ^ 200 / 2 ^ (-e).toNat
      let y := fx * ln2 / 2 ^ 200
      fround f32 .rne false false (2 ^ 200 + expTaylor y 60 1 (2 ^ 200)) (n - 200) true

/-- `n` binary digits of log2 of M × 2^-300, M between 2^300 and 2^301. -/
def log2Digits : Nat → Nat → Nat → Nat
  | 0, _, acc => acc
  | n + 1, M, acc =>
    let q := M * M / 2 ^ 300
    if 2 ^ 301 ≤ q then log2Digits n (q / 2) (2 * acc + 1) else log2Digits n q (2 * acc)

/-- LOG2: 120 fraction bits decide every rounding. -/
def flog2 (a : Nat) : Nat :=
  match d32 a with
  | .nan => fnan f32
  | .inf s => if s then fnan f32 else finf f32 false
  | .num s m e =>
    if m = 0 then finf f32 true
    else if s then fnan f32
    else
      let l := bitLen m - 1
      let k : Int := e + l
      if m = 2 ^ l then fround f32 .rne false (decide (k < 0)) k.natAbs 0 false
      else
        let d := log2Digits 120 (m * 2 ^ (300 - l)) 0
        let v : Int := k * 2 ^ 120 + d
        if 0 ≤ v then fround f32 .rne false false v.toNat (-120) true
        else fround f32 .rne false true ((-v).toNat - 1) (-120) true

/-! ### Reduction arithmetic (spec/06 R154–R159) -/

/-- Operation codes of COLL_CREATE (spec/07 Table 07-2). -/
abbrev opSum := 0
abbrev opBcast := 6
abbrev opBarrier := 7
abbrev opRub := 8

/-- How a context accumulates: fp32, two's complement, EXACT, or its input format. -/
inductive AccKind where
  | fp32 | int | exact | same
deriving DecidableEq, Repr

/-- Accumulation of an operation, mode and input type (Table 06-4). -/
def accKind (op mode it : Nat) : AccKind :=
  if op = 0 ∨ op = 8 then
    if it = 5 ∨ it = 6 then .int else if mode = 2 then .exact else .fp32
  else .same

/-- Is the EXACT accumulator wide (fp32 and bf16 inputs)? -/
def exactWide (it : Nat) : Bool := it == 0 || it == 1

/-- Value bits of an EXACT accumulator; its flags NANF, PINF, NINF, POSZ stand from bit 3 down above
the value (spec/06 R159). -/
def exactBits (it : Nat) : Nat := if exactWide it then 316 else 60

/-- Exponent of the accumulator's least significant bit. -/
def exactLsb (it : Nat) : Int := if exactWide it then -149 else -24

/-- Add one input pattern into an EXACT accumulator. -/
def exactAdd (it acc x : Nat) : Nat :=
  match fmtOf it with
  | none => acc
  | some f =>
    let w := exactBits it
    let v := fdec f x
    let negZero := v == .num true 0 (1 - f.bias - f.mb)
    let fl := acc / 2 ^ w
    let fl := match v with
      | .nan => setBit fl 3
      | .inf s => setBit (if s then setBit fl 1 else setBit fl 2) 0
      | .num _ _ _ => if negZero then fl else setBit fl 0
    let fl := if v == .nan then setBit fl 0 else fl
    let add : Int := match v with
      | .num s m e =>
        let k : Int := (m * 2 ^ (e - exactLsb it).toNat : Nat)
        if s then -k else k
      | _ => 0
    fl * 2 ^ w + ofInt w (sx w (acc % 2 ^ w) + add)

/-- Add two EXACT accumulators. -/
def exactMerge (it a b : Nat) : Nat :=
  let w := exactBits it
  (a / 2 ^ w ||| b / 2 ^ w) * 2 ^ w + (a % 2 ^ w + b % 2 ^ w) % 2 ^ w

/-- Result of an EXACT accumulator in an output format. -/
def exactResult (it acc : Nat) (g : Fmt) : Nat :=
  let w := exactBits it
  let fl := acc / 2 ^ w
  if bit fl 3 ∨ (bit fl 2 ∧ bit fl 1) then fnan g
  else if bit fl 2 then finf g false
  else if bit fl 1 then finf g true
  else
    let v := sx w (acc % 2 ^ w)
    if v = 0 then fsign g (!bit fl 0)
    else fround g .rne false (decide (v < 0)) v.natAbs (exactLsb it) false

/-- Combine two values of the accumulation format under an operation. -/
def accCombine (op mode it a b : Nat) : Nat :=
  match accKind op mode it with
  | .fp32 => fadd a b
  | .int => (a + b) % 2 ^ typeBits it
  | .exact => exactMerge it a b
  | .same =>
    match op with
    | 1 | 2 =>
      match fmtOf it with
      | some f => fmaxmin f (op == 1) a b
      | none =>
        let w := typeBits it
        if (decide (sx w b ≤ sx w a)) = (op == 1) then a else b
    | 3 => a &&& b
    | 4 => a ||| b
    | 5 => a ^^^ b
    | _ => a

/-- One input element in the accumulation format. -/
def accInput (op mode it x : Nat) : Nat :=
  match accKind op mode it with
  | .fp32 => fconv it 0 x
  | .exact => exactAdd it 0 x
  | .same =>
    -- MAX and MIN give the canonical NaN for a NaN (R155)
    match fmtOf it with
    | some f => if (op = 1 ∨ op = 2) ∧ fdec f x = .nan then fnan f else x
    | none => x
  | .int => x

/-- One accumulated element in the output format. -/
def accOutput (op mode it ot a : Nat) : Nat :=
  match accKind op mode it with
  | .fp32 => fconv 0 ot a
  | .exact =>
    match fmtOf ot with
    | some g => exactResult it a g
    | none => a
  | _ => a

/-- Bytes of an element of the accumulation format (Table 06-2). -/
def accBytes (op mode it : Nat) : Nat :=
  match accKind op mode it with
  | .fp32 => 4
  | .int => typeBytes it
  | .exact => if exactWide it then 40 else 8
  | .same => if op = 7 then 0 else typeBytes it

/-! ### Packed elements -/

/-- `n` little-endian elements of `w` bytes from a byte list. -/
def elemsOf (w : Nat) (bs : List Byte) : Nat → List Nat
  | 0 => []
  | n + 1 => leVal (slice bs 0 w) :: elemsOf w (bs.drop w) n

/-- Little-endian bytes of elements of `w` bytes. -/
def bytesOf (w : Nat) (vs : List Nat) : List Byte := (vs.map (leBytes w)).flatten

end Sys2Proof.Machine
end

