-- ==== Sys2Proof/Config.lean ====
section
/-! DEFINITION. What one device fixes or the spec leaves open: opaque constants, so that no proof
can see a value.  `n` is a counter of the state that each use advances. -/
namespace Sys2Proof.Config

/-- LOAD of an event record whose DIE is 0xFF: the spec names no die whose mesh links it is the mean of (spec/14 R361);
the machine caps it at 100. Log entry 9. -/
opaque freeLoad : Nat → Nat

/-- Codewords that the reads of a wear-levelling move find other than clean (spec/10 R270, R272). Log entry 135. -/
opaque freeReads : Nat → List CwRead

/-- Entries of the least filled feeder queue of a core's engine in a TIME cycle: cycle, core, engine (spec/17 Table 17-1); the
machine caps it at 16. Log entry 71. -/
opaque feederDepth : Nat → Nat → Nat → Nat

/-- TEMP of an event record whose DIE is 0xFF: the spec names no die to read it from
(spec/14 R361). Log entry 9. -/
opaque freeTemp : Nat → BitVec 8

/-- The 256-bit per-unit management key held in fuses (spec/14 R365). -/
opaque mgmtKey : List Byte

/-- SHA-384 of the accepted firmware key, held in fuses (spec/14 R369). -/
opaque fusedKeyHash : List Byte

/-- ID_SERIAL, ID_REV stepping and TLR_SVN.MIN as the fuses of the unit hold them (spec/01 R26). -/
opaque fuseSerial : BitVec 64

/-- Stepping letter and digit of the unit, as ID_REV[15:0] (spec/01 R27). -/
opaque fuseStepping : BitVec 16

/-- Minimum SVN in the fuses of a fresh unit (spec/14 R373). -/
opaque fuseSvnMin : BitVec 16

/-- MAC addresses of the frames that the device makes (spec/07 R190): not stated. Log entry 42. -/
opaque ownDmac : BitVec 48

/-- Source MAC address of those frames. -/
opaque ownSmac : BitVec 48

/-- A 32-bit value that the spec leaves open. -/
opaque freeWord : Nat → BitVec 32

/-- A byte that the spec leaves open. -/
opaque freeByte : Nat → BitVec 8

/-- A choice that the spec leaves open. -/
opaque freeBool : Nat → Bool

/-- ORTHO's iteration count, 1 to 8, for an H12 that is no whole number (spec/08 R211). Log entry 43. -/
opaque orthoIter : BitVec 32 → Nat

/-- Does the LDPC decoder recover a codeword with this many wrong bits (spec/10 R270)? Log entry 44. -/
opaque ldpcCorrects : Nat → Bool

/-- Bytes of an exported image whose layout the spec does not give (spec/10 R275). Log entry 44. -/
opaque imageBytes : Nat → Nat → List Byte

/-- The number by which BOLT_CACHE_BAD names a record (spec/10 R283). Log entry 44. -/
opaque boltRecCode : Nat → BitVec 8

/-- The mesh header of a frame, and what fills the flits of anything else in the mesh (spec/03, The mesh): no
layout is stated. Log entry 98. -/
opaque meshHeader : Nat → List Byte

/-- The frame check sequence of a frame's bytes: its polynomial is not stated. Log entry 98. -/
opaque frameFcs : List Byte → BitVec 32

/-- Column, within its die's four, of the memory-edge router that a stack is attached to: not stated. Log entry 99. -/
opaque stackColumn : Nat → BitVec 2

/-- The cause code that RING_RESWEEP carries, by the row of Table 12-3 (spec/12 R315). Log entry 46. -/
opaque resweepCode : Nat → BitVec 8

end Sys2Proof.Config
end

