-- ==== Sys2Proof/Machine/RegMap.lean ====
section
/-! DEFINITION. The register map: every register of BAR0 with its offset, its instances, the
fields with their access types and reset values, and its lock bit, as the register tables of
spec/01 to spec/17 give them. -/
namespace Sys2Proof.Machine

/-- Register access types (spec/00 R7, Table 00-2). -/
inductive Acc where
  | rw | ro | wo | w1c | w1s | rwl
deriving DecidableEq, Repr

/-- A field: its bits, its access type and its reset value. -/
structure Fld where
  msb : Nat
  lsb : Nat
  acc : Acc
  reset : Nat
deriving DecidableEq, Repr

/-- A register of the map.  `dims` lists count and stride of its instances, the widest stride
first; `lock` gives the offset of the block's lock register for the first instance and how many
leading dimensions choose it; `shared` says that the register exists once for all four dies (R64). -/
structure RegRow where
  base : Nat
  dims : List (Nat × Nat)
  flds : List Fld
  lock : Option (Nat × Nat)
  shared : Bool
deriving DecidableEq, Repr

/-- The registers, by their names in the spec. -/
inductive Reg where
  | idDev | idRev | idSerialLo | idSerialHi | idConfig | idConfig2 | idSpare | idFw | idStatus
  | fwdEtype | fwdEmCtl | fwdEmSeed0 | fwdEmSeed1 | fwdAgeCtl | fwdEpoch | fwdEpochCtl
  | fwdScrubCtl | fwdScrubBaseLo | fwdScrubBaseHi | fwdEmCount | fwdStatus | swTileCtl | swCtMap
  | swShr | swLcf | swStatus | swRsv | swPcap | meshCtl | seamRepairCtl | meshStatus | seamState
  | rtPort | rtBundleCtl | rtBundleMem | rtCtl | rtOrdSeed | rtStatus | meshBcastCtl | mirCtl
  | mirFlowP | mirFlowSrc | mirFlowDst | mirMaxcells | polCmd | polData0 | polData1 | polData2
  | polCntGLo | polCntGHi | polCntYLo | polCntYHi | polCntRLo | polCntRHi | polCtl | polStatus
  | shpC0 | shpC1 | shpC2 | shpPort | schWeight | shpStatus | rcCoreState | rcCoreStateSpare
  | rcStatus | clCtl | clBob | clStatus | preCtl | preStatus | ovlCtl | ovlRate | ovlSeed
  | collCtl | collSelf | collMemBaseLo | collMemBaseHi | collMemSize | collSpill | collCred
  | collLive | collMemUsed | collStatus | optCtl | optMemBaseLo | optMemBaseHi | optMemSize
  | optLive | optMemUsed | optStatus | memCtl | memHashSeed | memQctl | memTherm | memScrub
  | memTrain | memStatus | memPoisonAddrLo | memPoisonAddrHi | memStkState | memStkQocc
  | memStkSpareLo | memStkSpareHi | memStkPend | boltCtl | boltState | boltWl | boltScrub
  | boltRd | boltSpareCnt | boltBands | boltStatus | lnPort | lnTileStatus | lnThresh | lnState
  | lnCtl | lnQuiet | lnFom | lnSpare | lnStatus | lnTapsLo | lnTapsHi | oeCtl | oeFf | oeLos
  | oeTemp | oeStatus | oeTxring | oeRxring | oeRxpwr | oeThim | oeFeed | elsState | elsSerialLo
  | elsSerialHi | elsBias | elsCtl | elsStatus | thimCtl | timeCtl | timeSwitchAt | timePpsCtl
  | timeStatus | timeIncLo | timeIncHi | timeNowLo | timeNowHi | timeSetLo | timeSetHi | timeAdj
  | timePpsCap0Lo | timePpsCap0Hi | timePpsCap1Lo | timePpsCap1Hi | timeTsqData | timeTsqCtl
  | ringBaseLo | ringBaseHi | ringCtl | ringProdCmd | ringProdDev | ringConsCmd | ringConsDev
  | ringWbLo | ringWbHi | ringMod | hifCtl | hifStatus | tlrBootAddrLo | tlrBootAddrHi
  | tlrBootLen | tlrBootCtl | tlrState | tlrSvn | mgmtCtl | mgmtPeerLo | mgmtPeerHi | tblWinDesc
  | tblWinCtl | tblWinCpl | rstCtl | rstCause | sysStatus | clkRefCtl | clkRefStatus | pwrCtl
  | pwrDepth | pwrTol | pwrDomState | thmCtl | thmDie | thmTrip | relCtl | relStatus | relFault
  | relSpareMap | relCoal | relOvl | relPatrolCtl | relPatrolStatus | relSusp | relInjCtl
  | relInjSel | relInjArg | relLogCtl | relLogData | pmcSelTile | pmcSelCore | pmcSelStack
  | pmcSelDie | pmcCtl | pmcPeriod | pmcFreeze | pmcFreezeAt | pmcMask | pmcNrec | pmcSeq
  | pmcStatus | swatchCtl | swatchSeed | msixAddrData | msixCtl | msixPba
deriving DecidableEq, Repr

/-- Shorthand for a field. -/
def fl (m l : Nat) (a : Acc) (r : Nat) : Fld := ⟨m, l, a, r⟩

/-- The row of each register. -/
def regRow : Reg → RegRow
  -- spec/01_architecture.md R27
  | .idDev => ⟨0, [], [fl 31 16 .ro 0x5124, fl 15 0 .ro 0x1E9B],
      none, false⟩
  | .idRev => ⟨4, [], [fl 23 16 .ro 1, fl 15 8 .ro 0, fl 7 0 .ro 0],
      none, false⟩
  | .idSerialLo => ⟨8, [], [fl 31 0 .ro 0],
      none, false⟩
  | .idSerialHi => ⟨0xC, [], [fl 31 0 .ro 0],
      none, false⟩
  | .idConfig => ⟨0x10, [], [fl 27 24 .ro 8, fl 23 16 .ro 0x40, fl 15 8 .ro 0x40, fl 3 0 .ro 4],
      none, false⟩
  | .idConfig2 => ⟨0x14, [], [fl 23 16 .ro 0x30, fl 12 8 .ro 0x10, fl 7 4 .ro 8, fl 3 0 .ro 0xC],
      none, false⟩
  | .idSpare => ⟨0x18, [], [fl 7 0 .ro 0],
      none, false⟩
  | .idFw => ⟨0x1C, [], [fl 31 24 .ro 0, fl 23 16 .ro 0, fl 15 0 .ro 0],
      none, false⟩
  | .idStatus => ⟨0x20, [], [fl 4 4 .ro 0, fl 3 0 .ro 0],
      none, false⟩
  -- spec/02_frames_and_tables.md R64
  | .fwdEtype => ⟨0xC00000, [], [fl 15 0 .rwl 0x9C4E],
      some (0xC00004, 0), true⟩
  | .fwdEmCtl => ⟨0xC00004, [], [fl 31 31 .w1s 0, fl 15 8 .rw 0x10, fl 1 1 .rw 1, fl 0 0 .rw 1],
      some (0xC00004, 0), true⟩
  | .fwdEmSeed0 => ⟨0xC00008, [], [fl 31 0 .rwl 0],
      some (0xC00004, 0), true⟩
  | .fwdEmSeed1 => ⟨0xC0000C, [], [fl 31 0 .rwl 0xFFFFFFFF],
      some (0xC00004, 0), true⟩
  | .fwdAgeCtl => ⟨0xC00010, [], [fl 23 0 .rw 0xF4240],
      some (0xC00004, 0), true⟩
  | .fwdEpoch => ⟨0xC00014, [], [fl 31 0 .ro 0],
      some (0xC00004, 0), true⟩
  | .fwdEpochCtl => ⟨0xC00018, [], [fl 30 16 .ro 0, fl 1 1 .ro 0, fl 0 0 .wo 0],
      some (0xC00004, 0), true⟩
  | .fwdScrubCtl => ⟨0xC00020, [], [fl 23 8 .rw 0x40, fl 2 2 .rw 0, fl 1 1 .rw 0, fl 0 0 .rw 0],
      some (0xC00004, 0), true⟩
  | .fwdScrubBaseLo => ⟨0xC00024, [], [fl 31 12 .rw 0],
      some (0xC00004, 0), true⟩
  | .fwdScrubBaseHi => ⟨0xC00028, [], [fl 31 0 .rw 0],
      some (0xC00004, 0), true⟩
  | .fwdEmCount => ⟨0xC00030, [], [fl 18 0 .ro 0],
      some (0xC00004, 0), true⟩
  | .fwdStatus => ⟨0xC00034, [], [fl 13 0 .w1c 0],
      some (0xC00004, 0), true⟩
  -- spec/03_switch_core_and_mesh.md R93
  | .swTileCtl => ⟨0x802000, [(4, 0x800000), (16, 0x10000)], [fl 31 31 .w1s 0, fl 3 0 .rw 4],
      some (0x802000, 2), false⟩
  | .swCtMap => ⟨0x802004, [(4, 0x800000), (16, 0x10000)], [fl 31 0 .rw 0xFFFFFFFF],
      some (0x802000, 2), false⟩
  | .swShr => ⟨0x802008, [(4, 0x800000), (16, 0x10000)], [fl 26 24 .rw 4, fl 14 0 .ro 0x49F8],
      some (0x802000, 2), false⟩
  | .swLcf => ⟨0x80200C, [(4, 0x800000), (16, 0x10000)], [fl 31 16 .rwl 0x9C4F, fl 15 8 .rw 0x20, fl 7 0 .rw 0x14],
      some (0x802000, 2), false⟩
  | .swStatus => ⟨0x802010, [(4, 0x800000), (16, 0x10000)], [fl 7 0 .w1c 0],
      some (0x802000, 2), false⟩
  | .swRsv => ⟨0x802100, [(4, 0x800000), (16, 0x10000), (8, 0x20), (8, 4)], [fl 11 0 .rwl 0x30],
      some (0x802000, 2), false⟩
  | .swPcap => ⟨0xB00000, [(4, 0x800000)], [fl 18 0 .rw 0x57000],
      some (0xB00004, 1), false⟩
  | .meshCtl => ⟨0xB00004, [(4, 0x800000)], [fl 31 31 .w1s 0, fl 7 0 .rwl 0x40],
      some (0xB00004, 1), false⟩
  | .seamRepairCtl => ⟨0xB00008, [(4, 0x800000)], [fl 31 16 .rw 0x3E8, fl 7 0 .rw 4],
      some (0xB00004, 1), false⟩
  | .meshStatus => ⟨0xB0000C, [(4, 0x800000)], [fl 3 0 .w1c 0],
      some (0xB00004, 1), false⟩
  | .seamState => ⟨0xB00100, [(4, 0x800000), (16, 4)], [fl 5 4 .ro 0, fl 3 0 .ro 0],
      some (0xB00004, 1), false⟩
  -- spec/04_routing_and_ordering.md R123
  | .rtPort => ⟨0x804000, [(4, 0x800000), (16, 0x10000), (8, 4)], [fl 30 28 .rw 0, fl 27 26 .rw 0, fl 24 24 .rw 0, fl 23 16 .rw 0],
      none, false⟩
  | .rtBundleCtl => ⟨0xC02000, [(256, 4)], [fl 31 31 .rw 0, fl 15 8 .rw 0, fl 6 0 .ro 0],
      some (0xC02400, 0), true⟩
  | .rtBundleMem => ⟨0xC08000, [(256, 0x80), (32, 4)], [fl 31 31 .ro 0, fl 24 16 .ro 0, fl 15 15 .ro 0, fl 8 0 .ro 0],
      some (0xC02400, 0), true⟩
  | .rtCtl => ⟨0xC02400, [], [fl 31 31 .w1s 0, fl 15 8 .rwl 0x40, fl 7 0 .rwl 0x40],
      some (0xC02400, 0), true⟩
  | .rtOrdSeed => ⟨0xC02404, [], [fl 31 0 .rwl 0],
      some (0xC02400, 0), true⟩
  | .rtStatus => ⟨0xC02408, [], [fl 7 0 .w1c 0],
      some (0xC02400, 0), true⟩
  | .meshBcastCtl => ⟨0xB00010, [(4, 0x800000)], [fl 1 0 .rw 1],
      some (0xB00004, 1), false⟩
  | .mirCtl => ⟨0xC02800, [(16, 0x20)], [fl 31 31 .rw 0, fl 30 30 .rw 0, fl 29 28 .rw 0, fl 27 25 .rw 7, fl 17 9 .rw 0, fl 8 0 .rw 0],
      some (0xC02400, 0), true⟩
  | .mirFlowP => ⟨0xC02804, [(16, 0x20)], [fl 31 31 .rw 0, fl 30 30 .rw 0, fl 11 0 .rw 0],
      some (0xC02400, 0), true⟩
  | .mirFlowSrc => ⟨0xC02808, [(16, 0x20)], [fl 23 0 .rw 0],
      some (0xC02400, 0), true⟩
  | .mirFlowDst => ⟨0xC0280C, [(16, 0x20)], [fl 23 0 .rw 0],
      some (0xC02400, 0), true⟩
  | .mirMaxcells => ⟨0xC02810, [(16, 0x20)], [fl 15 0 .rw 0x108],
      some (0xC02400, 0), true⟩
  -- spec/05_policing_and_shaping.md R137
  | .polCmd => ⟨0xC03000, [], [fl 31 31 .ro 0, fl 17 17 .wo 0, fl 16 16 .wo 0, fl 13 0 .wo 0],
      some (0xC03028, 0), true⟩
  | .polData0 => ⟨0xC03004, [], [fl 31 31 .rw 0, fl 30 30 .rw 0, fl 27 26 .rw 0, fl 25 24 .rw 0, fl 23 0 .rw 0],
      some (0xC03028, 0), true⟩
  | .polData1 => ⟨0xC03008, [], [fl 23 0 .rw 0],
      some (0xC03028, 0), true⟩
  | .polData2 => ⟨0xC0300C, [], [fl 31 16 .rw 0, fl 15 0 .rw 0],
      some (0xC03028, 0), true⟩
  | .polCntGLo => ⟨0xC03010, [(4, 0x800000)], [fl 31 0 .ro 0],
      some (0xC03028, 0), false⟩
  | .polCntGHi => ⟨0xC03014, [(4, 0x800000)], [fl 31 0 .ro 0],
      some (0xC03028, 0), false⟩
  | .polCntYLo => ⟨0xC03018, [(4, 0x800000)], [fl 31 0 .ro 0],
      some (0xC03028, 0), false⟩
  | .polCntYHi => ⟨0xC0301C, [(4, 0x800000)], [fl 31 0 .ro 0],
      some (0xC03028, 0), false⟩
  | .polCntRLo => ⟨0xC03020, [(4, 0x800000)], [fl 31 0 .ro 0],
      some (0xC03028, 0), false⟩
  | .polCntRHi => ⟨0xC03024, [(4, 0x800000)], [fl 31 0 .ro 0],
      some (0xC03028, 0), false⟩
  | .polCtl => ⟨0xC03028, [], [fl 31 31 .w1s 0, fl 6 0 .rwl 0x14],
      some (0xC03028, 0), true⟩
  | .polStatus => ⟨0xC0302C, [], [fl 1 0 .w1c 0],
      some (0xC03028, 0), true⟩
  -- spec/05_policing_and_shaping.md R138
  | .shpC0 => ⟨0x805000, [(4, 0x800000), (16, 0x10000), (32, 0x10)], [fl 31 31 .rw 0, fl 23 0 .rw 0],
      none, false⟩
  | .shpC1 => ⟨0x805004, [(4, 0x800000), (16, 0x10000), (32, 0x10)], [fl 23 0 .rw 0],
      none, false⟩
  | .shpC2 => ⟨0x805008, [(4, 0x800000), (16, 0x10000), (32, 0x10)], [fl 31 16 .rw 0, fl 15 0 .rw 0],
      none, false⟩
  | .shpPort => ⟨0x805400, [(4, 0x800000), (16, 0x10000), (8, 4)], [fl 6 0 .rw 0x14],
      none, false⟩
  | .schWeight => ⟨0x805600, [(4, 0x800000), (16, 0x10000), (8, 4)], [fl 23 0 .rw 0x111111],
      none, false⟩
  | .shpStatus => ⟨0x805700, [(4, 0x800000), (16, 0x10000)], [fl 0 0 .w1c 0],
      none, false⟩
  -- spec/06_reduction_cores.md R171
  | .rcCoreState => ⟨0xA00000, [(4, 0x800000), (2, 0x40000), (8, 0x4000)], [fl 2 0 .ro 1],
      some (0xA30000, 2), false⟩
  | .rcCoreStateSpare => ⟨0xA20000, [(4, 0x800000), (2, 0x40000)], [fl 2 0 .ro 0],
      some (0xA30000, 2), false⟩
  | .rcStatus => ⟨0xA00004, [(4, 0x800000), (2, 0x40000), (9, 0x4000)], [fl 3 0 .w1c 0],
      some (0xA30000, 2), false⟩
  | .clCtl => ⟨0xA30000, [(4, 0x800000), (2, 0x40000)], [fl 31 31 .w1s 0],
      some (0xA30000, 2), false⟩
  | .clBob => ⟨0xA30004, [(4, 0x800000), (2, 0x40000)], [fl 8 0 .rwl 0x80],
      some (0xA30000, 2), false⟩
  | .clStatus => ⟨0xA30008, [(4, 0x800000), (2, 0x40000)], [fl 0 0 .w1c 0],
      some (0xA30000, 2), false⟩
  | .preCtl => ⟨0x806000, [(4, 0x800000), (16, 0x10000)], [fl 31 31 .rw 0, fl 30 30 .ro 0, fl 15 0 .rw 0x400],
      none, false⟩
  | .preStatus => ⟨0x806004, [(4, 0x800000), (16, 0x10000)], [fl 0 0 .w1c 0],
      none, false⟩
  | .ovlCtl => ⟨0x700100, [], [fl 0 0 .rw 1],
      some (0x700000, 0), false⟩
  | .ovlRate => ⟨0x700104, [], [fl 15 12 .rw 2, fl 11 8 .rw 4, fl 7 4 .rw 5, fl 3 0 .rw 6],
      some (0x700000, 0), false⟩
  | .ovlSeed => ⟨0x700108, [], [fl 31 0 .rw 0],
      some (0x700000, 0), false⟩
  -- spec/07_collectives.md R202
  | .collCtl => ⟨0xC04000, [], [fl 31 31 .w1s 0, fl 19 0 .rwl 0x3E8],
      some (0xC04000, 0), true⟩
  | .collSelf => ⟨0xC04004, [], [fl 23 0 .rwl 0],
      some (0xC04000, 0), true⟩
  | .collMemBaseLo => ⟨0xC04008, [], [fl 31 20 .rwl 0],
      some (0xC04000, 0), true⟩
  | .collMemBaseHi => ⟨0xC0400C, [], [fl 31 0 .rwl 0],
      some (0xC04000, 0), true⟩
  | .collMemSize => ⟨0xC04010, [], [fl 15 0 .rwl 0],
      some (0xC04000, 0), true⟩
  | .collSpill => ⟨0xC04014, [], [fl 7 0 .rw 8],
      some (0xC04000, 0), true⟩
  | .collCred => ⟨0xC04018, [], [fl 15 8 .rw 4, fl 7 0 .rw 0xA],
      some (0xC04000, 0), true⟩
  | .collLive => ⟨0xC0401C, [], [fl 14 0 .ro 0],
      some (0xC04000, 0), true⟩
  | .collMemUsed => ⟨0xC04020, [], [fl 15 0 .ro 0],
      some (0xC04000, 0), true⟩
  | .collStatus => ⟨0xC04024, [], [fl 4 0 .w1c 0],
      some (0xC04000, 0), true⟩
  -- spec/08_fabric_optimizer.md R241
  | .optCtl => ⟨0xC05000, [], [fl 31 31 .w1s 0, fl 19 0 .rwl 0x186A0],
      some (0xC05000, 0), true⟩
  | .optMemBaseLo => ⟨0xC05004, [], [fl 31 30 .rwl 0],
      some (0xC05000, 0), true⟩
  | .optMemBaseHi => ⟨0xC05008, [], [fl 31 0 .rwl 0],
      some (0xC05000, 0), true⟩
  | .optMemSize => ⟨0xC0500C, [], [fl 9 0 .rwl 0],
      some (0xC05000, 0), true⟩
  | .optLive => ⟨0xC05010, [], [fl 13 0 .ro 0],
      some (0xC05000, 0), true⟩
  | .optMemUsed => ⟨0xC05014, [], [fl 19 0 .ro 0],
      some (0xC05000, 0), true⟩
  | .optStatus => ⟨0xC05018, [], [fl 5 0 .w1c 0],
      some (0xC05000, 0), true⟩
  -- spec/09_stacked_memory.md R266
  | .memCtl => ⟨0x2CC0000, [], [fl 31 31 .w1s 0, fl 0 0 .rw 1],
      some (0x2CC0000, 0), false⟩
  | .memHashSeed => ⟨0x2CC0004, [], [fl 31 0 .rwl 0],
      some (0x2CC0000, 0), false⟩
  | .memQctl => ⟨0x2CC0008, [], [fl 5 0 .rw 0x30],
      some (0x2CC0000, 0), false⟩
  | .memTherm => ⟨0x2CC000C, [], [fl 7 0 .rw 0x58],
      some (0x2CC0000, 0), false⟩
  | .memScrub => ⟨0x2CC0010, [], [fl 15 0 .rw 0x40],
      some (0x2CC0000, 0), false⟩
  | .memTrain => ⟨0x2CC0014, [], [fl 27 16 .ro 0, fl 11 0 .ro 0],
      some (0x2CC0000, 0), false⟩
  | .memStatus => ⟨0x2CC0018, [], [fl 6 0 .w1c 0],
      some (0x2CC0000, 0), false⟩
  | .memPoisonAddrLo => ⟨0x2CC0020, [], [fl 31 6 .ro 0],
      some (0x2CC0000, 0), false⟩
  | .memPoisonAddrHi => ⟨0x2CC0024, [], [fl 7 0 .ro 0],
      some (0x2CC0000, 0), false⟩
  | .memStkState => ⟨0x2C00000, [(12, 0x10000)], [fl 23 16 .ro 0, fl 9 8 .ro 0, fl 4 4 .ro 0, fl 1 0 .ro 0],
      some (0x2CC0000, 0), false⟩
  | .memStkQocc => ⟨0x2C00004, [(12, 0x10000)], [fl 5 0 .ro 0],
      some (0x2CC0000, 0), false⟩
  | .memStkSpareLo => ⟨0x2C00008, [(12, 0x10000)], [fl 31 0 .ro 0],
      some (0x2CC0000, 0), false⟩
  | .memStkSpareHi => ⟨0x2C0000C, [(12, 0x10000)], [fl 31 0 .ro 0],
      some (0x2CC0000, 0), false⟩
  | .memStkPend => ⟨0x2C00010, [(12, 0x10000)], [fl 31 0 .ro 0],
      some (0x2CC0000, 0), false⟩
  -- spec/10_bolt_store.md R286
  | .boltCtl => ⟨0x2E00000, [], [fl 31 31 .w1s 0, fl 0 0 .rw 1],
      some (0x2E00000, 0), false⟩
  | .boltState => ⟨0x2E00004, [], [fl 2 0 .ro 0],
      some (0x2E00000, 0), false⟩
  | .boltWl => ⟨0x2E00008, [], [fl 15 0 .rwl 0x3E8],
      some (0x2E00000, 0), false⟩
  | .boltScrub => ⟨0x2E0000C, [], [fl 7 0 .rwl 0x18],
      some (0x2E00000, 0), false⟩
  | .boltRd => ⟨0x2E00010, [], [fl 15 0 .rwl 0x64],
      some (0x2E00000, 0), false⟩
  | .boltSpareCnt => ⟨0x2E00014, [], [fl 8 0 .ro 0],
      some (0x2E00000, 0), false⟩
  | .boltBands => ⟨0x2E00018, [], [fl 28 16 .ro 0, fl 12 0 .ro 0],
      some (0x2E00000, 0), false⟩
  | .boltStatus => ⟨0x2E0001C, [], [fl 7 0 .w1c 0],
      some (0x2E00000, 0), false⟩
  -- spec/11_serial_lanes.md R308
  | .lnPort => ⟨0x800800, [(4, 0x800000), (16, 0x10000)], [fl 31 31 .w1s 0, fl 15 0 .rwl 0],
      some (0x800800, 2), false⟩
  | .lnTileStatus => ⟨0x800804, [(4, 0x800000), (16, 0x10000)], [fl 0 0 .w1c 0],
      some (0x800800, 2), false⟩
  | .lnThresh => ⟨0x800808, [(4, 0x800000), (16, 0x10000)], [fl 31 24 .rw 0x80, fl 23 16 .rw 0x60, fl 15 8 .rw 0x40, fl 7 0 .rw 0x40],
      some (0x800800, 2), false⟩
  | .lnState => ⟨0x800000, [(4, 0x800000), (16, 0x10000), (8, 0x100)], [fl 11 8 .ro 0, fl 3 3 .ro 0, fl 2 0 .ro 0],
      some (0x800800, 2), false⟩
  | .lnCtl => ⟨0x800004, [(4, 0x800000), (16, 0x10000), (8, 0x100)], [fl 31 31 .wo 0, fl 30 30 .ro 0, fl 15 8 .rw 0x40, fl 7 0 .rw 0],
      some (0x800800, 2), false⟩
  | .lnQuiet => ⟨0x800008, [(4, 0x800000), (16, 0x10000), (8, 0x100)], [fl 31 31 .rw 0, fl 30 30 .rw 0, fl 19 0 .rw 0x2710],
      some (0x800800, 2), false⟩
  | .lnFom => ⟨0x80000C, [(4, 0x800000), (16, 0x10000), (8, 0x100)], [fl 31 0 .ro 0],
      some (0x800800, 2), false⟩
  | .lnSpare => ⟨0x800010, [(4, 0x800000), (16, 0x10000), (8, 0x100)], [fl 7 4 .ro 0, fl 3 0 .ro 0],
      some (0x800800, 2), false⟩
  | .lnStatus => ⟨0x800014, [(4, 0x800000), (16, 0x10000), (8, 0x100)], [fl 3 0 .w1c 0],
      some (0x800800, 2), false⟩
  | .lnTapsLo => ⟨0x800020, [(4, 0x800000), (16, 0x10000), (8, 0x100), (5, 8)], [fl 31 0 .ro 0],
      some (0x800800, 2), false⟩
  | .lnTapsHi => ⟨0x800024, [(4, 0x800000), (16, 0x10000), (8, 0x100), (5, 8)], [fl 31 0 .ro 0],
      some (0x800800, 2), false⟩
  -- spec/12_optical_engines.md R330
  | .oeCtl => ⟨0x2800000, [(16, 0x20000)], [fl 31 31 .w1s 0, fl 23 16 .rwl 0x32, fl 15 0 .rwl 0x190],
      some (0x2800000, 1), false⟩
  | .oeFf => ⟨0x2800004, [(16, 0x20000)], [fl 15 0 .rwl 0x50],
      some (0x2800000, 1), false⟩
  | .oeLos => ⟨0x2800008, [(16, 0x20000)], [fl 23 16 .rw 0x14, fl 15 0 .rw 0xFF74],
      some (0x2800000, 1), false⟩
  | .oeTemp => ⟨0x280000C, [(16, 0x20000)], [fl 31 0 .ro 0],
      some (0x2800000, 1), false⟩
  | .oeStatus => ⟨0x2800010, [(16, 0x20000)], [fl 3 0 .w1c 0],
      some (0x2800000, 1), false⟩
  | .oeTxring => ⟨0x2801000, [(16, 0x20000), (144, 4)], [fl 31 29 .ro 0, fl 15 0 .ro 0],
      some (0x2800000, 1), false⟩
  | .oeRxring => ⟨0x2801400, [(16, 0x20000), (144, 4)], [fl 31 29 .ro 0, fl 15 0 .ro 0],
      some (0x2800000, 1), false⟩
  | .oeRxpwr => ⟨0x2801800, [(16, 0x20000), (144, 4)], [fl 15 0 .ro 0x8000],
      some (0x2800000, 1), false⟩
  | .oeThim => ⟨0x2801C00, [(16, 0x20000), (16, 4)], [fl 1 0 .ro 0],
      some (0x2800000, 1), false⟩
  | .oeFeed => ⟨0x2801D00, [(16, 0x20000), (36, 4)], [fl 15 0 .ro 0x8000],
      some (0x2800000, 1), false⟩
  -- spec/12_optical_engines.md R331
  | .elsState => ⟨0x2A00000, [(8, 0x100)], [fl 15 8 .ro 0, fl 1 0 .ro 0],
      some (0x2B00000, 0), false⟩
  | .elsSerialLo => ⟨0x2A00004, [(8, 0x100)], [fl 31 0 .ro 0],
      some (0x2B00000, 0), false⟩
  | .elsSerialHi => ⟨0x2A00008, [(8, 0x100)], [fl 31 0 .ro 0],
      some (0x2B00000, 0), false⟩
  | .elsBias => ⟨0x2A00010, [(8, 0x100), (9, 4)], [fl 31 16 .ro 0, fl 15 0 .rw 0],
      some (0x2B00000, 0), false⟩
  | .elsCtl => ⟨0x2A00040, [(8, 0x100)], [fl 15 8 .rw 0x5A, fl 7 0 .rw 0xFF],
      some (0x2B00000, 0), false⟩
  | .elsStatus => ⟨0x2A00044, [(8, 0x100)], [fl 4 0 .w1c 0],
      some (0x2B00000, 0), false⟩
  | .thimCtl => ⟨0x2B00000, [], [fl 31 31 .w1s 0, fl 8 8 .rw 0, fl 7 0 .rwl 1],
      some (0x2B00000, 0), false⟩
  -- spec/13_time.md R345
  | .timeCtl => ⟨0x400000, [], [fl 31 31 .w1s 0, fl 2 2 .wo 0, fl 1 1 .ro 0, fl 0 0 .ro 0],
      some (0x400000, 0), false⟩
  | .timeSwitchAt => ⟨0x400004, [], [fl 31 0 .rw 0],
      some (0x400000, 0), false⟩
  | .timePpsCtl => ⟨0x400008, [], [fl 31 31 .rw 0, fl 30 30 .rwl 0, fl 29 29 .rw 0, fl 15 0 .rwl 0x64],
      some (0x400000, 0), false⟩
  | .timeStatus => ⟨0x40000C, [], [fl 4 0 .w1c 0],
      some (0x400000, 0), false⟩
  | .timeIncLo => ⟨0x400010, [(2, 0x20)], [fl 31 0 .rw 0xD5555555],
      some (0x400000, 0), false⟩
  | .timeIncHi => ⟨0x400014, [(2, 0x20)], [fl 3 0 .rw 0],
      some (0x400000, 0), false⟩
  | .timeNowLo => ⟨0x400018, [(2, 0x20)], [fl 31 0 .ro 0],
      some (0x400000, 0), false⟩
  | .timeNowHi => ⟨0x40001C, [(2, 0x20)], [fl 31 0 .ro 0],
      some (0x400000, 0), false⟩
  | .timeSetLo => ⟨0x400020, [(2, 0x20)], [fl 31 0 .rw 0],
      some (0x400000, 0), false⟩
  | .timeSetHi => ⟨0x400024, [(2, 0x20)], [fl 31 0 .rw 0],
      some (0x400000, 0), false⟩
  | .timeAdj => ⟨0x400028, [(2, 0x20)], [fl 31 0 .wo 0],
      some (0x400000, 0), false⟩
  | .timePpsCap0Lo => ⟨0x400050, [], [fl 31 0 .ro 0],
      some (0x400000, 0), false⟩
  | .timePpsCap0Hi => ⟨0x400054, [], [fl 31 0 .ro 0],
      some (0x400000, 0), false⟩
  | .timePpsCap1Lo => ⟨0x400058, [], [fl 31 0 .ro 0],
      some (0x400000, 0), false⟩
  | .timePpsCap1Hi => ⟨0x40005C, [], [fl 31 0 .ro 0],
      some (0x400000, 0), false⟩
  | .timeTsqData => ⟨0x400100, [(4, 0x40), (8, 4)], [fl 31 0 .ro 0],
      some (0x400000, 0), false⟩
  | .timeTsqCtl => ⟨0x400120, [(4, 0x40)], [fl 31 31 .wo 0, fl 6 0 .ro 0],
      some (0x400000, 0), false⟩
  -- spec/14_host_interface.md R378
  | .ringBaseLo => ⟨0x100000, [(18, 0x40)], [fl 31 12 .rw 0],
      some (0x100800, 0), false⟩
  | .ringBaseHi => ⟨0x100004, [(18, 0x40)], [fl 31 0 .rw 0],
      some (0x100800, 0), false⟩
  | .ringCtl => ⟨0x100008, [(18, 0x40)], [fl 31 31 .rw 0, fl 30 30 .ro 0, fl 20 16 .rw 0, fl 4 0 .rw 8],
      some (0x100800, 0), false⟩
  | .ringProdCmd => ⟨0x10000C, [(8, 0x40)], [fl 15 0 .rw 0],
      some (0x100800, 0), false⟩
  | .ringProdDev => ⟨0x10020C, [(10, 0x40)], [fl 15 0 .ro 0],
      some (0x100800, 0), false⟩
  | .ringConsCmd => ⟨0x100010, [(8, 0x40)], [fl 15 0 .ro 0],
      some (0x100800, 0), false⟩
  | .ringConsDev => ⟨0x100210, [(10, 0x40)], [fl 15 0 .rw 0],
      some (0x100800, 0), false⟩
  | .ringWbLo => ⟨0x100014, [(18, 0x40)], [fl 31 3 .rw 0],
      some (0x100800, 0), false⟩
  | .ringWbHi => ⟨0x100018, [(18, 0x40)], [fl 31 0 .rw 0],
      some (0x100800, 0), false⟩
  | .ringMod => ⟨0x10001C, [(18, 0x40)], [fl 31 16 .rw 1, fl 15 0 .rw 0xA],
      some (0x100800, 0), false⟩
  | .hifCtl => ⟨0x100800, [], [fl 31 31 .w1s 0],
      some (0x100800, 0), false⟩
  | .hifStatus => ⟨0x100804, [], [fl 11 0 .w1c 0],
      some (0x100800, 0), false⟩
  | .tlrBootAddrLo => ⟨0x200000, [], [fl 31 0 .rw 0],
      some (0x20000C, 0), false⟩
  | .tlrBootAddrHi => ⟨0x200004, [], [fl 31 0 .rw 0],
      some (0x20000C, 0), false⟩
  | .tlrBootLen => ⟨0x200008, [], [fl 23 0 .rw 0],
      some (0x20000C, 0), false⟩
  | .tlrBootCtl => ⟨0x20000C, [], [fl 31 31 .w1s 0, fl 8 8 .wo 0, fl 7 0 .ro 0],
      some (0x20000C, 0), false⟩
  | .tlrState => ⟨0x200010, [], [fl 3 0 .ro 0],
      some (0x20000C, 0), false⟩
  | .tlrSvn => ⟨0x200014, [], [fl 15 0 .ro 0],
      some (0x20000C, 0), false⟩
  | .mgmtCtl => ⟨0x200020, [], [fl 31 31 .rw 1, fl 30 30 .rw 0, fl 15 0 .rwl 0x9C50],
      some (0x20000C, 0), false⟩
  | .mgmtPeerLo => ⟨0x200024, [], [fl 31 0 .rw 0],
      some (0x20000C, 0), false⟩
  | .mgmtPeerHi => ⟨0x200028, [], [fl 15 0 .rw 0],
      some (0x20000C, 0), false⟩
  | .tblWinDesc => ⟨0xC06000, [(4, 0x800000), (16, 4)], [fl 31 0 .rw 0],
      none, false⟩
  | .tblWinCtl => ⟨0xC06040, [(4, 0x800000)], [fl 31 31 .wo 0, fl 30 30 .ro 0],
      none, false⟩
  | .tblWinCpl => ⟨0xC06044, [(4, 0x800000), (8, 4)], [fl 31 0 .ro 0],
      none, false⟩
  -- spec/15_power_clocks_startup.md R402
  | .rstCtl => ⟨0x1000, [], [fl 31 31 .w1s 0, fl 15 8 .wo 0, fl 0 0 .wo 0],
      some (0x1000, 0), false⟩
  | .rstCause => ⟨0x1004, [], [fl 4 0 .w1c 1],
      some (0x1000, 0), false⟩
  | .sysStatus => ⟨0x1008, [], [fl 5 0 .w1c 0],
      some (0x1000, 0), false⟩
  | .clkRefCtl => ⟨0x2000, [], [fl 31 31 .w1s 0, fl 2 2 .rwl 0, fl 1 1 .rw 0],
      some (0x2000, 0), false⟩
  | .clkRefStatus => ⟨0x2004, [], [fl 4 4 .ro 0, fl 3 3 .ro 0, fl 2 2 .ro 0, fl 1 1 .ro 0, fl 0 0 .ro 0],
      some (0x2000, 0), false⟩
  | .pwrCtl => ⟨0x3000, [], [fl 31 31 .w1s 0, fl 15 8 .rwl 0x19, fl 7 0 .rwl 0xA],
      some (0x3000, 0), false⟩
  | .pwrDepth => ⟨0x3004, [], [fl 15 0 .rw 0xFFFF],
      some (0x3000, 0), false⟩
  | .pwrTol => ⟨0x3010, [(8, 4)], [fl 23 0 .rw 0],
      some (0x3000, 0), false⟩
  | .pwrDomState => ⟨0x3040, [(8, 4)], [fl 31 0 .ro 0],
      some (0x3000, 0), false⟩
  | .thmCtl => ⟨0x4000, [], [fl 31 31 .w1s 0, fl 15 8 .rwl 0x5F, fl 7 0 .rw 6],
      some (0x4000, 0), false⟩
  | .thmDie => ⟨0x4004, [(4, 4)], [fl 23 16 .ro 0, fl 15 8 .ro 0, fl 3 3 .ro 0, fl 2 0 .ro 0],
      some (0x4000, 0), false⟩
  | .thmTrip => ⟨0x4014, [], [fl 7 6 .ro 0, fl 3 0 .ro 0],
      some (0x4000, 0), false⟩
  -- spec/16_reliability.md R428
  | .relCtl => ⟨0x700000, [], [fl 31 31 .w1s 0],
      some (0x700000, 0), false⟩
  | .relStatus => ⟨0x700004, [], [fl 9 0 .w1c 0],
      some (0x700000, 0), false⟩
  | .relFault => ⟨0x700008, [], [fl 31 31 .ro 0, fl 27 24 .ro 0, fl 17 16 .ro 0, fl 15 0 .ro 0],
      some (0x700000, 0), false⟩
  | .relSpareMap => ⟨0x70000C, [], [fl 31 0 .ro 0xFFFFFFFF],
      some (0x700000, 0), false⟩
  | .relCoal => ⟨0x700010, [], [fl 31 16 .rw 0x3E8, fl 15 0 .rw 0x40],
      some (0x700000, 0), false⟩
  | .relOvl => ⟨0x700014, [], [fl 15 8 .rwl 0x18, fl 2 0 .rwl 2],
      some (0x700000, 0), false⟩
  | .relPatrolCtl => ⟨0x700018, [], [fl 31 31 .wo 0, fl 30 30 .ro 0, fl 0 0 .rw 1],
      some (0x700000, 0), false⟩
  | .relPatrolStatus => ⟨0x70001C, [], [fl 31 16 .ro 0, fl 1 0 .ro 0],
      some (0x700000, 0), false⟩
  | .relSusp => ⟨0x700020, [(8, 4)], [fl 26 0 .ro 0],
      some (0x700000, 0), false⟩
  | .relInjCtl => ⟨0x700200, [], [fl 5 4 .rw 0, fl 3 3 .wo 0, fl 2 2 .ro 0, fl 1 1 .w1s 0, fl 0 0 .rwl 0],
      some (0x700000, 0), false⟩
  | .relInjSel => ⟨0x700204, [], [fl 31 24 .rw 0, fl 21 20 .rw 0, fl 15 0 .rw 0],
      some (0x700000, 0), false⟩
  | .relInjArg => ⟨0x700208, [], [fl 31 16 .rw 1, fl 15 0 .rw 0],
      some (0x700000, 0), false⟩
  | .relLogCtl => ⟨0x700400, [], [fl 31 31 .wo 0, fl 6 0 .ro 0],
      some (0x700000, 0), false⟩
  | .relLogData => ⟨0x700404, [(8, 4)], [fl 31 0 .ro 0],
      some (0x700000, 0), false⟩
  -- spec/17_performance_monitoring.md R443
  | .pmcSelTile => ⟨0x807000, [(4, 0x800000), (16, 0x10000), (4, 4)], [fl 31 31 .rw 0, fl 30 30 .rw 0, fl 29 23 .rw 0, fl 22 16 .rw 0, fl 15 0 .rw 0],
      none, false⟩
  | .pmcSelCore => ⟨0xA00200, [(4, 0x800000), (2, 0x40000), (9, 0x4000), (4, 4)], [fl 31 31 .rw 0, fl 30 30 .rw 0, fl 29 23 .rw 0, fl 22 16 .rw 0, fl 15 0 .rw 0],
      none, false⟩
  | .pmcSelStack => ⟨0x2C00100, [(12, 0x10000), (4, 4)], [fl 31 31 .rw 0, fl 30 30 .rw 0, fl 29 23 .rw 0, fl 22 16 .rw 0, fl 15 0 .rw 0],
      none, false⟩
  | .pmcSelDie => ⟨0xB02000, [(4, 0x800000), (4, 4)], [fl 31 31 .rw 0, fl 30 30 .rw 0, fl 29 23 .rw 0, fl 22 16 .rw 0, fl 15 0 .rw 0],
      none, false⟩
  | .pmcCtl => ⟨0x600000, [], [fl 31 31 .w1s 0, fl 3 3 .rw 0, fl 2 2 .rwl 1, fl 1 0 .rwl 0],
      some (0x600000, 0), false⟩
  | .pmcPeriod => ⟨0x600004, [], [fl 23 0 .rw 0x186A0],
      some (0x600000, 0), false⟩
  | .pmcFreeze => ⟨0x600008, [], [fl 31 31 .wo 0, fl 30 30 .rw 0, fl 29 29 .ro 0],
      some (0x600000, 0), false⟩
  | .pmcFreezeAt => ⟨0x60000C, [], [fl 31 0 .rw 0],
      some (0x600000, 0), false⟩
  | .pmcMask => ⟨0x600010, [], [fl 22 1 .rw 0x3FFFFF],
      some (0x600000, 0), false⟩
  | .pmcNrec => ⟨0x600014, [], [fl 31 0 .ro 0],
      some (0x600000, 0), false⟩
  | .pmcSeq => ⟨0x600018, [], [fl 15 0 .ro 0],
      some (0x600000, 0), false⟩
  | .pmcStatus => ⟨0x60001C, [], [fl 3 0 .w1c 0],
      some (0x600000, 0), false⟩
  | .swatchCtl => ⟨0x600020, [], [fl 31 31 .rw 0, fl 30 30 .rw 1, fl 29 29 .rw 1, fl 28 28 .rw 0, fl 15 0 .rw 1],
      some (0x600000, 0), false⟩
  | .swatchSeed => ⟨0x600024, [], [fl 31 0 .rw 0],
      some (0x600000, 0), false⟩
  -- spec/14_host_interface.md R347
  | .msixAddrData => ⟨0x101000, [(32, 0x10), (3, 4)], [fl 31 0 .rw 0],
      some (0x100800, 0), false⟩
  | .msixCtl => ⟨0x10100C, [(32, 0x10)], [fl 0 0 .rw 1],
      some (0x100800, 0), false⟩
  | .msixPba => ⟨0x101800, [(2, 4)], [fl 31 0 .ro 0],
      some (0x100800, 0), false⟩

/-- Registers of the global regions. -/
def globalRegs : List Reg := [
  .idDev, .idRev, .idSerialLo, .idSerialHi, .idConfig, .idConfig2, .idSpare, .idFw, .idStatus,
  .ovlCtl, .ovlRate, .ovlSeed, .timeCtl, .timeSwitchAt, .timePpsCtl, .timeStatus, .timeIncLo,
  .timeIncHi, .timeNowLo, .timeNowHi, .timeSetLo, .timeSetHi, .timeAdj, .timePpsCap0Lo,
  .timePpsCap0Hi, .timePpsCap1Lo, .timePpsCap1Hi, .timeTsqData, .timeTsqCtl, .ringBaseLo,
  .ringBaseHi, .ringCtl, .ringProdCmd, .ringProdDev, .ringConsCmd, .ringConsDev, .ringWbLo,
  .ringWbHi, .ringMod, .hifCtl, .hifStatus, .tlrBootAddrLo, .tlrBootAddrHi, .tlrBootLen,
  .tlrBootCtl, .tlrState, .tlrSvn, .mgmtCtl, .mgmtPeerLo, .mgmtPeerHi, .rstCtl, .rstCause,
  .sysStatus, .clkRefCtl, .clkRefStatus, .pwrCtl, .pwrDepth, .pwrTol, .pwrDomState, .thmCtl,
  .thmDie, .thmTrip, .relCtl, .relStatus, .relFault, .relSpareMap, .relCoal, .relOvl,
  .relPatrolCtl, .relPatrolStatus, .relSusp, .relInjCtl, .relInjSel, .relInjArg, .relLogCtl,
  .relLogData, .pmcCtl, .pmcPeriod, .pmcFreeze, .pmcFreezeAt, .pmcMask, .pmcNrec, .pmcSeq,
  .pmcStatus, .swatchCtl, .swatchSeed, .msixAddrData, .msixCtl, .msixPba]

/-- Registers of the tiles. -/
def dieTileRegs : List Reg := [
  .swTileCtl, .swCtMap, .swShr, .swLcf, .swStatus, .swRsv, .rtPort, .shpC0, .shpC1, .shpC2,
  .shpPort, .schWeight, .shpStatus, .preCtl, .preStatus, .lnPort, .lnTileStatus, .lnThresh,
  .lnState, .lnCtl, .lnQuiet, .lnFom, .lnSpare, .lnStatus, .lnTapsLo, .lnTapsHi, .pmcSelTile]

/-- Registers of clusters, mesh, Seam and table windows. -/
def dieOtherRegs : List Reg := [
  .fwdEtype, .fwdEmCtl, .fwdEmSeed0, .fwdEmSeed1, .fwdAgeCtl, .fwdEpoch, .fwdEpochCtl,
  .fwdScrubCtl, .fwdScrubBaseLo, .fwdScrubBaseHi, .fwdEmCount, .fwdStatus, .swPcap, .meshCtl,
  .seamRepairCtl, .meshStatus, .seamState, .rtBundleCtl, .rtBundleMem, .rtCtl, .rtOrdSeed,
  .rtStatus, .meshBcastCtl, .mirCtl, .mirFlowP, .mirFlowSrc, .mirFlowDst, .mirMaxcells, .polCmd,
  .polData0, .polData1, .polData2, .polCntGLo, .polCntGHi, .polCntYLo, .polCntYHi, .polCntRLo,
  .polCntRHi, .polCtl, .polStatus, .rcCoreState, .rcCoreStateSpare, .rcStatus, .clCtl, .clBob,
  .clStatus, .collCtl, .collSelf, .collMemBaseLo, .collMemBaseHi, .collMemSize, .collSpill,
  .collCred, .collLive, .collMemUsed, .collStatus, .optCtl, .optMemBaseLo, .optMemBaseHi,
  .optMemSize, .optLive, .optMemUsed, .optStatus, .tblWinDesc, .tblWinCtl, .tblWinCpl,
  .pmcSelCore, .pmcSelDie]

/-- Registers of optics, memory controllers and the Bolt store. -/
def unitsRegs : List Reg := [
  .memCtl, .memHashSeed, .memQctl, .memTherm, .memScrub, .memTrain, .memStatus, .memPoisonAddrLo,
  .memPoisonAddrHi, .memStkState, .memStkQocc, .memStkSpareLo, .memStkSpareHi, .memStkPend,
  .boltCtl, .boltState, .boltWl, .boltScrub, .boltRd, .boltSpareCnt, .boltBands, .boltStatus,
  .oeCtl, .oeFf, .oeLos, .oeTemp, .oeStatus, .oeTxring, .oeRxring, .oeRxpwr, .oeThim, .oeFeed,
  .elsState, .elsSerialLo, .elsSerialHi, .elsBias, .elsCtl, .elsStatus, .thimCtl, .pmcSelStack]

end Sys2Proof.Machine
end

