-- ==== Sys2Proof/Machine/Tab.lean ====
section
/-! DEFINITION. Sparse tables: look up, store and remove, on lists with strictly ascending keys. -/
namespace Sys2Proof.Machine

/-- The entry stored under a key, if any. -/
def tget? {α : Type} : Tab α → Nat → Option α
  | [], _ => none
  | (k', v) :: r, k => if k' = k then some v else tget? r k

/-- The entry under a key, or the table's default. -/
def tgetD {α : Type} (t : Tab α) (k : Nat) (dflt : α) : α := (tget? t k).getD dflt

/-- Store under a key, keeping the keys strictly ascending. -/
def tset {α : Type} : Tab α → Nat → α → Tab α
  | [], k, v => [(k, v)]
  | (k', v') :: r, k, v =>
    if k < k' then (k, v) :: (k', v') :: r
    else if k = k' then (k, v) :: r
    else (k', v') :: tset r k v

/-- Remove a key. -/
def tdel {α : Type} : Tab α → Nat → Tab α
  | [], _ => []
  | (k', v') :: r, k => if k' = k then tdel r k else (k', v') :: tdel r k

/-- Store a value, listing nothing that equals the table's default. -/
def tput {α : Type} [DecidableEq α] (dflt : α) (t : Tab α) (k : Nat) (v : α) : Tab α :=
  if v = dflt then tdel t k else tset t k v

/-- Keep the entries whose key and value meet a test. -/
def tfilter {α : Type} (p : Nat → α → Bool) (t : Tab α) : Tab α := t.filter (fun e => p e.1 e.2)

/-- Map every value. -/
def tmap {α : Type} (f : Nat → α → α) (t : Tab α) : Tab α := t.map (fun e => (e.1, f e.1 e.2))

/-- The keys of a table stand strictly ascending, all above a bound. -/
def tabSorted {α : Type} : Option Nat → Tab α → Bool
  | _, [] => true
  | lo, (k, _) :: r => (match lo with | none => true | some b => decide (b < k)) && tabSorted (some k) r

/-- The canonical form of a table: keys strictly ascending, no entry equal to the default. -/
def tabWf {α : Type} [DecidableEq α] (dflt : α) (t : Tab α) : Bool :=
  tabSorted none t && t.all (fun e => decide (e.2 ≠ dflt))

/-- The values under `n` consecutive keys from `k` on. -/
def tread {α : Type} (t : Tab α) (dflt : α) : Nat → Nat → List α
  | _, 0 => []
  | k, n + 1 => tgetD t k dflt :: tread t dflt (k + 1) n

/-- Store values under consecutive keys from `k` on. -/
def twrite {α : Type} [DecidableEq α] (dflt : α) : Tab α → Nat → List α → Tab α
  | t, _, [] => t
  | t, k, v :: vs => twrite dflt (tput dflt t k v) (k + 1) vs

/-- Replace the entry of a list at an index; nothing where the index lies outside. -/
def lset {α : Type} (l : List α) (i : Nat) (v : α) : List α := l.set i v

/-- Remove the first element that meets a test. -/
def removeFirst {α : Type} (p : α → Bool) : List α → List α
  | [] => []
  | x :: r => if p x then r else x :: removeFirst p r

/-- A list with the element at an index taken out. -/
def takeAt {α : Type} : List α → Nat → Option (α × List α)
  | [], _ => none
  | x :: r, 0 => some (x, r)
  | x :: r, n + 1 => (takeAt r n).map (fun p => (p.1, x :: p.2))

end Sys2Proof.Machine
end

