-- ==== Sys2Proof/Machine/State.lean ====
section
/-! DEFINITION. The state of the machine: the device (its registers, counters, tables, buffers,
engines and stores) and the queue of commands that wait.  Plain data. -/
namespace Sys2Proof.Machine

/-- The outcome of the last BAR0 read or unsupported access as the requester sees it (spec/00 R4, R6). -/
inductive BarResult where
  | none
  | ok (v : BitVec 64)
  | unsupported
deriving DecidableEq, Repr, Inhabited

/-- An event as raised (spec/14 R361, spec/16 R413); `die` 255 stands for 0xFF. -/
structure Event where
  code : Nat
  die : Nat
  unit : Nat
  injected : Bool
  summary : Bool
  time : Nat
  temp : BitVec 8
  load : Nat
  count : Nat
  args : List Byte
  /-- Lanes that the event concerns, for the scopes of Table 16-3; not part of the record. -/
  lanes : List Nat
deriving DecidableEq, Repr, Inhabited

/-- Events folded so far into a summary of one code (spec/16 R414). -/
structure Fold where
  code : Nat
  die : Nat
  unit : Nat
  injected : Bool
  time : Nat
  count : Nat
  bitmap : Nat
deriving DecidableEq, Repr, Inhabited

/-- An open coalescing window (spec/16 R414): its root, what it has folded, oldest first, and the CTRL cycle in which it
opened. -/
structure CoalWin where
  root : Event
  folds : List Fold
  at_ : Nat
deriving DecidableEq, Repr, Inhabited

/-- Records written of a code in the current 1 ms interval, and those held back (spec/16 R416). -/
structure RateCnt where
  code : Nat
  written : Nat
  fold : Option Fold
deriving DecidableEq, Repr, Inhabited

/-- An armed injection (spec/16 R408): injections left (none in CONTINUOUS mode), and the
opportunities marked but not yet met by their detector (log entry 18). -/
structure Inject where
  id : Nat
  die : Nat
  unit : Nat
  arg : Nat
  left : Option Nat
deriving DecidableEq, Repr, Inhabited

/-- Events, records, injection and Patrol (spec/14 R361, R362; spec/16). -/
structure RelState where
  /-- Records held for the event ring, oldest first, at most 4,096 (R362). -/
  store : List Event
  /-- Events lost since the last EVT_LOST record (R362). -/
  lost : Nat
  wins : List CoalWin
  rates : List RateCnt
  /-- The error log, oldest first, at most 64 (R412). -/
  log : List Event
  inject : Option Inject
  /-- Corruptions that an INJECTION has placed ahead of a detector (R407): id, die, unit, arg. -/
  marks : List (Nat × Nat × Nat × Nat)
  /-- True while the step runs in consequence of an injection (R409). -/
  injected : Bool
  /-- Hours' clock of suspicion: TIME cycle of the last addition, by core name as 8c + j (R417). -/
  suspAt : Tab Nat
  /-- Core names 8c + j that are suspect and not yet tested (R417). -/
  suspect : List Nat
  /-- Cores condemned and waiting for an eligibility (R418): name as 8c + j, cause. -/
  condemned : List (Nat × Nat)
  /-- Patrol units running (R420). -/
  patrol : List PatrolUnit
  /-- A FULL run's failures so far (R422); none while no run is in progress. -/
  full : Option Nat
  /-- A spare under test for a failed name: cluster, name index, failed physical index, cause (R419). -/
  sparing : List (Nat × Nat × Nat × Nat)
  /-- What injections still lead to in later rows (R409): the detector's ID and what it concerns. -/
  traces : List (Nat × Nat × Nat)
deriving DecidableEq, Repr, Inhabited

/-- Where a completion goes: the path, the tag and the opcode (spec/14 R355). -/
structure Reply where
  path : Path
  tag : BitVec 32
  opcode : Nat
  /-- PCIE resets seen when the command was accepted (spec/15 R385). -/
  epoch : Nat
deriving DecidableEq, Repr, Inhabited

/-- The fields of a partition entry that a commit switches (spec/02 R38, R56). -/
structure PartCfg where
  mask : BitVec 512
  learnEn : Bool
  ageMax : BitVec 3
  floodRate : BitVec 10
deriving DecidableEq, Repr, Inhabited

/-- A partition: its state (0 OFF, 1 LIVE, 2 DRAIN) and one copy of its fields per parity. -/
structure Part where
  st : BitVec 2
  even : PartCfg
  odd : PartCfg
deriving DecidableEq, Repr, Inhabited

/-- One parity's copy of a multicast group (spec/02 R55, R56). -/
structure GrpCopy where
  valid : Bool
  part : BitVec 12
  mask : BitVec 512
deriving DecidableEq, Repr, Inhabited

/-- A multicast group: one copy per parity. -/
structure Group where
  even : GrpCopy
  odd : GrpCopy
deriving DecidableEq, Repr, Inhabited

/-- A link bundle: up to 64 member slots (15: valid, 8..0: port) per parity (spec/04 R99). -/
structure Bundle where
  even : List (BitVec 16)
  odd : List (BitVec 16)
deriving DecidableEq, Repr, Inhabited

/-- A staging operation as the table sequencer numbers it (spec/02 R47, R56). -/
inductive StageOp where
  | emSet (entry : BitVec 64)
  | emDel (part : BitVec 12) (ep : BitVec 24)
  | grp (g : BitVec 16) (c : GrpCopy)
  | part (p : BitVec 12) (c : PartCfg)
  | bundle (b : BitVec 8) (slots : List (BitVec 16))
  | commit (tick : Option (BitVec 32))
deriving DecidableEq, Repr, Inhabited

/-- An operation held until settling ends, with its completion (spec/02 R58). -/
structure HeldOp where
  op : StageOp
  reply : Option Reply
  die : Nat
  /-- Tick and bound domain of a commit, fixed when it was numbered. -/
  due : Option (BitVec 32 × Nat)
deriving DecidableEq, Repr, Inhabited

/-- What one staged operation changed, for settling (spec/02 R58). -/
inductive Changed where
  | em (part : BitVec 12) (ep : BitVec 24)
  | grp (g : BitVec 16)
  | part (p : BitVec 12)
  | bundle (b : BitVec 8)
deriving DecidableEq, Repr, Inhabited

/-- A commit waiting for its tick (spec/02 R58) in the domain that it is bound to (spec/13 R338). -/
structure Commit where
  tick : BitVec 32
  dom : Nat
  reply : Option Reply
deriving DecidableEq, Repr, Inhabited

/-- A learn request (spec/02 R49): partition, source endpoint, ingress port. -/
structure LearnReq where
  part : BitVec 12
  src : BitVec 24
  port : Nat
deriving DecidableEq, Repr, Inhabited

/-- A token bucket filled lazily: contents and the TIME cycle of the last reading. -/
structure Bucket where
  tok : Nat
  at_ : Nat
deriving DecidableEq, Repr, Inhabited

/-- A domain's count: NS modulo 2^64 and FR modulo 2^32 (spec/13 R333). -/
structure Dom where
  ns : Nat
  fr : Nat
deriving DecidableEq, Repr, Inhabited

/-- A foreign frame in the queue of its die: ingress port, frame, and the times of both domains at which
its timestamp point was received (spec/02 R33, spec/13 R340). -/
structure Foreign where
  port : Nat
  frame : Frame
  t0 : Dom
  t1 : Dom
deriving DecidableEq, Repr, Inhabited

/-- Forwarding tables of spec/02 and the bundle table of spec/04. -/
structure FwdState where
  /-- Endpoint table, key table × 131072 + bucket × 4 + way (R42). -/
  em : Tab (BitVec 64)
  /-- Slots of one die's replica that differ, key die × 262144 + slot (R60). -/
  emDiff : Tab (BitVec 64)
  parts : Tab Part
  grps : Tab Group
  bundles : Tab Bundle
  staged : Nat
  changed : List Changed
  commit : Option Commit
  settling : Bool
  held : List HeldOp
  /-- Learn queue of each die, oldest first, at most 256 (R50). -/
  learnQ : List (List LearnReq)
  /-- Foreign-frame queue of each die, at most 64, oldest first (R33). -/
  foreignQ : List (List Foreign)
  /-- Flood limiter tokens in 1/960 byte, key die × 4096 + partition; unlisted is full (R53). -/
  flood : Tab Bucket
  /-- Next slot of the scrubber (R60). -/
  scrubPos : Nat
  /-- TIME cycle at which the aging sweep's timer last started (R51). -/
  sweepAt : Nat
deriving DecidableEq, Repr, Inhabited

/-- A Swatch under way (spec/17 R438–R440). -/
structure Swatch where
  id : BitVec 16
  followed : Bool
  s0 : Nat
  ns0 : Nat
  fr0 : Nat
  /-- Offsets of S1 to S7. -/
  stages : List (Option Nat)
  /-- Mesh hops and Seam crossings of the copy that the record follows, and its egress port. -/
  hops : Nat
  seams : Nat
  egr : Nat
deriving DecidableEq, Repr, Inhabited

/-- How a copy of a frame came by its egress port. -/
inductive Via where
  | port
  | bundle (b : Nat)
  | multi
  | mirror (s : Nat)
deriving DecidableEq, Repr, Inhabited

/-- A copy of an ingress frame that still waits to enter the mesh: one per direct target, one per
destination die for a flood or a multicast frame, one per mirror session (spec/04 R113, R119). -/
structure Copy where
  id : Nat
  ports : List Nat
  vc : Nat
  via : Via
deriving DecidableEq, Repr, Inhabited

/-- Why an ingress frame is not yet released to the mesh: it waits in the order-hold queue, or for
its fence, behind a stalled pipeline slice, or itself stalls the slice because the order-hold queue is full
(spec/04 R110–R112); a foreign frame waits for room in
Tailor's queue (spec/02 R33); a taken frame waits for its context (spec/02 R37). -/
inductive Hold where
  | ready
  | orderQ
  | fence
  | stall
  | orderStall
  | foreign
  | taken
deriving DecidableEq, Repr, Inhabited

/-- A frame in an ingress pool (spec/03 R67, R69): where its cells are charged, its copies that
still wait, copies accepted by no egress staging yet (`out`), and copies not yet transmitted
(`unsent`, for the order tracker of spec/04 R110). -/
structure Ing where
  id : Nat
  port : Nat
  vcIn : Nat
  frame : Frame
  /-- The frame as received, which mirror copies carry (spec/04 R119). -/
  orig : Frame
  res : Nat
  shr : Nat
  guard : Nat
  /-- Its cells stem from an earlier link of the port: freeing them returns no credit (log entry 50). -/
  old : Bool
  copies : List Copy
  out : Nat
  unsent : Nat
  hold : Hold
  /-- Waits in the die's flood queue (spec/02 R53). -/
  floodWait : Bool
  /-- Tracker index and half that the frame counts in. -/
  trk : Option (Nat × Nat)
  /-- TIME cycle at which its lookup completed, and the times of its timestamp point (spec/13 R340). -/
  at_ : Nat
  rx : Dom × Dom
  /-- TIME cycle at which it was received, from which its age counts (spec/03 R88). -/
  rxAt : Nat
  swatch : Option Swatch
  /-- Its partition was LIVE as it was buffered (spec/02 R39); it is read only after its pipeline slice had stalled, when
  all of it has arrived. -/
  live : Bool
  late : Bool
deriving DecidableEq, Repr, Inhabited

/-- A frame in the egress staging of a (port, VC), or in transmission on a port (spec/03 R79).
`ing` is the ingress frame that it copies (none: a frame that the device made). -/
structure Egr where
  frame : Frame
  cells : Nat
  ing : Option Nat
  shaped : Bool
  /-- A demoted copy that kept its VC (spec/05 R129). -/
  demoteSkip : Bool
  /-- Sent cut-through (spec/03 R77). -/
  ct : Bool
  via : Via
  tsid : Option (BitVec 16)
  reply : Option Reply
  /-- A launched frame (spec/13 R342): slot, target tick and the domain it is bound to. -/
  launch : Option (Nat × BitVec 32 × Nat)
  swatch : Option Swatch
  /-- Number of its egress-staging grant (spec/03 R89); 0 for a frame that the device made. -/
  grantNo : Nat
  /-- The frame's ingress cells stand until its transmission starts: mirror copies are read from them (spec/04 R119). -/
  keeps : Bool
deriving DecidableEq, Repr, Inhabited

/-- A frame of the device's own that waits at a tile for the mesh: tile, egress queue (port × 8 + VC), TIME cycle. -/
structure OwnOut where
  tile : Nat
  k : Nat
  at_ : Nat
  e : Egr
deriving DecidableEq, Repr, Inhabited

/-- A pre-reducer partial or a single contribution on its way to a core (spec/06 R162, R163). -/
structure Partial where
  slot : Nat
  chunk : Nat
  seg : Nat
  /-- Members summed in it. -/
  count : Nat
  ranks : List Nat
  pos : Nat
  size : Nat
  itype : Nat
  /-- Sums or elements, as bit patterns of `itype`'s accumulator format. -/
  vals : List Nat
  single : Bool
deriving DecidableEq, Repr, Inhabited

/-- A memory request on its way: 0 read, 1 write, 16 + code of a memory-side operation (spec/09
R247, R251). -/
structure MemOut where
  op : Nat
  r : MemReq
deriving DecidableEq, Repr, Inhabited

/-- A memory response on channel P: the request, the bytes returned, and whether it is an error or
poisoned (spec/09 R248, R255, R258); `count` is the count of a count notice (R253). -/
structure MemResp where
  op : Nat
  r : MemReq
  data : List Byte
  bad : Bool
  count : Nat
  /-- First marked address of the range, where the data is bad (R258). -/
  marked : Option Nat
deriving DecidableEq, Repr, Inhabited

/-- What a mesh flight carries: a copy of an ingress frame for egress queues (port × 8 + VC), an operand for a
core, a frame of the device's own for one egress queue, a memory request, its response, or a broadcast with the
Patrol unit that issues it (spec/03 R79, spec/04 R114). -/
inductive Load where
  | copy (ing : Nat) (pvs : List Nat) (via : Via)
  | partial_ (p : Partial) (core : Nat)
  | own (e : Egr) (k : Nat)
  | memQ (m : MemOut)
  | memP (m : MemResp)
  | bcast (origin : Nat) (kind : BcastKind) (unit : Option PatrolUnit)
deriving DecidableEq, Repr, Inhabited

/-- A frame or a partial in the mesh: channel (0 A, 1 E, 2 M, 3 Q, 4 P), plane, the router that
its head flit has reached and the one it came from (itself: the injection input), destination tiles, age stamp, TIME cycle of arrival at this router,
hops and Seam crossings so far (spec/03 R79, R80, R88). Tiles are numbered 8y + x. -/
structure Flight where
  id : Nat
  load : Load
  chan : Nat
  plane : Nat
  tile : Nat
  prev : Nat
  dests : List Nat
  age : Nat
  since : Nat
  hops : Nat
  seams : Nat
  /-- Number of the grant that reserved its space (spec/03 R79, R89). -/
  grantNo : Nat
  /-- Channel of the input buffer that it stands in: one that escapes to E leaves A's with its next hop (R80). -/
  inChan : Nat
deriving DecidableEq, Repr, Inhabited

/-- Credit accounts of a (port, VC) (spec/03 R69–R74): shared cells claimed, cells in use of the
reserve and of the claim, cumulative grants, those advertised, and cells received, of the receive
side; grants received and cells sent, of the transmit side. -/
structure Pv where
  claim : Nat
  resUsed : Nat
  shrUsed : Nat
  grant : Nat
  adv : Nat
  rcvd : Nat
  cg : BitVec 16
  sent : BitVec 16
deriving DecidableEq, Repr, Inhabited

/-- Link state of a port (spec/03 R74, spec/04 R97): link-control frames sent and received, whether
the partner's INIT granted VC7 cells, whether the first link-control frame has been received. -/
structure Link where
  initSent : Bool
  lcfRcvd : Bool
  vc7 : Bool
  /-- TIME cycle at which the last link-control frame was sent. -/
  lcfAt : Nat
  /-- A link-control frame is due after the frame in transmission (R75). -/
  lcfDue : Bool
  /-- TIME cycle since which the port has had no frame to send (spec/11 R305). -/
  idleAt : Nat
deriving DecidableEq, Repr, Inhabited

/-- Flits sent over a link of the mesh (spec/14 R361, spec/15 R391): the sender's die, sender and receiver as mesh
coordinates, plane, whether it is a Seam link, TIME cycle, flits. -/
structure MeshUse where
  die : Nat
  a : Nat
  b : Nat
  plane : Nat
  seam : Bool
  at_ : Nat
  flits : Nat
deriving DecidableEq, Repr, Inhabited

/-- The switch core: pools, mesh, egress staging and links (spec/03). -/
structure SwState where
  ing : List Ing
  nextId : Nat
  egr : Tab (List Egr)
  /-- Cells of egress staging reserved for flights under way, key port × 8 + VC (R79). -/
  egrRsv : Tab Nat
  /-- The frame in transmission on each port. -/
  tx : Tab Egr
  flights : List Flight
  pv : Tab Pv
  link : Tab Link
  /-- Cells in use of each lane's overrun guard, by lane (R68, R76). -/
  guard : Tab Nat
  /-- Plane that the next tie of each tile takes (spec/04 R106). -/
  tie : Tab Nat
  /-- Input of each tile's injection arbiter that the next tie favours: lanes 0 to 7, operands 8
  (spec/03 R89). -/
  injNext : Tab Nat
  /-- (port × 8 + VC, partition) pairs that claim no shared cells until the partition's occupancy falls
  below its cap (spec/03 R72). -/
  capHold : List (Nat × Nat)
  /-- Frames of the device's own that wait for the mesh. -/
  ownq : List OwnOut
  /-- Input that each router output favours on a tie, key (mesh coordinate × 2 + plane) × 64 + output (R89). -/
  outNext : Tab Nat
  /-- Tile that each egress-staging grant arbiter favours on a tie, key port × 8 + VC (R89). -/
  grantNext : Tab Nat
  /-- What the mesh's links have carried in the last 100 µs, oldest first (spec/14 R361). -/
  meshUse : List MeshUse
deriving DecidableEq, Repr, Inhabited

/-- One end of a Seam link, keyed die × 16 + link (spec/03 R82–R84): SEQ last sent and last
acknowledged, NAKs in a row that name one SEQ; SEQ last received good, whether the receiver waits for a
replay start, the failed flit and its failures in a row. -/
structure Seam where
  txSeq : BitVec 8
  acked : BitVec 8
  nakSeq : BitVec 8
  naks : Nat
  rxSeq : BitVec 8
  waiting : Bool
  failed : Option SeamFlit
  fails : Nat
  /-- Errors charged to each wire: TIME cycle, and whether an injection caused it. -/
  wireErr : Tab (List (Nat × Bool))
  /-- Wires mapped onto spares, in order. -/
  mapped : List Nat
  /-- Of the mapped wires, those repaired for an injected error only (spec/16 R409). -/
  tempMap : List Nat
  /-- The transmitter: its replay buffer, the flits on their way over the wires, oldest first, and the flits that
  keep it busy, one MESH cycle each. -/
  buf : List SeamFlit
  wires : List SeamFlit
  busy : Nat
  /-- Flits sent on each channel and not yet returned as credits (CRED), and credits owed to the far end. -/
  used : Tab Nat
  owed : Tab Nat
  /-- Wires whose repair holds the link (R84). -/
  hold : Bool
deriving DecidableEq, Repr, Inhabited

/-- A waiting mirror copy (spec/04 R120). -/
structure MirHeld where
  session : Nat
  /-- The ingress frame whose cells it keeps; none: a copy of a frame that the device made. -/
  ing : Option Nat
  frame : Frame
deriving DecidableEq, Repr, Inhabited

/-- Routing and ordering (spec/04). -/
structure RtState where
  /-- Latest depth sample, key port × 8 + VC (R102). -/
  depth : Tab Nat
  /-- Samples counted toward WARM, by port (R104). -/
  warm : Tab Nat
  /-- Bundles that have become warm (R104). -/
  warmB : List Nat
  /-- Cells sent since the sample, key tile × 512 + port (R103). -/
  sent : Tab Nat
  /-- Round-robin pointer, key tile × 256 + bundle (R103). -/
  rr : Tab Nat
  /-- Tracker halves, key die × 131072 + index × 2 + half (R110). -/
  trk : Tab Nat
  /-- CUR bit, key die × 65536 + index. -/
  cur : Tab Nat
  /-- Open fences: index, ingress frame, dies that have flipped (R110). -/
  fences : List (Nat × Nat × List Nat)
  mirHeld : List MirHeld
  /-- Frames each mirror session has queued toward its port: cells (R120). -/
  mirQ : Tab Nat
  /-- DRAINING ports written DISABLED that wait for their egress staging to empty (R116). -/
  toDisable : List Nat
  /-- Broadcasts delivered to control agents: tile reached, origin, kind (R114). -/
  bcast : List (Nat × Nat × BcastKind)
deriving DecidableEq, Repr, Inhabited

/-- A policer's configuration (spec/05 R127, Table 05-2). -/
structure Policer where
  en : Bool
  aware : Bool
  redAct : BitVec 2
  yelAct : BitVec 2
  cbs : BitVec 24
  pbs : BitVec 24
  pir : BitVec 16
  cir : BitVec 16
deriving DecidableEq, Repr, Inhabited

/-- A policer's buckets and counters on one die, tokens in 1/9600 byte (spec/05 R127, R132). -/
structure PolDie where
  tc : Nat
  tp : Nat
  at_ : Nat
  green : BitVec 48
  yellow : BitVec 48
  red : BitVec 48
deriving DecidableEq, Repr, Inhabited

/-- A shaper's signed token counts in 1/9600 byte (spec/05 R133). -/
structure Shaper where
  sc : Int
  sp : Int
  at_ : Nat
deriving DecidableEq, Repr, Inhabited

/-- Policing and shaping (spec/05). -/
structure PolState where
  pols : Tab Policer
  /-- Key die × 16384 + index. -/
  dies : Tab PolDie
  /-- The command latched while POL_CMD.BUSY is 1: die, OP, CLR, INDEX (R137). -/
  cmd : Option (Nat × Bool × Bool × Nat)
  /-- Key port × 4 + class; unlisted: both buckets full (log entry 30). -/
  shp : Tab Shaper
  /-- Deficit of VC1–VC6, key port × 8 + VC (R134). -/
  deficit : Tab Int
  /-- VC that deficit round-robin serves next, by port. -/
  turn : Tab Nat
deriving DecidableEq, Repr, Inhabited

/-- An entry of a transmit timestamp queue (spec/13 R341, Table 13-1). -/
structure TsqEntry where
  d0 : Dom
  d1 : Dom
  tsid : BitVec 16
  port : Nat
  lost : Bool
deriving DecidableEq, Repr, Inhabited

/-- An armed launch slot (spec/13 R342): target, the domain it is bound to, and its frame. -/
structure Launch where
  slot : Nat
  tick : BitVec 32
  dom : Nat
  port : Nat
  vc : Nat
  tsid : Option (BitVec 16)
  frame : Frame
  reply : Reply
  /-- Placed in egress staging at its target, and not yet sent. -/
  fired : Bool
  /-- TIME cycle at which it was placed. -/
  firedAt : Nat
deriving DecidableEq, Repr, Inhabited

/-- Time and synchronisation (spec/13).  `pend` is a pending switch: tick and bound domain. -/
structure TimeState where
  d0 : Dom
  d1 : Dom
  pend : Option (BitVec 32 × Nat)
  /-- Domains whose TIME_SET has been written and not yet loaded (R335). -/
  setPend : List Nat
  /-- Steps written to TIME_ADJ and not yet added, oldest first: domain, nanoseconds (R335). -/
  adj : List (Nat × Int)
  tsq : List (List TsqEntry)
  launches : List Launch
  ppsOut : Bool
deriving DecidableEq, Repr, Inhabited

/-- A descriptor brought in and not yet carried out (spec/14 R352, R353, R360, R365; log entry 11): its ring, 18 for the
management port, 19 + d for the table window of die d; TAG, OPCODE and PARAMS; the data that a CMD frame carries behind it. -/
structure Fetched where
  ring : Nat
  tag : BitVec 32
  opcode : Nat
  params : List Byte
  data : List Byte
  /-- PCIE resets seen when it was fetched (spec/15 R385). -/
  epoch : Nat
deriving DecidableEq, Repr, Inhabited

/-- What a ring holds inside the device (spec/14 R349–R352, R364): completion entries reserved,
entries that wait while the ring is disabled, entries written since EN was set, entries written
since the last interrupt, commands fetched but not complete, and the TIME cycle of the first entry since that interrupt. -/
structure RingSt where
  reserved : Nat
  pend : List (List Byte)
  total : Nat
  since : Nat
  open_ : Nat
  first : Nat
deriving DecidableEq, Repr, Inhabited

/-- A management frame that the device sends (spec/14 R365). -/
structure MgmtOut where
  typ : Nat
  seq : Nat
  body : List Byte
deriving DecidableEq, Repr, Inhabited

/-- A management frame as sent (spec/14 R365, R367): its destination where the spec gives one; EtherType, frame and tag. -/
structure MgmtSent where
  dst : Option (BitVec 48)
  bytes : List Byte
deriving DecidableEq, Repr, Inhabited

/-- A firmware image that has passed its checks (spec/14 R369): version and SVN. -/
structure FwImg where
  version : BitVec 32
  svn : BitVec 16
deriving DecidableEq, Repr, Inhabited

/-- Tailor's restart (spec/14 R371): running, restarting (with the command to complete), stopped. -/
inductive TlrRun where
  | off
  | running
  | restarting (reply : Option Reply)
  | stopped
deriving DecidableEq, Repr, Inhabited

/-- A write of the device to host memory: address and bytes.  The list of them is the model's own
record of what left the device (log entry 7). -/
structure DmaWr where
  addr : Nat
  bytes : List Byte
deriving DecidableEq, Repr, Inhabited

/-- Host interface, management port and Tailor (spec/14). -/
structure HostState where
  rings : Tab RingSt
  fetched : List Fetched
  /-- Command ring that round-robin serves next (R352). -/
  turn : Nat
  /-- LAST, the last accepted SEQ of the management port, and the last SEQ sent (R365, R366). -/
  last : Nat
  seq : Nat
  mgmtTx : List MgmtOut
  /-- The management frames sent: the model's own record (log entry 134). -/
  mgmtSent : List MgmtSent
  /-- Pieces of the image that FW_STAGE collects, by byte offset (R371). -/
  stage : Tab Byte
  stageLen : Nat
  checked : Option FwImg
  image : Option FwImg
  tlr : TlrRun
  /-- TIME cycle of the last watchdog restart (R372). -/
  tlrAt : Option Nat
  /-- The image collected from BOOT_IMG frames (R370). -/
  bootBuf : List Byte
  estop : Bool
  /-- PCIE resets so far: a command accepted before one writes no completion entry (R385). -/
  epoch : Nat
  /-- The device is stopped by a device fault (R405). -/
  fault : Bool
  /-- Interrupts raised: vectors, newest first, at most 32 kept (R364). -/
  irqs : List Nat
  /-- Address straps of the I3C target as POR_N rose, and its dynamic address (spec/18 R449). -/
  i3cStrap : BitVec 2
  i3cAddr : Option (BitVec 7)
  /-- Minimum SVN that FW_COMMIT_SVN has programmed into the fuses since manufacture (R373). -/
  fuseSvn : Option (BitVec 16)
  /-- Host-memory writes that wait while the PCIe PHY wakes (spec/15 R392). -/
  dmaHeld : List DmaWr
deriving DecidableEq, Repr, Inhabited

/-- A block as it went to sleep: its registers and counters by offset (spec/01 R20). -/
structure Slept where
  regs : Tab Word
  cnt : Tab (BitVec 48)
deriving DecidableEq, Repr, Inhabited

/-- A write held for a sleeping block (spec/01 R20): its domain and offset, whether its block was locked, its value. -/
structure HeldWr where
  dom : Nat
  off : Nat
  lk : Bool
  val : Word
deriving DecidableEq, Repr, Inhabited

/-- Power, clocks, thermal and start-up beside their registers (spec/15). -/
structure PwrState where
  /-- Domains on their way to ON (R392). -/
  waking : List Nat
  /-- Writes held for sleeping blocks, oldest first (spec/01 R20). -/
  heldWr : List HeldWr
  /-- Domains that are not ON, as they went to sleep (spec/01 R20, spec/17 R436). -/
  slept : Tab Slept
  /-- Sensors whose last sample met the trip temperature: dies 0–3, stacks 16–27 (R398). -/
  tripArm : List Nat
  /-- Dies whose ILIM_Nd input is low, and dies in the 100 µs after it rose (R396). -/
  ilimLow : List Nat
  ilimHold : List Nat
  /-- Throttle level of each die from its temperature alone (R396). -/
  thmNat : List Nat
  /-- Permitted issue fraction of each cluster, in quarters (R397). -/
  frac : List Nat
  /-- TIME cycle since which a domain has had no work (R391), for the domains that have none. -/
  idle : Tab Nat
  /-- What the host enables of the PCIe link's low-power states, and what the link asks for (R393). -/
  aspm : PcieLow
  /-- A reference switch under way to input 0 or 1 (R387). -/
  refSwitch : Option Nat
  /-- POR_N and PERST# are high. -/
  porHigh : Bool
  perstHigh : Bool
  /-- Start-up steps done: 0 in reset, 3 endpoint, 6 stacks and lasers, 8 READY (R399). -/
  step : Nat
  /-- The device has tripped: its clocks stand, KILL and shutters hold (R398). -/
  tripped : Bool
  /-- THERMTRIP_N is driven low. -/
  trip_n : Bool
  /-- What the last POR_RELEASE found outside the device; a warm reset finds the same (log entry 55). -/
  found : Option StartupIn
deriving DecidableEq, Repr, Inhabited

/-- A lane's training cache record in the Bolt store (spec/11 R301): the partner's key, the taps of
its strands and the frequency offset, the last of which no register shows. -/
structure LaneCache where
  serial : BitVec 32
  lane : BitVec 9
  taps : List (BitVec 64)
  freq : BitVec 32
deriving DecidableEq, Repr, Inhabited

/-- A lane beside its registers (spec/11 R295–R306). -/
structure LaneSt where
  /-- Retrain delay last used, ms; none: no failure since a reset or 1 s of UP (R303). -/
  delay : Option Nat
  /-- TIME cycle at which the lane last entered UP. -/
  upAt : Option Nat
  /-- Windows in a row below FOM_WARN, by strand (R296). -/
  low : List Nat
  /-- Windows in a row below FOM_WARN while the lane is UP, by strand (R297). -/
  weak : List Nat
  /-- Windows in a row at or above FOM_TRAIN, by strand (R302). -/
  pass : List Nat
  /-- Windows for which exactly one strand has stayed below the threshold (R302). -/
  below : Nat
  lastGood : List (Option (BitVec 64))
  /-- Adaptation step by strand: true COARSE, false FINE. -/
  coarse : List Bool
  /-- The key of the loaded cache record, and whether a training frame has been checked against it. -/
  key : Option (BitVec 32 × BitVec 9)
  checked : Bool
  /-- MINFOM of the partner's last good training frame, and its SERIAL and LANE. -/
  partnerFom : Nat
  partner : Option (BitVec 32 × BitVec 9)
  /-- The strand (0–3 of this lane) that claims SX (R302). -/
  claim : Option Nat
  /-- Uncorrectable codewords in a row, and codewords since each of the recent ones (R304). -/
  ucwRun : Nat
  ucwAge : List Nat
  /-- Ready to leave ALIGN: waits for the port's other lanes. -/
  aligned : Bool
  /-- Frequency offset to the partner, as the phase tracker holds it (R294, R301). -/
  freq : BitVec 32
  /-- What FINE updates have accumulated below one unit of a tap, in eighths, by strand and tap (R296). -/
  frac : List (List Nat)
  /-- TIME cycle at which the lane claimed SX, and whether the mapping has still to be counted: an odd lane's claim stands
  once the even lane can no longer claim in the same window (R302). -/
  claimAt : Nat
  claimDue : Bool
  /-- TIME cycle of the last cause that reached the lane, and whether a re-sweep gave it (R304, spec/12 R327). -/
  causeAt : Option Nat
  sweepLos : Bool
  /-- The training frame that the lane's strands send (R300). -/
  sent : Option TrainFrame
deriving DecidableEq, Repr, Inhabited

/-- Stacked memory (spec/09). -/
structure MemState where
  /-- Bytes by address; an unlisted byte reads 0 (log entry 5). -/
  bytes : Tab Byte
  /-- Poisoned sectors, address / 64. -/
  poison : List Nat
  reqs : List MemOut
  resps : List MemResp
  /-- The device high-water condition holds (R250). -/
  high : Bool
  /-- TIME cycles of the last 64 corrected errors of each lane, oldest first, key stack × 8192 + channel × 128
  + lane (R261). -/
  laneErr : Tab (List Nat)
  /-- Lanes pending repair (R261). -/
  lanePend : List Nat
  /-- Next address of the scrubber (R259). -/
  scrubPos : Nat
  /-- Threshold in °C at which each stack entered its co-throttle level (R263). -/
  entered : Tab Nat
  /-- Settings that training has left in each stack (R260). -/
  settings : Tab Nat
  /-- The model's own: what the check code finds in sectors that the present row reads (R257); empty between rows. -/
  flaws : List (Nat × Ecc)
deriving DecidableEq, Repr, Inhabited

/-- A Pattern table entry (spec/07 R174); its place in the collective state region. -/
structure Pattern where
  valid : Bool
  part : BitVec 12
  pgen : BitVec 16
  members : List (BitVec 64)
  base : Nat
deriving DecidableEq, Repr, Inhabited

/-- A held subtree of an ORDERED chunk (spec/06 R158, spec/07 R192); `out`: its record in the context's spill
area, where its values stand then. -/
structure Held where
  pos : Nat
  size : Nat
  vals : List Nat
  out : Option Nat
deriving DecidableEq, Repr, Inhabited

/-- What the shadow core has repeated of a sampled chunk (spec/06 R168): operands, members, sum, held subtrees. -/
structure ShadowWork where
  ops : Nat
  count : Nat
  acc : Option (List Nat)
  held : List Held
deriving DecidableEq, Repr, Inhabited

/-- A chunk under way at its core (spec/07 R187–R192, spec/08 R216–R222). -/
structure Chunk where
  idx : Nat
  /-- TIME cycle of the first contribution, while the straggler timer runs (R197). -/
  timer : Option Nat
  /-- Members accumulated in the core, and counted by count notices of the spill area. -/
  count : Nat
  memCount : Nat
  acc : Option (List Nat)
  held : List Held
  /-- Marked spilled (R191). -/
  spilled : Bool
  /-- Bytes of the memory accumulator that are still to come back, and those that came (R253). -/
  rdWait : Option Nat
  rdBuf : Tab Byte
  sampled : Bool
  /-- The shadow core that repeats a sampled chunk (R167), and what it has repeated. -/
  shadow : Option Nat
  rep : ShadowWork
  /-- The ranks of each operand of a sampled chunk, in the order in which the primary accumulated them (R168). -/
  log : List (List Nat)
  /-- What the memory accumulator held when it came back (R253). -/
  back : Option (List Nat)
  /-- The reduction is complete; `res` is its result in the accumulation format. -/
  done : Bool
  res : List Nat
  /-- A sampled result has been compared (R169). -/
  compared : Bool
  /-- MIRROR segments received (R217), each with its gr. -/
  segs : List (Nat × List Nat)
  /-- RUB: the update has been written to the basted side (R218 step 3; ORTHO: the momentum). -/
  updated : Bool
  /-- ORTHO: the chunk's block has been updated (R211). -/
  blk : Bool
  /-- STITCH, sampled: what the programs of primary (false) and shadow (true) have written, by address, held until it has
  been compared (spec/06 R169). -/
  writes : List (Bool × Tab Byte)
deriving DecidableEq, Repr, Inhabited

/-- The first abort of a context (spec/07 R199). -/
structure AbortRec where
  reason : Nat
  rank : Nat
  chunk : Nat
deriving DecidableEq, Repr, Inhabited

/-- A collective context (spec/07 R177–R198).  States as in Table 07-4. -/
structure Ctx where
  st : Nat
  p : CollParams
  gen : BitVec 8
  pgen : BitVec 16
  sig : BitVec 32
  members : List (BitVec 64)
  /-- Placed core names 8c + j, ascending (R188). -/
  cores : List Nat
  /-- Bobbin slots held on each placed core (R189). -/
  bob : List (List Nat)
  /-- NEXT of each rank; unlisted is 0 (R178). -/
  next : Tab Nat
  /-- The context's area in the collective state region (R179): address, size, spill area. -/
  area : Nat
  areaSize : Nat
  spill : Nat
  /-- Overlock sampling exponent; none: nothing is sampled (R166). -/
  ovl : Option Nat
  limit : Nat
  granted : Nat
  /-- Lowest incomplete chunk, and complete chunks above it (R194). -/
  low : Nat
  above : List Nat
  /-- One more than the highest chunk index taken; HWM once CLOSING (R198). -/
  taken : Nat
  hwm : Nat
  /-- GRANTED in the last CREDIT frame, and its TIME cycle (R195). -/
  lastCred : Nat
  credAt : Nat
  abort : Option AbortRec
  chunks : List Chunk
  /-- TIME cycle of entering QUIESCE. -/
  quarAt : Nat
  /-- Frames of the next round held at their tile (spec/08 R217): tile, ingress frame. -/
  heldFr : List (Nat × Nat)
  /-- MIRROR and MACK frames seen in the open round: kind, chunk, segment. -/
  seen : List (Nat × Nat × Nat)
  /-- Chunk digests of the open round by chunk index. -/
  digests : Tab (BitVec 32)
  /-- Chunks of the open round that meet the seal conditions (spec/08 R222). -/
  sealed : List Nat
  /-- On a MIRROR shard, acknowledgements recorded and not yet sent (spec/08 R220); on a PRIMARY
  shard, MACK digests kept until the chunk's own digest exists (R217): chunk, digest. -/
  macks : List (Nat × BitVec 32)
  /-- A checkpoint keeps the next round closed (spec/08 R219). -/
  ckptHeld : Bool
deriving DecidableEq, Repr, Inhabited

/-- A pre-reducer partial under way (spec/06 R162, R163): an aligned block in ORDERED, with the
contributions of its ranks in the input format; the sum so far in FAST. -/
structure PreSlot where
  slot : Nat
  chunk : Nat
  pos : Nat
  size : Nat
  at_ : Nat
  ranks : List Nat
  sum : List Nat
  items : List (Nat × List Nat)
deriving DecidableEq, Repr, Inhabited

/-- An operand that waits at a tile for the mesh (spec/07 R189): tile, TIME cycle, operand. -/
structure OutOp where
  tile : Nat
  at_ : Nat
  p : Partial
deriving DecidableEq, Repr, Inhabited

/-- A spilled operand of a tile (spec/09 R253): REDs not yet acknowledged, member count. -/
structure SpillOp where
  id : Nat
  tile : Nat
  slot : Nat
  chunk : Nat
  wait : Nat
  count : Nat
deriving DecidableEq, Repr, Inhabited

/-- Collectives (spec/06, spec/07). -/
structure CollState where
  pats : Tab Pattern
  ctxs : Tab Ctx
  /-- GEN of the last context of each slot; unlisted is 0 (R178). -/
  gens : Tab (BitVec 8)
  /-- Taken frames of each tile that wait for their check, by ingress id (R183). -/
  taken : Tab (List Nat)
  /-- Contributions that passed and wait for the pre-reducer, by ingress id. -/
  preQ : Tab (List Nat)
  pre : Tab (List PreSlot)
  outq : List OutOp
  /-- Receive staging of each core, key 9c + j, oldest first (R189). -/
  stg : Tab (List Partial)
  spills : List SpillOp
deriving DecidableEq, Repr, Inhabited

/-- A segment of a shard (spec/08 Table 08-1), with its slot count. -/
structure Seg where
  start : Nat
  count : Nat
  prog : Nat
  ptype : Nat
  hset : Nat
  bshift : Nat
  kernel : Nat
  slots : Nat
deriving DecidableEq, Repr, Inhabited

/-- A hyperparameter set: current words, and pending words with their step (spec/08 R213). -/
structure HSet where
  cur : List (BitVec 32)
  pend : Option (BitVec 32 × List (BitVec 32))
deriving DecidableEq, Repr, Inhabited

/-- A shard (spec/08 R204). States as in Table 08-2. -/
structure Shard where
  st : Nat
  part : BitVec 12
  role : Nat
  elems : Nat
  segs : List Seg
  step : BitVec 32
  side : Nat
  lost : Bool
  rb : Bool
  hs : List HSet
  base : Nat
  z : Nat
  /-- The context slot that binds it. -/
  bound : Option Nat
  /-- Sides pinned, one entry for each reader (R226, R376). -/
  pins : List Nat
deriving DecidableEq, Repr, Inhabited

/-- A Stitch kernel (spec/08 R229). -/
structure Kernel where
  regs : Nat
  spad : Nat
  slots : Nat
  code : List (BitVec 64)
  base : Nat
deriving DecidableEq, Repr, Inhabited

/-- An OPT_COMMIT that waits for its tick (spec/08 R223). -/
structure OptCommit where
  part : BitVec 12
  step : BitVec 32
  tick : BitVec 32
  dom : Nat
  reply : Reply
  /-- TIME cycle of the tick, once it has come: the commit takes effect at the end of that CTRL cycle (R224). -/
  at_ : Option Nat
deriving DecidableEq, Repr, Inhabited

/-- A shard captured by a checkpoint (spec/08 R226): SH, the shard as captured, its side's bytes
when the read of the side has ended. -/
structure CkptShard where
  sh : Nat
  snap : Shard
  data : Option (List Byte)
  bad : Bool
deriving DecidableEq, Repr, Inhabited

/-- A checkpoint under way. -/
structure Ckpt where
  part : BitVec 12
  gen : BitVec 32
  scope : Nat
  step : BitVec 32
  shards : List CkptShard
  reply : Reply
deriving DecidableEq, Repr, Inhabited

/-- An OPT_RESTORE under way (spec/08 R227). -/
structure Restore where
  part : BitVec 12
  gen : BitVec 32
  reply : Reply
deriving DecidableEq, Repr, Inhabited

/-- A SHARD_READ under way (spec/14 R376): the bytes as captured. -/
structure ShardRd where
  sh : Nat
  side : Nat
  addr : Nat
  bytes : List Byte
  step : BitVec 32
  reply : Reply
deriving DecidableEq, Repr, Inhabited

/-- A path of a group that waits on the divergence stack (spec/08 R231): its threads, where it
resumes, and the JOIN at which it ends. -/
structure Diverge where
  mask : BitVec 64
  pc : Nat
  join : Option Nat
deriving DecidableEq, Repr, Inhabited

/-- A resident group of 64 threads (spec/08 R230, R231). Registers by lane × 64 + number, predicates
by lane × 8 + number, all zero at the start (log entry 40). -/
structure Grp where
  g : Nat
  core : Nat
  /-- TIME cycle in which it started (spec/08 R231). -/
  born : Nat
  /-- Address of its scratchpad window on its core. -/
  res : Nat
  pc : Nat
  mask : BitVec 64
  ended : BitVec 64
  stack : List Diverge
  regs : Tab (BitVec 32)
  preds : Tab Bool
  /-- RM = 2 conversions of each lane so far (R237). -/
  srCnt : Tab Nat
  bar : Bool
  /-- Stacked-memory accesses not yet answered. -/
  memWait : Nat
  /-- Matrix instructions not yet complete: their words, with the registers' lane 0 values. -/
  mma : List (BitVec 64 × List (BitVec 32))
deriving DecidableEq, Repr, Inhabited

/-- What a launch runs for: the host, or the STITCH segment of a chunk (slot, chunk, segment). -/
inductive GridFor where
  | host (reply : Reply)
  | seg (slot chunk seg : Nat)
deriving DecidableEq, Repr, Inhabited

/-- A launch (spec/08 R230). -/
structure Grid where
  id : Nat
  kernel : Nat
  g : Nat
  cores : List Nat
  srSeed : BitVec 32
  wins : List MemWin
  limitUs : Nat
  at_ : Nat
  why : GridFor
  /-- Die of the first core in PLACE, which counts its events (spec/08 R242). -/
  die : Nat
  /-- Groups started so far on each core of `cores`. -/
  started : List Nat
  /-- Groups that have ended. -/
  done : Nat
  groups : List Grp
  /-- The program repeats a sampled chunk on its shadow (spec/06 R168). -/
  rep : Bool
  /-- Bytes of shard state that a program of a sampled chunk has written and that are held (spec/06 R169); none: its
  writes go to memory. -/
  held : Option (Tab Byte)
deriving DecidableEq, Repr, Inhabited

/-- The optimizer and Stitch (spec/08). -/
structure OptState where
  shards : Tab Shard
  kernels : Tab Kernel
  commits : List OptCommit
  ckpts : List Ckpt
  restores : List Restore
  reads : List ShardRd
  launches : List Grid
  nextLaunch : Nat
  /-- Scratchpad bytes, key core × 2^22 + address; an unlisted byte reads 0 (log entry 41). -/
  spad : Tab Byte
  /-- Accumulators of the matrix engines, key ((core × 4 + engine) × 32 + row) × 32 + column; an
  unlisted one is 0 (spec/06 Matrix engines; log entry 40). -/
  accs : Tab (BitVec 32)
deriving DecidableEq, Repr, Inhabited

/-- A shard in a checkpoint image (spec/10 R275): its record, its side and the side's CRC-32C. -/
structure ImgShard where
  sh : Nat
  snap : Shard
  side : List Byte
  crc : BitVec 32
deriving DecidableEq, Repr, Inhabited

/-- A catalogued image (spec/10 R275, R276); state 1 WRITING, 2 COMPLETE, 3 BAD. -/
structure BoltImg where
  part : BitVec 12
  gen : BitVec 32
  scope : Nat
  st : Nat
  step : BitVec 32
  count : Nat
  size : Nat
  time : Nat
  crc : BitVec 32
  shards : List ImgShard
  bands : List Nat
  /-- Write sequence number of its codewords (R270); key of its bytes that the spec does not lay out. -/
  seq : Nat
  key : Nat
  /-- Codewords, by page and place, that a move of their band could not read (R270, log entry 135). -/
  lost : List (Nat × Nat)
deriving DecidableEq, Repr, Inhabited

/-- A record of the journal: sequence number, catalogue, band map (spec/10 R280). -/
structure JournalRec where
  seq : Nat
  imgs : List BoltImg
  map : Tab Nat
  /-- The CRC-32C of its first, of its second copy fails. -/
  bad1 : Bool
  bad2 : Bool
deriving DecidableEq, Repr, Inhabited

/-- A BOLT_EXPORT or a BOLT_DELETE under way. -/
structure BoltJob where
  part : BitVec 12
  gen : BitVec 32
  addr : Nat
  reply : Reply
deriving DecidableEq, Repr, Inhabited

/-- The repair record (spec/10 R283, spec/09 R261, spec/16 R419): ID_SPARE.USED, REL_SPARE_MAP and
the memory lanes pending repair. -/
structure RepairRec where
  spare : Nat
  map : Nat
  lanes : List Nat
deriving DecidableEq, Repr, Inhabited

/-- The Bolt store (spec/10): all of it but the jobs outlives every reset. -/
structure BoltState where
  imgs : List BoltImg
  /-- Band map (R271): the spare block that stands for a band's block on a plane, key band × 512 + plane. -/
  map : Tab Nat
  /-- Journal of catalogue and band map, the newest record first (R280). -/
  journal : List JournalRec
  /-- Write sequence number of the data of each band, and the next one (R270). -/
  wseq : Tab Nat
  nextSeq : Nat
  /-- Erase count of each band; what a replaced plane-block had missed, key band × 512 + plane. -/
  erases : Tab Nat
  repl : Tab Nat
  /-- Freed bands not yet erased, oldest first (R272). -/
  dirty : List Nat
  /-- Spares of each plane that are used up or were marked bad at the factory (R269, R274). -/
  spareUsed : Tab Nat
  /-- Grown bad blocks: plane, block (R271, R284). -/
  bad : List (Nat × Nat)
  /-- Page reads of each block since its band was erased (R273), key band × 513 + plane, where 512
  stands for the reads of every block of the band; bands due for relocation. -/
  reads : Tab Nat
  reloc : List Nat
  /-- TIME cycle at which every page of each band had last been read, and of later reads of single pages, key band × 65536 +
  page; the next page that the scrubber reads. -/
  scrubAt : Tab Nat
  pageAt : Tab Nat
  scrubPos : Nat
  exports : List BoltJob
  deletes : List BoltJob
  /-- Codewords read since mount with 0–7, 8–23, 24–48 and 49 or more corrected bits (R284). -/
  bins : List Nat
  /-- Records of the system area (R283): the version of each, then their contents. -/
  recVer : Tab Nat
  /-- Records whose copies both fail their CRC-32C. -/
  recBad : List BoltRec
  lane : Tab LaneCache
  /-- Training settings of the stacks (R260). -/
  memTrain : Tab Nat
  seamMap : Tab (List Nat)
  /-- Laser-aging history: serial, then BIAS and feed power of each wavelength, by source. -/
  aging : Tab (List Nat)
  repair : Option RepairRec
  boots : Nat
deriving DecidableEq, Repr, Inhabited

/-- A ring beside its register (spec/12 R312–R316): heater reference in codes, temperature reference
in °C, feed-forward slope in 1/1140 code per °C, windows in a row of a wrong tone, failed sweeps in
a row. -/
structure RingLock where
  href : Nat
  tref : Int
  kff : Nat
  wrong : Nat
  fails : Nat
  /-- What the feedback loop adds to the feed-forward term, in heater codes (R313). -/
  corr : Int
deriving DecidableEq, Repr, Inhabited

/-- A strand's received power against LOS (spec/12 R319): samples in a row below and at or above. -/
structure LosSt where
  below : Nat
  above : Nat
  lost : Bool
deriving DecidableEq, Repr, Inhabited

/-- A feed fibre (spec/12 R324): its tap sees full power; a feed probe runs; its own KILL is asserted. -/
structure Feed where
  lit : Bool
  probing : Bool
  killed : Bool
deriving DecidableEq, Repr, Inhabited

/-- Optical engines and laser sources beside their registers (spec/12). -/
structure OeState where
  /-- Key ((engine × 2 + transmit) × 16 + fibre) × 9 + channel. -/
  rings : Tab RingLock
  /-- Key (engine × 16 + fibre) × 9 + channel. -/
  los : Tab LosSt
  /-- Key engine × 4 + group. -/
  feeds : Tab Feed
  /-- Failed transactions in a row of each source (R320). -/
  busFails : Tab Nat
  /-- Wavelengths (9 × source + i) that have reached WARN_PCT, and that are at CAP below target. -/
  aged : List Nat
  capped : List Nat
  /-- What the last transaction of each source's bus returned. -/
  busData : Tab (BitVec 16)
deriving DecidableEq, Repr, Inhabited

/-- A dump being written (spec/17 R435, R436): FROZEN, and NS at its start or at the freeze. -/
structure PmcDump where
  frozen : Bool
  ns : Nat
  /-- Counter records still to be read and written: row of the device's counters, record of the row (R435). -/
  left : List (Nat × Nat)
deriving DecidableEq, Repr, Inhabited

/-- The collector and Swatch sampling beside their registers (spec/17). -/
structure PmcState where
  /-- The snapshot of the last freeze: counters and bins; none before the first. -/
  snap : Option (Tab (BitVec 48) × Tab (BitVec 48))
  dump : Option PmcDump
  /-- A MODE written while a dump is being written (R434). -/
  mode : Option Nat
  /-- Domain to which PMC_FREEZE_AT is bound (spec/13 R338). -/
  frzDom : Nat
  /-- Eligible frames and samples of each tile (R438), by 8y + x. -/
  elig : Tab Nat
  samples : Tab Nat
  /-- Records of each die that wait for the ring (R441). -/
  swq : Tab (List (List Byte))
  /-- The policers' counters in the snapshot (R436), as the policers hold them. -/
  snapPol : Tab PolDie
deriving DecidableEq, Repr, Inhabited


/-- The device: everything the machine holds but the queue of commands. -/
structure Dev where
  /-- Registers of BAR0 by offset; an unlisted one holds its reset value (RegMap). -/
  regs : Tab Word
  /-- Counters by the BAR0 offset of their LO half; an unlisted one is 0 (spec/00 R11, spec/17 R430). -/
  cnt : Tab (BitVec 48)
  /-- LOAD bins of spec/16 R411, key 4 × class + band: which Table 16-4 gives bands of their own. -/
  loadBins : Tab (BitVec 48)
  /-- NAME_LO staging registers by offset (spec/00 R10). -/
  stage : Tab Word
  /-- NAME_HI snapshot registers by offset of NAME_HI (spec/00 R11). -/
  snap : Tab Word
  /-- The answer to the last BAR0 access. -/
  bar : BarResult
  /-- TIME cycles since reset. -/
  now : Nat
  /-- Free values drawn so far (model's own field). -/
  draw : Nat
  /-- What the device has written to host memory, oldest first (model's own field). -/
  dmaOut : List DmaWr
  time : TimeState
  rel : RelState
  host : HostState
  pwr : PwrState
  fwd : FwdState
  sw : SwState
  seams : Tab Seam
  rt : RtState
  pol : PolState
  /-- Lanes by number; an unlisted lane is as after reset. -/
  lanes : Tab LaneSt
  mem : MemState
  coll : CollState
  opt : OptState
  bolt : BoltState
  oe : OeState
  pmc : PmcState
deriving DecidableEq, Repr, Inhabited

/-- The machine: the device and the commands that wait, first in first out. -/
structure State where
  dev : Dev
  pending : List Instr
deriving DecidableEq, Repr

/-- Why the machine stops with a fault. -/
inductive Fault where
  /-- Raised by the stacked-memory commands on an address outside the 576 GiB space, which the
  spec says does not exist (spec/09 R243). Safe: the machine stops. -/
  | noSuchAddress
deriving DecidableEq, Repr

/-- Why the machine refuses a command. -/
inductive Refusal where
  /-- Raised by the dispatcher for a command that has no meaning yet. Safe: the machine stops. -/
  | notModelled (mnemonic : String)
deriving DecidableEq, Repr

/-- Events, records and injection after a cold reset. -/
def RelState.reset : RelState :=
  ⟨[], 0, [], [], [], none, [], false, [], [], [], [], none, [], []⟩

/-- Host interface after a cold reset. -/
def HostState.reset : HostState :=
  ⟨[], [], 0, 0, 0, [], [], [], 0, none, none, .off, none, [], false, 0, false, [], 0, none, none, []⟩

/-- Power and start-up after a cold reset: POR_N is low, every cluster may issue in full. -/
def PwrState.reset : PwrState :=
  ⟨[], [], [], [], [], [], List.replicate 4 0, List.replicate 8 4, [], ⟨false, false, false, 0⟩, none, false, false, 0, false, false, none⟩

/-- Forwarding tables after a cold reset: empty (spec/15 R399). -/
def FwdState.reset : FwdState :=
  ⟨[], [], [], [], [], 0, [], none, false, [], List.replicate 4 [], List.replicate 4 [], [], 0, 0⟩

/-- Switch core after a cold reset: every pool and queue empty. -/
def SwState.reset : SwState := ⟨[], 0, [], [], [], [], [], [], [], [], [], [], [], [], [], []⟩

/-- Routing after a cold reset. -/
def RtState.reset : RtState := ⟨[], [], [], [], [], [], [], [], [], [], [], []⟩

/-- Policing and shaping after a cold reset: every policer and shaper disabled. -/
def PolState.reset : PolState := ⟨[], [], none, [], [], []⟩

/-- Stacked memory after a cold reset: nothing written. -/
def MemState.reset : MemState :=
  ⟨[], [], [], [], false, [], [], 0, [], [], []⟩

/-- Collectives after a cold reset: no pattern, every slot FREE, every GEN 0. -/
def CollState.reset : CollState := ⟨[], [], [], [], [], [], [], [], []⟩

/-- Optimizer after a cold reset: every shard FREE, no kernel. -/
def OptState.reset : OptState := ⟨[], [], [], [], [], [], [], 0, [], []⟩

/-- The Bolt store before it has ever been written: no image, nothing erased or worn (log entry 45). -/
def BoltState.reset : BoltState :=
  ⟨[], [], [⟨0, [], [], false, false⟩], [], 1, [], [], [], [], [], [], [], [], [], 0, [], [], [0, 0, 0, 0], [], [], [], [], [], [], none, 0⟩

/-- Optical engines after a cold reset: no ring locked, no feed lit. -/
def OeState.reset : OeState := ⟨[], [], [], [], [], [], []⟩

/-- The collector after a cold reset. -/
def PmcState.reset : PmcState := ⟨none, none, none, 0, [], [], [], []⟩

/-- The device right after a cold reset. -/
def Dev.reset : Dev where
  regs := []
  cnt := []
  loadBins := []
  stage := []
  snap := []
  bar := .none
  now := 0
  draw := 0
  dmaOut := []
  time := ⟨⟨0, 0⟩, ⟨0, 0⟩, none, [], [], List.replicate 4 [], [], false⟩
  rel := .reset
  host := .reset
  pwr := .reset
  fwd := .reset
  sw := .reset
  seams := []
  rt := .reset
  pol := .reset
  lanes := []
  mem := .reset
  coll := .reset
  opt := .reset
  bolt := .reset
  oe := .reset
  pmc := .reset

/-- The machine right after a cold reset: every register at its reset value (an unlisted register
reads its reset value), no command waiting. -/
def State.reset : State := ⟨Dev.reset, []⟩

end Sys2Proof.Machine
end

