-- ==== Sys2Proof/Machine/Flags.lean ====
section
/-! DEFINITION. Registers, counters, sticky status bits and events: the small operations that every
meaning is built from (spec/00 R7–R11, spec/14 R361, R362, spec/16 R411–R416). -/
namespace Sys2Proof.Machine

/-! ### Registers -/

/-- Σ index × stride over the dimensions of a register. -/
def dimOff : List (Nat × Nat) → List Nat → Nat
  | (_, s) :: r, i :: is => i * s + dimOff r is
  | _, _ => 0

/-- BAR0 offset of an instance of a register. -/
def regAddr (r : Reg) (ix : List Nat) : Nat := (regRow r).base + dimOff (regRow r).dims ix

/-- Reset value of a register. -/
def rowReset (w : RegRow) : Nat := w.flds.foldl (fun a f => a + f.reset * 2 ^ f.lsb) 0

/-- Value of an instance of a register. -/
def rd (d : Dev) (r : Reg) (ix : List Nat := []) : Nat :=
  match tget? d.regs (regAddr r ix) with
  | some w => w.toNat
  | none => rowReset (regRow r)

/-- Value of bits [msb:lsb] of a register. -/
def rdf (d : Dev) (r : Reg) (ix : List Nat) (msb lsb : Nat) : Nat := bits (rd d r ix) msb lsb

/-- One bit of a register. -/
def rdb (d : Dev) (r : Reg) (ix : List Nat) (n : Nat) : Bool := bit (rd d r ix) n

/-- Store a register whole, whatever its access types: what the device itself writes. -/
def wr (d : Dev) (r : Reg) (ix : List Nat) (v : Nat) : Dev :=
  { d with regs := tput (w32 (rowReset (regRow r))) d.regs (regAddr r ix) (w32 v) }

/-- Store bits [msb:lsb] of a register. -/
def wrf (d : Dev) (r : Reg) (ix : List Nat) (msb lsb v : Nat) : Dev :=
  wr d r ix (putBits (rd d r ix) msb lsb v)

/-- Split an offset into instance indices along the dimensions, widest stride first. -/
def splitIx : List (Nat × Nat) → Nat → Option (List Nat)
  | [], x => if x = 0 then some [] else none
  | (c, s) :: r, x => if x / s < c then (splitIx r (x % s)).map (x / s :: ·) else none

/-- The first register of a list that covers an offset. -/
def findReg : List Reg → Nat → Option (Reg × List Nat)
  | [], _ => none
  | r :: rs, off =>
    let w := regRow r
    if off < w.base then findReg rs off
    else match splitIx w.dims (off - w.base) with
      | some ix => some (r, ix)
      | none => findReg rs off

/-- An offset of a die's table windows is one register for all four dies, except the table windows
of R360 and the per-die counters (spec/02 R64): fold it onto die 0. -/
def canonOff (off : Nat) : Nat :=
  if 0x800000 ≤ off ∧ off < 0x2800000 then
    let o := (off - 0x800000) % 0x800000
    if 0x400000 ≤ o ∧ ¬(0x401000 ≤ o ∧ o < 0x402000) ∧ ¬(0x403010 ≤ o ∧ o < 0x403028)
      ∧ ¬(0x406000 ≤ o ∧ o < 0x408000) then 0x800000 + o else off
  else off

/-- The register at an offset (spec/01 R22, R23). -/
def decodeReg (off : Nat) : Option (Reg × List Nat) :=
  let o := canonOff off
  if o < 0x800000 then findReg globalRegs o
  else if o < 0x2800000 then
    if (o - 0x800000) % 0x800000 < 0x100000 then findReg dieTileRegs o else findReg dieOtherRegs o
  else findReg unitsRegs o

/-! ### Counters -/

/-- The counter blocks of the device: offset of counter 0 of the first instance, instances, count. -/
def cntBlocks : List (Nat × List (Nat × Nat) × Nat) :=
  let dm := (4, 0x800000)
  let tl := (16, 0x10000)
  let cl := (2, 0x40000)
  [(0x1100, [], 9), (0x102000, [], 13), (0x401000, [], 12), (0x601000, [], 7), (0x701000, [], 14),
   (0x702000, [], 60),
   (0xC01000, [dm], 20), (0xC01100, [dm], 17), (0xC01200, [dm], 2), (0xC01300, [dm], 11),
   (0xC01400, [dm], 12), (0xB01000, [dm], 7), (0xB02020, [dm], 4),
   (0x801000, [dm, tl, (8, 0x80)], 12), (0x800900, [dm, tl], 1), (0x803000, [dm, tl], 11),
   (0x805800, [dm, tl], 1), (0x806100, [dm, tl], 4), (0x807020, [dm, tl], 4),
   (0xA00100, [dm, cl, (9, 0x4000)], 11), (0xA00220, [dm, cl, (9, 0x4000)], 4),
   (0xA30100, [dm, cl], 1),
   (0x2800800, [(16, 0x20000)], 7), (0x2A00800, [(8, 0x40)], 5), (0x2CC1000, [], 13),
   (0x2C00120, [(12, 0x10000)], 4), (0x2E01000, [], 13)]

/-- Is this the offset of the LO half of a counter? -/
def isCnt (off : Nat) : Bool :=
  cntBlocks.any (fun b =>
    decide (b.1 ≤ off) && (splitIx (b.2.1 ++ [(b.2.2, 8)]) (off - b.1)).isSome)

/-- A counter's value. -/
def cntAt (d : Dev) (off : Nat) : BitVec 48 := tgetD d.cnt off 0

/-- Add to a counter, modulo 2^48 (spec/17 R430). -/
def cntAdd (d : Dev) (off n : Nat) : Dev :=
  { d with cnt := tput 0 d.cnt off (cntAt d off + BitVec.ofNat 48 n) }

/-! ### Names of parts (spec/00 R12) -/

/-- First address of a die region. -/
def dieBase (die : Nat) : Nat := 0x800000 + die * 0x800000

/-- Address of tile `t` (16 × die + index) in BAR0. -/
def tileBase (t : Nat) : Nat := dieBase (t / 16) + (t % 16) * 0x10000

/-- Warp column of a tile. -/
def tileX (t : Nat) : Nat := 4 * ((t / 16) % 2) + t % 4

/-- Weft row of a tile. -/
def tileY (t : Nat) : Nat := 4 * (t / 32) + (t % 16) / 4

/-- The tile at a column and a row. -/
def tileAt (x y : Nat) : Nat := 16 * (2 * (y / 4) + x / 4) + 4 * (y % 4) + x % 4

/-- Address of core `9c + j` in BAR0. -/
def coreBase (c : Nat) : Nat :=
  dieBase (c / 18) + 0x200000 + ((c / 9) % 2) * 0x40000 + (c % 9) * 0x4000

/-- Register indices of a tile. -/
def tix (t : Nat) : List Nat := [t / 16, t % 16]

/-- Register indices of a lane, or of a port by its first lane. -/
def lix (l : Nat) : List Nat := [l / 128, (l / 8) % 16, l % 8]

/-- Register indices of a core. -/
def cix (c : Nat) : List Nat := [c / 18, (c / 9) % 2, c % 9]

/-- A unit that has counters, a status register and event codes of its own: block code, offset of
counter 0, status register, DIE and UNIT of its events (spec/14 R460, spec/16 R413). -/
structure Src where
  blk : Nat
  cnt : Nat
  st : Reg
  ix : List Nat
  die : Nat
  unit : Nat

/-- Forwarding tables, counted on a die (Table 02-6). -/
def srcFwd (die : Nat) : Src := ⟨1, dieBase die + 0x401000, .fwdStatus, [], die, 0⟩
/-- Switch block of a tile (Table 03-9). -/
def srcSw (t : Nat) : Src := ⟨2, tileBase t + 0x3000, .swStatus, tix t, t / 16, t % 16⟩
/-- Mesh and Seam of a die (Table 03-9). -/
def srcMesh (die unit : Nat) : Src := ⟨3, dieBase die + 0x301000, .meshStatus, [die], die, unit⟩
/-- Routing, counted on a die (Table 04-6). -/
def srcRt (die unit : Nat) : Src := ⟨4, dieBase die + 0x401100, .rtStatus, [], die, unit⟩
/-- Policers (Table 05-4). -/
def srcPol (die : Nat) : Src := ⟨5, dieBase die + 0x401200, .polStatus, [], die, 0⟩
/-- Shapers of a tile (Table 05-4). -/
def srcShp (t : Nat) : Src := ⟨6, tileBase t + 0x5800, .shpStatus, tix t, t / 16, t % 16⟩
/-- A core (Table 06-10). -/
def srcCore (c : Nat) : Src := ⟨7, coreBase c + 0x100, .rcStatus, cix c, c / 18, c⟩
/-- A cluster (Table 06-10). -/
def srcCl (c : Nat) : Src :=
  ⟨8, dieBase (c / 2) + 0x200000 + (c % 2) * 0x40000 + 0x30100, .clStatus, [c / 2, c % 2], c / 2, c⟩
/-- A pre-reducer (Table 06-10). -/
def srcPre (t : Nat) : Src := ⟨9, tileBase t + 0x6100, .preStatus, tix t, t / 16, t % 16⟩
/-- Collectives on a die, of a context slot (Table 07-7). -/
def srcColl (die unit : Nat) : Src := ⟨10, dieBase die + 0x401300, .collStatus, [], die, unit⟩
/-- Optimizer on a die, of a shard (Table 08-11). -/
def srcOpt (die unit : Nat) : Src := ⟨11, dieBase die + 0x401400, .optStatus, [], die, unit⟩
/-- Stacked memory, of a stack (Table 09-7). -/
def srcMem (stack : Nat) : Src := ⟨12, 0x2CC1000, .memStatus, [], stack / 3, stack⟩
/-- Bolt store, of a flash channel (Table 10-7). -/
def srcBolt (chan : Nat) : Src := ⟨13, 0x2E01000, .boltStatus, [], chan / 4, chan⟩
/-- A lane (Table 11-6). -/
def srcLn (l : Nat) : Src :=
  ⟨14, tileBase (l / 8) + 0x1000 + 0x80 * (l % 8), .lnStatus, lix l, l / 128, l % 128⟩
/-- Lane registers of a tile (Table 11-6). -/
def srcLnTile (t : Nat) : Src := ⟨15, tileBase t + 0x900, .lnTileStatus, tix t, t / 16, t % 16⟩
/-- An optical engine; `unit` as R460 numbers its events (Table 12-10). -/
def srcOe (n unit : Nat) : Src := ⟨16, 0x2800800 + n * 0x20000, .oeStatus, [n], n / 4, unit⟩
/-- An external laser source (Table 12-10). -/
def srcEls (m : Nat) : Src :=
  ⟨17, 0x2A00800 + m * 0x40, .elsStatus, [m], if m < 4 then 1 else 3, m⟩
/-- Time (Table 13-4). -/
def srcTime (die unit : Nat) : Src := ⟨18, 0x401000, .timeStatus, [], die, unit⟩
/-- Host interface, of a ring or Tailor core (Table 14-8). -/
def srcHif (unit : Nat) : Src := ⟨19, 0x102000, .hifStatus, [], 0, unit⟩
/-- Power, clocks and thermal (Table 15-8). -/
def srcSys (die unit : Nat) : Src := ⟨20, 0x1100, .sysStatus, [], die, unit⟩
/-- Reliability (Table 16-8). -/
def srcRel (die unit : Nat) : Src := ⟨21, 0x701000, .relStatus, [], die, unit⟩
/-- The collector (Table 17-7). -/
def srcPmc : Src := ⟨22, 0x601000, .pmcStatus, [], 255, 0⟩

/-- Add `k` to counter `n` of a unit. -/
def cntN (d : Dev) (s : Src) (n k : Nat) : Dev := cntAdd d (s.cnt + 8 * n) k

/-- Add 1 to counter `n` of a unit. -/
def cnt1 (d : Dev) (s : Src) (n : Nat) : Dev := cntN d s n 1

/-- Set a sticky status bit of a unit. -/
def stSet (d : Dev) (s : Src) (b : Nat) : Dev := wr d s.st s.ix (setBit (rd d s.st s.ix) b)

/-! ### Events -/

/-- The active time domain. -/
def activeDom (d : Dev) : Nat := rdf d .timeCtl [] 0 0

/-- A domain's count. -/
def dom (d : Dev) (i : Nat) : Dom := if i = 0 then d.time.d0 else d.time.d1

/-- NS of the active domain. -/
def nsNow (d : Dev) : Nat := (dom d (activeDom d)).ns

/-- Low 32 bits of NS of the active domain: the present tick (spec/13 R337). -/
def tickNow (d : Dev) : BitVec 32 := BitVec.ofNat 32 (nsNow d)

/-- A target tick is reached when (NS − T) mod 2^32 is at most 2^31 (spec/13 R337). -/
def tickReached (ns : Nat) (t : BitVec 32) : Bool :=
  decide ((BitVec.ofNat 32 ns - t).toNat ≤ 2 ^ 31)

/-- The 32 bytes of an event record (spec/14 Table 14-4). -/
def eventBytes (e : Event) : List Byte :=
  leBytes 2 e.code ++ leBytes 1 e.die ++ leBytes 1 (b2n e.summary + 2 * b2n e.injected)
    ++ leBytes 4 e.unit ++ leBytes 8 e.time ++ [e.temp] ++ leBytes 1 e.load ++ leBytes 2 e.count
    ++ slice e.args 0 12

/-- Bytes of a management frame on the wire: 12 of header, the body, 16 of tag (spec/14 R365). -/
def mgmtLen (m : MgmtOut) : Nat := 28 + m.body.length

/-- Bytes waiting in the management port's transmit buffer. -/
def mgmtHeld (d : Dev) : Nat := d.host.mgmtTx.foldl (fun a m => a + mgmtLen m) 0

/-- Queue a frame for the management port; `false` when the 64 KiB buffer has no room (R367). -/
def mgmtPush (d : Dev) (typ : Nat) (body : List Byte) : Bool × Dev :=
  let m : MgmtOut := ⟨typ, d.host.seq + 1, body⟩
  if mgmtHeld d + mgmtLen m ≤ 65536 then
    (true, { d with host := { d.host with seq := d.host.seq + 1, mgmtTx := d.host.mgmtTx ++ [m] } })
  else (false, d)

/-- Codes never suppressed and never rate-limited (spec/16 Table 16-3). -/
def neverCodes : List Nat :=
  [0x0A00, 0x0A01, 0x0703, 0x0900, 0x0B01, 0x0B00, 0x0B80, 0x0B81, 0x1104, 0x1308, 0x1304, 0x1504,
   0x1480, 0x1502, 0x1503]

/-- Codes whose records the error log keeps beside the summaries (spec/16 R412). -/
def logCodes : List Nat := neverCodes ++ [0x0301, 0x0701, 0x0C01, 0x0D00, 0x0303, 0x1505]

/-- The roots of Table 16-3 with their dependents and, of a dependent that is a root, its own (R414). -/
def rootDeps (code : Nat) : Option (List Nat) :=
  match code with
  | 0x1003 => some [0x1003, 0x1002, 0x1000, 0x0E00, 0x0E01, 0x0402, 0x0401]
  | 0x1002 => some [0x1002, 0x0E00, 0x0E01, 0x0402, 0x0401]
  | 0x1001 => some [0x0E01, 0x0E00, 0x0402, 0x0401]
  | 0x0E00 => some [0x0E00, 0x0402, 0x0401]
  | 0x0C01 => some [0x0C01, 0x0C06]
  | 0x1401 => some [0x1400, 0x1206]
  | 0x1402 => some [0x0C03, 0x1404]
  | 0x1504 => some []
  | _ => none

/-- Engine of an event of block OE (spec/14 R460). -/
def oeOf (unit code : Nat) : Nat :=
  if 64 ≤ unit then (unit - 64) / 16 else if code = 0x1003 then unit / 4 else unit

/-- Does an event lie among engines, by itself or by its lanes? -/
def inEngines (es : List Nat) (e : Event) : Bool :=
  if e.code / 256 = 16 then es.contains (oeOf e.unit e.code)
  else e.lanes.any (fun l => es.contains (l / 32))

/-- Is an event a dependent of a root, in its scope (spec/16 Table 16-3)? -/
def inScope (root e : Event) : Bool :=
  if neverCodes.contains e.code then false
  else match root.code with
    | 0x1504 => true
    | 0x1003 =>
      let m := root.unit / 8
      ((rootDeps 0x1003).getD []).contains e.code && inEngines [2 * m, 2 * m + 1] e
    | 0x1002 =>
      ((rootDeps 0x1002).getD []).contains e.code && inEngines [oeOf root.unit root.code] e
    | 0x0C01 => ((rootDeps 0x0C01).getD []).contains e.code && e.unit == root.unit
    | 0x1401 => ((rootDeps 0x1401).getD []).contains e.code
    | 0x1402 => ((rootDeps 0x1402).getD []).contains e.code && e.die == root.die
    | c => ((rootDeps c).getD []).contains e.code && e.lanes.any (fun l => root.lanes.contains l)

/-- The unit bitmap bit of an event (spec/16 Table 16-4): the events of a die set its number, and PATROL_FAIL the bit of
the unit that its first argument names. -/
def unitBit (e : Event) : Nat :=
  let tileBit := 8 * tileY (16 * e.die + e.unit) + tileX (16 * e.die + e.unit)
  let laneBit (l : Nat) := 8 * tileY (l / 8) + tileX (l / 8)
  let coreBit := if e.unit % 9 = 8 then 0 else 8 * (e.unit / 9) + e.unit % 9
  let dieBit := if e.die < 4 then e.die else 0
  match e.code / 256 with
  | 1 | 5 => dieBit
  | 2 | 6 | 9 | 15 => tileBit
  | 3 => if e.code = 0x300 ∨ e.code = 0x301 then tileBit else e.unit
  | 4 => if e.code = 0x401 then dieBit else match e.lanes with | l :: _ => laneBit l | [] => dieBit
  | 7 => coreBit
  | 8 | 12 | 17 => e.unit
  | 14 => laneBit (128 * e.die + e.unit)
  | 16 => if 64 ≤ e.unit then 4 * ((e.unit - 64) / 16) + ((e.unit - 64) % 16) / 4
          else if e.code = 0x1003 then e.unit else 0
  | 18 => if e.code = 0x1200 then dieBit else 0
  | 20 => if e.code = 0x1402 ∨ e.code = 0x1403 then dieBit else 0
  | 21 =>
    if e.code = 0x1506 then coreBit
    else if e.code = 0x1505 then match e.args.headD 0 with
      | 0 => coreBit
      | 2 => e.unit
      | _ => tileBit
    else 0
  | _ => 0

/-- Fold an event into the folds of a window. -/
def foldInto (e : Event) : List Fold → List Fold
  | [] => [⟨e.code, e.die, e.unit, e.injected, e.time, e.count, 2 ^ unitBit e⟩]
  | f :: r =>
    if f.code = e.code then
      { f with count := f.count + e.count, injected := f.injected || e.injected,
               bitmap := setBit f.bitmap (unitBit e) } :: r
    else f :: foldInto e r

/-- Fold an event into the first open window that takes it (spec/16 R414). -/
def foldWin (e : Event) : List CoalWin → Option (List CoalWin)
  | [] => none
  | w :: r =>
    if inScope w.root e then some ({ w with folds := foldInto e w.folds } :: r)
    else (foldWin e r).map (w :: ·)

/-- Count a record of a code in the 1 ms interval: written singly, or folded (spec/16 R416). -/
def rateStep (lim : Nat) (e : Event) : List RateCnt → Bool × List RateCnt
  | [] => (true, [⟨e.code, 1, none⟩])
  | c :: r =>
    if c.code = e.code then
      if c.written < lim then (true, { c with written := c.written + 1 } :: r)
      else
        let f := match c.fold with
          | none => foldInto e []
          | some f => foldInto e [f]
        (false, { c with fold := f.head? } :: r)
    else
      let (b, r') := rateStep lim e r
      (b, c :: r')

/-- Keep a record for the event ring, or lose it when 4,096 are held (spec/14 R362). -/
def storePush (d : Dev) (e : Event) : Dev :=
  if d.rel.store.length < 4096 then { d with rel := { d.rel with store := d.rel.store ++ [e] } }
  else
    let d := stSet (cnt1 d (srcHif 0) 4) (srcHif 0) 4
    { d with rel := { d.rel with lost := d.rel.lost + 1 } }

/-- The open window of the same CTRL cycle whose root an event precedes: a root of its code and scope with a higher DIE, or
the same DIE and a higher UNIT (spec/16 R414; log entry 127). -/
def precedes (cyc : Nat) (e : Event) (w : CoalWin) : Bool :=
  w.at_ == cyc && w.root.code == e.code && inScope e w.root
    && (decide (e.die < w.root.die) || (e.die == w.root.die && decide (e.unit < w.root.unit)))

/-- An event takes the place of the root of the first window that it precedes; the old root is folded. -/
def reroot (cyc : Nat) (e : Event) : List CoalWin → List CoalWin
  | [] => []
  | w :: r => if precedes cyc e w then { w with root := e, folds := foldInto w.root w.folds } :: r else w :: reroot cyc e r

/-- The records of an event, written earlier in the CTRL cycle, become those of another. -/
def rewriteRecord (d : Dev) (old new : Event) : Dev :=
  let sw (e : Event) : Event := if e = old then new else e
  { d with
    rel := { d.rel with store := d.rel.store.map sw, log := d.rel.log.map sw }
    host := { d.host with mgmtTx := d.host.mgmtTx.map (fun m =>
      if m.typ = 2 ∧ m.body = eventBytes old then { m with body := eventBytes new } else m) } }

/-- Coalesce an event: what is to be written singly, and the device with the rest folded. -/
def coalesce (d : Dev) (e : Event) : Bool × Dev :=
  let win := rdf d .relCoal [] 31 16
  let lim := rdf d .relCoal [] 15 0
  let opened (d : Dev) : Dev :=
    if (rootDeps e.code).isSome ∧ win ≠ 0 then
      { d with rel := { d.rel with wins := d.rel.wins ++ [⟨e, [], d.now / 3⟩] } }
    else d
  if neverCodes.contains e.code then (true, opened d)
  else match d.rel.wins.find? (precedes (d.now / 3) e) with
  | some w => (false, rewriteRecord { d with rel := { d.rel with wins := reroot (d.now / 3) e d.rel.wins } } w.root e)
  | none => match foldWin e d.rel.wins with
    | some ws => (false, { d with rel := { d.rel with wins := ws } })
    | none =>
      if (rootDeps e.code).isSome then (true, opened d)
      else if lim = 0 then (true, d)
      else
        let (b, rs) := rateStep lim e d.rel.rates
        (b, { d with rel := { d.rel with rates := rs } })

/-- Mean utilisation of the mesh links inside a die over the last 100 µs, in percent (spec/14 R361): two planes of 48 links,
two MESH cycles in each of 120,000 TIME cycles; a die that the spec does not name has a free value (log entry 9). -/
def dieLoad (d : Dev) (die : Nat) : Nat :=
  if die < 4 then
    natMin 100 (100 * d.sw.meshUse.foldl (fun n u =>
      if u.die = die ∧ u.seam = false ∧ d.now < u.at_ + 120000 then n + u.flits else n) 0 / (96 * 240000))
  else natMin 100 (Config.freeLoad d.draw)

/-- Build an event as raised now (spec/14 Table 14-4). -/
def mkEvent (d : Dev) (code die unit : Nat) (args : List (Nat × Nat)) (lanes : List Nat) : Event where
  code := code
  die := die
  unit := unit
  injected := d.rel.injected
  summary := false
  time := nsNow d
  temp := if die < 4 then BitVec.ofNat 8 (rdf d .thmDie [die] 23 16) else Config.freeTemp d.draw
  load := dieLoad d die
  count := 1
  args := packArgs args
  lanes := lanes

/-- Write the record of an event to the store and, with EVT_EN, to the management port (R367);
a record of MGMT_TX_DROP that finds the port's buffer full raises nothing further (log entry 10). -/
def record0 (d : Dev) (e : Event) : Dev :=
  let d := storePush d e
  if rdb d .mgmtCtl [] 31 then
    let (ok, d) := mgmtPush d 2 (eventBytes e)
    if ok then d else stSet (cnt1 d (srcHif 0) 7) (srcHif 0) 7
  else d

/-- Raise an event that no log keeps and whose own record may be dropped in silence. -/
def emit0 (d : Dev) (code die unit : Nat) (args : List (Nat × Nat)) : Dev :=
  let e := mkEvent d code die unit args []
  let (b, d) := coalesce { d with draw := d.draw + 1 } e
  if b then record0 d e else d

/-- A record on its way beside the event ring: the management port, and the error log where it belongs
there; a full log drops its oldest entry, which is reported (spec/16 R412). -/
def recordOut (d : Dev) (e : Event) : Dev :=
  let d :=
    if rdb d .mgmtCtl [] 31 then
      let (ok, d) := mgmtPush d 2 (eventBytes e)
      if ok then d else emit0 (stSet (cnt1 d (srcHif 0) 7) (srcHif 0) 7) 0x1307 0 0 []
    else d
  if e.summary || logCodes.contains e.code then
    if d.rel.log.length < 64 then { d with rel := { d.rel with log := d.rel.log ++ [e] } }
    else
      let d := { d with rel := { d.rel with log := d.rel.log.drop 1 ++ [e] } }
      emit0 (stSet (cnt1 d (srcRel 255 0) 7) (srcRel 255 0) 7) 0x1507 255 0 []
  else d

/-- Write a record: the store, and what follows it. -/
def record (d : Dev) (e : Event) : Dev := recordOut (storePush d e) e

/-- Raise an event (spec/16 R413, R414). -/
def event (d : Dev) (code die unit : Nat) (args : List (Nat × Nat)) (lanes : List Nat := []) : Dev :=
  let e := mkEvent d code die unit args lanes
  let (b, d) := coalesce { d with draw := d.draw + 1 } e
  if b then record d e else d

/-- Count, raise the event and set the status bit of row `n` of a unit's counter table. -/
def raiseAt (d : Dev) (s : Src) (n b : Nat) (args : List (Nat × Nat)) (lanes : List Nat) : Dev :=
  event (stSet (cnt1 d s n) s b) (s.blk * 256 + n) s.die s.unit args lanes

/-- The same where the status bit has the row's number. -/
def raise (d : Dev) (s : Src) (n : Nat) (args : List (Nat × Nat) := []) (lanes : List Nat := []) :
    Dev := raiseAt d s n n args lanes

/-- Bin a corrected error or an Overlock mismatch by TEMP and LOAD of a die (spec/16 R411). -/
def binError (d : Dev) (cls die : Nat) : Dev :=
  let t := sx 8 (rdf d .thmDie [die] 23 16)
  let b := if t < 50 then 0 else if t < 60 then 1 else if t < 70 then 2 else if t < 80 then 3
           else if t < 90 then 4 else if t < 100 then 5 else if t < 110 then 6 else 7
  let lb := 4 * cls + natMin 3 (dieLoad d die / 25)
  let d := cntAdd d (0x702000 + 8 * (12 * cls + b)) 1
  { d with loadBins := tput 0 d.loadBins lb (tgetD d.loadBins lb 0 + 1) }

end Sys2Proof.Machine
end

