-- ==== Sys2Proof/Machine/Sha.lean ====
section
/-! DEFINITION. SHA-256, SHA-384, HMAC-SHA-256 and ECDSA P-384 verification, which spec/14 R365 and
R369 name and take from their public standards (PRESUMED: FIPS 180-4, FIPS 198-1, FIPS 186-5). -/
namespace Sys2Proof.Machine

/-- Rotate right within `w` bits. -/
def rotr (w x n : Nat) : Nat := (x >>> n) ||| ((x <<< (w - n)) % 2 ^ w)

/-- The parameters that tell SHA-256 from SHA-512 and SHA-384. -/
structure ShaKind where
  w : Nat
  rounds : Nat
  s0 : Nat × Nat × Nat
  s1 : Nat × Nat × Nat
  b0 : Nat × Nat × Nat
  b1 : Nat × Nat × Nat

/-- Integer square root by bisection on `n` bits, high bit first. -/
def isqrtBits : Nat → Nat → Nat → Nat
  | 0, _, r => r
  | n + 1, x, r =>
    let c := r + 2 ^ n
    isqrtBits n x (if c * c ≤ x then c else r)

/-- Integer cube root by bisection on `n` bits. -/
def icbrtBits : Nat → Nat → Nat → Nat
  | 0, _, r => r
  | n + 1, x, r =>
    let c := r + 2 ^ n
    icbrtBits n x (if c * c * c ≤ x then c else r)

/-- The first 80 primes, whose roots give the constants. -/
def primes80 : List Nat := [2, 3, 5, 7, 11, 13, 17, 19, 23, 29, 31, 37, 41, 43, 47, 53, 59, 61, 67,
  71, 73, 79, 83, 89, 97, 101, 103, 107, 109, 113, 127, 131, 137, 139, 149, 151, 157, 163, 167, 173,
  179, 181, 191, 193, 197, 199, 211, 223, 227, 229, 233, 239, 241, 251, 257, 263, 269, 271, 277, 281,
  283, 293, 307, 311, 313, 317, 331, 337, 347, 349, 353, 359, 367, 373, 379, 383, 389, 397, 401, 409]

/-- Round constants: fractions of the cube roots of the primes. -/
def shaK (w n : Nat) : List Nat :=
  (primes80.take n).map (fun p => icbrtBits (w + 4) (p * 2 ^ (3 * w)) 0 % 2 ^ w)

/-- Fractions of the square roots of primes. -/
def shaIv (w : Nat) (ps : List Nat) : List Nat :=
  ps.map (fun p => isqrtBits (w + 6) (p * 2 ^ (2 * w)) 0 % 2 ^ w)

/-- SHA-256's rotations. -/
def sha256Kind : ShaKind := ⟨32, 64, (7, 18, 3), (17, 19, 10), (2, 13, 22), (6, 11, 25)⟩

/-- SHA-512's rotations. -/
def sha512Kind : ShaKind := ⟨64, 80, (1, 8, 7), (19, 61, 6), (28, 34, 39), (14, 18, 41)⟩

/-- Message schedule: the last sixteen words stand first, newest at the head; `n` more are made. -/
def shaSched (k : ShaKind) : Nat → List Nat → List Nat
  | 0, ws => ws
  | n + 1, ws =>
    let a := ws.getD 14 0
    let b := ws.getD 1 0
    let s0 := rotr k.w a k.s0.1 ^^^ rotr k.w a k.s0.2.1 ^^^ (a >>> k.s0.2.2)
    let s1 := rotr k.w b k.s1.1 ^^^ rotr k.w b k.s1.2.1 ^^^ (b >>> k.s1.2.2)
    shaSched k n (((ws.getD 15 0 + s0 + ws.getD 6 0 + s1) % 2 ^ k.w) :: ws)

/-- The compression rounds. -/
def shaRounds (k : ShaKind) : List (Nat × Nat) → List Nat → List Nat
  | [], v => v
  | (kt, wt) :: r, v =>
    let a := v.getD 0 0
    let b := v.getD 1 0
    let c := v.getD 2 0
    let e := v.getD 4 0
    let f := v.getD 5 0
    let g := v.getD 6 0
    let m := 2 ^ k.w
    let s1 := rotr k.w e k.b1.1 ^^^ rotr k.w e k.b1.2.1 ^^^ rotr k.w e k.b1.2.2
    let ch := (e &&& f) ^^^ ((m - 1 - e) &&& g)
    let t1 := v.getD 7 0 + s1 + ch + kt + wt
    let s0 := rotr k.w a k.b0.1 ^^^ rotr k.w a k.b0.2.1 ^^^ rotr k.w a k.b0.2.2
    let t2 := s0 + ((a &&& b) ^^^ (a &&& c) ^^^ (b &&& c))
    shaRounds k r [(t1 + t2) % m, a, b, c, (v.getD 3 0 + t1) % m, e, f, g]

/-- Words of a block. -/
def shaWords (bytes : Nat) : Nat → List Byte → List Nat
  | 0, _ => []
  | n + 1, l => beVal (l.take bytes) :: shaWords bytes n (l.drop bytes)

/-- Fold the blocks of a padded message into the chaining value. -/
def shaBlocks (k : ShaKind) (ks : List Nat) : Nat → List Byte → List Nat → List Nat
  | 0, _, h => h
  | n + 1, msg, h =>
    let ws := shaWords (k.w / 8) 16 msg
    let sched := (shaSched k (k.rounds - 16) ws.reverse).reverse
    let v := shaRounds k (ks.zip sched) h
    shaBlocks k ks n (msg.drop (2 * k.w)) (List.zipWith (fun a b => (a + b) % 2 ^ k.w) h v)

/-- Pad, hash and lay out the chaining value. -/
def shaRun (k : ShaKind) (iv : List Nat) (msg : List Byte) : List Byte :=
  let blk := 2 * k.w
  let l := msg.length
  let padded := alignUp (l + 1 + k.w / 4) blk
  let m := msg ++ [0x80] ++ List.replicate (padded - l - 1 - k.w / 4) 0 ++ beBytes (k.w / 4) (8 * l)
  (shaBlocks k (shaK k.w k.rounds) (padded / blk) m iv).flatMap (beBytes (k.w / 8))

/-- SHA-256. -/
def sha256 (msg : List Byte) : List Byte := shaRun sha256Kind (shaIv 32 (primes80.take 8)) msg

/-- SHA-384. -/
def sha384 (msg : List Byte) : List Byte :=
  (shaRun sha512Kind (shaIv 64 ((primes80.drop 8).take 8)) msg).take 48

/-- HMAC-SHA-256 (spec/14 R365), for a key of at most 64 bytes. -/
def hmacSha256 (key msg : List Byte) : List Byte :=
  let k := slice key 0 64
  sha256 (k.map (· ^^^ 0x5C) ++ sha256 (k.map (· ^^^ 0x36) ++ msg))

/-- The prime of P-384. -/
def p384P : Nat := 2 ^ 384 - 2 ^ 128 - 2 ^ 96 + 2 ^ 32 - 1

/-- The order of P-384. -/
def p384N : Nat := 0xffffffffffffffffffffffffffffffffffffffffffffffffc7634d81f4372ddf581a0db248b0a77aecec196accc52973

/-- The coefficient b of P-384. -/
def p384B : Nat := 0xb3312fa7e23ee7e4988e056be3f82d19181d9c6efe8141120314088f5013875ac656398d8a2ed19d2a85c8edd3ec2aef

/-- The base point of P-384. -/
def p384G : Nat × Nat :=
  (0xaa87ca22be8b05378eb1c71ef320ad746e1d3b628ba79b9859f741e082542a385502f25dbf55296c3a545e3872760ab7,
   0x3617de4a96262c6f5d9e98bf9292dc29f8f41dbd289a147ce9da3113b5f0b8c00a60b1ce1d7e819d7a431d7c90ea0e5f)

/-- Modular power by squaring on `n` exponent bits. -/
def powMod (m : Nat) : Nat → Nat → Nat → Nat
  | 0, _, _ => 1 % m
  | n + 1, b, e =>
    let h := powMod m n (b * b % m) (e / 2)
    if e % 2 = 1 then b * h % m else h

/-- Inverse modulo a prime. -/
def invMod (m x : Nat) : Nat := powMod m 384 (x % m) (m - 2)

/-- Point addition on P-384; `none` is the point at infinity. -/
def p384Add : Option (Nat × Nat) → Option (Nat × Nat) → Option (Nat × Nat)
  | none, q => q
  | p, none => p
  | some (x1, y1), some (x2, y2) =>
    let p := p384P
    if x1 = x2 ∧ (y1 + y2) % p = 0 then none
    else
      let l := if x1 = x2 then (3 * x1 * x1 + p - 3) % p * invMod p (2 * y1) % p
               else (y2 + p - y1) % p * invMod p (x2 + p - x1) % p
      let x3 := (l * l + 2 * p - x1 - x2) % p
      some (x3, (l * (x1 + p - x3) + p - y1) % p)

/-- Scalar multiple on `n` bits. -/
def p384Mul : Nat → Nat → Option (Nat × Nat) → Option (Nat × Nat)
  | 0, _, _ => none
  | n + 1, k, q =>
    let h := p384Mul n (k / 2) (p384Add q q)
    if k % 2 = 1 then p384Add q h else h

/-- ECDSA P-384 verification of a message hash. -/
def p384Verify (hash : List Byte) (qx qy r s : Nat) : Bool :=
  let n := p384N
  let p := p384P
  if qx < p ∧ qy < p ∧ (qy * qy) % p = (qx * qx * qx + (p - 3) * qx + p384B) % p
     ∧ 0 < r ∧ r < n ∧ 0 < s ∧ s < n then
    let w := invMod n s
    let e := beVal hash
    match p384Add (p384Mul 384 (e * w % n) (some p384G)) (p384Mul 384 (r * w % n) (some (qx, qy))) with
    | none => false
    | some (x, _) => x % n = r
  else false

end Sys2Proof.Machine
end

