-- ==== Sys2Proof/Machine/Ops.lean ====
section
/-! DEFINITION. The operations that several families share: outcomes, host memory, rings,
completions, the general command checks, ports and links, frame headers, token buckets. -/
namespace Sys2Proof.Machine

/-! ### Outcomes -/

/-- Change the device, never the queue, where a condition on the device holds; otherwise nothing takes effect. -/
def actWhen (p : Dev → Bool) (f : Dev → Dev) (s : State) : Host.Outcome State Fault Refusal :=
  if p s.dev then .next { s with dev := f { s.dev with rel := { s.dev.rel with injected := false } } } else .next s

/-- No thermal trip has stopped the clocks (spec/15 R398). -/
def powered (d : Dev) : Bool := !d.pwr.tripped

/-- The device serves: the clocks run and start-up has passed step 3, which a device with a failed die does not
(spec/01 R18, spec/15 R399). -/
def serves (d : Dev) : Bool := powered d && decide (4 ≤ d.pwr.step)

/-- BAR0 is reached: the host reaches it only while PERST# is high (spec/15 R399); Tailor firmware, which writes it too
(spec/01 R21), while it runs. -/
def reached (d : Dev) : Bool := d.pwr.perstHigh || d.host.tlr == .running

/-- BAR0 answers at an offset: from step 3 of start-up on, when the fuses are loaded; with a failed die through the
global region alone (spec/01 R18, R26). -/
def barOn (off : Nat) (d : Dev) : Bool :=
  powered d && reached d && (decide (4 ≤ d.pwr.step) || (decide (d.pwr.step = 3) && decide (off < 0x800000)))

/-- Change a device that serves. -/
def act (f : Dev → Dev) (s : State) : Host.Outcome State Fault Refusal := actWhen serves f s

/-- An access to BAR0 at an offset. -/
def actBar (off : Nat) (f : Dev → Dev) (s : State) : Host.Outcome State Fault Refusal := actWhen (barOn off) f s

/-- Change the device whatever start-up has done: what its pins, references and sensors bring. -/
def actPins (f : Dev → Dev) (s : State) : Host.Outcome State Fault Refusal := actWhen powered f s

/-- Change the device even after a thermal trip. -/
def actAlways (f : Dev → Dev) (s : State) : Host.Outcome State Fault Refusal :=
  .next { s with dev := f { s.dev with rel := { s.dev.rel with injected := false } } }

/-! ### Injection marks (spec/16 R407) -/

/-- Take an injection waiting at a detector: its ARG, and the device with its flag raised. -/
def takeMark (d : Dev) (id die unit : Nat) : Option Nat × Dev :=
  let hit (m : Nat × Nat × Nat × Nat) : Bool := m.1 == id && m.2.1 == die && m.2.2.1 == unit
  match d.rel.marks.find? hit with
  | some m =>
    (some m.2.2.2, { d with rel := { d.rel with marks := removeFirst hit d.rel.marks, injected := true } })
  | none => (none, d)

/-- What an injection forced or corrupted in this row leads to something in a later row: a trace of it stays (spec/16
R409). -/
def trace (d : Dev) (id a b : Nat) : Dev :=
  if d.rel.injected && !d.rel.traces.contains (id, a, b) then { d with rel := { d.rel with traces := d.rel.traces ++ [(id, a, b)] } }
  else d

/-- Drop a trace. -/
def untrace (d : Dev) (id a b : Nat) : Dev :=
  { d with rel := { d.rel with traces := d.rel.traces.filter (· != (id, a, b)) } }

/-- What follows now follows from an injection, where it left a trace (spec/16 R409). -/
def retrace (d : Dev) (id a b : Nat) : Dev :=
  if d.rel.traces.contains (id, a, b) then { d with rel := { d.rel with injected := true } } else d

/-- The last that follows from an injection: its trace ends. -/
def traced (d : Dev) (id a b : Nat) : Dev := untrace (retrace d id a b) id a b

/-! ### Host memory -/

/-- State of a domain: 0 ON, 1 GATED, 2 RETAIN, 3 OFF. -/
def pdState (d : Dev) (n : Nat) : Nat := rdf d .pwrDomState [n / 16] (2 * (n % 16) + 1) (2 * (n % 16))

/-- A domain is ON: work for one that is not waits until it has woken. -/
def pdOn (d : Dev) (n : Nat) : Bool := pdState d n == 0

/-- The PCIe endpoint moves data: PERST# is high and its PHY is ON (spec/15 R392, R399). -/
def pcieUp (d : Dev) : Bool := d.pwr.perstHigh && pdOn d 120

/-- The step of the start-up sequence that first uses an output (spec/18 R450, log entry 138). -/
def outStep : OutPin → Nat
  | .i3cSda | .tdo | .thermtrip => 0
  | .pcieTx | .pcieSide | .mgmtTx => 3
  | .ppsOut => 2
  | .laserBus => 6

/-- Does the device drive an output?  Until the step that uses it, it is at high impedance (spec/18 R450); the step after
those done is under way. -/
def drives (d : Dev) (o : OutPin) : Bool := outStep o == 0 || (d.pwr.porHigh && decide (outStep o ≤ d.pwr.step + 1))

/-- Level of PPS_OUT; none: high impedance (spec/18 R450). -/
def ppsPin (d : Dev) : Option Bool := if drives d .ppsOut then some d.time.ppsOut else none

/-- Write bytes to host memory (a write cannot fail at the device, spec/14 R348); while the PCIe PHY is not ON it waits, in
its order (spec/15 R392). -/
def dmaWrite (d : Dev) (addr : Nat) (bytes : List Byte) : Dev :=
  if pcieUp d && d.host.dmaHeld.isEmpty then { d with dmaOut := d.dmaOut ++ [⟨addr, bytes⟩] }
  else { d with host := { d.host with dmaHeld := d.host.dmaHeld ++ [⟨addr, bytes⟩] } }

/-- What waited for the PCIe PHY is written once it is ON (spec/15 R392). -/
def dmaFlush (d : Dev) : Dev :=
  if pcieUp d then { d with dmaOut := d.dmaOut ++ d.host.dmaHeld, host := { d.host with dmaHeld := [] } } else d

/-- Count and report a failed host-memory read (spec/14 R348). -/
def dmaFail (d : Dev) : Dev := raise d (srcHif 0) 0

/-- A host-memory read: its bytes, or none with the failure counted.  Injection 0x20 fails it. -/
def dmaGet (d : Dev) (r : DmaRead) : Option (List Byte) × Dev :=
  let (m, d) := takeMark d 0x20 0 0
  match m, r with
  | none, .ok b => (some b, d)
  | _, _ => (none, dmaFail d)

/-! ### Rings (spec/14 R349–R356) -/

/-- The inner state of a ring. -/
def ringSt (d : Dev) (r : Nat) : RingSt := tgetD d.host.rings r ⟨0, [], 0, 0, 0, 0⟩

/-- Change the inner state of a ring. -/
def setRing (d : Dev) (r : Nat) (x : RingSt) : Dev :=
  { d with host := { d.host with rings := tput ⟨0, [], 0, 0, 0, 0⟩ d.host.rings r x } }

/-- Entries of a ring: 2^LOG2, LOG2 read as 4 to 15 (spec/14 Table 14-7). -/
def ringSize (d : Dev) (r : Nat) : Nat := 2 ^ natMin 15 (natMax 4 (rdf d .ringCtl [r] 4 0))

/-- Ring enabled, and not stopped by a ring error (spec/14 R350, R351). -/
def ringOn (d : Dev) (r : Nat) : Bool := rdb d .ringCtl [r] 31 && !rdb d .ringCtl [r] 30

/-- PROD of a ring. -/
def ringProd (d : Dev) (r : Nat) : Nat :=
  if r < 8 then rdf d .ringProdCmd [r] 15 0 else rdf d .ringProdDev [r - 8] 15 0

/-- CONS of a ring. -/
def ringCons (d : Dev) (r : Nat) : Nat :=
  if r < 8 then rdf d .ringConsCmd [r] 15 0 else rdf d .ringConsDev [r - 8] 15 0

/-- Store PROD. -/
def setProd (d : Dev) (r v : Nat) : Dev :=
  if r < 8 then wr d .ringProdCmd [r] (v % 65536) else wr d .ringProdDev [r - 8] (v % 65536)

/-- Store CONS. -/
def setCons (d : Dev) (r v : Nat) : Dev :=
  if r < 8 then wr d .ringConsCmd [r] (v % 65536) else wr d .ringConsDev [r - 8] (v % 65536)

/-- Entries that a ring holds: PROD − CONS modulo 65,536. -/
def ringHeld (d : Dev) (r : Nat) : Nat := (ringProd d r + 65536 - ringCons d r) % 65536

/-- Free entries of a producer ring, beside those reserved. -/
def ringFree (d : Dev) (r : Nat) : Nat := ringSize d r - ringHeld d r - (ringSt d r).reserved

/-- Bytes of an entry: 64 for command and telemetry rings, 32 for the others. -/
def entrySize (r : Nat) : Nat := if r < 8 ∨ r = 17 then 64 else 32

/-- Base address of a ring. -/
def ringBase (d : Dev) (r : Nat) : Nat := rd d .ringBaseHi [r] * 2 ^ 32 + rd d .ringBaseLo [r]

/-- Write the device's own index of a ring to its write-back address (spec/14 R349). -/
def writeBack (d : Dev) (r idx : Nat) : Dev :=
  dmaWrite d (rd d .ringWbHi [r] * 2 ^ 32 + rd d .ringWbLo [r]) (leBytes 8 (idx % 65536))

/-- Put PHASE into byte 7 of a completion entry: 1 on the first pass (spec/14 R355). -/
def withPhase (total size : Nat) (e : List Byte) : List Byte :=
  e.take 7 ++ [BitVec.ofNat 8 (if total / size % 2 = 0 then 1 else 0)] ++ e.drop 8

/-- Raise an MSI-X vector, or mark it pending while its table entry masks it (log entry 61). -/
def raiseVec (d : Dev) (v : Nat) : Dev :=
  if rdb d .msixCtl [v] 0 then wr d .msixPba [v / 32] (setBit (rd d .msixPba [v / 32]) (v % 32))
  else { d with host := { d.host with irqs := (v :: d.host.irqs).take 32 } }

/-- Write an entry to a producer ring that is enabled; the COUNT-th since the last interrupt raises VEC (R364). -/
def ringWrite (d : Dev) (r : Nat) (e : List Byte) : Dev :=
  let x := ringSt d r
  let p := ringProd d r
  let size := ringSize d r
  let e := if 8 ≤ r ∧ r < 16 then withPhase x.total size e else e
  let d := dmaWrite d (ringBase d r + p % size * entrySize r) e
  let n := rdf d .ringMod [r] 31 16
  let full := decide (0 < n) && decide (n ≤ x.since + 1)
  let d := setRing (setProd d r (p + 1)) r { x with total := x.total + 1, since := if full then 0 else x.since + 1,
                                                    first := if x.since = 0 then d.now else x.first }
  let d := writeBack d r (p + 1)
  if full then raiseVec d (rdf d .ringCtl [r] 20 16) else d

/-- Write an entry, or hold it while the ring is disabled, entries wait, or the PCIe PHY sleeps (spec/14 R350, spec/15 R392). -/
def ringPush (d : Dev) (r : Nat) (e : List Byte) : Dev :=
  if ringOn d r ∧ (ringSt d r).pend = [] ∧ pcieUp d ∧ d.host.dmaHeld = [] then ringWrite d r e
  else setRing d r { ringSt d r with pend := (ringSt d r).pend ++ [e] }

/-! ### Completions -/

/-- A completion entry, its PHASE still 0 (spec/14 R355). -/
def cplBytes (rp : Reply) (status : Nat) (result : List Byte) : List Byte :=
  leBytes 4 rp.tag.toNat ++ leBytes 2 rp.opcode ++ leBytes 1 status ++ [0] ++ slice result 0 24

/-- Store 32-bit words of a byte list into consecutive instances of a register. -/
def wrWords (d : Dev) (r : Reg) (ix : List Nat) : Nat → Nat → List Byte → Dev
  | 0, _, _ => d
  | n + 1, k, bs =>
    wrWords (wr d r (ix ++ [k]) (leVal (slice bs 0 4))) r ix n (k + 1) (bs.drop 4)

/-- Complete a command: a completion entry on ring 8 + i, the registers of the table window, or an
RSP frame with response data (spec/14 R355, R360, R367). -/
def complete (d : Dev) (rp : Reply) (status : Nat) (result : List Byte) (data : List Byte := []) :
    Dev :=
  match rp.path with
  | .ring i =>
    if rp.epoch = d.host.epoch then
      let x := ringSt d (8 + i)
      let d := setRing d (8 + i) { x with reserved := x.reserved - 1 }
      let y := ringSt d i
      let d := setRing d i { y with open_ := y.open_ - 1 }
      ringPush d (8 + i) (cplBytes rp status result)
    else d
  | .window w =>
    let d := wrWords d .tblWinCpl [w] 8 0 (withPhase 0 1 (cplBytes rp status result))
    wrf d .tblWinCtl [w] 30 30 0
  | .mgmt =>
    let m : MgmtOut := ⟨1, d.host.seq + 1, withPhase 0 1 (cplBytes rp status result) ++ data⟩
    { d with host := { d.host with seq := d.host.seq + 1, mgmtTx := d.host.mgmtTx ++ [m] } }

/-- Complete where a reply was asked for. -/
def completeOpt (d : Dev) (rp : Option Reply) (status : Nat) (result : List Byte) : Dev :=
  match rp with
  | none => d
  | some r => complete d r status result

/-- Deliver output bytes of a command that names a host address: by DMA, or in the response data on
the management port (spec/14 R367), which `complete` then carries. -/
def cmdOutput (d : Dev) (rp : Reply) (addr : Nat) (bytes : List Byte) : Dev :=
  match rp.path with
  | .mgmt => d
  | _ => dmaWrite d addr bytes

/-- Count and report a general refusal or a DMA error (spec/14 R357). -/
def cmdErr (d : Dev) (rp : Reply) : Dev :=
  raise d (srcHif (match rp.path with | .ring i => i | _ => 0)) 3
    [(2, rp.opcode), (4, rp.tag.toNat)]

/-- Refuse under the general checks of R357. -/
def refuseGen (d : Dev) (rp : Reply) (status : Nat) : Dev := complete (cmdErr d rp) rp status []

/-- Complete DMA_ERROR after a failed read. -/
def refuseDma (d : Dev) (rp : Reply) : Dev := refuseGen d rp 0x0B

/-- The paths on which a command is accepted (spec/14 Table 14-3). -/
inductive Accept where
  | h | m | both
deriving DecidableEq

/-- How a descriptor names its path: its ring, 18 for the management port, 19 + d for the table window of die d. -/
def pathNo (p : Path) : Nat := match p with | .ring i => i | .mgmt => 18 | .window w => 19 + w

/-- Reserve a completion entry for a command of a ring as its descriptor is fetched (spec/14 R352). -/
def reserveCpl (d : Dev) (p : Path) : Dev :=
  match p with
  | .ring i =>
    let x := ringSt d (8 + i)
    let d := setRing d (8 + i) { x with reserved := x.reserved + 1 }
    let y := ringSt d i
    setRing d i { y with open_ := y.open_ + 1 }
  | _ => d

/-- What Table 14-3 says of an opcode: its paths, and its parameters, either a block of a length or fields
of widths. -/
def opSpec (opc : Nat) : Option (Accept × Option Nat × List Nat) :=
  match opc with
  | 0x01 => some (.both, none, [])
  | 0x10 => some (.h, none, [64])
  | 0x11 => some (.h, none, [12, 24])
  | 0x12 => some (.h, none, [12, 24])
  | 0x13 => some (.h, none, [16, 1, 12, 64])
  | 0x14 => some (.h, none, [16, 64])
  | 0x15 => some (.h, none, [12, 1, 3, 10, 64])
  | 0x16 => some (.h, none, [12, 2])
  | 0x17 => some (.h, none, [8, 32, 64])
  | 0x18 => some (.h, none, [32, 1])
  | 0x20 => some (.h, none, [14, 12, 32, 64])
  | 0x21 => some (.h, none, [14])
  | 0x22 => some (.h, some 88, [])
  | 0x23 => some (.h, none, [20, 1])
  | 0x24 => some (.h, none, [20])
  | 0x25 => some (.h, none, [20])
  | 0x30 => some (.h, none, [13, 12, 1, 41, 32, 64, 32, 64])
  | 0x31 => some (.h, none, [13])
  | 0x32 => some (.h, some 72, [])
  | 0x33 => some (.h, none, [12, 32, 32])
  | 0x34 => some (.h, none, [12, 32])
  | 0x35 => some (.h, none, [12, 2, 32])
  | 0x36 => some (.h, none, [12, 32])
  | 0x37 => some (.h, none, [13, 2, 40, 40, 64])
  | 0x38 => some (.h, none, [8, 64, 32, 8, 32, 2])
  | 0x39 => some (.h, some 104, [])
  | 0x40 => some (.h, none, [64, 32])
  | 0x41 => some (.h, none, [12, 32])
  | 0x42 => some (.h, none, [12, 32, 64])
  | 0x43 => some (.both, none, [64])
  | 0x50 => some (.h, none, [6, 32, 9, 3, 1, 16, 14, 64])
  | 0x51 => some (.h, none, [9, 3, 1, 16, 14, 64])
  | 0x60 => some (.m, none, [32, 32])
  | 0x61 => some (.m, none, [32, 32, 1])
  | 0x62 => some (.m, none, [])
  | 0x63 => some (.m, none, [])
  | 0x64 => some (.m, none, [])
  | 0x65 => some (.m, none, [])
  | _ => none

/-- Read fields of widths packed from an offset (R354); none where one lies outside its width. -/
def unpackFrom (bs : List Byte) : Nat → List Nat → Option (List (Nat × Nat))
  | _, [] => some []
  | o, w :: r =>
    let k := packSize w
    let o' := alignUp o k
    let v := leAt bs o' k
    if v < 2 ^ w then (unpackFrom bs (o' + k) r).map ((w, v) :: ·) else none

/-- PARAMS of a descriptor are well formed: fields in their widths, padding and reserved bytes 0, a
block's length right (R353, R354, R357). -/
def paramsOk (bs : List Byte) (blk : Option Nat) (ws : List Nat) : Bool :=
  match blk with
  | some n => decide (leAt bs 16 2 = n) && (slice bs 18 46).all (· == 0)
  | none =>
    match unpackFrom (bs.drop 8) 0 ws with
    | none => false
    | some fs => slice bs 8 56 == slice (packFields fs) 0 56

/-- Descriptors taken up in one order: those of all command rings, of the management port, of one window (R352). -/
def sameQueue (r r' : Nat) : Bool := r == r' || (decide (r < 8) && decide (r' < 8))

/-- The oldest descriptor of a path's queue. -/
def fetchedNext (d : Dev) (p : Path) : Option Fetched := d.host.fetched.find? (fun a => sameQueue a.ring (pathNo p))

/-- The operands of a command's row are the fields of PARAMS; an address that the row does not carry stands as none, and
a block command's fields stand in its block (R353, R354). -/
def paramsAgree (bs : List Byte) (opc : Nat) (ps : List (Option Nat)) : Bool :=
  match opSpec opc with
  | some (_, none, ws) =>
    match unpackFrom bs 0 ws with
    | some fs => fs.length == ps.length && (fs.zip ps).all (fun x => x.2.getD x.1.2 == x.1.2)
    | none => false
  | some (_, some _, _) => true
  | none => false

/-- The command's descriptor stands first on its path: ring, TAG, OPCODE, PARAMS (R352, R353; log entry 11). -/
def stands (d : Dev) (h : CmdHdr) (opc : Nat) (ps : List (Option Nat)) : Bool :=
  match fetchedNext d h.path with
  | some a => a.ring == pathNo h.path && a.tag == h.tag && a.opcode == opc && paramsAgree a.params opc ps
  | none => false

/-- Where a command's completion goes. -/
def replyOf (d : Dev) (h : CmdHdr) (opc : Nat) : Reply :=
  ⟨h.path, h.tag, opc, ((fetchedNext d h.path).map (·.epoch)).getD d.host.epoch⟩

/-- Accept a command: its descriptor no longer waits, and it is counted (R352). -/
def takeCmd (d : Dev) (h : CmdHdr) : Dev :=
  cnt1 { d with host := { d.host with
    fetched := removeFirst (fun a => sameQueue a.ring (pathNo h.path)) d.host.fetched } } (srcHif 0) 11

/-- The device is stopped, by an emergency stop or a device fault (spec/14 R368, spec/16 R405). -/
def stopped (d : Dev) : Bool := d.host.estop || d.host.fault

/-- What the path of a command refuses: WRONG_PATH, then STOPPED, which path M does not meet (R357, R368). -/
def pathRefusal (d : Dev) (p : Path) (acc : Accept) : Option Nat :=
  match p with
  | .ring _ => if acc = .m then some 0x0A else if stopped d then some 0x0C else none
  | .window _ => if stopped d then some 0x0C else none
  | .mgmt => if acc = .h then some 0x0A else none

/-- Tailor restarts: lane taps and power states hold, rings hold their heaters on feed-forward alone, and command rings
accept nothing (spec/14 R371). -/
def tlrHolds (d : Dev) : Bool := match d.host.tlr with | .restarting _ => true | _ => false

/-- A command waits while its ring accepts nothing, and while the PCIe PHY sleeps (spec/15 R392). -/
def cmdWaits (d : Dev) (p : Path) : Bool := match p with | .ring _ => tlrHolds d || !pcieUp d | _ => false

/-- Run a command whose descriptor stands first on its path: accept it, make the general checks of R357 in their order
(`ok`: its fields are in their ranges), then run it. -/
def runCmd (d : Dev) (h : CmdHdr) (opc : Nat) (acc : Accept) (ps : List (Option Nat)) (ok : Bool)
    (f : Dev → Reply → Dev) : Dev :=
  if !stands d h opc ps || cmdWaits d h.path then d
  else
    let rp := replyOf d h opc
    let d := takeCmd d h
    match pathRefusal d h.path acc with
    | some st => refuseGen d rp st
    | none => if ok then f d rp else refuseGen d rp 0x09

/-- The values of a parameter block's fields: each in its width, padding 0 (R354, R357). -/
def unpackBlock (ws : List Nat) (b : List Byte) : Option (List Nat) :=
  match unpackFrom b 0 ws with
  | none => none
  | some fs =>
    let p := packFields fs
    let n := alignUp p.length 8
    if slice b 0 n == slice p 0 n then some (fs.map (·.2)) else none

/-- A block command: its block is read and unpacked; DMA_ERROR where the read fails, BAD_PARAM where a field lies outside its
width or padding is not 0 (R348, R354, R357). -/
def withBlock {α : Type} (parse : List Byte → Option α) (b : DmaRead) (f : α → Dev → Reply → Dev) (d : Dev) (rp : Reply) : Dev :=
  match dmaGet d b with
  | (none, d) => refuseDma d rp
  | (some bs, d) =>
    match parse bs with
    | none => refuseGen d rp 0x09
    | some x => f x d rp

/-- The die that counts what a command causes (spec/14 R461): the window's, else FD0. -/
def cmdDie (rp : Reply) : Nat := match rp.path with | .window w => w | _ => 0

/-! ### Power domains (spec/15 R391, R392) -/

/-- Die through whose region an offset is addressed. -/
def offDie (off : Nat) : Nat := if off < 0x800000 then 0 else (off - 0x800000) / 0x800000

/-- The power domain that a register's block lies in, where it can sleep (spec/15 Table 15-3). -/
def sleepDom (off : Nat) : Option Nat :=
  if 0x800000 ≤ off ∧ off < 0x2800000 then
    let die := offDie off
    let o := (off - 0x800000) % 0x800000
    let t := o / 0x10000
    let x := o % 0x10000
    if o < 0x100000 then
      if x < 0x2000 then some (80 + (16 * die + t) / 4)
      else if 0x6000 ≤ x ∧ x < 0x7000 then some (112 + die)
      else none
    else if 0x200000 ≤ o ∧ o < 0x280000 then
      let c := 2 * die + (o - 0x200000) / 0x40000
      let y := (o - 0x200000) % 0x40000
      if y < 0x24000 then some (9 * c + y / 0x4000) else some (72 + c)
    else none
  else if 0x2800000 ≤ off ∧ off < 0x2A00000 then some (80 + (off - 0x2800000) / 0x20000)
  else if 0x2C00000 ≤ off ∧ off < 0x2CC0000 then some (96 + (off - 0x2C00000) / 0x10000)
  else none

/-- The sleeping block that an offset lies in, as it went to sleep (spec/01 R20). -/
def sleptAt (d : Dev) (off : Nat) : Option Slept := (sleepDom off).bind (tget? d.pwr.slept)

/-- Counters as reads and snapshots find them: those of a domain that is not ON as it went to sleep (spec/01 R20,
spec/17 R436). -/
def cntSeen (d : Dev) : Tab (BitVec 48) :=
  d.pwr.slept.foldl (fun t x => x.2.cnt.foldl (fun t e => tset t e.1 e.2) (t.filter (fun e => sleepDom e.1 != some x.1))) d.cnt

/-- Every flash domain is ON. -/
def flashOn (d : Dev) : Bool := [116, 117, 118, 119].all (pdOn d)

/-! ### Ports and links -/

/-- Width code of a lane (spec/11 R292). -/
def lnW (d : Dev) (l : Nat) : Nat := bits (rd d .lnPort (tix (l / 8))) (2 * (l % 8) + 1) (2 * (l % 8))

/-- Number of lanes of the port that begins at a lane; 0 where none begins. -/
def portW (d : Dev) (p : Nat) : Nat :=
  match lnW d p with
  | 0 => 1
  | 1 => 2
  | 2 => 4
  | _ => 0

/-- First lane of the port that a lane belongs to: the nearest lane at or below it that begins one. -/
def portOf (d : Dev) (l : Nat) : Nat :=
  if lnW d l ≠ 3 then l
  else if l % 8 ≥ 1 ∧ lnW d (l - 1) ≠ 3 then l - 1
  else if l % 8 ≥ 2 ∧ lnW d (l - 2) ≠ 3 then l - 2
  else if l % 8 ≥ 3 ∧ lnW d (l - 3) ≠ 3 then l - 3
  else l

/-- Lanes of a port. -/
def portLanes (d : Dev) (p : Nat) : List Nat := (List.range (portW d p)).map (p + ·)

/-- RT_PORT.STATE of a port. -/
def portState (d : Dev) (p : Nat) : Nat := rdf d .rtPort (lix p) 30 28

/-- RT_PORT.ROLE of a port: 0 DOWN, 1 UP, 2 ANALYSIS. -/
def portRole (d : Dev) (p : Nat) : Nat := rdf d .rtPort (lix p) 27 26

/-- LN_STATE.STATE of a lane. -/
def laneState (d : Dev) (l : Nat) : Nat := rdf d .lnState (lix l) 2 0

/-- The port's link is up: every lane is UP (spec/11 R298). -/
def linkUp (d : Dev) (p : Nat) : Bool :=
  decide (0 < portW d p) && (portLanes d p).all (fun l => laneState d l == 5)

/-- Link state of a port. -/
def linkSt (d : Dev) (p : Nat) : Link := tgetD d.sw.link p ⟨false, false, false, 0, false, 0⟩

/-- A port is in service (spec/04 R97). -/
def inService (d : Dev) (p : Nat) : Bool :=
  decide (portState d p = 1) && linkUp d p && (linkSt d p).lcfRcvd

/-- Credit accounts of a (port, VC). -/
def pvSt (d : Dev) (p v : Nat) : Pv := tgetD d.sw.pv (8 * p + v) ⟨0, 0, 0, 0, 0, 0, 0, 0⟩

/-- Store the credit accounts of a (port, VC). -/
def setPv (d : Dev) (p v : Nat) (x : Pv) : Dev :=
  { d with sw := { d.sw with pv := tput ⟨0, 0, 0, 0, 0, 0, 0, 0⟩ d.sw.pv (8 * p + v) x } }

/-- Credit that a port holds on a VC toward its partner (spec/03 R74). -/
def txCredit (d : Dev) (p v : Nat) : Nat := ((pvSt d p v).cg - (pvSt d p v).sent).toNat

/-- Reserve of a (port, VC): the sum over its lanes (spec/03 R68). -/
def reserveOf (d : Dev) (p v : Nat) : Nat :=
  (portLanes d p).foldl (fun a l => a + rdf d .swRsv (lix l ++ [v]) 11 0) 0

/-- Sum of all reserves of a tile. -/
def tileReserve (d : Dev) (t : Nat) : Nat :=
  (List.range 64).foldl (fun a i => a + rdf d .swRsv (tix t ++ [i / 8, i % 8]) 11 0) 0

/-- Shared cells of a tile that are claimed. -/
def tileClaims (d : Dev) (t : Nat) : Nat :=
  d.sw.pv.foldl (fun a e => if e.1 / 64 = t then a + e.2.claim else a) 0

/-- Cells that frames of an earlier link still hold in a tile's pool. -/
def oldCells (d : Dev) (t : Nat) : Nat :=
  d.sw.ing.foldl (fun a i => if i.old ∧ i.port / 8 = t then a + i.res + i.shr else a) 0

/-- Free shared cells of a tile (spec/03 R68, R71). -/
def sharedFree (d : Dev) (t : Nat) : Nat := 22008 - tileReserve d t - tileClaims d t - oldCells d t

/-- May a (port, VC) claim one more shared cell (spec/03 R71)? -/
def mayClaim (d : Dev) (p v : Nat) : Bool :=
  let f := sharedFree d (p / 8)
  decide (0 < f) && decide (16 * (pvSt d p v).claim < f * 2 ^ rdf d .swShr (tix (p / 8)) 26 24)

/-- Claim up to `n` shared cells, each granted to the partner as a credit. -/
def claimCells : Nat → Dev → Nat → Nat → Dev
  | 0, d, _, _ => d
  | n + 1, d, p, v =>
    if mayClaim d p v then
      let x := pvSt d p v
      claimCells n (setPv d p v { x with claim := x.claim + 1, grant := x.grant + 1 }) p v
    else d

/-- Free shared cells one by one: back to the pool above the threshold, else a credit again (R71). -/
def freeShared : Nat → Dev → Nat → Nat → Dev
  | 0, d, _, _ => d
  | n + 1, d, p, v =>
    let x := pvSt d p v
    let f := sharedFree d (p / 8)
    if f * 2 ^ rdf d .swShr (tix (p / 8)) 26 24 < 16 * x.claim then
      freeShared n (setPv d p v { x with claim := x.claim - 1, shrUsed := x.shrUsed - 1 }) p v
    else
      freeShared n (setPv d p v { x with grant := x.grant + 1, shrUsed := x.shrUsed - 1 }) p v

/-! ### Frames -/

/-- The 28 header bytes that HCRC covers (spec/02 R29, R30). -/
def hdrBytes (h : FabHdr) : List Byte :=
  [BitVec.ofNat 8 (16 * h.ver.toNat + 2 * h.vc.toNat),
   BitVec.ofNat 8 (64 * h.cls.toNat + 16 * h.colour.toNat + 8 * b2n h.cm),
   BitVec.ofNat 8 (128 * b2n h.order + 64 * b2n h.mcast + 32 * b2n h.coll + 16 * b2n h.swatch
     + h.part.toNat / 256),
   BitVec.ofNat 8 h.part.toNat]
  ++ beBytes 3 h.dst.toNat ++ beBytes 3 h.src.toNat ++ [h.hopAge] ++ [0] ++ beBytes 2 h.plen.toNat
  ++ beBytes 2 h.swatchId.toNat ++ beBytes 12 h.user.toNat

/-- The 24 bytes of the contribution header, fields most significant byte first (spec/00 R3, spec/07 Table 07-8). -/
def collBytes (c : CollHdr) : List Byte :=
  beBytes 3 (c.handle.toNat * 16 + c.kind.toNat) ++ beBytes 1 c.gen.toNat ++ beBytes 4 c.chunk.toNat
  ++ beBytes 3 (c.rank.toNat * 16 + c.op.toNat) ++ beBytes 4 c.sig.toNat
  ++ beBytes 2 (c.seg.toNat * 2 ^ 14 + c.elems.toNat) ++ beBytes 1 (c.itype.toNat * 16 + c.otype.toNat)
  ++ beBytes 1 (c.mode.toNat * 64) ++ beBytes 4 c.credit.toNat ++ beBytes 1 c.reason.toNat

/-- HCRC of a header (spec/02 R30). -/
def hcrcOf (h : FabHdr) : BitVec 32 := BitVec.ofNat 32 (crc32c (hdrBytes h))

/-- A frame with HCRC recomputed. -/
def withHcrc (f : Frame) : Frame := { f with hdr := { f.hdr with hcrc := hcrcOf f.hdr } }

/-- Is the frame foreign (spec/02 R33)? -/
def isForeign (d : Dev) (f : Frame) : Bool :=
  f.etype.toNat != rdf d .fwdEtype [] 15 0 || f.hdr.ver != 1

/-- Length B of a frame in bytes, first byte of the destination MAC through the FCS (spec/03 R66). -/
def frameLen (d : Dev) (f : Frame) : Nat :=
  if isForeign d f then 14 + f.payload.length + 4
  else 14 + 32 + (if f.hdr.coll then 24 else 0) + f.payload.length + 4

/-- The bytes of a frame in the order of the wire, its FCS left out. -/
def frameBytes (d : Dev) (f : Frame) : List Byte :=
  beBytes 6 f.dmac.toNat ++ beBytes 6 f.smac.toNat ++ beBytes 2 f.etype.toNat
  ++ (if isForeign d f then [] else
        hdrBytes f.hdr ++ beBytes 4 f.hdr.hcrc.toNat ++ (if f.hdr.coll then collBytes f.chdr else []))
  ++ f.payload

/-- Cells of a frame (spec/03 R66). -/
def frameCells (d : Dev) (f : Frame) : Nat := (frameLen d f + 255) / 256

/-- The flow hash of a frame (spec/04 R108). -/
def flowHash (d : Dev) (h : FabHdr) : Nat :=
  crc32cFrom (rd d .rtOrdSeed)
    ([BitVec.ofNat 8 (128 * b2n h.mcast + h.part.toNat / 256), BitVec.ofNat 8 h.part.toNat]
      ++ beBytes 3 h.src.toNat ++ beBytes 3 h.dst.toNat)

/-- Find an ingress frame by its id. -/
def findIng (d : Dev) (id : Nat) : Option Ing := d.sw.ing.find? (fun i => i.id == id)

/-- Replace an ingress frame. -/
def setIng (d : Dev) (x : Ing) : Dev :=
  { d with sw := { d.sw with ing := d.sw.ing.map (fun i => if i.id = x.id then x else i) } }

/-- Egress queue of a (port, VC). -/
def egrQ (d : Dev) (p v : Nat) : List Egr := tgetD d.sw.egr (8 * p + v) []

/-- Store the egress queue of a (port, VC). -/
def setEgrQ (d : Dev) (p v : Nat) (q : List Egr) : Dev :=
  { d with sw := { d.sw with egr := tput [] d.sw.egr (8 * p + v) q } }

/-- Cells in the egress staging of a (port, VC). -/
def egrCells (d : Dev) (p v : Nat) : Nat := (egrQ d p v).foldl (fun a e => a + e.cells) 0

/-- Free cells of egress staging, 36 per lane, beside those reserved for flights (spec/03 R79). -/
def egrRoom (d : Dev) (p v : Nat) : Nat :=
  36 * portW d p - egrCells d p v - tgetD d.sw.egrRsv (8 * p + v) 0

/-- A frame that the device makes itself, at the tail of a (port, VC) queue. -/
def egrPush (d : Dev) (p v : Nat) (e : Egr) : Dev := setEgrQ d p v (egrQ d p v ++ [e])

/-- An egress entry for a frame that the device makes. -/
def ownEgr (d : Dev) (f : Frame) : Egr :=
  ⟨f, frameCells d f, none, true, false, false, .port, none, none, none, none, 0, false⟩

/-! ### Partition table -/

/-- Parity of the committed epoch: 0 even, 1 odd (spec/02 R64). -/
def parity (d : Dev) : Nat := rd d .fwdEpoch % 2

/-- A partition entry. -/
def partOf (d : Dev) (p : Nat) : Part :=
  tgetD d.fwd.parts p ⟨0, ⟨0, false, 0, 0⟩, ⟨0, false, 0, 0⟩⟩

/-- Store a partition entry. -/
def setPart (d : Dev) (p : Nat) (x : Part) : Dev :=
  { d with fwd := { d.fwd with parts := tput ⟨0, ⟨0, false, 0, 0⟩, ⟨0, false, 0, 0⟩⟩ d.fwd.parts p x } }

/-- The active copy of a partition's fields. -/
def partCfg (d : Dev) (p : Nat) : PartCfg := if parity d = 0 then (partOf d p).even else (partOf d p).odd

/-- Is a port set in the active mask of a partition? -/
def inMask (m : BitVec 512) (p : Nat) : Bool := m.getLsbD p

/-- Partition occupancy on a die: cells of its frames in the die's ingress pools (spec/03 R69). -/
def partOcc (d : Dev) (part die : Nat) : Nat :=
  d.sw.ing.foldl (fun a i =>
    if i.frame.hdr.part.toNat = part ∧ i.port / 128 = die ∧ i.hold ≠ .foreign then a + i.res + i.shr + i.guard else a) 0

/-! ### Token buckets -/

/-- A bucket filled continuously up to its depth, in units that accrue per TIME cycle. -/
def fillTo (tok depth rate elapsed : Nat) : Nat := natMin depth (tok + rate * elapsed)

/-- A rate field in 1/9600 byte per TIME cycle: M × 2^E Mbit/s at 1.2 GHz (spec/05 R132). -/
def rateOf (r : Nat) : Nat := bits r 11 0 * 2 ^ bits r 15 12

end Sys2Proof.Machine
end

