-- ==== Sys2Proof/Machine/MemBase.lean ====
section
/-! DEFINITION. Stacked memory as bytes: the address map, reads and writes, poison (spec/09 R243–R246, R257,
R258). -/
namespace Sys2Proof.Machine

/-- First address that does not exist (spec/09 R244). -/
abbrev memEnd : Nat := 0x9000000000

/-- Package pseudo-channel of an address (spec/09 R245). -/
def memPc (d : Dev) (a : Nat) : Nat :=
  let u := a / 256
  let q := u / 768
  (u % 768 + crc32cFrom (rd d .memHashSeed) (beBytes 4 q) % 768) % 768

/-- Bank of an address within its pseudo-channel, its row and its unit of the row (spec/09 R245). -/
def memBank (a : Nat) : Nat × Nat × Nat :=
  let q := a / 256 / 768
  ((q / 4 % 16) ^^^ (q / 64 % 16), q / 64, q % 4)

/-- Stack that holds an address. -/
def memStack (d : Dev) (a : Nat) : Nat := memPc d a / 64

/-- The canonical form of stacked memory: addresses strictly rising, and no entry equal to what an unlisted
address reads as, 0 (log entry 5). -/
abbrev Memory.wf (m : Tab Byte) : Bool := tabWf 0 m

/-- `n` bytes from an address. -/
def memRd (d : Dev) (a n : Nat) : List Byte := tread d.mem.bytes 0 a n

/-- Sectors that a range touches. -/
def sectors (a n : Nat) : List Nat :=
  if n = 0 then [] else (List.range ((a + n - 1) / 64 - a / 64 + 1)).map (a / 64 + ·)

/-- Does a range touch a poisoned sector? -/
def poisoned (d : Dev) (a n : Nat) : Bool := (sectors a n).any d.mem.poison.contains

/-- Write bytes; a whole sector that is written loses its poison (spec/09 R257). -/
def memWr (d : Dev) (a : Nat) (bs : List Byte) : Dev :=
  let whole (k : Nat) : Bool := decide (a ≤ 64 * k) && decide (64 * k + 64 ≤ a + bs.length)
  { d with mem := { d.mem with bytes := twrite 0 d.mem.bytes a bs,
                               poison := d.mem.poison.filter (fun k => !whole k) } }

/-- Set a range to 0. -/
def memZero (d : Dev) (a n : Nat) : Dev :=
  { d with mem := { d.mem with bytes := d.mem.bytes.filter (fun e => decide (e.1 < a) || decide (a + n ≤ e.1)),
                               poison := d.mem.poison.filter (fun k => !(decide (a ≤ 64 * k) && decide (64 * k + 64 ≤ a + n))) } }

/-- A 32-bit word of memory. -/
def mem32 (d : Dev) (a : Nat) : Nat := leVal (memRd d a 4)

/-- Poison the sectors of a range. -/
def poisonAt (d : Dev) (a n : Nat) : Dev :=
  { d with mem := { d.mem with poison := d.mem.poison ++ (sectors a n).filter (fun k => !d.mem.poison.contains k) } }

/-- Marked data has been consumed (spec/09 R258). -/
def consumePoison (d : Dev) (a : Nat) : Dev :=
  let d := raise (retrace d 0x0C (a / 64) 0) (srcMem (memStack d a)) 6
  wr (wr d .memPoisonAddrLo [] (a / 64 * 64 % 2 ^ 32)) .memPoisonAddrHi [] (a / 2 ^ 32 % 256)

/-- The first poisoned address of a range. -/
def poisonIn (d : Dev) (a n : Nat) : Option Nat :=
  ((sectors a n).find? d.mem.poison.contains).map (64 * ·)

/-! ### The check code (spec/09 R257, R261) -/

/-- Lanes in error at an access: those that the command brings and those of an injection. -/
def eccLanes (e : Ecc) (m : Option Nat) : Nat :=
  (match e with | .clean => 0 | .ce _ => 1 | .ue => 2) + m.getD 0

/-- The lane of a corrected error; an injection names none, so its lane is a free value. -/
def eccLane (d : Dev) (e : Ecc) : Nat :=
  match e with
  | .ce l => l % 128
  | _ => (Config.freeWord d.draw).toNat % 128

/-- The check of one sector (spec/09 R257, R261): true for an uncorrectable error, which poisons it; a corrected
error is counted against its lane. -/
def sectorCheck (d : Dev) (a : Nat) (e : Ecc) : Bool × Dev :=
  let e := if e = .clean then ((d.mem.flaws.find? (fun x => x.1 == a / 64)).map (·.2)).getD .clean else e
  let pc := memPc d a
  let st := pc / 64
  let (m, d) := takeMark d 0x0C (st / 3) st
  let k := eccLanes e m
  if poisoned d a 1 ∨ 2 ≤ k then
    (true, raise (if 2 ≤ k then trace (poisonAt (if poisoned d a 1 then d else untrace d 0x0C (a / 64) 0) a 1) 0x0C (a / 64) 0
                  else retrace d 0x0C (a / 64) 0) (srcMem st) 1)
  else if k = 1 then
    let lane := eccLane d e
    let d := { d with draw := d.draw + 1 }
    let d := raise d (srcMem st) 0 [(1, st), (1, pc % 64), (1, lane), (5, a)]
    let d := binError d 2 (st / 3)
    let key := st * 8192 + pc % 64 / 2 * 128 + lane
    (false,
      if d.rel.injected then d
      else
        let l := tgetD d.mem.laneErr key [] ++ [d.now]
        { d with mem := { d.mem with laneErr := tput [] d.mem.laneErr key (l.drop (l.length - 64)) } })
  else (false, d)

/-- Run a row that brings what the check code finds in the sectors that it reads (spec/09 R257). -/
def withFlaws (fl : List (Nat × Ecc)) (f : Dev → Dev) (d : Dev) : Dev :=
  let d := f { d with mem := { d.mem with flaws := fl } }
  { d with mem := { d.mem with flaws := [] } }

/-- Check sectors, each with what its check code finds: true where one holds an uncorrectable error. -/
def sectorsCheck (d : Dev) : List Nat → List Ecc → Bool × Dev
  | [], _ => (false, d)
  | k :: ks, es =>
    let x := sectorCheck d (64 * k) (es.headD .clean)
    let y := sectorsCheck x.2 ks es.tail
    (x.1 || y.1, y.2)

/-- The check of an access, sector by sector. -/
def memCheck (d : Dev) (a n : Nat) (es : List Ecc) : Bool × Dev := sectorsCheck d (sectors a n) es

/-- Units that a range touches. -/
def unitsOf (a n : Nat) : Nat := if n = 0 then 0 else (a + n - 1) / 256 - a / 256 + 1

/-! ### Queues (spec/09 R249, R250; log entry 72) -/

/-- Requests of a pseudo-channel that have been issued and not yet applied. -/
def pchReqs (d : Dev) (p : Nat) : Nat := (d.mem.reqs.filter (fun x => memPc d x.r.addr == p)).length

/-- Requests in a pseudo-channel's queue of 64. -/
def pchOcc (d : Dev) (p : Nat) : Nat := natMin 64 (pchReqs d p)

/-- Requests in the 64 queues of a stack. -/
def stkOcc (d : Dev) (s : Nat) : Nat := (List.range 64).foldl (fun a p => a + pchOcc d (64 * s + p)) 0

/-- Requests of a stack beyond its queues, in the controller's input buffer of 256. -/
def stkBuf (d : Dev) (s : Nat) : Nat :=
  natMin 256 ((List.range 64).foldl (fun a p => a + (pchReqs d (64 * s + p) - 64)) 0)

/-- A stack is at high water: the mean of its 64 queues reaches MEM_QCTL.HWM (R250). -/
def stkHigh (d : Dev) (s : Nat) : Bool := decide (64 * natMax 1 (rdf d .memQctl [] 5 0) ≤ stkOcc d s)

/-- The high-water condition of the device in this cycle; its first cycle is reported (R250). -/
def memHigh (d : Dev) : Dev :=
  if d.mem.reqs.isEmpty && !d.mem.high then d
  else match (List.range 12).find? (stkHigh d) with
    | none => { d with mem := { d.mem with high := false } }
    | some s =>
      if d.mem.high then d
      else event (stSet { d with mem := { d.mem with high := true } } (srcMem s) 2) 0x0C02 (s / 3) s [(1, s)]

end Sys2Proof.Machine
end

