-- ==== Sys2Proof/Machine/Fabric.lean ====
section
/-! DEFINITION. The fabric between the parts of the device: routers and their places, flits, Seam ends, and how
frames, operands, memory requests and responses enter the mesh (spec/01 R15, spec/03 R79–R88, R466). -/
namespace Sys2Proof.Machine

/-! ### Places -/

/-- Tile index of a mesh coordinate 8y + x. -/
def tileOfN (n : Nat) : Nat := tileAt (n % 8) (n / 8)

/-- Mesh coordinate 8y + x of a tile index. -/
def meshNo (t : Nat) : Nat := 8 * tileY t + tileX t

/-- Die of a mesh coordinate. -/
def dieOfN (n : Nat) : Nat := tileOfN n / 16

/-- Distance of two coordinates. -/
def absDiff (a b : Nat) : Nat := (a - b) + (b - a)

/-- Hops between two mesh coordinates. -/
def hopsN (a b : Nat) : Nat := absDiff (a % 8) (b % 8) + absDiff (a / 8) (b / 8)

/-- The neighbour in the weft direction toward a destination, if it lies in another column. -/
def stepX (a b : Nat) : Option Nat :=
  if a % 8 < b % 8 then some (a + 1) else if b % 8 < a % 8 then some (a - 1) else none

/-- The neighbour in the warp direction toward a destination, if it lies in another row. -/
def stepY (a b : Nat) : Option Nat :=
  if a / 8 < b / 8 then some (a + 8) else if b / 8 < a / 8 then some (a - 8) else none

/-- The neighbour under dimension order: weft first. -/
def stepXY (a b : Nat) : Option Nat := (stepX a b).orElse (fun _ => stepY a b)

/-- The Seam link that a hop between dies crosses on a plane (spec/03 R93): its transmitting die and
SEAM_STATE index. -/
def seamOf (a b plane : Nat) : Option (Nat × Nat) :=
  if dieOfN a = dieOfN b then none
  else if a / 8 = b / 8 then some (dieOfN a, 2 * (a / 8 % 4) + plane)
  else some (dieOfN a, 8 + 2 * (a % 8 % 4) + plane)

/-! ### Flits and credits -/

/-- Flits of a frame (spec/03, The mesh). -/
def frameFlits (d : Dev) (f : Frame) : Nat := (frameLen d f + 32 + 255) / 256

/-- Bytes of an element of an operand on its way: a single contribution's input format, a partial's accumulation
format (spec/06 R162). -/
def partW (d : Dev) (p : Partial) : Nat :=
  if p.single then typeBytes p.itype
  else match tget? d.coll.ctxs p.slot with
    | some c => accBytes c.p.op.toNat c.p.mode.toNat p.itype
    | none => typeBytes p.itype

/-- Flits of bytes behind a mesh header. -/
def bytesFlits (n : Nat) : Nat := (n + 32 + 255) / 256

/-- Flits of an operand. -/
def partFlits (d : Dev) (p : Partial) : Nat := bytesFlits (partW d p * p.vals.length)

/-- Flits of what a flight carries; a broadcast carries up to 8,192 bytes (log entry 98). -/
def loadFlits (d : Dev) (l : Load) : Nat :=
  match l with
  | .copy id _ _ => match findIng d id with | some i => frameFlits d i.orig | none => 1
  | .partial_ p _ => partFlits d p
  | .own e _ => frameFlits d e.frame
  | .memQ m => bytesFlits m.r.data.length
  | .memP m => bytesFlits m.data.length
  | .bcast _ _ _ => bytesFlits 8192

/-- Depth of a channel's input buffer (Table 03-3). -/
def chanDepth (chan : Nat) : Nat := if chan = 2 then 33 else 4

/-- A Seam end after a reset. -/
def seamReset : Seam := ⟨0, 0, 0, 0, 0, false, none, 0, [], [], [], [], [], 0, [], [], false⟩

/-- A Seam end. -/
def seamSt (d : Dev) (die link : Nat) : Seam := tgetD d.seams (die * 16 + link) seamReset

/-- Store a Seam end. -/
def setSeam (d : Dev) (die link : Nat) (x : Seam) : Dev :=
  { d with seams := tput seamReset d.seams (die * 16 + link) x }

/-- The far end of a Seam link: the neighbouring die, the same index (spec/01 Table 01-2). -/
def seamFar (die link : Nat) : Nat := if link < 8 then die ^^^ 1 else die ^^^ 2

/-- Plane 1 of a die is OFF (spec/15 R392). -/
def plane1Off (d : Dev) (die : Nat) : Bool := pdState d (108 + die) == 3

/-- The plane of a flight that R106 does not place: 0 while plane 1 of the die is OFF, else open (log entry 98). -/
def freePlane (d : Dev) (t : Nat) : Nat × Dev :=
  if plane1Off d (t / 16) then (0, d) else (b2n (Config.freeBool d.draw), { d with draw := d.draw + 1 })

/-- Add a flight at its ingress router. -/
def launchFlight (d : Dev) (t chan plane age : Nat) (l : Load) (ds : List Nat) : Dev :=
  let a := meshNo t
  { d with sw := { d.sw with
      flights := d.sw.flights ++ [⟨d.sw.nextId, l, chan, plane, a, a, ds, age, d.now, 0, 0, d.sw.nextId, chan⟩],
      nextId := d.sw.nextId + 1 } }

/-- The router of a core of name 8c + j: the cluster's lower warp column for even j, the higher for odd
j, on its die's memory-edge row; a spare that has taken a name uses the router of that name (spec/03 R466).  Nothing in
the mesh comes from or goes to a spare without a name. -/
def coreTile (q : Nat) : Nat :=
  let c := q / 8
  let die := c / 2
  let x := 4 * (die % 2) + 2 * (c % 2) + q % 8 % 2
  tileAt x (if die < 2 then 0 else 7)

/-- The router of the stack that holds an address, on its die's memory-edge row (spec/01 R15; its column: log
entry 99). -/
def stackTile (d : Dev) (a : Nat) : Nat :=
  let s := memStack d a
  tileAt (4 * (s / 3 % 2) + (Config.stackColumn s).toNat) (if s / 3 < 2 then 0 else 7)

/-- The router of a requester of stacked memory; none for what sits at the stack itself. -/
def reqTile (d : Dev) (r : Requester) : Option Nat :=
  let ofGroup (l g : Nat) : Option Nat :=
    ((d.opt.launches.find? (fun x => x.id == l)).bind (fun x => x.groups.find? (fun y => y.g == g))).map
      (fun y => coreTile y.core)
  match r with
  | .core c _ _ => some (coreTile c)
  | .tile t _ _ _ => some t
  | .thread l g _ _ _ _ _ => ofGroup l g
  | .store l g _ => ofGroup l g
  | .scrub | .bolt => none

/-- What tells one requester from another (spec/09 R248). -/
def reqId (r : Requester) : List Nat :=
  match r with
  | .core c _ _ => [0, c]
  | .tile t _ _ _ => [1, t]
  | .thread l g _ _ _ _ _ => [2, l, g]
  | .store l g _ => [2, l, g]
  | .scrub => [3]
  | .bolt => [4]

/-- A memory request leaves its requester on channel Q (spec/03 R79, spec/09 R249). -/
def issue (d : Dev) (op : Nat) (r : MemReq) : Dev :=
  match reqTile d r.src with
  | none => { d with mem := { d.mem with reqs := d.mem.reqs ++ [⟨op, r⟩] } }
  | some t =>
    let x := freePlane d t
    launchFlight x.2 t 3 x.1 0 (.memQ ⟨op, r⟩) [meshNo (stackTile d r.addr)]

/-- A response leaves its stack on channel P (spec/09 R248); what sits at the stack itself needs none. -/
def answer (d : Dev) (m : MemResp) : Dev :=
  match reqTile d m.r.src with
  | none => d
  | some t =>
    let x := freePlane d (stackTile d m.r.addr)
    launchFlight x.2 (stackTile d m.r.addr) 4 x.1 0 (.memP m) [meshNo t]

/-- Requests that have been issued and not yet applied: in the mesh, then at their stack. -/
def allReqs (d : Dev) : List MemOut :=
  d.sw.flights.filterMap (fun f => match f.load with | .memQ m => some m | _ => none) ++ d.mem.reqs

/-- Some request to the units of a range has still to be applied. -/
def unitsQueued (d : Dev) (a n : Nat) : Bool :=
  (allReqs d).any (fun x => decide (x.r.addr / 256 * 256 < a + n) && decide (a < (x.r.addr / 256 + 1) * 256))

/-- Responses on their way and those that have arrived. -/
def allResps (d : Dev) : List MemResp :=
  d.sw.flights.filterMap (fun f => match f.load with | .memP m => some m | _ => none) ++ d.mem.resps

end Sys2Proof.Machine
end

