-- ==== Sys2Proof/Machine/MemAct.lean ====
section
/-! DEFINITION. What a memory request does at its stack, and the accesses of the device that take no request of their own
(spec/09 R247–R260). -/
namespace Sys2Proof.Machine

/-! ### Held writes of sampled segment programs (spec/06 R169) -/

/-- The held writes of the launch that a requester belongs to. -/
def overOf (d : Dev) (r : Requester) : Option (Nat × Tab Byte) :=
  let ofLaunch (l : Nat) : Option (Nat × Tab Byte) :=
    (d.opt.launches.find? (fun x => x.id == l)).bind (fun x => x.held.map (fun t => (l, t)))
  match r with
  | .thread l _ _ _ _ _ _ | .store l _ _ => ofLaunch l
  | _ => none

/-- Bytes as they stand behind held writes. -/
def overlaid (t : Tab Byte) (a : Nat) (bs : List Byte) : List Byte :=
  bs.zipIdx.map (fun x => (tget? t (a + x.2)).getD x.1)

/-- Bytes of memory as a requester sees them: behind the held writes of its own launch. -/
def memSee (d : Dev) (r : Requester) (a n : Nat) : List Byte :=
  match overOf d r with
  | none => memRd d a n
  | some x => overlaid x.2 a (memRd d a n)

/-- Store bytes for a requester: in memory, or among the held writes of its launch. -/
def memStore (d : Dev) (r : Requester) (a : Nat) (bs : List Byte) : Dev :=
  match overOf d r with
  | none => memWr d a bs
  | some x =>
    let t := bs.zipIdx.foldl (fun t b => tset t (a + b.2) b.1) x.2
    { d with opt := { d.opt with launches := d.opt.launches.map (fun g => if g.id = x.1 then { g with held := some t } else g) } }

/-! ### Requests at their stack -/

/-- The device with a request taken from its queue. -/
def memTake (d : Dev) (op : Nat) (r : MemReq) : Dev :=
  { d with mem := { d.mem with reqs := removeFirst (fun x => x.op == op && x.r == r) d.mem.reqs } }

/-- Answer a request on channel P. -/
def respond (d : Dev) (op : Nat) (r : MemReq) (data : List Byte) (bad : Bool) : Dev := 
  answer d ⟨op, r, data, bad, 0, if bad then poisonIn d r.addr r.len else none⟩

/-- What a read of the scrubber does: a corrected sector is written back, and the scrubber goes on to the next in
ascending address order (spec/09 R259). -/
def scrubbed (a : Nat) (es : List Ecc) (d : Dev) : Dev :=
  let ce0 := cntAt d (srcMem 0).cnt
  let (_, d) := memCheck (cnt1 d (srcMem 0) 7) a 64 es
  let d := if cntAt d (srcMem 0).cnt != ce0 then cnt1 (cnt1 d (srcMem 0) 8) (srcMem (memStack d a)) 12 else d
  { d with mem := { d.mem with scrubPos := if a + 64 < memEnd then a + 64 else 0 } }

/-- MEM_READ: the bytes, answered and left as they are (spec/09 R247, R257); one of the scrubber is a scrub read. -/
def memReadAct (r : MemReq) (es : List Ecc) (d : Dev) : Dev :=
  if r.src = .scrub then scrubbed r.addr es d
  else
    let (ue, d) := memCheck (cnt1 d (srcMem 0) 7) r.addr r.len es
    respond d 0 r (memSee d r.src r.addr r.len) ue

/-- Place of a write's data in its range. -/
def dataAt (r : MemReq) : Nat := r.addr + r.offs.headD 0

/-- The bytes that a write stores. -/
def storedOf (r : MemReq) : List Byte := slice r.data 0 (natMin (r.len - r.offs.headD 0) (if r.offs = [] then r.len else r.data.length))

/-- Sectors that a write of `n` bytes at an address fills in part: they are read and checked first (log entry 101). -/
def partSectors (a n : Nat) : List Nat :=
  (sectors a n).filter (fun k => !(decide (a ≤ 64 * k) && decide (64 * k + 64 ≤ a + n)))

/-- MEM_WRITE: the bytes are stored (spec/09 R247, R257). -/
def memWriteAct (r : MemReq) (es : List Ecc) (d : Dev) : Dev :=
  let bs := storedOf r
  let d := (sectorsCheck (cnt1 d (srcMem 0) 8) (partSectors (dataAt r) bs.length) es).2
  respond (memStore d r.src (dataAt r) bs) 1 r [] false

/-- How a memory-side operation adds: bytes of an element in the request and in memory, and the sum of
an element of memory and one of the request (spec/09 R251, R252). -/
def redOp (code : Nat) : Nat × Nat × (Nat → Nat → Nat) :=
  match code with
  | 0 | 5 => (4, 4, fun m x => fadd m x)
  | 1 | 6 => (2, 2, fun m x =>
      match fmtOf 1 with
      | some f => fenc f .rne false (fvAdd (fdec f m) (fdec f x))
      | none => m)
  | 2 => (2, 4, fun m x => fadd m (fconv 1 0 x))
  | 3 | 7 => (4, 4, fun m x => (m + x) % 2 ^ 32)
  | _ => (8, 8, fun m x => (m + x) % 2 ^ 64)

/-- Apply a RED or an ADD: element by element, or not at all where its sectors hold an uncorrectable
error (spec/09 R252, R255). ADD returns the old values. -/
def redApply (code : Nat) (r : MemReq) (es : List Ecc) (d : Dev) : Dev :=
  let d := cnt1 d (srcMem 0) (if code < 5 then 9 else 10)
  let (ue, d) := memCheck d r.addr r.len es
  if ue then respond d (16 + code) r [] true
  else
    let (rw, mw, f) := redOp code
    let offs := if r.offs = [] then (List.range (r.len / mw)).map (mw * ·) else r.offs
    let old := memSee d r.src r.addr r.len
    let add (d : Dev) (x : Nat × Nat) : Dev :=
      memStore d r.src (r.addr + x.1) (leBytes mw (f (leVal (memSee d r.src (r.addr + x.1) mw)) x.2))
    let d := (offs.zip (elemsOf rw r.data offs.length)).foldl add d
    respond d (16 + code) r (if code < 5 then [] else old) false

/-- CNT: the count is added to COUNT, acknowledged to the tile and sent to the chunk's core
(spec/09 R251, R253). The request carries the count, then the core's name. -/
def cntApply (r : MemReq) (es : List Ecc) (d : Dev) : Dev :=
  let (ue, d) := memCheck d r.addr r.len es
  if ue then respond d 25 r [] true
  else
    let n := leAt r.data 0 4
    let d := respond (memWr d r.addr (leBytes 4 (mem32 d r.addr + n))) 25 r [] false
    match r.src with
    | .tile _ slot chunk _ => answer d ⟨25, { r with src := .core (leAt r.data 4 1) slot chunk }, [], false, n, none⟩
    | _ => d

/-- RDCLR: the bytes, which are then set to 0 (spec/09 R251). -/
def rdclrAct (r : MemReq) (es : List Ecc) (d : Dev) : Dev :=
  let d := cnt1 d (srcMem 0) 7
  let (ue, d) := memCheck d r.addr r.len es
  memZero (respond d 26 r (memRd d r.addr r.len) ue) r.addr r.len

/-- What a request does, its sectors as the check code finds them. -/
def reqAct (x : MemOut) (d : Dev) : Dev :=
  match x.op with
  | 0 => memReadAct x.r [] d
  | 1 => memWriteAct x.r [] d
  | 25 => cntApply x.r [] d
  | 26 => rdclrAct x.r [] d
  | n => redApply (n - 16) x.r [] d

/-! ### Accesses outside the queues (log entry 100) -/

/-- Does a request name a unit of a range? -/
def meetsUnits (a n : Nat) (x : MemOut) : Bool :=
  decide (x.r.addr / 256 * 256 < a + n) && decide (a < (x.r.addr / 256 + 1) * 256)

/-- The requests that stand in the queues for the units of a range are applied first (spec/09 R248). -/
def drainUnits (d : Dev) (a n : Nat) : Dev :=
  (d.mem.reqs.filter (meetsUnits a n)).foldl (fun d x => reqAct x (memTake d x.op x.r)) d

/-- Read a range outside the request queues: what stands before it is applied, its units count as read, its sectors are
checked; true: some data is marked (spec/09 R248, R257, R258, R267). -/
def memGet (d : Dev) (a n : Nat) : Bool × Dev := memCheck (cntN (drainUnits d a n) (srcMem 0) 7 (unitsOf a n)) a n []

/-- Write a range outside the request queues; its units count as written (R267). -/
def memPut (d : Dev) (a : Nat) (bs : List Byte) : Dev :=
  memWr (cntN (drainUnits d a bs.length) (srcMem 0) 8 (unitsOf a bs.length)) a bs

/-- Zero a range outside the request queues; its units count as written. -/
def memClear (d : Dev) (a n : Nat) : Dev := memZero (cntN (drainUnits d a n) (srcMem 0) 8 (unitsOf a n)) a n

end Sys2Proof.Machine
end

