-- ==== Sys2Proof/Machine/Tables.lean ====
section
/-! DEFINITION. The endpoint, group, partition and bundle tables: hashing, lookup, insertion,
staging, epoch commit, learning, aging and scrubbing (spec/02 R42–R62, spec/04 R99). -/
namespace Sys2Proof.Machine

/-! ### Entries (spec/02 Table 02-3) -/

/-- The key fields of an entry. -/
def emKey (e : Nat) : Nat × Nat := (bits e 53 42, bits e 41 18)

/-- Valid in a parity: bit 63 even, bit 62 odd. -/
def emValid (e par : Nat) : Bool := bit e (63 - par)

/-- In use: valid in some parity. -/
def emUsed (e : Nat) : Bool := bit e 63 || bit e 62

/-- STATIC. -/
def emStatic (e : Nat) : Bool := bit e 61

/-- Target and its type: bits 56 and 8:0. -/
def emTarget (e : Nat) : Nat × Nat := (bits e 56 56, bits e 8 0)

/-- An entry from its fields, with no valid bit. -/
def emMake (static hit : Bool) (ttype part ep target : Nat) : Nat :=
  b2n static * 2 ^ 61 + b2n hit * 2 ^ 60 + ttype * 2 ^ 56 + part * 2 ^ 42 + ep * 2 ^ 18 + target

/-! ### Hash and slots -/

/-- The packed key (spec/02 R43). -/
def keyBytes (part ep : Nat) : List Byte :=
  [BitVec.ofNat 8 (part / 256), BitVec.ofNat 8 part] ++ beBytes 3 ep

/-- Table hash c_t (spec/02 R43). -/
def emHash (d : Dev) (t part ep : Nat) : Nat :=
  crcReg (if t = 0 then rd d .fwdEmSeed0 else rd d .fwdEmSeed1) (keyBytes part ep)

/-- Slot number of way 0 of the key's bucket in table t. -/
def emBucket (d : Dev) (t part ep : Nat) : Nat := t * 131072 + bits (emHash d t part ep) 14 0 * 4

/-- Way offset s_t of a key. -/
def emWayOff (d : Dev) (t part ep : Nat) : Nat := bits (emHash d t part ep) 16 15

/-- The entry in a slot, the value that the replicas share. -/
def emAt (em : Tab (BitVec 64)) (slot : Nat) : Nat := (tgetD em slot 0).toNat

/-- The entry in a slot of a die's replica. -/
def emAtDie (d : Dev) (die slot : Nat) : Nat :=
  match tget? d.fwd.emDiff (die * 262144 + slot) with
  | some v => v.toNat
  | none => emAt d.fwd.em slot

/-- The eight slots where a key may stand: table 0 ways 0–3, then table 1. -/
def emSlots (d : Dev) (part ep : Nat) : List Nat :=
  let a := emBucket d 0 part ep
  let b := emBucket d 1 part ep
  [a, a + 1, a + 2, a + 3, b, b + 1, b + 2, b + 3]

/-- The slot of the entry for a key that is valid in a parity, on the shared replica. -/
def emFind (d : Dev) (em : Tab (BitVec 64)) (part ep par : Nat) : Option Nat :=
  (emSlots d part ep).find? (fun s => emValid (emAt em s) par && emKey (emAt em s) == (part, ep))

/-- Look up a key in a die's replica under the active parity (spec/02 R45). -/
def emLookup (d : Dev) (die part ep : Nat) : Option Nat :=
  ((emSlots d part ep).map (emAtDie d die)).find?
    (fun e => emValid e (parity d) && emKey e == (part, ep))

/-- Write a slot. -/
def emPut (em : Tab (BitVec 64)) (slot e : Nat) : Tab (BitVec 64) :=
  tput 0 em slot (BitVec.ofNat 64 e)

/-- The lowest way of a bucket that no parity uses. -/
def freeWay (em : Tab (BitVec 64)) (b : Nat) : Option Nat :=
  [b, b + 1, b + 2, b + 3].find? (fun s => !emUsed (emAt em s))

/-- A path without its loops: where it meets a slot again, what lay between stays where it is (log entry 87). -/
def cutLoops (path : List Nat) : List Nat :=
  (path.foldl (fun acc s => if acc.contains s then acc.dropWhile (· != s) else s :: acc) []).reverse

/-- Copy the entries of a path one place on, last first: each stands in its new slot before its old one is
overwritten (spec/02 R46). -/
def emMoves (em : Tab (BitVec 64)) : List Nat → Tab (BitVec 64)
  | [] => em
  | [_] => em
  | s :: s' :: r =>
    let em := emMoves em (s' :: r)
    emPut em s' (emAt em s)

/-- Move the entries of a path, then write the new entry at its start. -/
def emShift (em : Tab (BitVec 64)) (e : Nat) (path : List Nat) : Tab (BitVec 64) :=
  match cutLoops path with
  | [] => em
  | s :: r => emPut (emMoves em (s :: r)) s e

/-- The search of spec/02 R46: `n` kicks left, the kick number, the table and the key that seeks a
place, the path so far (latest first). -/
def emSearch (d : Dev) (em : Tab (BitVec 64)) : Nat → Nat → Nat → Nat × Nat → List Nat → Option (List Nat)
  | 0, _, _, _, _ => none
  | n + 1, kick, t, cur, path =>
    let w := (kick + emWayOff d t cur.1 cur.2) % 4
    let s := emBucket d t cur.1 cur.2 + w
    let v := emKey (emAt em s)
    match freeWay em (emBucket d (1 - t) v.1 v.2) with
    | some f => some ((f :: s :: path).reverse)
    | none => emSearch d em n (kick + 1) (1 - t) v (s :: path)

/-- Place a new entry: a free way of table 0, of table 1, or at the head of a path of at most 128
kicks; none leaves the table unchanged (spec/02 R46). -/
def emPlace (d : Dev) (em : Tab (BitVec 64)) (e : Nat) : Option (Tab (BitVec 64)) :=
  let k := emKey e
  match freeWay em (emBucket d 0 k.1 k.2) with
  | some s => some (emPut em s e)
  | none =>
    match freeWay em (emBucket d 1 k.1 k.2) with
    | some s => some (emPut em s e)
    | none => (emSearch d em 128 0 0 k []).map (emShift em e)

/-- Clear a parity's valid bit of a slot; an entry left with none is removed. -/
def emClear (em : Tab (BitVec 64)) (slot par : Nat) : Tab (BitVec 64) :=
  let e := clrBit (emAt em slot) (63 - par)
  emPut em slot (if emUsed e then e else 0)

/-- Store the shared replica; every slot that changed reads alike on all four dies again. -/
def setEm (d : Dev) (em : Tab (BitVec 64)) : Dev :=
  { d with fwd := { d.fwd with
      em := em,
      emDiff := d.fwd.emDiff.filter (fun x => emAt em (x.1 % 262144) == emAt d.fwd.em (x.1 % 262144)) } }

/-- Entries valid in the active parity (FWD_EM_COUNT). -/
def emCount (d : Dev) : Nat := (d.fwd.em.filter (fun e => emValid e.2.toNat (parity d))).length

/-! ### Staging (spec/02 R56–R59) -/

/-- A group's copies. -/
def grpOf (d : Dev) (g : Nat) : Group := tgetD d.fwd.grps g ⟨⟨false, 0, 0⟩, ⟨false, 0, 0⟩⟩

/-- A bundle's copies. -/
def bundleOf (d : Dev) (b : Nat) : Bundle := tgetD d.fwd.bundles b ⟨[], []⟩

/-- Member slots of a bundle in the active epoch. -/
def bundleSlots (d : Dev) (b : Nat) : List (BitVec 16) :=
  if parity d = 0 then (bundleOf d b).even else (bundleOf d b).odd

/-- Member ports of a bundle in the active epoch, in slot order (spec/04 R99). -/
def bundlePorts (d : Dev) (b : Nat) : List Nat :=
  (bundleSlots d b).filterMap (fun s => if bit s.toNat 15 then some (bits s.toNat 8 0) else none)

/-- Stage one operation into the next parity: 0x00 OK, 0x10 TABLE_FULL or 0x11 STAGE_FULL, each
refusal counted on a die. -/
def stageOp (d : Dev) (die : Nat) (op : StageOp) : Nat × Dev :=
  let nx := 1 - parity d
  let mark (d : Dev) (c : Changed) : Dev :=
    { d with fwd := { d.fwd with staged := d.fwd.staged + 1, changed := d.fwd.changed ++ [c] } }
  if 16384 ≤ d.fwd.staged then (0x11, raise d (srcFwd die) 10)
  else match op with
    | .commit _ => (0, d)
    | .emSet entry =>
      let x := entry.toNat
      let k := emKey x
      let e := emMake (emStatic x) false (emTarget x).1 k.1 k.2 (emTarget x).2 + 2 ^ (63 - nx)
      let em := d.fwd.em
      -- an entry of this key that only the next parity holds is updated in place
      match (emSlots d k.1 k.2).find?
          (fun s => emKey (emAt em s) == k && emValid (emAt em s) nx && !emValid (emAt em s) (1 - nx)) with
      | some s => (0, mark (setEm d (emPut em s e)) (.em (BitVec.ofNat 12 k.1) (BitVec.ofNat 24 k.2)))
      | none =>
        let em1 := match emFind d em k.1 k.2 nx with
          | some s => emClear em s nx
          | none => em
        match emPlace d em1 e with
        | some em2 => (0, mark (setEm d em2) (.em (BitVec.ofNat 12 k.1) (BitVec.ofNat 24 k.2)))
        | none => (0x10, raise d (srcFwd die) 4)
    | .emDel part ep =>
      let em := match emFind d d.fwd.em part.toNat ep.toNat nx with
        | some s => emClear d.fwd.em s nx
        | none => d.fwd.em
      (0, mark (setEm d em) (.em part ep))
    | .grp g c =>
      let x := grpOf d g.toNat
      let x := if nx = 0 then { x with even := c } else { x with odd := c }
      (0, mark { d with fwd := { d.fwd with
        grps := tput ⟨⟨false, 0, 0⟩, ⟨false, 0, 0⟩⟩ d.fwd.grps g.toNat x } } (.grp g))
    | .part p c =>
      let x := partOf d p.toNat
      (0, mark (setPart d p.toNat (if nx = 0 then { x with even := c } else { x with odd := c })) (.part p))
    | .bundle b slots =>
      let x := bundleOf d b.toNat
      let x := if nx = 0 then { x with even := slots } else { x with odd := slots }
      (0, mark { d with fwd := { d.fwd with bundles := tput ⟨[], []⟩ d.fwd.bundles b.toNat x } } (.bundle b))

/-- The tick of a commit requested now: the named one, or the first tick at least tEPOCH_LEAD, 2 µs, after the
request where none is named, or one that is less than tEPOCH_LEAD away or has passed (spec/02 R58, spec/13 R337). -/
def commitTick (d : Dev) (named : Option (BitVec 32)) : BitVec 32 :=
  let first := tickNow d + 2000
  match named with
  | some t => if tickReached (nsNow d) t || decide ((t - tickNow d).toNat < 2000) then first else t
  | none => first

/-- An operation as the sequencer numbers it: a commit is requested at this moment, which fixes its tick and the
domain it is bound to (spec/02 R58, spec/13 R338). -/
def numbered (d : Dev) (h : HeldOp) : HeldOp :=
  match h.op, h.due with
  | .commit t, none => { h with due := some (commitTick d t, activeDom d) }
  | _, _ => h

/-- Arm a commit. -/
def armCommit (d : Dev) (due : BitVec 32 × Nat) (rp : Option Reply) : Dev :=
  { d with fwd := { d.fwd with commit := some ⟨due.1, due.2, rp⟩ } }

/-- A commit is under way: from its request until settling ends (spec/02 R58). -/
def holding (d : Dev) : Bool := d.fwd.commit.isSome || d.fwd.settling

/-- Take an operation as the sequencer numbers it: hold it while a commit is under way, else stage
it (or request the commit) and complete it. -/
def sequence (d : Dev) (h : HeldOp) : Dev :=
  let h := numbered d h
  if holding d then { d with fwd := { d.fwd with held := d.fwd.held ++ [h] } }
  else match h.op with
    | .commit t => armCommit d (h.due.getD (commitTick d t, activeDom d)) h.reply
    | op =>
      let (st, d) := stageOp d h.die op
      completeOpt d h.reply st []

/-- Let held operations join the epoch, in order; from a commit on they stay held. -/
def releaseHeld : Nat → Dev → Dev
  | 0, d => d
  | n + 1, d =>
    if holding d then d
    else match d.fwd.held with
      | [] => d
      | h :: r => releaseHeld n (sequence { d with fwd := { d.fwd with held := r } } h)

/-- Bytes of a 512-bit mask: bit p in byte p / 8 (spec/14 Table 14-3). -/
def maskOf (bs : List Byte) : BitVec 512 := BitVec.ofNat 512 (leVal (slice bs 0 64))

/-! ### Flood buckets (spec/02 R53) -/

/-- Depth of a flood bucket, 64 KiB in 1/960 byte. -/
def floodDepth : Nat := 65536 * 960

/-- FLOOD_RATE, clamped to 1,000 by the hardware: 1/960 byte per TIME cycle. -/
def floodRate (d : Dev) (p : Nat) : Nat := natMin 1000 (partCfg d p).floodRate.toNat

/-- Tokens of a flood bucket now. -/
def floodTok (d : Dev) (die p : Nat) : Nat :=
  match tget? d.fwd.flood (die * 4096 + p) with
  | none => floodDepth
  | some b => fillTo b.tok floodDepth (floodRate d p) (d.now - b.at_)

/-- Store the tokens of a flood bucket. -/
def setFlood (d : Dev) (die p tok : Nat) : Dev :=
  { d with fwd := { d.fwd with flood := tset d.fwd.flood (die * 4096 + p) ⟨tok, d.now⟩ } }

/-- Read out the buckets of the partitions that a commit changes, under their old rate. -/
def settleFlood : List Changed → Dev → Dev
  | [], d => d
  | .part p :: r, d =>
    let one (d : Dev) (die : Nat) : Dev :=
      if (tget? d.fwd.flood (die * 4096 + p.toNat)).isSome then
        setFlood d die p.toNat (floodTok d die p.toNat) else d
    settleFlood r (one (one (one (one d 0) 1) 2) 3)
  | _ :: r, d => settleFlood r d

/-! ### The commands -/

/-- An entry that TBL_EM_STAGE takes: reserved bits 0, a bundle below 256 (spec/14 Table 14-3). -/
def emEntryOk (x : Nat) : Bool := bits x 55 54 == 0 && bits x 17 9 == 0 && !(bit x 56 && bit x 8)

/-- TBL_EM_STAGE (spec/02 R56, R57). -/
def execTblEmStage (h : CmdHdr) (entry : BitVec 64) (s : State) : Host.Outcome State Fault Refusal :=
  act (fun d => runCmd d h 0x10 .h [some entry.toNat] (emEntryOk entry.toNat)
    (fun d rp => sequence d ⟨.emSet entry, some rp, cmdDie rp, none⟩)) s

/-- TBL_EM_DELETE (spec/02 R56). -/
def execTblEmDelete (h : CmdHdr) (part : BitVec 12) (ep : BitVec 24) (s : State) :
    Host.Outcome State Fault Refusal :=
  act (fun d => runCmd d h 0x11 .h [some part.toNat, some ep.toNat] true (fun d rp => sequence d ⟨.emDel part ep, some rp, cmdDie rp, none⟩)) s

/-- TBL_EM_READ: the entry of the active parity, or NOT_FOUND (spec/14 R358). -/
def execTblEmRead (h : CmdHdr) (part : BitVec 12) (ep : BitVec 24) (s : State) :
    Host.Outcome State Fault Refusal :=
  act (fun d => runCmd d h 0x12 .h [some part.toNat, some ep.toNat] true (fun d rp =>
    match emLookup d (cmdDie rp) part.toNat ep.toNat with
    | some e => complete d rp 0 (packFields [(64, e)])
    | none => complete d rp 0x0D [])) s

/-- TBL_GRP_STAGE (spec/02 R56). -/
def execTblGrpStage (h : CmdHdr) (g : BitVec 16) (valid : Bool) (part : BitVec 12) (mask : DmaRead)
    (s : State) : Host.Outcome State Fault Refusal :=
  act (fun d => runCmd d h 0x13 .h [some g.toNat, some (b2n valid), some part.toNat, none] true (fun d rp =>
    match dmaGet d mask with
    | (some b, d) => sequence d ⟨.grp g ⟨valid, part, maskOf b⟩, some rp, cmdDie rp, none⟩
    | (none, d) => refuseDma d rp)) s

/-- TBL_GRP_READ: VALID and PARTITION, the mask to host memory (spec/14 R358). -/
def execTblGrpRead (h : CmdHdr) (g : BitVec 16) (addr : BitVec 64) (s : State) :
    Host.Outcome State Fault Refusal :=
  act (fun d => runCmd d h 0x14 .h [some g.toNat, some addr.toNat] true (fun d rp =>
    let c := if parity d = 0 then (grpOf d g.toNat).even else (grpOf d g.toNat).odd
    let d := dmaWrite d addr.toNat (leBytes 64 c.mask.toNat)
    complete d rp 0 (packFields [(1, b2n c.valid), (12, c.part.toNat)]))) s

/-- TBL_PART_STAGE (spec/02 R40, R56). -/
def execTblPartStage (h : CmdHdr) (part : BitVec 12) (learnEn : Bool) (ageMax : BitVec 3)
    (floodRate : BitVec 10) (mask : DmaRead) (s : State) : Host.Outcome State Fault Refusal :=
  act (fun d => runCmd d h 0x15 .h [some part.toNat, some (b2n learnEn), some ageMax.toNat, some floodRate.toNat, none] true (fun d rp =>
    match dmaGet d mask with
    | (some b, d) => sequence d ⟨.part part ⟨maskOf b, learnEn, ageMax, floodRate⟩, some rp, cmdDie rp, none⟩
    | (none, d) => refuseDma d rp)) s

/-- 16-bit entries of a bundle list. -/
def bundleList (bs : List Byte) : Nat → List (BitVec 16)
  | 0 => []
  | n + 1 => bundleList bs n ++ [BitVec.ofNat 16 (leAt bs (2 * n) 2) &&& 0x81FF]

/-- TBL_BUNDLE_STAGE (spec/04 R99); more than 64 members is BAD_PARAM. -/
def execTblBundleStage (h : CmdHdr) (b : BitVec 8) (n : BitVec 32) (list : DmaRead) (s : State) :
    Host.Outcome State Fault Refusal :=
  act (fun d => runCmd d h 0x17 .h [some b.toNat, some n.toNat, none] (n.toNat ≤ 64) (fun d rp =>
    match dmaGet d list with
    | (some l, d) => sequence d ⟨.bundle b (bundleList l n.toNat), some rp, cmdDie rp, none⟩
    | (none, d) => refuseDma d rp)) s

/-- TBL_COMMIT (spec/02 R58). -/
def execTblCommit (h : CmdHdr) (tick : BitVec 32) (tickv : Bool) (s : State) :
    Host.Outcome State Fault Refusal :=
  act (fun d => runCmd d h 0x18 .h [some tick.toNat, some (b2n tickv)] true (fun d rp =>
    sequence d ⟨.commit (if tickv then some tick else none), some rp, cmdDie rp, none⟩)) s

/-- FWD_EPOCH_COMMIT: a write of FWD_EPOCH_CTL.COMMIT = 1 (spec/02 R58). -/
def fwdEpochCommit (die : Nat) (d : Dev) : Dev := sequence d ⟨.commit none, none, die, none⟩

/-- EPOCH_FLIP: the commit tick of the commit under way (spec/02 R58).  A scrub pass with the shadow check under way is
abandoned and restarts (R62; log entry 94). -/
def epochFlip (d : Dev) : Dev :=
  match d.fwd.commit with
  | none => d
  | some c =>
    let d := settleFlood d.fwd.changed d
    let e := (rd d .fwdEpoch + 1) % 2 ^ 32
    let d := wr d .fwdEpoch [] e
    let restart := rdb d .fwdScrubCtl [] 0 && rdb d .fwdScrubCtl [] 2
    let d := { d with fwd := { d.fwd with commit := none, settling := true, staged := 0,
                                          scrubPos := if restart then 0 else d.fwd.scrubPos } }
    completeOpt d c.reply 0 (packFields [(32, e)])

/-- Copy what one operation changed into the other parity (spec/02 R58, R59). -/
def settleOne (d : Dev) (c : Changed) : Dev :=
  let a := parity d
  match c with
  | .em part ep =>
    let step (em : Tab (BitVec 64)) (s : Nat) : Tab (BitVec 64) :=
      let e := emAt em s
      if emKey e == (part.toNat, ep.toNat) && emUsed e then
        if emValid e a then emPut em s (setBit e (63 - (1 - a))) else emPut em s 0
      else em
    setEm d ((emSlots d part.toNat ep.toNat).foldl step d.fwd.em)
  | .grp g =>
    let x := grpOf d g.toNat
    let x := if a = 0 then { x with odd := x.even } else { x with even := x.odd }
    { d with fwd := { d.fwd with grps := tput ⟨⟨false, 0, 0⟩, ⟨false, 0, 0⟩⟩ d.fwd.grps g.toNat x } }
  | .part p =>
    let x := partOf d p.toNat
    setPart d p.toNat (if a = 0 then { x with odd := x.even } else { x with even := x.odd })
  | .bundle b =>
    let x := bundleOf d b.toNat
    let x := if a = 0 then { x with odd := x.even } else { x with even := x.odd }
    { d with fwd := { d.fwd with bundles := tput ⟨[], []⟩ d.fwd.bundles b.toNat x } }

/-- SETTLING_END: settling ends and the held operations join the next epoch (spec/02 R58). -/
def settlingEnd (d : Dev) : Dev :=
  if d.fwd.settling then
    let d := d.fwd.changed.foldl settleOne d
    let d := { d with fwd := { d.fwd with settling := false, changed := [] } }
    releaseHeld (d.fwd.held.length) d
  else d

/-- SETTLING_END. -/
def execSettlingEnd (s : State) : Host.Outcome State Fault Refusal := act settlingEnd s

/-! ### Learning and aging (spec/02 R49–R51) -/

/-- The learned target of an ingress port: its bundle, else the port (R49).  Of several bundles the lowest-numbered is
taken (DESIGN CHOICE, log entry 96). -/
def learnTarget (d : Dev) (p : Nat) : Nat × Nat :=
  match (d.fwd.bundles.map (·.1)).find? (fun b => (bundlePorts d b).contains p) with
  | some b => (1, b)
  | none => (0, p)

/-- Carry out a learn request taken from a die's queue (spec/02 R49, R59).  A match with the same target sets HIT, of a
static entry too (DESIGN CHOICE, log entry 96). -/
def learn (d : Dev) (die : Nat) (q : LearnReq) : Dev :=
  let p := q.part.toNat
  let ep := q.src.toNat
  let a := parity d
  let tg := learnTarget d q.port
  match emFind d d.fwd.em p ep a with
  | none =>
    let nxt := (emFind d d.fwd.em p ep (1 - a)).isNone
    let e := emMake false true tg.1 p ep tg.2 + 2 ^ (63 - a) + (if nxt then 2 ^ (63 - (1 - a)) else 0)
    match emPlace d d.fwd.em e with
    | some em => setEm d em
    | none => raise d (srcFwd die) 4
  | some s =>
    let e := emAt d.fwd.em s
    if emTarget e == tg then setEm d (emPut d.fwd.em s (setBit e 60))
    else if emStatic e then raise d (srcFwd die) 6
    else
      let e := putBits (putBits (setBit e 60) 56 56 tg.1) 8 0 tg.2
      cnt1 (setEm d (emPut d.fwd.em s e)) (srcFwd die) 16

/-- LEARN_INSERT: the oldest request of a die's learn queue. -/
def learnInsert (die : Nat) (d : Dev) : Dev :=
  match d.fwd.learnQ.getD die [] with
  | [] => d
  | q :: r => learn { d with fwd := { d.fwd with learnQ := lset d.fwd.learnQ die r } } die q

/-- LEARN_INSERT. -/
def execLearnInsert (die : Fin 4) (s : State) : Host.Outcome State Fault Refusal :=
  act (learnInsert die) s

/-- One learned entry under the aging sweep (spec/02 R51). -/
def ageEntry (d : Dev) (e : Nat) : Nat :=
  let mx := (partCfg d (emKey e).1).ageMax.toNat
  if emStatic e || mx == 0 then e
  else if bit e 60 then putBits (clrBit e 60) 59 57 0
  else
    let a := natMin 7 (bits e 59 57 + 1)
    if mx ≤ a then 0 else putBits e 59 57 a

/-- AGING_SWEEP: when AGE_EN is 1 (spec/02 R51). -/
def agingSweep (d : Dev) : Dev :=
  if rdb d .fwdEmCtl [] 1 then
    setEm d ((d.fwd.em.map (fun x => (x.1, BitVec.ofNat 64 (ageEntry d x.2.toNat)))).filter (·.2 != 0))
  else d

/-- AGING_SWEEP. -/
def execAgingSweep (s : State) : Host.Outcome State Fault Refusal := act agingSweep s

/-! ### Scrubbing (spec/02 R60–R62) -/

/-- Overwrite a slot's value on every replica. -/
def emRepair (d : Dev) (slot e : Nat) : Dev :=
  { d with fwd := { d.fwd with
      em := emPut d.fwd.em slot e,
      emDiff := d.fwd.emDiff.filter (fun x => x.1 % 262144 != slot) } }

/-- Does a record of the shadow image name the same key, type and target as an entry, STATIC alike? -/
def shadowSame (e r : Nat) : Bool :=
  emKey e == emKey r && emTarget e == emTarget r && emStatic e == emStatic r

/-- A staged operation has changed the entry of a key in the next parity: a write that holds it, or a delete that has
cleared it (spec/02 R56, R59). -/
def stagedKey (d : Dev) (k : Nat × Nat) : Bool :=
  d.fwd.changed.contains (.em (BitVec.ofNat 12 k.1) (BitVec.ofNat 24 k.2))

/-- A static entry as the shadow image's record gives it: valid in the active parity, and in the next one unless a
staged operation for its key holds that (spec/02 R56, R59–R61). -/
def shadowEntry (d : Dev) (r : Nat) : Nat :=
  r % 2 ^ 57 + 2 ^ 61 + 2 ^ (63 - parity d) + (if stagedKey d (emKey r) then 0 else 2 ^ (63 - (1 - parity d)))

/-- A record repairs a slot: it names the key of a static entry that a replica holds there, and no other slot holds
that key in the active parity (spec/02 R45). -/
def shadowFits (d : Dev) (slot : Nat) (v : List Nat) (r : Nat) : Bool :=
  let k := emKey r
  v.any (fun e => emStatic e && emKey e == k)
    && (match emFind d (emPut d.fwd.em slot 0) k.1 k.2 (parity d) with | some _ => false | none => true)

/-- SCRUB_SLOT_READ: compare one slot on the four replicas (spec/02 R60).  `shadow` is the record
that the device reads for the slot's key where it must repair a static entry from the image.  Where no three
replicas agree: one mismatch, on the first die that differs from FD0; the slot is removed or repaired only while REPAIR
is 1; a removal counts as a repair; a slot whose record cannot be read stays as it is (DESIGN CHOICE, log entry 95). -/
def scrubSlotRead (shadow : DmaRead) (d : Dev) : Dev :=
  if !rdb d .fwdScrubCtl [] 0 then d
  else
    let slot := d.fwd.scrubPos
    let d := { d with fwd := { d.fwd with scrubPos := (slot + 1) % 262144 } }
    let v := (List.range 4).map (fun die => emAtDie d die slot)
    let votes (x : Nat) : Nat := (v.filter (· == x)).length
    let rep := rdb d .fwdScrubCtl [] 1
    match v.find? (fun x => 3 ≤ votes x) with
    | some x =>
      match (List.range 4).find? (fun die => v.getD die 0 != x) with
      | none => d
      | some die =>
        let d := raise d (srcFwd die) 11 [(1, die), (3, slot)]
        if rep then cnt1 (emRepair d slot x) (srcFwd die) 17 else d
    | none =>
      let die := ((List.range 4).find? (fun die => v.getD die 0 != v.getD 0 0)).getD 0
      let d := raise d (srcFwd die) 11 [(1, die), (3, slot)]
      if !rep then d
      else if v.any emStatic && rdb d .fwdScrubCtl [] 2 then
        match dmaGet d shadow with
        | (some b, d) =>
          let r := leAt b 0 8
          cnt1 (emRepair d slot (if shadowFits d slot v r then shadowEntry d r else 0)) (srcFwd die) 17
        | (none, d) => d
      else cnt1 (emRepair d slot 0) (srcFwd die) 17

/-- SCRUB_SLOT_READ. -/
def execScrubSlotRead (shadow : DmaRead) (s : State) : Host.Outcome State Fault Refusal :=
  act (scrubSlotRead shadow) s

/-- Check one record of the shadow image and, with REPAIR, write it by a sequenced insert (R62).  A record that differs
on any replicas is one mismatch, counted on FD0; the insert leaves the next parity to a staged operation for the key, a
staged delete included (DESIGN CHOICE, log entry 95). -/
def shadowRecord (d : Dev) (r : Nat) : Dev :=
  let k := emKey r
  let good := (List.range 4).all (fun die =>
    match emLookup d die k.1 k.2 with
    | some e => shadowSame e r
    | none => false)
  if good then d
  else
    let d := raise d (srcFwd 0) 12
    if !rdb d .fwdScrubCtl [] 1 then d
    else
      let a := parity d
      let e := emMake (emStatic r) false (emTarget r).1 k.1 k.2 (emTarget r).2
        + 2 ^ (63 - a) + (if (emFind d d.fwd.em k.1 k.2 (1 - a)).isNone && !stagedKey d k then 2 ^ (63 - (1 - a)) else 0)
      match emFind d d.fwd.em k.1 k.2 a with
      | some s =>
        let keep := bits (emAt d.fwd.em s) 63 62
        emRepair d s (putBits e 63 62 keep)
      | none =>
        match emPlace d d.fwd.em e with
        | some em => setEm d em
        | none => raise d (srcFwd 0) 4

/-- The first `n` records of a shadow image. -/
def shadowRecords (bs : List Byte) : Nat → List Nat
  | 0 => []
  | n + 1 => shadowRecords bs n ++ [leAt bs (64 + 16 * n) 8]

/-- SHADOW_PASS: compare the shadow image against the tables, or skip it (spec/02 R61, R62).  FD0 counts both (DESIGN
CHOICE, log entry 95). -/
def shadowPass (img : DmaRead) (d : Dev) : Dev :=
  if !(rdb d .fwdScrubCtl [] 0 && rdb d .fwdScrubCtl [] 2) then d
  else match dmaGet d img with
    | (none, d) => d
    | (some b, d) =>
      if leAt b 0 4 ≠ rd d .fwdEpoch then cnt1 d (srcFwd 0) 18
      else
        let n := natMin (leAt b 4 4) ((b.length - 64) / 16)
        let d := (shadowRecords b n).foldl shadowRecord d
        let statics := (d.fwd.em.filter
          (fun e => emValid e.2.toNat (parity d) && emStatic e.2.toNat)).length
        if statics = leAt b 4 4 then d else raise d (srcFwd 0) 12

/-- SHADOW_PASS. -/
def execShadowPass (img : DmaRead) (s : State) : Host.Outcome State Fault Refusal :=
  act (shadowPass img) s

/-! ### Registers of the table block -/

/-- FWD_AGE_CTL_WRITE: a new period restarts the sweep timer (spec/02 R51). -/
def fwdAgeCtlWrite (val : Nat) (d : Dev) : Dev :=
  let d := wr d .fwdAgeCtl [] (bits val 23 0)
  { d with fwd := { d.fwd with sweepAt := d.now } }

/-- A write of FWD_EM_CTL: one that turns AGE_EN on restarts the sweep timer (spec/02 R51). -/
def emCtlWrite (val : Nat) (d : Dev) : Dev :=
  let was := rdb d .fwdEmCtl [] 1
  let d := wr d .fwdEmCtl [] val
  if !was && bit val 1 then { d with fwd := { d.fwd with sweepAt := d.now } } else d

end Sys2Proof.Machine
end

