-- ==== Sys2Proof/Machine/Route.lean ====
section
/-! DEFINITION. Where a frame goes: destination sets, bundles and spraying, redirection, the order
tracker and the transmit timestamp queue (spec/02 R41–R55, spec/04 R97–R112, spec/13 R341). -/
namespace Sys2Proof.Machine

/-! ### Transmit timestamps -/

/-- Write a transmit timestamp entry, or lose it when the die's 64 are queued (spec/13 R341). -/
def tsqPush (d : Dev) (p : Nat) (tsid : BitVec 16) (lost : Bool) : Dev :=
  let die := p / 128
  let q := d.time.tsq.getD die []
  if q.length < 64 then
    let z : Dom := ⟨0, 0⟩
    let e : TsqEntry := ⟨if lost then z else d.time.d0, if lost then z else d.time.d1, tsid, p, lost⟩
    cnt1 { d with time := { d.time with tsq := lset d.time.tsq die (q ++ [e]) } } (srcTime 255 0) 11
  else
    let d := stSet (cntN d (srcTime die 0) die 1) (srcTime die 0) 0
    event d 0x1200 die 0 [(1, die), (2, tsid.toNat)]

/-! ### Bundles and spraying (spec/04 R99–R105) -/

/-- Members of a bundle eligible for a frame: in service, in the partition mask, no ANALYSIS role
(spec/02 R41). -/
def eligible (d : Dev) (b part : Nat) : List Nat :=
  (bundlePorts d b).filter (fun p =>
    inService d p && inMask (partCfg d part).mask p && portRole d p != 2)

/-- RT_CTL.WARM, 0 read as 1. -/
def warmNeed (d : Dev) : Nat := natMax 1 (rdf d .rtCtl [] 15 8)

/-- A port has its WARM samples. -/
def portWarm (d : Dev) (p : Nat) : Bool := decide (warmNeed d ≤ tgetD d.rt.warm p 0)

/-- A member's latest depth, or the mean of the warm members for one that joined later (R104). -/
def depthFor (d : Dev) (ms : List Nat) (p v : Nat) : Nat :=
  if portWarm d p then tgetD d.rt.depth (8 * p + v) 0
  else
    let w := ms.filter (portWarm d)
    (w.foldl (fun a m => a + tgetD d.rt.depth (8 * m + v) 0) 0) / natMax 1 w.length

/-- The score of a member (spec/04 R103). -/
def score (d : Dev) (t b : Nat) (ms : List Nat) (v p : Nat) : Nat :=
  depthFor d ms p v + (tgetD d.rt.sent (t * 512 + p) 0 + 7) / 8
    - (if p / 128 = t / 16 then rdf d .rtBundleCtl [b] 15 8 else 0)

/-- A tile sends cells to ports: every cell counts until the port's next depth sample (spec/04 R103; from the moment
its destination is chosen, log entry 102). -/
def noteSent (d : Dev) (t cells : Nat) (ps : List Nat) : Dev :=
  { d with rt := { d.rt with sent := ps.foldl (fun s p => tput 0 s (t * 512 + p) (tgetD s (t * 512 + p) 0 + cells)) d.rt.sent } }

/-- Every member of a bundle has its WARM samples (spec/04 R104). -/
def bundleWarm (d : Dev) (b : Nat) : Bool := !(bundlePorts d b).isEmpty && (bundlePorts d b).all (portWarm d)

/-- The bundle has become warm, now or earlier (spec/04 R104). -/
def isWarm (d : Dev) (b : Nat) : Bool := d.rt.warmB.contains b || bundleWarm d b

/-- Note that a bundle is warm. -/
def noteWarm (d : Dev) (b : Nat) : Dev :=
  if isWarm d b && !d.rt.warmB.contains b then { d with rt := { d.rt with warmB := d.rt.warmB ++ [b] } } else d

/-- The first member at or after a round-robin position among those that a test takes. -/
def rrPick (ms : List Nat) (ptr : Nat) (p : Nat → Bool) : Option Nat :=
  let n := ms.length
  ((List.range n).map (fun i => (ptr + i) % n)).find? (fun i => p (ms.getD i 0))

/-- Spray a frame over eligible members: hash-pinned, by score once warm, else round-robin
(spec/04 R103–R105).  The round-robin pointer of a (tile, bundle) starts at 0 and counts places in the list of
eligible members (DESIGN CHOICE, log entry 102).  Answers the member. -/
def spray (d : Dev) (t b : Nat) (ms : List Nat) (h : FabHdr) (v : Nat) : Nat × Dev :=
  let n := ms.length
  if rdb d .rtBundleCtl [b] 31 then (ms.getD (flowHash d h % n) 0, d)
  else
    let key := t * 256 + b
    let ptr := tgetD d.rt.rr key 0 % natMax 1 n
    let d := noteWarm d b
    let adaptive := isWarm d b && ms.any (portWarm d)
    let best := (ms.map (score d t b ms v)).foldl natMin (2 ^ 32)
    let i := (rrPick ms ptr (fun p => !adaptive || score d t b ms v p == best)).getD 0
    let d := { d with rt := { d.rt with rr := tput 0 d.rt.rr key (i + 1) } }
    (ms.getD i 0, cnt1 d (srcRt (t / 16) 0) (if adaptive then 8 else 7))

/-! ### Destination sets -/

/-- What a lookup resolves to. -/
inductive Dest where
  | one (p : Nat) (via : Via)
  | many (ps : List Nat)
  | flood
deriving DecidableEq

/-- May a frame from port `p` leave on port `q` (spec/03 R85)? -/
def turnOk (d : Dev) (p q : Nat) : Bool := !(portRole d p == 1 && portRole d q == 1)

/-- Ports that receive a copy of a flood or multicast of a partition under a mask: they begin a
port, are in service and have no ANALYSIS role (spec/02 R41). -/
def maskPorts (d : Dev) (m : BitVec 512) : List Nat :=
  (List.range 512).filter (fun p =>
    m.getLsbD p && decide (0 < portW d p) && inService d p && portRole d p != 2)

/-- Resolve a bundle target; a bundle with no eligible member is a miss (spec/04 R100). -/
def viaBundle (d : Dev) (p b : Nat) (h : FabHdr) : Dest × Dev :=
  let ms := eligible d b h.part.toNat
  if ms = [] then
    (.flood, raise d (srcRt (p / 128) 0) 1 [] (bundlePorts d b))
  else
    let (q, d) := spray d (p / 8) b ms h h.vc.toNat
    (.one q (.bundle b), d)

/-- Redirect a frame whose target port is not in service (spec/04 R101). -/
def redirect (d : Dev) (p q : Nat) (h : FabHdr) : Dest × Dev :=
  let d := raise d (srcRt (p / 128) 0) 2 [] [q]
  if rdb d .rtPort (lix q) 24 then viaBundle d p (rdf d .rtPort (lix q) 23 16) h
  else (.flood, d)

/-- Look up a unicast frame received on port `p` (spec/02 R41, R45, R52; spec/04 R100, R101).  The mask's bit of a
port's later lane is ignored, so an entry that targets one lies outside the mask. -/
def resolveUni (d : Dev) (p : Nat) (h : FabHdr) : Dest × Dev :=
  let die := p / 128
  let d := cnt1 d (srcFwd die) 19
  match emLookup d die h.part.toNat h.dst.toNat with
  | none => (.flood, d)
  | some e =>
    let (tt, tg) := emTarget e
    if tt = 1 then viaBundle d p (tg % 256) h
    else if !inMask (partCfg d h.part.toNat).mask tg || portW d tg == 0 || portRole d tg == 2 then
      (.flood, cnt1 d (srcFwd die) 15)
    else if inService d tg then (.one tg .port, d)
    else redirect d p tg h

/-- Resolve a frame by its flags: group table or endpoint table (spec/02 R55). -/
def resolve (d : Dev) (p : Nat) (h : FabHdr) : Dest × Dev :=
  if h.mcast then
    let g := grpOf d (h.dst.toNat % 65536)
    let c := if parity d = 0 then g.even else g.odd
    if h.dst.toNat < 65536 ∧ c.valid ∧ c.part = h.part then
      (.many (maskPorts d (c.mask &&& (partCfg d h.part.toNat).mask)), d)
    else (.flood, raise d (srcFwd (p / 128)) 9)
  else resolveUni d p h

/-! ### Order tracker (spec/04 R108–R112) -/

/-- CUR of an index on a die. -/
def curOf (d : Dev) (die idx : Nat) : Nat := tgetD d.rt.cur (die * 65536 + idx) 0

/-- A tracker half. -/
def halfOf (d : Dev) (die idx half : Nat) : Nat := tgetD d.rt.trk (die * 131072 + idx * 2 + half) 0

/-- Store a tracker half. -/
def setHalf (d : Dev) (die idx half v : Nat) : Dev :=
  { d with rt := { d.rt with trk := tput 0 d.rt.trk (die * 131072 + idx * 2 + half) v } }

/-- Count a frame in half CUR of its index on its die; answers the half. -/
def trackIn (d : Dev) (die idx : Nat) : Nat × Dev :=
  let c := curOf d die idx
  (c, setHalf d die idx c (halfOf d die idx c + 1))

/-- Flip CUR of an index on a die. -/
def flipCur (d : Dev) (die idx : Nat) : Dev :=
  { d with rt := { d.rt with cur := tput 0 d.rt.cur (die * 65536 + idx) (1 - curOf d die idx) } }

/-- An open fence at an index. -/
def fenceAt (d : Dev) (idx : Nat) : Option (Nat × Nat × List Nat) :=
  d.rt.fences.find? (fun f => f.1 == idx)

/-- An ORDER frame opens a fence: its own die flips CUR at once and the frame counts in the new
half; the other dies flip on request (spec/04 R110).  An ORDER frame that has waited in the order-hold queue is
counted here, when its fence opens, and not at its lookup (DESIGN CHOICE, log entry 104). -/
def openFence (d : Dev) (i : Ing) (idx : Nat) : Ing × Dev :=
  let die := i.port / 128
  let d := flipCur d die idx
  let (h, d) := trackIn d die idx
  ({ i with hold := .fence, trk := some (idx, h) },
   { d with rt := { d.rt with fences := d.rt.fences ++ [(idx, i.id, [die])] } })

/-- ORDER frames of a die that wait in its order-hold queue. -/
def orderHeld (d : Dev) (die : Nat) : Nat :=
  (d.sw.ing.filter (fun i => i.hold == .orderQ && i.port / 128 == die)).length

/-- The waiting ORDER frame for an index whose lookup completed first, then by die, then tile (spec/04 R111).  One that
stalls its slice because the order-hold queue is full does not compete (DESIGN CHOICE, log entry 104). -/
def nextOrder (d : Dev) (idx : Nat) : Option Ing :=
  (d.sw.ing.filter (fun i => i.hold == .orderQ && flowHash d i.frame.hdr % 65536 == idx)).foldl
    (fun b i => match b with
      | none => some i
      | some x => if i.at_ < x.at_ ∨ (i.at_ = x.at_ ∧ i.port / 8 < x.port / 8) then some i else some x)
    none

end Sys2Proof.Machine
end

