-- ==== Sys2Proof/Machine/Coll.lean ====
section
/-! DEFINITION. Collective contexts: placement, signatures, the frames that the device sends on its own
account, grants, closing and aborts (spec/07; spec/08 R208, R219, R221). -/
namespace Sys2Proof.Machine

/-! ### Ingress pool -/

/-- Free the cells of an ingress frame: reserve cells become credits again, shared cells go to the
pool or become credits (spec/03 R67, R71). -/
def freeCells (d : Dev) (i : Ing) : Dev :=
  let d := { d with sw := { d.sw with guard := tput 0 d.sw.guard i.port (tgetD d.sw.guard i.port 0 - i.guard) } }
  if i.old then d
  else
    let x := pvSt d i.port i.vcIn
    let d := setPv d i.port i.vcIn { x with resUsed := x.resUsed - i.res, grant := x.grant + i.res }
    freeShared i.shr d i.port i.vcIn

/-- Store an ingress frame after a change: its cells are freed once no copy has still to be accepted
(spec/03 R67), and it is forgotten once every copy has been transmitted (spec/04 R110). -/
def settleIng (d : Dev) (i : Ing) : Dev :=
  if i.out = 0 then
    let d := freeCells d i
    if i.unsent = 0 then { d with sw := { d.sw with ing := d.sw.ing.filter (fun x => x.id != i.id) } }
    else setIng d { i with res := 0, shr := 0, guard := 0 }
  else setIng d i

/-- One use of an ingress frame's cells ends: it is discarded, released or consumed, or a copy of it
has been accepted. -/
def freeIng (d : Dev) (id : Nat) : Dev :=
  match findIng d id with
  | none => d
  | some i => settleIng d { i with out := i.out - 1 }

/-- Release a frame without transmission (spec/02 R54), counted on a die. -/
def noDest (d : Dev) (die : Nat) : Dev := raise d (srcFwd die) 8

/-! ### Cores by name (spec/00 R14, spec/06 R140) -/

/-- The physical index that holds name `j` of cluster `c`: its own, or the spare's. -/
def physOf (d : Dev) (c j : Nat) : Nat :=
  if rdf d .relSpareMap [] (4 * c + 3) (4 * c) = j then 8 else j

/-- Physical index whose name the spare of a cluster holds; 15 none. -/
def spareHolds (d : Dev) (c : Nat) : Nat := rdf d .relSpareMap [] (4 * c + 3) (4 * c)

/-- The name that a physical core holds. -/
def nameOf (d : Dev) (c i : Nat) : Option Nat :=
  if i = 8 then (if spareHolds d c < 8 then some (spareHolds d c) else none)
  else if spareHolds d c = i then none else some i

/-- State of a physical core. -/
def coreStateAt (d : Dev) (c i : Nat) : Nat :=
  if i = 8 then rdf d .rcCoreStateSpare [c / 2, c % 2] 2 0 else rdf d .rcCoreState [c / 2, c % 2, i] 2 0

/-- Set the state of a physical core. -/
def setCoreState (d : Dev) (c i v : Nat) : Dev :=
  if i = 8 then wr d .rcCoreStateSpare [c / 2, c % 2] v else wr d .rcCoreState [c / 2, c % 2, i] v

/-- Is the core of name 8c + j in SERVICE? -/
def nameUp (d : Dev) (q : Nat) : Bool := coreStateAt d (q / 8) (physOf d (q / 8) (q % 8)) == 1

/-- Is the core of name 8c + j ON (spec/15 R392)? -/
def nameOn (d : Dev) (q : Nat) : Bool := pdOn d (9 * (q / 8) + physOf d (q / 8) (q % 8))

/-- Does placement keep the name 8c + j: its core is in SERVICE or in PATROL, or its spare is being tested
(spec/06 Table 06-1, R141, spec/16 R419, R420)? -/
def nameLive (d : Dev) (q : Nat) : Bool :=
  let s := coreStateAt d (q / 8) (physOf d (q / 8) (q % 8))
  s == 1 || s == 2 || d.rel.sparing.any (fun x => x.1 == q / 8 && x.2.1 == q % 8)

/-- The broadcasts of a Patrol unit are abandoned with it (spec/04 R114). -/
def dropBcasts (d : Dev) (u : PatrolUnit) : Dev :=
  { d with sw := { d.sw with flights := d.sw.flights.filter (fun f => match f.load with
      | .bcast _ _ v => v != some u
      | _ => true) } }

/-- A Patrol unit on a core ends without a result: the core is back in SERVICE, or a spare OFF (spec/16 R420). -/
def abandonCore (d : Dev) (n : Nat) : Dev :=
  if d.rel.patrol.contains (.core n) then
    let d := dropBcasts d (.core n)
    let d := { d with rel := { d.rel with patrol := d.rel.patrol.filter (· != .core n) } }
    let held := n % 9 < 8 || rdf d .relSpareMap [] (4 * (n / 9) + 3) (4 * (n / 9)) != 15
    cnt1 (setCoreState d (n / 9) (n % 9) (b2n held)) (srcRel (n / 18) n) 12
  else d

/-- Work arrives for the core of name 8c + j: a Patrol unit on it is abandoned (spec/16 R420). -/
def yieldName (d : Dev) (q : Nat) : Dev := abandonCore d (9 * (q / 8) + physOf d (q / 8) (q % 8))

/-- Event number of a placement number: 9c + j from 8c + j. -/
def coreNo (q : Nat) : Nat := 9 * (q / 8) + q % 8

/-- Bobbin slots of a core (spec/06 R145). -/
def bobSlots (d : Dev) (c : Nat) : Nat := natMin 256 (rdf d .clBob [c / 2, c % 2] 8 0)

/-! ### Contexts -/

/-- The context of a slot; none when FREE. -/
def ctxOf (d : Dev) (slot : Nat) : Option Ctx := tget? d.coll.ctxs slot

/-- Store a context. -/
def setCtx (d : Dev) (slot : Nat) (c : Ctx) : Dev :=
  { d with coll := { d.coll with ctxs := tset d.coll.ctxs slot c } }

/-- Home die of a slot (spec/07 R177). -/
def homeDie (slot : Nat) : Nat := slot / 4096

/-- Chunks in a round (spec/07 R187). -/
def roundN (p : CollParams) : Nat :=
  if p.op.toNat = opBarrier then 1
  else (p.total.toNat + p.chunkElems.toNat - 1) / natMax 1 p.chunkElems.toNat

/-- Expected element count of a chunk. -/
def expected (p : CollParams) (c : Nat) : Nat :=
  if p.op.toNat = opBarrier then 0
  else natMin p.chunkElems.toNat (p.total.toNat - c % natMax 1 (roundN p) * p.chunkElems.toNat)

/-- Bytes of the acknowledgement table of a mirror context: Rn entries of four bytes (spec/08 R220; log entry 115). -/
def ackBytes (p : CollParams) : Nat := alignUp (4 * roundN p) 256

/-- Placement number of a chunk's core (spec/07 R188). -/
def coreOf (c : Ctx) (chunk : Nat) : Nat := c.cores.getD (chunk % natMax 1 c.cores.length) 0

/-- A context takes frames: OPEN or CLOSING. -/
def live (c : Ctx) : Bool := c.st == 1 || c.st == 2

/-- The shard that a RUB context binds. -/
def shardOf (d : Dev) (sh : Nat) : Option Shard := tget? d.opt.shards sh

/-- Store a shard. -/
def setShard (d : Dev) (sh : Nat) (x : Shard) : Dev :=
  { d with opt := { d.opt with shards := tset d.opt.shards sh x } }

/-- Is the context a RUB context on a shard of a role? -/
def rubRole (d : Dev) (c : Ctx) (role : Nat) : Bool :=
  c.p.op.toNat == opRub && (match shardOf d c.p.shard.toNat with | some s => s.role == role | none => false)

/-- Members of a member entry: endpoint, target type and target (spec/07 Table 07-1). -/
def memEp (m : BitVec 64) : Nat := bits m.toNat 63 40
/-- Target type and number of a member entry. -/
def memTarget (m : BitVec 64) : Nat × Nat := (bits m.toNat 39 39, bits m.toNat 38 30)

/-- The down set: the distinct TARGETs of the member list (spec/07 R190). -/
def downSet (c : Ctx) : List (Nat × Nat) := (c.members.map memTarget).eraseDups

/-- The lowest rank whose TARGET is a given one. -/
def rankOfTarget (c : Ctx) (t : Nat × Nat) : Nat :=
  (c.members.map memTarget).findIdx (fun x => x == t)

/-- PARTNER_TARGET as a target type and number (spec/08 Table 08-4). -/
def partnerTarget (p : CollParams) : Nat × Nat :=
  (bits p.partnerTarget.toNat 9 9, bits p.partnerTarget.toNat 8 0)

/-- Find a chunk of a context. -/
def findChunk (c : Ctx) (i : Nat) : Option Chunk := c.chunks.find? (fun k => k.idx == i)

/-- Store a chunk of a context. -/
def setChunk (c : Ctx) (k : Chunk) : Ctx :=
  if c.chunks.any (fun x => x.idx == k.idx) then
    { c with chunks := c.chunks.map (fun x => if x.idx = k.idx then k else x) }
  else { c with chunks := c.chunks ++ [k] }

/-! ### The collective state region (spec/07 R174, R179, R193) -/

/-- First address of the region. -/
def collBase (d : Dev) : Nat := rd d .collMemBaseHi * 2 ^ 32 + rd d .collMemBaseLo

/-- End of the region. -/
def collTop (d : Dev) : Nat := collBase d + rdf d .collMemSize [] 15 0 * 2 ^ 20

/-- Bytes that a context holds: after an abort, once no request to its spill area is outstanding,
only its NEXT counters. -/
def areaHeld (d : Dev) (c : Ctx) : Nat :=
  let hit (a : Nat) : Bool := decide (c.spill ≤ a) && decide (a < c.area + c.areaSize)
  if live c || (allReqs d).any (fun r => hit r.r.addr) || (allResps d).any (fun r => hit r.r.addr)
  then c.areaSize else c.spill - c.area

/-- Extents in use: patterns that are VALID and contexts that are not FREE. -/
def collExtents (d : Dev) : List (Nat × Nat) :=
  d.coll.pats.filterMap (fun e => if e.2.valid then some (e.2.base, alignUp (8 * e.2.members.length) 256) else none)
    ++ d.coll.ctxs.map (fun e => (e.2.area, areaHeld d e.2))

/-- The lowest address at which `n` bytes fit between `lo` and `hi` beside extents in use. -/
def fitAt (lo hi n : Nat) (ex : List (Nat × Nat)) : Option Nat :=
  let ok (a : Nat) : Bool :=
    decide (lo ≤ a) && decide (a + n ≤ hi) && ex.all (fun e => decide (a + n ≤ e.1) || decide (e.1 + e.2 ≤ a) || e.2 == 0)
  (lo :: ex.map (fun e => e.1 + e.2)).foldl
    (fun b a => if ok a then (match b with | none => some a | some x => some (natMin x a)) else b) none

/-- COLL_MEM_USED.MIB. -/
def collUsed (d : Dev) : Nat :=
  ((collExtents d).foldl (fun a e => a + e.2) 0 + 2 ^ 20 - 1) / 2 ^ 20

/-! ### Signature and sampling -/

/-- The signature of a context (spec/07 R180). -/
def sigOf (p : CollParams) (pgen : BitVec 16) : BitVec 32 :=
  BitVec.ofNat 32 (crc32c
    ([BitVec.ofNat 8 (p.op.toNat * 16 + p.mode.toNat * 4), BitVec.ofNat 8 (p.itype.toNat * 16 + p.otype.toNat)]
      ++ beBytes 8 p.total.toNat ++ beBytes 3 (p.root.toNat * 16) ++ beBytes 2 pgen.toNat ++ [0]))

/-- Is a chunk sampled for Overlock (spec/06 R166)? -/
def sampledChunk (d : Dev) (c : Ctx) (chunk : Nat) : Bool :=
  match c.ovl with
  | none => false
  | some n =>
    rdb d .ovlCtl [] 0 &&
      crc32cFrom (rd d .ovlSeed)
        (beBytes 3 (c.p.handle.toNat * 16) ++ [c.gen] ++ beBytes 4 chunk) % 2 ^ n == 0

/-- The shadow of a primary core, by placement number (spec/06 R167); none: the die has one core. -/
def shadowOf (d : Dev) (q : Nat) : Option Nat :=
  let o := 8 * ((q / 8) ^^^ 1)
  let inOther := (List.range 8).map (fun i => o + (q % 8 + i) % 8)
  let inOwn := ((List.range 7).map (fun i => q / 8 * 8 + (q % 8 + 1 + i) % 8))
  match inOther.find? (nameUp d) with
  | some x => some x
  | none => inOwn.find? (nameUp d)

/-! ### Frames that the device sends on its own account (spec/07 R190, R464) -/

/-- Padding of a payload to 14 bytes (spec/02 R35). -/
def padded (b : List Byte) : List Byte := b ++ List.replicate (14 - b.length) 0

/-- A frame of a context: kind, chunk, rank, segment, elements, output type, credit, reason, payload;
`mc`: MCAST with DOWN_GROUP, otherwise a unicast to `dst`. -/
def collFrame (d : Dev) (c : Ctx) (kind chunk rank seg elems ot credit reason : Nat) (mc : Bool)
    (dst : Nat) (payload : List Byte) (handle : BitVec 20) (gen : BitVec 8) (sig : BitVec 32) : Frame :=
  let h : FabHdr :=
    { ver := 1, vc := 2, cls := 0, colour := 0, cm := false, order := false, mcast := mc, coll := true,
      swatch := false, part := c.p.part, dst := BitVec.ofNat 24 (if mc then c.p.downGroup.toNat else dst),
      src := BitVec.ofNat 24 (rdf d .collSelf [] 23 0), hopAge := 0, plen := BitVec.ofNat 14 payload.length,
      swatchId := 0, user := 0, hcrc := 0 }
  { dmac := Config.ownDmac, smac := Config.ownSmac, etype := BitVec.ofNat 16 (rdf d .fwdEtype [] 15 0),
    hdr := h,
    chdr := { handle := handle, kind := BitVec.ofNat 4 kind, gen := gen, chunk := BitVec.ofNat 32 chunk,
              rank := BitVec.ofNat 20 rank, op := c.p.op, sig := sig, seg := BitVec.ofNat 2 seg,
              elems := BitVec.ofNat 14 elems, itype := c.p.itype, otype := BitVec.ofNat 4 ot,
              mode := c.p.mode, credit := BitVec.ofNat 32 credit, reason := BitVec.ofNat 8 reason },
    payload := padded payload, fcs := .good }

/-- A target of the device's own frames can take one: the port is in service, or the bundle has an
eligible member. -/
def targetUp (d : Dev) (part : Nat) (t : Nat × Nat) : Bool :=
  if t.1 = 0 then inService d t.2 else !(eligible d (t.2 % 256) part).isEmpty

/-- A frame that the device makes at a tile waits there for the mesh, on its way to a (port, VC). -/
def ownPush (d : Dev) (tile p v : Nat) (f : Frame) : Dev :=
  let d := noteSent d tile (frameCells d f) [p]
  { d with sw := { d.sw with ownq := d.sw.ownq ++ [⟨tile, 8 * p + v, d.now, ownEgr d f⟩] } }

/-- Send one frame toward a target from a tile; a target that cannot take it releases the frame
without transmission (spec/07 R464). -/
def sendTo (d : Dev) (home tile : Nat) (t : Nat × Nat) (f : Frame) : Dev :=
  if targetUp d f.hdr.part.toNat t then
    if t.1 = 0 then ownPush d tile t.2 2 f
    else
      let (p, d) := spray d tile (t.2 % 256) (eligible d (t.2 % 256) f.hdr.part.toNat) f.hdr 2
      ownPush d tile p 2 f
  else noDest d home

/-- Send one frame to each target of a list. -/
def sendAll (d : Dev) (home tile : Nat) (ts : List (Nat × Nat)) (f : Frame) : Dev :=
  ts.foldl (fun d t => sendTo d home tile t f) d

/-- The first target of a list that cannot take a frame. -/
def deadTarget (d : Dev) (part : Nat) (ts : List (Nat × Nat)) : Option (Nat × Nat) :=
  ts.find? (fun t => !targetUp d part t)

/-! ### Grants (spec/07 R194, R196; spec/08 R219) -/

/-- GRANTED as the rules compute it now. -/
def grantNow (d : Dev) (c : Ctx) : Nat :=
  let g := natMin (c.low + c.p.window.toNat) c.limit
  if c.p.op.toNat = opRub then
    match shardOf d c.p.shard.toNat with
    | none => g
    | some s =>
      let held := s.pins.contains (1 - s.side)
      let k := ((s.step + 1) - c.p.stepBase).toNat + (if held then 0 else 1)
      natMin g (k * roundN c.p)
  else g

/-- Does a checkpoint or a read of the basting side keep the next round closed (spec/08 R219)? -/
def ckptHolds (d : Dev) (c : Ctx) : Bool :=
  c.p.op.toNat == opRub && live c &&
  match shardOf d c.p.shard.toNat with
  | none => false
  | some s => s.pins.contains (1 - s.side) && decide (c.low = ((s.step + 1) - c.p.stepBase).toNat * roundN c.p)

/-- Unbind the shard of a context: LOST is set where a round was BASTING or SEALED (spec/08 R208). -/
def unbind (d : Dev) (c : Ctx) : Dev :=
  if c.p.op.toNat = opRub then
    match shardOf d c.p.shard.toNat with
    | none => d
    | some s =>
      let b := decide (2 ≤ s.st)
      setShard d c.p.shard.toNat { s with bound := none, st := 1, lost := s.lost || b }
  else d

/-- A CLOSING context whose chunks below HWM are complete, and whose shard is IDLE, goes to QUIESCE
(spec/07 R198). -/
def maybeClosed (d : Dev) (slot : Nat) : Dev :=
  match ctxOf d slot with
  | none => d
  | some c =>
    let idle := c.p.op.toNat != opRub ||
      (match shardOf d c.p.shard.toNat with | some s => s.st == 1 | none => true)
    if c.st = 2 ∧ c.hwm ≤ c.low ∧ idle then
      let d := unbind (setCtx d slot { c with st := 4, quarAt := d.now }) c
      event d 0x0A81 (homeDie slot) slot [(3, c.p.handle.toNat), (1, c.gen.toNat)]
    else d

/-- Raise GRANTED as far as the rules allow; reaching LIMIT closes the context (spec/07 R194, R196). -/
def advance (d : Dev) (slot : Nat) : Dev :=
  match ctxOf d slot with
  | none => d
  | some c =>
    if live c then
      let c := { c with granted := natMax c.granted (grantNow d c) }
      let holds := ckptHolds d c
      let d0 := setCtx d slot { c with ckptHeld := holds }
      let d0 := if holds ∧ ¬ c.ckptHeld then
          event (stSet d0 (srcOpt (c.p.shard.toNat / 2048) c.p.shard.toNat) 4) 0x0B04 (c.p.shard.toNat / 2048)
            c.p.shard.toNat [] else d0
      let d0 :=
        if c.st = 1 ∧ c.granted = c.limit then
          let d1 := setCtx d0 slot { c with ckptHeld := holds, st := 2, hwm := c.limit }
          raiseAt d1 (srcColl (homeDie slot) slot) 10 4 [(3, c.p.handle.toNat), (1, c.gen.toNat)] []
        else d0
      maybeClosed d0 slot
    else d

/-- Move the lowest incomplete chunk past those complete above it. -/
def bumpLow : Nat → Ctx → Ctx
  | 0, c => c
  | n + 1, c =>
    if c.above.contains c.low then bumpLow n { c with low := c.low + 1, above := c.above.filter (· != c.low) }
    else c

/-- Mark a chunk complete: its timer stops, GRANTED advances, and the end of a round is counted and,
with ROUND_EVT, reported (spec/07 R177, R194). -/
def chunkComplete (d : Dev) (slot chunk : Nat) : Dev :=
  match ctxOf d slot with
  | none => d
  | some c =>
    let c := { c with above := c.above ++ [chunk],
                      chunks := c.chunks.map (fun k => if k.idx = chunk then { k with timer := none } else k) }
    let r0 := c.low / natMax 1 (roundN c.p)
    let c := bumpLow c.above.length c
    let r1 := c.low / natMax 1 (roundN c.p)
    let d := cnt1 (setCtx d slot c) (srcColl ((coreOf c chunk) / 16) slot) 4
    let d := if r0 < r1 then
        let d := cntN d (srcColl (homeDie slot) slot) 9 (r1 - r0)
        if c.p.roundEvt then
          (List.range (r1 - r0)).foldl (fun d _ =>
            event d 0x0A80 (homeDie slot) slot [(3, c.p.handle.toNat), (1, c.gen.toNat)]) d else d
      else d
    advance d slot

/-! ### Abort (spec/07 R186, R199; spec/08 R221) -/

/-- The chunk number of an ABORT that names no chunk. -/
def noChunk : Nat := 0xFFFFFFFF

/-- The rank of an ABORT that names no member. -/
def noRank : Nat := 0xFFFFF

/-- Abort notices of a RUB context: MIRROR from a PRIMARY context with a partner, MACK from a MIRROR
context (spec/08 R216, R221). -/
def rubNotice (d : Dev) (slot : Nat) (c : Ctx) (reason chunk : Nat) : Dev :=
  let p := c.p
  let mk (kind : Nat) : Frame :=
    collFrame d c kind chunk 0 0 0 0 0 reason false p.partnerEp.toNat [] p.partnerHandle p.partnerGen p.partnerSig
  if rubRole d c 0 ∧ p.mirrorEn then
    sendTo d (homeDie slot) (16 * homeDie slot) (partnerTarget p) (mk 6)
  else if rubRole d c 1 then
    sendTo d (homeDie slot) (16 * homeDie slot) (partnerTarget p) (mk 7)
  else d

/-- A frame that brings a result of a context: RESULT, PARAM or GRAD. -/
def resultOf (c : Ctx) (e : Egr) : Bool :=
  let h := e.frame.chdr
  e.ing.isNone && e.frame.hdr.coll && h.handle == c.p.handle && h.gen == c.gen && (h.kind == 1 || h.kind == 4 || h.kind == 5)

/-- Results of a context that have reached no egress staging yet are not sent (spec/07 R186). -/
def dropResults (d : Dev) (c : Ctx) : Dev :=
  let fly (f : Flight) : Option (Nat × Egr) := match f.load with | .own e k => if resultOf c e then some (k, e) else none | _ => none
  let out := d.sw.flights.filterMap fly
  { d with sw := { d.sw with
      ownq := d.sw.ownq.filter (fun o => !resultOf c o.e),
      flights := d.sw.flights.filter (fun f => (fly f).isNone),
      egrRsv := out.foldl (fun t x => tput 0 t x.1 (tgetD t x.1 0 - x.2.cells)) d.sw.egrRsv } }

/-- Abort a context that is OPEN or CLOSING; in any other state nothing changes. -/
def abortCtx (d : Dev) (slot reason rank chunk : Nat) : Dev :=
  match ctxOf d slot with
  | none => d
  | some c =>
    if live c then
      let f := collFrame d c 3 chunk rank 0 0 c.p.otype.toNat c.granted reason true 0 [] c.p.handle c.gen c.sig
      let mirror := rubRole d c 1
      let d := dropResults d c
      let d := setCtx d slot { c with st := 3, abort := some ⟨reason, rank, chunk⟩, chunks := [], bob := [],
                                       macks := [], seen := [], sealed := [], digests := [] }
      let d := { d with
        coll := { d.coll with
          pre := (d.coll.pre.map (fun e => (e.1, e.2.filter (fun x => x.slot != slot)))).filter (fun e => !e.2.isEmpty),
          stg := (d.coll.stg.map (fun e => (e.1, e.2.filter (fun x => x.slot != slot)))).filter (fun e => !e.2.isEmpty),
          outq := d.coll.outq.filter (fun x => x.p.slot != slot),
          spills := d.coll.spills.filter (fun x => x.slot != slot) },
        opt := { d.opt with
          launches := d.opt.launches.filter (fun l => match l.why with | .seg s _ _ => s != slot | _ => true) } }
      -- the basted round of the shard is discarded
      let d := match (if c.p.op.toNat = opRub then shardOf d c.p.shard.toNat else none) with
        | some s => setShard d c.p.shard.toNat { s with st := 1 }
        | none => d
      let d := if mirror then d else sendAll d (homeDie slot) (16 * homeDie slot) (downSet c) f
      let d := rubNotice d slot c reason chunk
      let d := c.heldFr.foldl (fun d x => freeIng d x.2) d
      raise d (srcColl (homeDie slot) slot) 0
        [(3, c.p.handle.toNat), (1, c.gen.toNat), (1, reason), (3, rank), (4, chunk)]
    else d

/-- Abort every context that a test takes, in ascending slot order. -/
def abortWhere (d : Dev) (q : Ctx → Bool) (reason : Nat) : Dev :=
  ((d.coll.ctxs.filter (fun e => live e.2 && q e.2)).map (·.1)).foldl
    (fun d s => abortCtx d s reason noRank noChunk) d

/-- A port has left service: contexts whose down set, or whose partner target, it breaks abort with
reason LINK (spec/07 Table 07-3, spec/08 R464). -/
def linkAborts (d : Dev) (p : Nat) : Dev :=
  let broken (part : Nat) (t : Nat × Nat) : Bool :=
    if t.1 = 0 then t.2 == p
    else (bundlePorts d (t.2 % 256)).contains p && !targetUp d part t
  (d.coll.ctxs.map (·.1)).foldl (fun d s =>
    match ctxOf d s with
    | none => d
    | some c =>
      if !live c then d
      else match (downSet c).find? (broken c.p.part.toNat) with
        | some t => abortCtx d s 0x0B (rankOfTarget c t) noChunk
        | none =>
          if rubRole d c 0 && c.p.mirrorEn && broken c.p.part.toNat (partnerTarget c.p) then
            abortCtx d s 0x0B noRank noChunk
          else d) d

/-- An epoch flip has changed bundles or masks: contexts that it leaves with a bundle of their down set, or
a partner target, without eligible member abort with reason LINK (Table 07-3). -/
def bundleAborts (d : Dev) : Dev :=
  let broken (part : Nat) (t : Nat × Nat) : Bool := t.1 != 0 && !targetUp d part t
  (d.coll.ctxs.map (·.1)).foldl (fun d s =>
    match ctxOf d s with
    | none => d
    | some c =>
      if !live c then d
      else match (downSet c).find? (broken c.p.part.toNat) with
        | some t => abortCtx d s 0x0B (rankOfTarget c t) noChunk
        | none =>
          if rubRole d c 0 && c.p.mirrorEn && broken c.p.part.toNat (partnerTarget c.p) then
            abortCtx d s 0x0B noRank noChunk
          else d) d

/-- EPOCH_FLIP with what it does to collective contexts. -/
def flipEpoch (d : Dev) : Dev := match d.fwd.commit with | none => d | some _ => bundleAborts (epochFlip d)

/-- EPOCH_FLIP. -/
def execEpochFlip (s : State) : Host.Outcome State Fault Refusal := act flipEpoch s

/-- Send a frame to the down set; a target that cannot take it then aborts the context (R464). -/
def sendDown (d : Dev) (slot tile : Nat) (c : Ctx) (ts : List (Nat × Nat)) (f : Frame) : Dev :=
  let dead := deadTarget d c.p.part.toNat ts
  let d := sendAll d (homeDie slot) tile ts f
  match dead with
  | some t => abortCtx d slot 0x0B (rankOfTarget c t) noChunk
  | none => d

end Sys2Proof.Machine
end

