-- ==== Sys2Proof/Machine/Reduce.lean ====
section
/-! DEFINITION. Pre-reducers, chunk accumulation, spill, Overlock, results, credits, and the commands on
patterns, contexts and partition states (spec/06, spec/07, spec/09 R253). -/
namespace Sys2Proof.Machine

/-! ### Suspicion (spec/16 R417) -/

/-- REL_OVL.LIMIT as it acts: 1 to 3. -/
def ovlLimit (d : Dev) : Nat := natMin 3 (natMax 1 (rdf d .relOvl [] 2 0))

/-- Add to the suspicion count of a core name 8c + j; an injected error never does (R409). -/
def addSusp (d : Dev) (q n : Nat) : Dev :=
  if d.rel.injected then d
  else
    let c := q / 8
    let j := q % 8
    let old := rdf d .relSusp [c] (3 * j + 2) (3 * j)
    let new := natMin 7 (old + n)
    let lim := ovlLimit d
    let d := wrf d .relSusp [c] (3 * j + 2) (3 * j) new
    let d := { d with rel := { d.rel with suspAt := tset d.rel.suspAt q d.now } }
    let d := if 2 * lim ≤ new ∧ ¬ d.rel.condemned.any (fun x => x.1 == q) then
        { d with rel := { d.rel with condemned := d.rel.condemned ++ [(q, 1)] } } else d
    if old < lim ∧ lim ≤ new then
      let d := { d with rel := { d.rel with suspect := d.rel.suspect ++ [q] } }
      raise d (srcRel (c / 2) (coreNo q)) 6
    else d

/-! ### Scratchpad check (spec/06 R144) -/

/-- Check of a scratchpad read (spec/06 R144): true for an uncorrectable error. -/
def spadCheck (d : Dev) (q : Nat) (e : Ecc) : Bool × Dev :=
  let c := coreNo q
  let (m, d) := takeMark d 0x09 (q / 16) c
  let k := eccLanes e m
  if k = 0 then (false, d)
  else if k = 1 then (false, binError (raise d (srcCore c) 0) 1 (q / 16))
  else (true, addSusp (raise d (srcCore c) 1) q (ovlLimit d))

/-! ### Pre-reducers (spec/06 R162–R164) -/

/-- How a context's operands combine: FAST, ORDERED or EXACT; the operations whose bits no mode changes
run as FAST (spec/06 R155). -/
def effMode (p : CollParams) : Nat :=
  match accKind p.op.toNat p.mode.toNat p.itype.toNat with
  | .fp32 => if p.mode.toNat = 1 then 1 else 0
  | .exact => 2
  | _ => 0

/-- The tile on which a member's contributions arrive: its port's, or that of all its bundle's ports; a member whose
bundle spans several tiles counts on none (DESIGN CHOICE, log entry 109). -/
def memTile (d : Dev) (m : BitVec 64) : Option Nat :=
  let t := memTarget m
  if t.1 = 0 then some (t.2 / 8)
  else match (bundlePorts d (t.2 % 256)).map (· / 8) with
    | [] => none
    | x :: r => if r.all (· == x) then some x else none

/-- Members of a context whose ports lie on a tile. -/
def membersOn (d : Dev) (c : Ctx) (tile : Nat) : Nat :=
  (c.members.filter (fun m => memTile d m == some tile)).length

/-- The size k of the largest aligned block that holds a position and lies wholly on a tile with
2^k × w at least 4; tried from `k` down to 1.  A block that reaches past the last member does not lie wholly on a tile
(DESIGN CHOICE, log entry 108). -/
def blockK (d : Dev) (ms : List (BitVec 64)) (tile w pos : Nat) : Nat → Option Nat
  | 0 => none
  | k + 1 =>
    let s := 2 ^ (k + 1)
    let lo := pos / s * s
    if 4 ≤ s * w ∧ lo + s ≤ ms.length ∧
        (List.range s).all (fun i => memTile d (ms.getD (lo + i) 0) == some tile)
    then some (k + 1)
    else blockK d ms tile w pos k

/-- Add two vectors of values in the accumulation format. -/
def vecAdd (p : CollParams) (a b : List Nat) : List Nat :=
  List.zipWith (accCombine p.op.toNat p.mode.toNat p.itype.toNat) a b

/-- Elements of a contribution in the accumulation format: converted exactly (spec/06 R156). -/
def accVals (p : CollParams) (vals : List Nat) : List Nat :=
  vals.map (accInput p.op.toNat p.mode.toNat p.itype.toNat)

/-- Elements of an operand in the accumulation format. -/
def operandVals (p : CollParams) (x : Partial) : List Nat := if x.single then accVals p x.vals else x.vals

/-- Value of an aligned block of 2^k positions from `lo` (spec/06 R158). -/
def blockVal (p : CollParams) (items : List (Nat × List Nat)) : Nat → Nat → Option (List Nat)
  | 0, lo => (items.find? (fun x => x.1 == lo)).map (·.2)
  | k + 1, lo =>
    match blockVal p items k lo, blockVal p items k (lo + 2 ^ k) with
    | some a, some b => some (vecAdd p a b)
    | some a, none => some a
    | none, b => b

/-- Queue an operand at its tile for the mesh. -/
def pushOut (d : Dev) (tile : Nat) (p : Partial) : Dev :=
  { d with coll := { d.coll with outq := d.coll.outq ++ [⟨tile, d.now, p⟩] } }

/-- Pre-reducer partials of a tile. -/
def preOf (d : Dev) (tile : Nat) : List PreSlot := tgetD d.coll.pre tile []

/-- Store the pre-reducer partials of a tile. -/
def setPre (d : Dev) (tile : Nat) (l : List PreSlot) : Dev :=
  { d with coll := { d.coll with pre := tput [] d.coll.pre tile l } }

/-- A single contribution as an operand. -/
def singleOf (slot chunk rank it : Nat) (vals : List Nat) : Partial :=
  ⟨slot, chunk, 0, 1, [rank], rank, 1, it, vals, true⟩

/-- A pre-reducer partial as an operand. -/
def partialOf (p : CollParams) (x : PreSlot) : Partial :=
  ⟨x.slot, x.chunk, 0, x.ranks.length, x.ranks, x.pos, x.size, p.itype.toNat,
   if effMode p = 1 then (blockVal p (x.items.map (fun it => (it.1, accVals p it.2)))
     (Nat.log2 (natMax 1 x.size)) x.pos).getD [] else x.sum, false⟩

/-- The duplicate adders of a tile disagree (spec/06 R164). -/
def preMismatch (d : Dev) (tile slot chunk : Nat) : Dev :=
  let d := setPre d tile ((preOf d tile).filter (fun x => !(x.slot == slot && x.chunk == chunk)))
  let d := raise d (srcPre tile) 0
  let d := wrf d .preCtl (tix tile) 30 30 1
  abortCtx d slot 8 noRank chunk

/-- Add a contribution into the partial of its key, or begin one; answers the partial after. -/
def preAdd (p : CollParams) (now : Nat) (l : List PreSlot) (slot chunk pos size rank : Nat) (vals : List Nat) :
    List PreSlot :=
  let hit (x : PreSlot) : Bool := x.slot == slot && x.chunk == chunk && x.pos == pos && x.size == size
  if l.any hit then
    l.map (fun x => if hit x then
      { x with ranks := x.ranks ++ [rank],
               sum := if effMode p = 1 then x.sum else vecAdd p x.sum (accVals p vals),
               items := if effMode p = 1 then x.items ++ [(rank, vals)] else x.items } else x)
  else l ++ [⟨slot, chunk, pos, size, now, [rank], if effMode p = 1 then [] else accVals p vals,
    if effMode p = 1 then [(rank, vals)] else []⟩]

/-- PRE_REDUCE_ADD: the next contribution that passed its checks on a tile (spec/06 R162–R164); it passes singly
while the die's pre-reducers sleep or wake (spec/15 R392). -/
def preReduceAdd (tile : Nat) (mismatch : Bool) (d : Dev) : Dev :=
  match tgetD d.coll.preQ tile [] with
  | [] => d
  | id :: rest =>
    let d := { d with coll := { d.coll with preQ := tput [] d.coll.preQ tile rest } }
    match findIng d id with
    | none => d
    | some i =>
      let ch := i.frame.chdr
      let slot := ch.handle.toNat % 16384
      let d := freeIng d id
      match ctxOf d slot with
      | none => d
      | some c =>
        if !live c || c.gen != ch.gen then d
        else
          let p := c.p
          let w := typeBytes p.itype.toNat
          let chunk := ch.chunk.toNat
          let rank := ch.rank.toNat
          let vals := elemsOf w i.frame.payload ch.elems.toNat
          let off := rdb d .preCtl (tix tile) 31 || rdb d .preCtl (tix tile) 30 || !pdOn d (112 + tile / 16)
          let m := effMode p
          let n := membersOn d c tile
          -- the block (ORDERED) or the whole tile (FAST) that combines
          let key : Option (Nat × Nat × Nat) :=
            if off ∨ p.op.toNat = opBcast ∨ p.op.toNat = opBarrier then none
            else if m = 0 then (if 4 ≤ n * w then some (0, 1, n) else none)
            else if m = 1 then
              (blockK d c.members tile w rank 17).map (fun k => (rank / 2 ^ k * 2 ^ k, 2 ^ k, 2 ^ k))
            else none
          let single := singleOf slot chunk rank p.itype.toNat vals
          match key with
          | none => pushOut d tile single
          | some (pos, size, need) =>
            let l := preOf d tile
            let have_ := l.any (fun x => x.slot == slot && x.chunk == chunk && x.pos == pos && x.size == size)
            if !have_ && decide (16 ≤ l.length) then cnt1 (pushOut d tile single) (srcPre tile) 2
            else
              let (mk, d) := takeMark d 0x0A (tile / 16) (tile % 16)
              if mismatch || mk.isSome then preMismatch d tile slot chunk
              else
                let l := preAdd p d.now l slot chunk pos size rank vals
                match l.find? (fun x => x.slot == slot && x.chunk == chunk && x.pos == pos && x.size == size) with
                | some x =>
                  if need ≤ x.ranks.length then
                    let d := setPre d tile
                      (l.filter (fun x => !(x.slot == slot && x.chunk == chunk && x.pos == pos && x.size == size)))
                    cnt1 (pushOut d tile (partialOf p x)) (srcPre tile) 1
                  else setPre d tile l
                | none => setPre d tile l

/-- PRE_REDUCE_ADD. -/
def execPreReduceAdd (tile : Fin 64) (mismatch : Bool) (s : State) : Host.Outcome State Fault Refusal :=
  act (preReduceAdd tile mismatch) s

/-- PRE_WAIT_EXPIRY: a partial is sent with what it holds; an ORDERED block as singles (spec/06 R163). -/
def preWaitExpiry (tile idx : Nat) (d : Dev) : Dev :=
  match takeAt (preOf d tile) idx with
  | none => d
  | some (x, rest) =>
    let d := cnt1 (setPre d tile rest) (srcPre tile) 3
    match ctxOf d x.slot with
    | none => d
    | some c =>
      if effMode c.p = 1 then
        x.items.foldl (fun d it => pushOut d tile (singleOf x.slot x.chunk it.1 c.p.itype.toNat it.2)) d
      else cnt1 (pushOut d tile (partialOf c.p x)) (srcPre tile) 1

/-- PRE_WAIT_EXPIRY. -/
def execPreWaitExpiry (tile : Fin 64) (idx : Nat) (s : State) : Host.Outcome State Fault Refusal :=
  act (preWaitExpiry tile idx) s

/-! ### Spill (spec/07 R191, spec/09 R253) -/

/-- May the context spill by queue depth? -/
def spills (c : Ctx) : Bool :=
  c.p.spillEn && (match accKind c.p.op.toNat c.p.mode.toNat c.p.itype.toNat with
    | .int => true
    | .fp32 => effMode c.p == 0
    | _ => false)

/-- The effective QDEPTH. -/
def qdepth (d : Dev) : Nat :=
  let q := natMax 1 (rdf d .collSpill [] 7 0)
  if d.mem.high then natMin 255 (4 * q) else q

/-- Bytes of an element of a memory accumulator. -/
def spillW (c : Ctx) : Nat := if c.p.itype.toNat = 6 then 8 else 4

/-- Bytes of a memory accumulator. -/
def spillRec (c : Ctx) : Nat := alignUp (spillW c * c.p.chunkElems.toNat + 64) 256

/-- Address of a chunk's memory accumulator. -/
def spillAddr (c : Ctx) (chunk : Nat) : Nat := c.spill + chunk % natMax 1 c.p.window.toNat * spillRec c

/-- Split a memory range at 256-byte units: (address, bytes), `n` units at most. -/
def unitSplit : Nat → Nat → Nat → List (Nat × Nat)
  | 0, _, _ => []
  | n + 1, a, len =>
    if len = 0 then []
    else
      let k := natMin len (256 - a % 256)
      (a, k) :: unitSplit n (a + k) (len - k)

/-- Send an operand of a spilled chunk to its memory accumulator: one RED per unit (spec/09 R253). -/
def spillOperand (d : Dev) (tile : Nat) (c : Ctx) (p : Partial) : Dev :=
  let it := c.p.itype.toNat
  let bfs := p.single && it == 1
  let w := if bfs then 2 else spillW c
  let mw := spillW c
  let code := if it = 5 then 3 else if it = 6 then 4 else if bfs then 2 else 0
  let vals := if bfs then p.vals else operandVals c.p p
  let data := bytesOf w vals
  let base := spillAddr c p.chunk + 64
  let parts := unitSplit (vals.length + 1) base (mw * vals.length)
  let id := (d.coll.spills.map (·.id)).foldl natMax 0 + 1
  let d := parts.foldl (fun d x =>
    issue d (16 + code) ⟨.tile tile p.slot p.chunk id, x.1, x.2, slice data ((x.1 - base) / mw * w) (x.2 / mw * w), []⟩) d
  let d := if p.single then d else cnt1 d (srcColl (tile / 16) p.slot) 7
  { d with coll := { d.coll with spills := d.coll.spills ++ [⟨id, tile, p.slot, p.chunk, parts.length, p.count⟩] } }

/-- SPILL_CNT_ISSUE: after the acknowledgements, CNT with the operand's member count. -/
def spillCntIssue (tile : Nat) (d : Dev) : Dev :=
  match d.coll.spills.find? (fun x => x.tile == tile && x.wait == 0) with
  | none => d
  | some x =>
    let d := { d with coll := { d.coll with
      spills := removeFirst (fun y => y.tile == tile && y.wait == 0) d.coll.spills } }
    match ctxOf d x.slot with
    | none => d
    | some c =>
      issue d (16 + 9) ⟨.tile tile x.slot x.chunk x.id, spillAddr c x.chunk, 4,
        leBytes 4 x.count ++ [BitVec.ofNat 8 (coreOf c x.chunk)], []⟩

/-- SPILL_CNT_ISSUE. -/
def execSpillCntIssue (tile : Fin 64) (s : State) : Host.Outcome State Fault Refusal :=
  act (spillCntIssue tile) s

/-- An operand arrives in the receive staging of core 9c + j: its chunk's core, or the shadow of a sampled chunk. At the
effective QDEPTH of its own core the chunk is marked spilled (spec/07 R191). -/
def stageOperand (d : Dev) (q : Nat) (p : Partial) : Dev :=
  match ctxOf d p.slot with
  | none => d
  | some c =>
    if !live c then d
    else
      let d := abandonCore d (9 * (q / 9) + physOf d (q / 9) (q % 9))
      let l := tgetD d.coll.stg q [] ++ [p]
      let d := { d with coll := { d.coll with stg := tput [] d.coll.stg q l } }
      let waiting := (l.filter (fun x => x.slot == p.slot && x.chunk == p.chunk)).length
      if spills c ∧ qdepth d ≤ waiting ∧ q = coreNo (coreOf c p.chunk) then
        match findChunk c p.chunk with
        | some k => setCtx d p.slot (setChunk c { k with spilled := true })
        | none => d
      else d

/-! ### Accumulation (spec/06 R154–R159, spec/07 R189) -/

/-- Merge an ORDERED subtree with the held ones as far as its siblings have arrived: `n` levels left,
`N` members; a sibling beyond the last member is empty (spec/06 R158). -/
def mergeTree (p : CollParams) (N : Nat) : Nat → List Held → Held → List Held × Held
  | 0, hs, x => (hs, x)
  | n + 1, hs, x =>
    if N ≤ x.size then (hs, x)
    else
      let sib := if x.pos / x.size % 2 = 0 then x.pos + x.size else x.pos - x.size
      let up := x.pos / (2 * x.size) * (2 * x.size)
      if N ≤ sib then mergeTree p N n hs { x with pos := up, size := 2 * x.size }
      else match hs.find? (fun h => h.pos == sib && h.size == x.size) with
        | some h =>
          let v := if sib < x.pos then vecAdd p h.vals x.vals else vecAdd p x.vals h.vals
          mergeTree p N n (hs.filter (fun y => !(y.pos == sib && y.size == x.size)))
            ⟨up, 2 * x.size, v, none⟩
        | none => (hs, x)

/-- The complete tree's span: 2^ceil(log2 N). -/
def treeSpan (N : Nat) : Nat := if N ≤ 1 then 1 else 2 ^ (Nat.log2 (N - 1) + 1)

/-- Result of a chunk for a RUB program: gr in fp32 (spec/08 R210). -/
def gradOf (p : CollParams) (vs : List Nat) : List Nat :=
  match accKind p.op.toNat p.mode.toNat p.itype.toNat with
  | .exact => vs.map (fun a => exactResult p.itype.toNat a f32)
  | _ => vs

/-- A chunk's reduction is complete: its core holds the result. -/
def finishChunk (d : Dev) (slot : Nat) (c : Ctx) (k : Chunk) : Dev :=
  let vals := match k.acc with
    | some v => v
    | none => match k.held with
      | h :: _ => h.vals
      | [] => []
  let k := { k with done := true, res := vals, acc := none, held := [], timer := if c.p.op.toNat = opRub then k.timer else none }
  let d := setCtx d slot (setChunk c k)
  if c.p.op.toNat = opRub then d else chunkComplete d slot k.idx

/-- Check a chunk for completion; a spilled one first reads its memory accumulator with RDCLR. -/
def checkChunk (d : Dev) (slot chunk : Nat) : Dev :=
  match ctxOf d slot with
  | none => d
  | some c =>
    match findChunk c chunk with
    | none => d
    | some k =>
      let need := if c.p.op.toNat = opBcast then 1 else c.members.length
      if k.done || decide (k.count + k.memCount < need) then d
      else if k.memCount = 0 then finishChunk d slot c k
      else match k.rdWait with
        | some _ => d
        | none =>
          let len := alignUp (64 + spillW c * expected c.p chunk) 64
          let d := setCtx d slot (setChunk c { k with rdWait := some len })
          (unitSplit (len + 1) (spillAddr c chunk) len).foldl (fun d x =>
            issue d (16 + 0xA) ⟨.core (coreOf c chunk) slot chunk, x.1, x.2, [], []⟩) d

/-- Bytes of a memory accumulator come back to the core; with the last of them it is added once. -/
def spillReturn (d : Dev) (slot chunk addr : Nat) (data : List Byte) : Dev :=
  match ctxOf d slot with
  | none => d
  | some c =>
    match findChunk c chunk with
    | none => d
    | some k =>
      match k.rdWait with
      | none => d
      | some w =>
        let off := addr - spillAddr c chunk
        let buf := (List.range data.length).foldl (fun b i => tput 0 b (off + i) (data.getD i 0)) k.rdBuf
        let k := { k with rdBuf := buf, rdWait := some (w - data.length) }
        if w ≤ data.length then
          let e := expected c.p chunk
          let vals := elemsOf (spillW c) (tread buf 0 64 (spillW c * e)) e
          let acc := match k.acc with
            | some a => vecAdd c.p a vals
            | none => vals
          finishChunk d slot c { k with acc := some acc, back := some vals, rdBuf := [], rdWait := none }
        else setCtx d slot (setChunk c k)

/-- A count notice reaches the chunk's core. -/
def countNotice (d : Dev) (slot chunk n : Nat) : Dev :=
  match ctxOf d slot with
  | none => d
  | some c =>
    match findChunk c chunk with
    | none => d
    | some k => checkChunk (setCtx d slot (setChunk c { k with memCount := k.memCount + n })) slot chunk

/-- Bytes of a held subtree's record in the spill area (spec/07 R193). -/
def heldRec (c : Ctx) : Nat := alignUp (4 * c.p.chunkElems.toNat) 256

/-- Address of record `i` of a chunk's share of the spill area of an ORDERED context. -/
def heldAddr (c : Ctx) (chunk i : Nat) : Nat :=
  let w := natMax 1 c.p.window.toNat
  let share := (c.area + c.areaSize - c.spill) / w
  c.spill + chunk % w * share + i * heldRec c

/-- The lowest record that no held subtree takes. -/
def freeRec (hs : List Held) : Nat :=
  ((List.range (hs.length + 1)).find? (fun i => !hs.any (fun h => h.out == some i))).getD hs.length

/-- A held subtree with its values, read back from its record where it stands there. -/
def heldVals (d : Dev) (c : Ctx) (chunk : Nat) (h : Held) : Held :=
  match h.out with
  | none => h
  | some i =>
    let e := expected c.p chunk
    { h with vals := elemsOf 4 (memRd d (heldAddr c chunk i) (4 * e)) e }

/-- The records that a merge has read back are read from memory: the first that holds marked data. -/
def heldBack (d : Dev) (c : Ctx) (chunk : Nat) : List Nat → Option Nat × Dev
  | [] => (none, d)
  | i :: r =>
    let a := heldAddr c chunk i
    let n := 4 * expected c.p chunk
    let d := (memGet d a n).2
    match poisonIn d a n with
    | some x => (some x, d)
    | none => heldBack d c chunk r

/-- An ORDERED operand joins the held subtrees of its chunk (spec/06 R158, spec/07 R192): beyond ORD_HOLD a held value
goes to the spill area, and comes back when its sibling has arrived. -/
def accOrdered (d : Dev) (c : Ctx) (k : Chunk) (x : Partial) : Dev :=
  let N := c.members.length
  let (hs, h) := mergeTree c.p N 32 (k.held.map (heldVals d c x.chunk)) ⟨x.pos, x.size, operandVals c.p x, none⟩
  let used := k.held.filterMap (fun y => if hs.any (fun z => z.pos == y.pos && z.size == y.size) then none else y.out)
  match heldBack d c x.chunk used with
  | (some a, d) => abortCtx (consumePoison d a) x.slot 9 noRank x.chunk
  | (none, d) =>
    let hs := hs.map (fun y => if y.out.isSome then { y with vals := [] } else y)
    let inBob := (hs.filter (fun y => y.out.isNone)).length
    let i := freeRec hs
    let (h, d) :=
      if decide (treeSpan N ≤ h.size) || decide (inBob < c.p.ordHold.toNat) then (h, d)
      else ({ h with vals := [], out := some i },
        cnt1 (memPut d (heldAddr c x.chunk i) (bytesOf 4 h.vals)) (srcColl (coreOf c x.chunk / 16) x.slot) 8)
    let k := { k with held := h :: hs, count := k.count + x.count, log := k.log ++ [x.ranks] }
    checkChunk (setCtx d x.slot (setChunk c k)) x.slot x.chunk

/-- The sum of an operand and what stands already; an operation that moves or counts only takes the operand. -/
def accNext (p : CollParams) (acc : Option (List Nat)) (v : List Nat) : List Nat :=
  match acc with
  | none => v
  | some a => if p.op.toNat = opBcast ∨ p.op.toNat = opBarrier then v else vecAdd p a v

/-- Accumulate an operand into its chunk. -/
def accumulate (d : Dev) (x : Partial) : Dev :=
  match ctxOf d x.slot with
  | none => d
  | some c =>
    match findChunk c x.chunk with
    | none => d
    | some k =>
      if !live c || k.done then d
      else if effMode c.p = 1 then accOrdered d c k x
      else
        let k := { k with acc := some (accNext c.p k.acc (operandVals c.p x)), count := k.count + x.count,
                          log := k.log ++ [x.ranks] }
        checkChunk (setCtx d x.slot (setChunk c k)) x.slot x.chunk

/-- The sampled chunk that an operand in the staging of a core is shadow work for (spec/06 R168). -/
def shadowChunk (d : Dev) (core : Nat) (x : Partial) : Option (Ctx × Chunk) :=
  match ctxOf d x.slot with
  | none => none
  | some c =>
    match findChunk c x.chunk with
    | none => none
    | some k => if k.shadow.map coreNo = some core ∧ coreNo (coreOf c x.chunk) ≠ core then some (c, k) else none

/-- Shadow work may go on: in ORDERED and EXACT at once, else in the order that the primary has logged. -/
def shadowTurn (d : Dev) (core : Nat) (x : Partial) : Bool :=
  match shadowChunk d core x with
  | none => false
  | some (c, k) => effMode c.p != 0 || k.log[k.rep.ops]? == some x.ranks

/-- The shadow accumulates an operand of a sampled chunk. -/
def shadowAdd (d : Dev) (x : Partial) (c : Ctx) (k : Chunk) : Dev :=
  let v := operandVals c.p x
  let r := { k.rep with ops := k.rep.ops + 1, count := k.rep.count + x.count }
  let r :=
    if effMode c.p = 1 then
      let (hs, h) := mergeTree c.p c.members.length 32 r.held ⟨x.pos, x.size, v, none⟩
      { r with held := h :: hs }
    else { r with acc := some (accNext c.p r.acc v) }
  setCtx d x.slot (setChunk c { k with rep := r })

/-- The operand that a core takes next: sampled work goes ahead of its own (spec/06 R168). -/
def nextOperand (d : Dev) (core : Nat) (l : List Partial) : Option Partial :=
  match l.find? (shadowTurn d core) with
  | some x => some x
  | none => l.find? (fun x => (shadowChunk d core x).isNone)

/-- Does a core read a Bobbin to accumulate an operand: its chunk lives and takes Bobbins (spec/06 Table 06-2)? -/
def readsBobbin (d : Dev) (x : Partial) : Bool :=
  match ctxOf d x.slot with
  | none => false
  | some c => live c && c.p.op.toNat != opBarrier && (findChunk c x.chunk).isSome

/-- CORE_ACCUMULATE: the next operand in a core's receive staging (spec/07 R189); an uncorrectable error in the Bobbin
aborts the collective (spec/06 R144). -/
def coreAccumulate (core : Nat) (ecc : Ecc) (d : Dev) : Dev :=
  let q := 8 * (core / 9) + core % 9
  match nextOperand d core (tgetD d.coll.stg core []) with
  | none => d
  | some x =>
    if !nameUp d q || !nameOn d q then d
    else
      let (ue, d) := if readsBobbin d x then spadCheck d q ecc else (false, d)
      let d := { d with coll := { d.coll with
        stg := tput [] d.coll.stg core (removeFirst (fun y => y == x) (tgetD d.coll.stg core [])) } }
      if ue then abortCtx d x.slot 9 noRank x.chunk
      else match shadowChunk d core x with
        | some (c, k) => shadowAdd d x c k
        | none => accumulate d x

/-- CORE_ACCUMULATE. -/
def execCoreAccumulate (x : CoreTurn) (s : State) : Host.Outcome State Fault Refusal :=
  act (withFlaws x.flaws (coreAccumulate x.core x.ecc)) s

/-! ### Overlock (spec/06 R166–R169) -/

/-- The shadow has repeated a chunk: every member has been accumulated or counted by the memory accumulator. -/
def shadowDone (c : Ctx) (k : Chunk) : Bool :=
  decide ((if c.p.op.toNat = opBcast then 1 else c.members.length) ≤ k.rep.count + k.memCount)

/-- The shadow's result of a chunk, in the accumulation format. -/
def shadowRes (c : Ctx) (k : Chunk) : List Nat :=
  match k.rep.acc, k.back with
  | some a, some b => vecAdd c.p a b
  | some a, none => a
  | none, some b => b
  | none, none => match k.rep.held with
    | h :: _ => h.vals
    | [] => []

/-- The two cores of a sampled chunk disagree (spec/06 R169). -/
def overlockMismatch (d : Dev) (slot : Nat) (c : Ctx) (k : Chunk) : Dev :=
  let q := coreOf c k.idx
  let sh := k.shadow.getD q
  let d := raise d (srcCore (coreNo q)) 3
    [(1, coreNo q), (1, coreNo sh), (3, c.p.handle.toNat), (4, k.idx)]
  let d := stSet d (srcCore (coreNo sh)) 3
  let d := binError d 4 (q / 16)
  let d := addSusp (addSusp d q 1) sh 1
  abortCtx d slot 8 noRank k.idx

/-! ### Results and credits -/

/-- Count a NaN or an infinity among a chunk's result (spec/06 R161). -/
def nanCheck (d : Dev) (c : Ctx) (chunk ty : Nat) (vs : List Nat) : Dev :=
  match fmtOf ty with
  | none => d
  | some f =>
    let s := srcCore (coreNo (coreOf c chunk))
    let d := if vs.any (fun v => fdec f v == .nan) then
        raise d s 2 [(3, c.p.handle.toNat), (4, chunk)] else d
    if vs.any (fun v => match fdec f v with | .inf _ => true | _ => false) then cnt1 d s 4 else d

/-- Where the frames of a context's results go: targets, MCAST, DST. -/
def resultTo (c : Ctx) : List (Nat × Nat) × Bool × Nat :=
  if c.p.root.toNat = noRank then (downSet c, true, 0)
  else
    let m := c.members.getD c.p.root.toNat 0
    ([memTarget m], false, memEp m)

/-- Send the segments of a chunk's values, `w` bytes each, as frames of a kind, until the context aborts; answers the
number of segments sent (spec/07 R190, R464). -/
def sendSegs (d : Dev) (slot : Nat) (c : Ctx) (kind chunk ot w : Nat) (vals : List Nat) : Nat × Dev :=
  let per := 8192 / natMax 1 w
  let n := natMax 1 ((vals.length + per - 1) / per)
  let (ts, mc, dst) := resultTo c
  let go (d : Dev) (i : Nat) : Dev :=
    let part := (vals.drop (i * per)).take per
    sendDown d slot (coreTile (coreOf c chunk)) c ts
      (collFrame d c kind chunk c.p.root.toNat i part.length ot c.granted 0 mc dst (bytesOf w part)
        c.p.handle c.gen c.sig)
  (List.range n).foldl (fun x i =>
    match ctxOf x.2 slot with
    | some y =>
      if y.st = 3 then x else (x.1 + b2n (ts.any (targetUp x.2 c.p.part.toNat)), go x.2 i)
    | none => x) (0, d)

/-- RESULT_SEND (spec/07 R190). -/
def resultSend (slot chunk : Nat) (d : Dev) : Dev :=
  match ctxOf d slot with
  | none => d
  | some c =>
    match findChunk c chunk with
    | none => d
    | some k =>
      if !k.done || (k.sampled && !k.compared) || c.p.op.toNat == opRub then d
      else
        let p := c.p
        let ot := p.otype.toNat
        let out := k.res.map (accOutput p.op.toNat p.mode.toNat p.itype.toNat ot)
        let d := if p.op.toNat = opBarrier then d else nanCheck d c chunk ot out
        let d := setCtx d slot { c with chunks := c.chunks.filter (fun x => x.idx != chunk) }
        let (n, d) := sendSegs d slot c 1 chunk ot (typeBytes ot) (if p.op.toNat = opBarrier then [] else out)
        cntN d (srcColl (coreOf c chunk / 16) slot) 5 n

/-- RESULT_SEND. -/
def execResultSend (slot : BitVec 14) (chunk : BitVec 32) (s : State) : Host.Outcome State Fault Refusal :=
  act (resultSend slot.toNat chunk.toNat) s

/-- Send one CREDIT frame to each port of the down set; each is counted. -/
def sendCredit (d : Dev) (slot : Nat) : Dev :=
  match ctxOf d slot with
  | none => d
  | some c =>
    let d := setCtx d slot { c with lastCred := c.granted, credAt := d.now }
    let d := cntN d (srcColl (homeDie slot) slot) 6 ((downSet c).filter (targetUp d c.p.part.toNat)).length
    sendDown d slot (16 * homeDie slot) c (downSet c)
      (collFrame d c 2 0 c.p.root.toNat 0 0 c.p.otype.toNat c.granted 0 true 0 [] c.p.handle c.gen c.sig)

/-- A CREDIT frame is due: GRANTED has advanced by COLL_CRED.BATCH since the last one, or has advanced and INT × 100 ns,
120 TIME cycles each, have passed (spec/07 R195). -/
def credDue (d : Dev) (c : Ctx) : Bool :=
  decide (c.lastCred + natMax 1 (rdf d .collCred [] 15 8) ≤ c.granted) ||
    (decide (c.lastCred < c.granted) && decide (c.credAt + 120 * natMax 1 (rdf d .collCred [] 7 0) ≤ d.now))

/-- CREDIT_SEND (spec/07 R195). -/
def creditSend (slot : Nat) (d : Dev) : Dev :=
  match ctxOf d slot with
  | none => d
  | some c =>
    if live c ∧ c.p.root.toNat ≠ noRank ∧ credDue d c ∧ rubRole d c 1 = false then sendCredit d slot
    else d

/-- CREDIT_SEND. -/
def execCreditSend (slot : BitVec 14) (s : State) : Host.Outcome State Fault Refusal :=
  act (creditSend slot.toNat) s

/-- STRAGGLER_TIMEOUT (spec/07 R197, spec/08 R221). -/
def stragglerTimeout (slot chunk : Nat) (d : Dev) : Dev :=
  match ctxOf d slot with
  | none => d
  | some c =>
    match findChunk c chunk with
    | none => d
    | some k =>
      if !live c || k.timer.isNone || c.p.stragUs == 0 then d
      else
        let late := if k.done then none
          else (List.range c.members.length).find? (fun r => decide (tgetD c.next r 0 ≤ chunk))
        abortCtx (raise d (srcColl (homeDie slot) slot) 1) slot 7 (late.getD noRank) chunk

/-- STRAGGLER_TIMEOUT. -/
def execStragglerTimeout (slot : BitVec 14) (chunk : BitVec 32) (s : State) :
    Host.Outcome State Fault Refusal :=
  act (stragglerTimeout slot.toNat chunk.toNat) s

/-- Does anything of a slot remain on its way: operands, results, frames in the mesh? -/
def slotBusy (d : Dev) (slot : Nat) : Bool :=
  d.coll.outq.any (fun x => x.p.slot == slot) ||
  d.coll.stg.any (fun e => e.2.any (fun x => x.slot == slot)) ||
  d.coll.pre.any (fun e => e.2.any (fun x => x.slot == slot)) ||
  d.sw.flights.any (fun f => match f.load with | .partial_ p _ => p.slot == slot | _ => false)

/-- Requests to a context's area have still to be answered (spec/09 R253). -/
def areaBusy (d : Dev) (c : Ctx) : Bool :=
  let hit (a : Nat) : Bool := decide (c.area ≤ a) && decide (a < c.area + c.areaSize)
  (allReqs d).any (fun r => hit r.r.addr) || (allResps d).any (fun r => hit r.r.addr)

/-- QUARANTINE_EXPIRY (spec/07 R198); the area falls free once every request to it has been answered (spec/09 R253). -/
def quarantineExpiry (slot : Nat) (d : Dev) : Dev :=
  match ctxOf d slot with
  | none => d
  | some c =>
    if c.st = 4 ∧ slotBusy d slot = false ∧ areaBusy d c = false ∧ c.chunks = [] then
      { d with coll := { d.coll with ctxs := tdel d.coll.ctxs slot } }
    else d

/-- QUARANTINE_EXPIRY. -/
def execQuarantineExpiry (slot : BitVec 14) (s : State) : Host.Outcome State Fault Refusal :=
  act (quarantineExpiry slot.toNat) s

/-! ### Pattern and context commands -/

/-- Refuse a pattern command (spec/07 R176, spec/14 R461). -/
def patReject (d : Dev) (rp : Reply) (pat st : Nat) (res : List Byte) : Dev :=
  complete (raise d (srcColl 0 pat) 2) rp st res

/-- A pattern is used by a context in OPEN or CLOSING. -/
def patBusy (d : Dev) (pat : Nat) : Bool :=
  d.coll.ctxs.any (fun e => live e.2 && e.2.p.pattern.toNat == pat)

/-- The first rank whose entry fails the checks of R176. -/
def badMember (d : Dev) (part : Nat) (ms : List (BitVec 64)) : Option Nat :=
  ms.findIdx? (fun m =>
    let t := memTarget m
    decide (m.toNat % 2 ^ 30 ≠ 0) ||
    (if t.1 = 0 then !inMask (partCfg d part).mask t.2 else decide (256 ≤ t.2)))

/-- PAT_SET once its list is checked: the list stored, VALID, the next PGEN; none: no room. -/
def storePattern (d : Dev) (pat : Nat) (part : BitVec 12) (ms : List (BitVec 64)) : Option (Nat × Dev) :=
  let old := tget? d.coll.pats pat
  let d0 := { d with coll := { d.coll with pats := tdel d.coll.pats pat } }
  match fitAt (collBase d) (collTop d) (alignUp (8 * ms.length) 256) (collExtents d0) with
  | none => none
  | some a =>
    let g := (match old with | some p => p.pgen | none => 0) + 1
    let d := { d with coll := { d.coll with pats := tset d.coll.pats pat ⟨true, part, g, ms, a⟩ } }
    some (g.toNat, memPut d a (bytesOf 8 (ms.map (·.toNat))))

/-- PAT_SET (spec/07 R175, R176). -/
def patSet (pat : Nat) (part : BitVec 12) (n : Nat) (list : DmaRead) (d : Dev) (rp : Reply) : Dev :=
  if patBusy d pat then patReject d rp pat 0x20 []
  else match dmaGet d list with
    | (none, d) => refuseDma d rp
    | (some b, d) =>
      let ms := (elemsOf 8 b n).map (BitVec.ofNat 64)
      match badMember d part.toNat ms with
      | some r => patReject d rp pat 0x21 (packFields [(20, r)])
      | none =>
        match storePattern d pat part ms with
        | none => patReject d rp pat 0x22 []
        | some (g, d) => complete d rp 0 (packFields [(16, g)])

/-- PAT_SET; N outside 1 to 131,072 is a field outside its width. -/
def execPatSet (h : CmdHdr) (pat : BitVec 14) (part : BitVec 12) (n : BitVec 32) (list : DmaRead) (s : State) :
    Host.Outcome State Fault Refusal :=
  act (fun d => runCmd d h 0x20 .h [some pat.toNat, some part.toNat, some n.toNat, none] (1 ≤ n.toNat ∧ n.toNat ≤ 131072)
    (fun d rp => withFlaws h.flaws (fun d => patSet pat.toNat part n.toNat list d rp) d)) s

/-- PAT_CLEAR (spec/07 R175). -/
def execPatClear (h : CmdHdr) (pat : BitVec 14) (s : State) : Host.Outcome State Fault Refusal :=
  act (fun d => runCmd d h 0x21 .h [some pat.toNat] true (fun d rp =>
    if patBusy d pat.toNat then patReject d rp pat.toNat 0x20 []
    else
      let d := match tget? d.coll.pats pat.toNat with
        | some p => { d with coll := { d.coll with pats := tset d.coll.pats pat.toNat { p with valid := false } } }
        | none => d
      complete d rp 0 [])) s

/-- Refuse a context command on its home die (spec/07 R203). -/
def collReject (d : Dev) (rp : Reply) (slot st : Nat) : Dev :=
  complete (raise d (srcColl (homeDie slot) slot) 2) rp st []

/-- The context that a handle names: its slot is not FREE and its tag agrees. -/
def named (d : Dev) (h : BitVec 20) : Option Ctx :=
  match ctxOf d (h.toNat % 16384) with
  | some c => if c.p.handle = h then some c else none
  | none => none

/-- Take a context to QUIESCE. -/
def quiesce (d : Dev) (slot : Nat) : Dev :=
  match ctxOf d slot with
  | none => d
  | some c => unbind (setCtx d slot { c with st := 4, quarAt := d.now }) c

/-- COLL_DESTROY (spec/07 R198). -/
def execCollDestroy (h : CmdHdr) (handle : BitVec 20) (graceful : Bool) (s : State) :
    Host.Outcome State Fault Refusal :=
  act (fun d => runCmd d h 0x23 .h [some handle.toNat, some (b2n graceful)] true (fun d rp =>
    let slot := handle.toNat % 16384
    match named d handle with
    | none => collReject d rp slot 0x09
    | some c =>
      if live c && !graceful then complete (quiesce (abortCtx d slot 0x0D noRank noChunk) slot) rp 0 []
      else if c.st = 1 then
        complete (maybeClosed (setCtx d slot { c with st := 2, hwm := c.taken }) slot) rp 0 []
      else if c.st = 3 then complete (quiesce d slot) rp 0 []
      else complete d rp 0 [])) s

/-- COLL_ABORT (spec/07 R186). -/
def execCollAbort (h : CmdHdr) (handle : BitVec 20) (s : State) : Host.Outcome State Fault Refusal :=
  act (fun d => runCmd d h 0x24 .h [some handle.toNat] true (fun d rp =>
    let slot := handle.toNat % 16384
    match named d handle with
    | none => collReject d rp slot 0x09
    | some _ => complete (abortCtx d slot 0x0D noRank noChunk) rp 0 [])) s

/-- COLL_QUERY: the slot's state, GEN, first abort, GRANTED and HWM (spec/07 R198, spec/14 R358). -/
def execCollQuery (h : CmdHdr) (handle : BitVec 20) (s : State) : Host.Outcome State Fault Refusal :=
  act (fun d => runCmd d h 0x25 .h [some handle.toNat] true (fun d rp =>
    let slot := handle.toNat % 16384
    let res := match ctxOf d slot with
      | none => packFields [(3, 0), (8, (tgetD d.coll.gens slot 0).toNat), (8, 0), (20, 0), (32, 0), (32, 0), (32, 0)]
      | some c =>
        let a := c.abort.getD ⟨0, 0, 0⟩
        packFields [(3, c.st), (8, c.gen.toNat), (8, a.reason), (20, a.rank), (32, a.chunk), (32, c.granted),
          (32, if c.st = 1 then c.taken else c.hwm)]
    complete d rp 0 res)) s

/-! ### Partition state (spec/02 R38, R40; spec/07 R199) -/

/-- Set a partition's STATE on all four dies; leaving LIVE aborts its contexts. -/
def setPartState (d : Dev) (p st : Nat) : Dev :=
  let old := (partOf d p).st
  let d := setPart d p { partOf d p with st := BitVec.ofNat 2 st }
  if old = 1 ∧ st ≠ 1 then abortWhere d (fun c => c.p.part.toNat == p) 0x0A else d

/-- TBL_PART_STATE. -/
def execTblPartState (h : CmdHdr) (part : BitVec 12) (st : BitVec 2) (s : State) :
    Host.Outcome State Fault Refusal :=
  act (fun d => runCmd d h 0x16 .h [some part.toNat, some st.toNat] (st != 3) (fun d rp =>
    complete (setPartState d part.toNat st.toNat) rp 0 [])) s

/-- PART_DRAINED: a DRAIN partition with no buffered frame moves to OFF (spec/02 R38). -/
def partDrained (p : Nat) (d : Dev) : Dev :=
  if (partOf d p).st = 2 ∧ (List.range 4).all (fun die => partOcc d p die == 0) then
    event (setPart d p { partOf d p with st := 0 }) 0x0180 255 0 [(2, p)]
  else d

/-- PART_DRAINED. -/
def execPartDrained (part : BitVec 12) (s : State) : Host.Outcome State Fault Refusal :=
  act (partDrained part.toNat) s

end Sys2Proof.Machine
end

