-- ==== Sys2Proof/Machine/Mem.lean ====
section
/-! DEFINITION. Stacked memory: which requests wait, and the commands that apply them (spec/09). -/
namespace Sys2Proof.Machine

/-! ### Requests -/

/-- An earlier request to the same unit stands before a request in its pseudo-channel's queue; one that is not in it
stands behind them all (spec/09 R248). -/
def reqBlocked (op : Nat) (r : MemReq) : List MemOut → Bool
  | [] => false
  | x :: rest => if x.op = op ∧ x.r = r then false else x.r.addr / 256 == r.addr / 256 || reqBlocked op r rest

/-- A request has still to reach its stack. -/
def inMesh (d : Dev) (op : Nat) (r : MemReq) : Bool :=
  d.sw.flights.any (fun f => match f.load with | .memQ m => m.op == op && m.r == r | _ => false)

/-- A request still stands in its controller's input buffer: 64 others fill its pseudo-channel's queue before it (spec/09
R249). -/
def inBuffer (d : Dev) (op : Nat) (r : MemReq) : Bool :=
  decide (64 ≤ ((d.mem.reqs.takeWhile (fun x => !(x.op == op && x.r == r))).filter
    (fun x => memPc d x.r.addr == memPc d r.addr)).length)

/-- A request has to wait: it is on its way, stands behind another or in the input buffer, or its stack sleeps (spec/15
R392). -/
def reqWaits (d : Dev) (op : Nat) (r : MemReq) : Bool :=
  reqBlocked op r d.mem.reqs || inBuffer d op r || inMesh d op r || !pdOn d (96 + memStack d r.addr)

/-- Apply a request: take it from its queue, then do its work; until it can be applied it waits. -/
def memApply (op : Nat) (r : MemReq) (f : Dev → Dev) (s : State) : Host.Outcome State Fault Refusal :=
  if memEnd < r.addr + r.len then .fault .noSuchAddress
  else act (fun d => if reqWaits d op r then d else f (memTake d op r)) s

/-- MEM_READ. -/
def execMemRead (r : MemReq) (es : List Ecc) (s : State) : Host.Outcome State Fault Refusal :=
  memApply 0 r (memReadAct r es) s

/-- MEM_WRITE. -/
def execMemWrite (w : MemWr) (s : State) : Host.Outcome State Fault Refusal :=
  memApply 1 w.r (memWriteAct w.r w.ecc) s

/-- RED_F32. -/
def execRedF32 (r : MemReq) (es : List Ecc) (s : State) : Host.Outcome State Fault Refusal :=
  memApply 16 r (redApply 0 r es) s
/-- RED_BF16. -/
def execRedBf16 (r : MemReq) (es : List Ecc) (s : State) : Host.Outcome State Fault Refusal :=
  memApply 17 r (redApply 1 r es) s
/-- RED_BF16W. -/
def execRedBf16w (r : MemReq) (es : List Ecc) (s : State) : Host.Outcome State Fault Refusal :=
  memApply 18 r (redApply 2 r es) s
/-- RED_I32. -/
def execRedI32 (r : MemReq) (es : List Ecc) (s : State) : Host.Outcome State Fault Refusal :=
  memApply 19 r (redApply 3 r es) s
/-- RED_I64. -/
def execRedI64 (r : MemReq) (es : List Ecc) (s : State) : Host.Outcome State Fault Refusal :=
  memApply 20 r (redApply 4 r es) s
/-- ADD_F32. -/
def execAddF32 (r : MemReq) (es : List Ecc) (s : State) : Host.Outcome State Fault Refusal :=
  memApply 21 r (redApply 5 r es) s
/-- ADD_BF16. -/
def execAddBf16 (r : MemReq) (es : List Ecc) (s : State) : Host.Outcome State Fault Refusal :=
  memApply 22 r (redApply 6 r es) s
/-- ADD_I32. -/
def execAddI32 (r : MemReq) (es : List Ecc) (s : State) : Host.Outcome State Fault Refusal :=
  memApply 23 r (redApply 7 r es) s
/-- ADD_I64. -/
def execAddI64 (r : MemReq) (es : List Ecc) (s : State) : Host.Outcome State Fault Refusal :=
  memApply 24 r (redApply 8 r es) s

/-- CNT. -/
def execCnt (r : MemReq) (es : List Ecc) (s : State) : Host.Outcome State Fault Refusal :=
  memApply 25 r (cntApply r es) s

/-- RDCLR. -/
def execRdclr (r : MemReq) (es : List Ecc) (s : State) : Host.Outcome State Fault Refusal :=
  memApply 26 r (rdclrAct r es) s

/-! ### Scrubbing, lanes, refresh -/

/-- The scrubber's next read. -/
def scrubReq (d : Dev) : MemReq := ⟨.scrub, d.mem.scrubPos, 64, [], []⟩

/-- MEM_SCRUB_READ: the scrubber's next read takes its place in the queues, where it waits behind other requests to
its unit, unless the input buffer of its stack is full (spec/09 R249, R259). -/
def memScrubRead (ecc : Ecc) (d : Dev) : Dev :=
  if rdb d .memCtl [] 0 then
    let r := scrubReq d
    if reqWaits d 0 r then
      if d.mem.reqs.any (fun x => x.op == 0 && x.r == r) || decide (256 ≤ stkBuf d (memStack d r.addr)) then d
      else issue d 0 r
    else scrubbed r.addr [ecc] (memTake d 0 r)
  else d

/-- MEM_SCRUB_READ. -/
def execMemScrubRead (ecc : Ecc) (s : State) : Host.Outcome State Fault Refusal :=
  act (memScrubRead ecc) s

/-- MEM_REFRESH: an all-bank refresh changes nothing that software can see (spec/09 R262). -/
def execMemRefresh (_stack : Fin 12) (s : State) : Host.Outcome State Fault Refusal :=
  act (fun d => d) s

end Sys2Proof.Machine
end

