-- ==== Sys2Proof/Machine/Shard.lean ====
section
/-! DEFINITION. Shards: the optimizer state region, layout, built-in update programs, and the commands
on shards (spec/08 R204–R213, R223–R228, R239). -/
namespace Sys2Proof.Machine

/-! ### The optimizer state region (spec/08 R239, R241) -/

/-- First address of the region. -/
def optBase (d : Dev) : Nat := rd d .optMemBaseHi * 2 ^ 32 + rd d .optMemBaseLo

/-- End of the region. -/
def optTop (d : Dev) : Nat := optBase d + rdf d .optMemSize [] 9 0 * 2 ^ 30

/-- Bytes that a kernel's code takes. -/
def kernelBytes (k : Kernel) : Nat := alignUp (8 * k.code.length) 256

/-- Sides that a checkpoint has captured and not yet read, outside the shards that are there: they stay until they have
been read (spec/08 R226). -/
def capturedSides (d : Dev) : List (Nat × Nat) :=
  ((d.opt.ckpts.flatMap (fun c => c.shards.filter (fun x => x.data.isNone))).map
    (fun x => (x.snap.base + x.snap.side * x.snap.z, x.snap.z))).filter (fun y =>
      !d.opt.shards.any (fun e => decide (e.2.base ≤ y.1) && decide (y.1 + y.2 ≤ e.2.base + 2 * e.2.z)))

/-- Extents in use behind the first 1 GiB. -/
def optExtents (d : Dev) : List (Nat × Nat) :=
  d.opt.shards.map (fun e => (e.2.base, 2 * e.2.z)) ++ d.opt.kernels.map (fun e => (e.2.base, kernelBytes e.2))
    ++ capturedSides d

/-- Where `n` bytes fit in the region. -/
def optFit (d : Dev) (n : Nat) : Option Nat :=
  if rdf d .optMemSize [] 9 0 ≤ 1 then none
  else fitAt (optBase d + 2 ^ 30) (optTop d) n (optExtents d)

/-- OPT_MEM_USED.MIB: the ORTHO work areas and what is allocated behind them; 0 while nothing is. -/
def optUsed (d : Dev) : Nat :=
  if optExtents d = [] then 0
  else (2 ^ 30 + (optExtents d).foldl (fun a e => a + e.2) 0 + 2 ^ 20 - 1) / 2 ^ 20

/-! ### Layout of a shard (spec/08 R205–R207) -/

/-- Home die of a shard. -/
def shDie (sh : Nat) : Nat := sh / 2048 % 4

/-- Events and counters of a shard, on its home die. -/
def srcShard (sh : Nat) : Src := srcOpt (shDie sh) sh

/-- Bytes of one slot array of a segment. -/
def slotPad (s : Seg) : Nat := alignUp (4 * s.count) 256

/-- Bytes of a side as it is laid out in memory, slot arrays padded (spec/08 R207). -/
def sideBytes (segs : List Seg) : Nat := segs.foldl (fun a s => a + s.slots * slotPad s) 0

/-- Z of R239: bytes per element times COUNT, over the segments. -/
def sideZ (segs : List Seg) : Nat := segs.foldl (fun a s => a + s.slots * (4 * s.count)) 0

/-- Offset of segment `k` in a side. -/
def segOff (segs : List Seg) (k : Nat) : Nat := sideBytes (segs.take k)

/-- The segment that holds an element: its number and entry. -/
def segAt (segs : List Seg) (e : Nat) : Option (Nat × Seg) :=
  match segs.findIdx? (fun s => decide (s.start ≤ e) && decide (e < s.start + s.count)) with
  | none => none
  | some k => (segs[k]?).map (fun s => (k, s))

/-- Address of slot `j` of element `e` in segment `k` on a side. -/
def slotAddr (s : Shard) (side k : Nat) (g : Seg) (j e : Nat) : Nat :=
  s.base + side * s.z + segOff s.segs k + j * slotPad g + 4 * (e - g.start)

/-- The slot arrays of a side: their offsets in it and their bytes. -/
def sideSlots (segs : List Seg) : List (Nat × Nat) :=
  (segs.zipIdx).flatMap (fun g => (List.range g.1.slots).map (fun j => (segOff segs g.2 + j * slotPad g.1, 4 * g.1.count)))

/-- The Z bytes of a side at an address: its slot arrays one after another. -/
def sidePack (d : Dev) (a : Nat) (segs : List Seg) : List Byte :=
  (sideSlots segs).flatMap (fun x => memRd d (a + x.1) x.2)

/-- Write the Z bytes of a side at an address. -/
def sideUnpack (a : Nat) : List (Nat × Nat) → List Byte → Dev → Dev
  | [], _, d => d
  | x :: r, bs, d => sideUnpack a r (bs.drop x.2) (memPut d (a + x.1) (bs.take x.2))

/-- The slot arrays of a side are read from memory. -/
def sideGet (d : Dev) (a : Nat) (segs : List Seg) : Dev :=
  (sideSlots segs).foldl (fun d x => (memGet d (a + x.1) x.2).2) d

/-- `n` values of slot `j` from element `e` on. -/
def readSlot (d : Dev) (s : Shard) (side k : Nat) (g : Seg) (j e n : Nat) : List Nat :=
  elemsOf 4 (memRd d (slotAddr s side k g j e) (4 * n)) n

/-- The slots of a range of elements are read from memory: their units count, their sectors are checked (spec/09 R257,
R267). -/
def slotGet (d : Dev) (s : Shard) (side k : Nat) (g : Seg) (e n : Nat) : Dev :=
  (List.range g.slots).foldl (fun d j => (memGet d (slotAddr s side k g j e) (4 * n)).2) d

/-- The first poisoned address among the slots of a range of elements. -/
def slotPoison (d : Dev) (s : Shard) (side k : Nat) (g : Seg) (e n : Nat) : Option Nat :=
  ((List.range g.slots).filterMap (fun j => poisonIn d (slotAddr s side k g j e) (4 * n))).head?

/-- Write basted values; RB clears with the first of them (spec/08 R225). -/
def basteSlot (d : Dev) (sh : Nat) (s : Shard) (k : Nat) (g : Seg) (j e : Nat) (vs : List Nat) : Dev :=
  let d := match shardOf d sh with
    | some x => setShard d sh { x with rb := false }
    | none => d
  memPut d (slotAddr s (1 - s.side) k g j e) (bytesOf 4 vs)

/-! ### Update programs (spec/08 R210) -/

/-- Word `i` of a hyperparameter set. -/
def hword (h : List (BitVec 32)) (i : Nat) : Nat := (h.getD i 0).toNat

/-- fp32 1.0. -/
abbrev fOne : Nat := 0x3F800000

/-- p − h0 × fma(h4, p, x). -/
def stepParam (h : List (BitVec 32)) (p x : Nat) : Nat := fsub p (fmul (hword h 0) (ffma (hword h 4) p x))

/-- One element of SGD, SGDM or ADAMW: old slots and gr to new slots. -/
def elemUpdate (prog : Nat) (h : List (BitVec 32)) (old : List Nat) (gr : Nat) : List Nat :=
  let g := fmul (hword h 5) gr
  let p := old.getD 0 0
  let m := old.getD 1 0
  let v := old.getD 2 0
  let d1 := fsub fOne (hword h 1)
  let d2 := fsub fOne (hword h 2)
  match prog with
  | 1 => [stepParam h p g]
  | 2 =>
    let m1 := ffma (hword h 1) m g
    [stepParam h p m1, m1]
  | _ =>
    let m1 := ffma (hword h 1) m (fmul d1 g)
    let v1 := ffma (hword h 2) v (fmul d2 (fmul g g))
    let u := fmul (fmul m1 (hword h 6)) (frcp (fadd (fsqrt (fmul v1 (hword h 7))) (hword h 3)))
    [stepParam h p u, m1, v1]

/-- The same for `n` elements: slot columns to slot columns. -/
def rangeUpdate (prog : Nat) (h : List (BitVec 32)) (cols : List (List Nat)) (gr : List Nat) :
    List (List Nat) :=
  let rows := (List.range gr.length).map (fun i =>
    elemUpdate prog h (cols.map (fun c => c.getD i 0)) (gr.getD i 0))
  (List.range cols.length).map (fun j => rows.map (fun r => r.getD j 0))

/-! ### ORTHO (spec/08 R211) -/

/-- bf16 rounding of an fp32 value, as the fp32 pattern of the same value. -/
def bf (x : Nat) : Nat := fconv 1 0 (fconv 0 1 x)

/-- Entry (i, j) of a row-major matrix of side `b`. -/
def mat (b : Nat) (x : List Nat) (i j : Nat) : Nat := x.getD (i * b + j) 0

/-- Matrix product in fp32 accumulators, ascending k, of bf16 values (spec/06 R142). -/
def matMul (b : Nat) (f g : Nat → Nat → Nat) : List Nat :=
  (List.range (b * b)).map (fun n =>
    (List.range b).foldl (fun acc k => ffma (f (n / b) k) (g k (n % b)) acc) 0)

/-- One iteration on x: the working matrices x, a, a2 and y after it. -/
def orthoStep (b : Nat) (h : List (BitVec 32)) (ws : List (List Nat)) : List (List Nat) :=
  let x := ws.getD 0 []
  let a := (matMul b (mat b x) (fun k j => mat b x j k)).map bf
  let a2 := (matMul b (mat b a) (mat b a)).map bf
  let y := (List.range (b * b)).map (fun n => bf (ffma (hword h 11) (a2.getD n 0) (fmul (hword h 10) (a.getD n 0))))
  let yx := matMul b (mat b y) (mat b x)
  [(List.range (b * b)).map (fun n => bf (ffma (hword h 9) (x.getD n 0) (yx.getD n 0))), a, a2, y]

/-- `n` iterations. -/
def orthoIter (b : Nat) (h : List (BitVec 32)) : Nat → List (List Nat) → List (List Nat)
  | 0, ws => ws
  | n + 1, ws => orthoIter b h n (orthoStep b h ws)

/-- K: H12 clamped to 1 to 8; a value between two whole numbers is left open. -/
def orthoK (h12 : Nat) : Nat :=
  match d32 h12 with
  | .nan => 1 + Config.orthoIter (w32 h12) % 8
  | .inf s => if s then 1 else 8
  | .num s m e =>
    if s ∨ fvCmp (.num s m e) (.num false 1 0) ≤ 0 then 1
    else if 0 ≤ fvCmp (.num s m e) (.num false 8 0) then 8
    else
      let x := if 0 ≤ e then m * 2 ^ e.toNat else m / 2 ^ (-e).toNat
      if 0 ≤ e ∨ m % 2 ^ (-e).toNat = 0 then x else 1 + Config.orthoIter (w32 h12) % 8

/-- The working matrices of a block after its last iteration, from its momentum. -/
def orthoWork (b : Nat) (h : List (BitVec 32)) (m1 : List Nat) : List (List Nat) :=
  let s := (List.range b).foldl (fun s i =>
    fadd s ((List.range b).foldl (fun t j => ffma (mat b m1 i j) (mat b m1 i j) t) 0)) 0
  let c := frcp (fadd (fsqrt s) (hword h 3))
  orthoIter b h (orthoK (hword h 12)) [m1.map (fun v => bf (fmul v c))]

/-- The new parameters of a block from its momentum and its committed parameters. -/
def orthoBlock (b : Nat) (h : List (BitVec 32)) (m1 p : List Nat) : List Nat :=
  List.zipWith (fun p x => stepParam h p (fmul (hword h 13) x)) p ((orthoWork b h m1).getD 0 [])

/-- Work area of a core name (spec/08 R239). -/
def workArea (d : Dev) (q : Nat) : Nat := optBase d + q * 2 ^ 24

/-- The working matrices of a block stand in the work area of its core in bf16, one after another, row by row (spec/08
R211; their places: DESIGN CHOICE, log entry 114). -/
def stageWork (d : Dev) (q b : Nat) (ws : List (List Nat)) : Dev :=
  ws.zipIdx.foldl (fun d w => memPut d (workArea d q + w.2 * (2 * b * b)) (bytesOf 2 (w.1.map (fconv 0 1)))) d

/-! ### SHARD_SET and SHARD_CLEAR (spec/08 R204–R208, R228) -/

/-- Refuse a command on a shard, on its home die. -/
def shardReject (d : Dev) (rp : Reply) (sh st : Nat) (res : List Byte) : Dev :=
  complete (raise d (srcShard sh) 3) rp st res

/-- Refuse a command that names a partition, or a kernel, on FD0. -/
def optReject (d : Dev) (rp : Reply) (st : Nat) (res : List Byte) : Dev :=
  complete (raise d (srcOpt 0 0) 3) rp st res

/-- A segment entry (spec/08 Table 08-1). -/
def parseSeg (ks : Tab Kernel) (w : Nat) : Seg :=
  let prog := bits w 47 44
  let k := bits w 31 24
  { start := bits w 127 88, count := bits w 87 48, prog := prog, ptype := bits w 43 40,
    hset := bits w 39 36, bshift := bits w 35 32, kernel := k,
    slots := match prog with
      | 1 => 1
      | 2 | 4 => 2
      | 3 => 3
      | _ => 1 + (match tget? ks k with | some x => x.slots | none => 0) }

/-- Does an entry break R205, R206 or R209, when the elements below `next` are covered? -/
def segBad (elems next w : Nat) (g : Seg) : Bool :=
  decide (w % 2 ^ 24 ≠ 0) || !([1, 2, 3, 4, 15].contains g.prog) || decide (2 < g.ptype) ||
  decide (g.start ≠ next) || decide (g.count = 0) || decide (elems < g.start + g.count) ||
  (if g.prog = 4 then decide (g.bshift < 7) || decide (10 < g.bshift) || decide (g.count % 2 ^ (2 * g.bshift) ≠ 0)
   else decide (g.bshift ≠ 0)) ||
  (decide (g.kernel ≠ 0) && decide (g.prog ≠ 15))

/-- The first offending segment; the last one where the list ends short of ELEMS. -/
def scanSegs (ks : Tab Kernel) (elems : Nat) : Nat → Nat → List Nat → Option Nat
  | k, next, [] => if next = elems then none else some (k - 1)
  | k, next, w :: r =>
    let g := parseSeg ks w
    if segBad elems next w g then some k else scanSegs ks elems (k + 1) (g.start + g.count) r

/-- Sixteen sets of sixteen zero words. -/
def zeroSets : List HSet := List.replicate 16 ⟨List.replicate 16 0, none⟩

/-- The entry after SHARD_SET. -/
def newShard (p : ShardParams) (segs : List Seg) (base z : Nat) : Shard where
  st := 1
  part := p.part
  role := p.role.toNat
  elems := p.elems.toNat
  segs := segs
  step := p.step
  side := 0
  lost := false
  rb := false
  hs := zeroSets
  base := base
  z := z
  bound := none
  pins := []

/-- SHARD_SET once its list has passed: place the shard, read or zero its committed side. -/
def shardPlace (d : Dev) (rp : Reply) (p : ShardParams) (segs : List Seg) : Dev :=
  let sh := p.sh.toNat
  let z := sideBytes segs
  match optFit d (2 * z) with
  | none => shardReject d rp sh 0x22 []
  | some a =>
    if p.initAddr = 0 then
      complete (setShard (memClear d a z) sh (newShard p segs a z)) rp 0 []
    else match dmaGet d p.initData with
      | (none, d) => refuseDma d rp
      | (some b, d) => complete (setShard (memPut d a (slice b 0 z)) sh (newShard p segs a z)) rp 0 []

/-- SHARD_SET. -/
def shardSet (p : ShardParams) (d : Dev) (rp : Reply) : Dev :=
  let sh := p.sh.toNat
  if (shardOf d sh).isSome then shardReject d rp sh 0x34 []
  else if (partOf d p.part.toNat).st ≠ 1 then shardReject d rp sh 0x24 []
  else if p.segCount = 0 then shardReject d rp sh 0x33 (packFields [(6, 0)])
  else if 64 < p.segCount.toNat then shardReject d rp sh 0x33 (packFields [(7, 64)])
  else match dmaGet d p.segData with
    | (none, d) => refuseDma d rp
    | (some b, d) =>
      let ws := elemsOf 16 b p.segCount.toNat
      match scanSegs d.opt.kernels p.elems.toNat 0 0 ws with
      | some k => shardReject d rp sh 0x33 (packFields [(6, k)])
      | none =>
        let segs := ws.map (parseSeg d.opt.kernels)
        if segs.any (fun g => g.prog == 15 && (tget? d.opt.kernels g.kernel).isNone) then
          shardReject d rp sh 0x35 []
        else shardPlace d rp p segs

/-- SHARD_SET; ELEMS outside its range, 1 to 2^40, is a field outside its width (spec/14 R357; log entry 133). -/
def execShardSet (h : CmdHdr) (p : ShardParams) (s : State) : Host.Outcome State Fault Refusal :=
  act (fun d => runCmd d h 0x30 .h [some p.sh.toNat, some p.part.toNat, some p.role.toNat, some p.elems.toNat, some p.step.toNat,
      some p.segAddr.toNat, some p.segCount.toNat, some p.initAddr.toNat] (1 ≤ p.elems.toNat ∧ p.elems.toNat ≤ 2 ^ 40)
    (fun d rp => withFlaws h.flaws (fun d => shardSet p d rp) d)) s

/-- SHARD_CLEAR (spec/08 R208, R228). -/
def execShardClear (h : CmdHdr) (sh : BitVec 13) (s : State) : Host.Outcome State Fault Refusal :=
  act (fun d => runCmd d h 0x31 .h [some sh.toNat] true (fun d rp =>
    match shardOf d sh.toNat with
    | none => complete d rp 0 []
    | some x =>
      if x.bound.isSome then shardReject d rp sh.toNat 0x34 []
      else complete { d with opt := { d.opt with shards := tdel d.opt.shards sh.toNat } } rp 0 [])) s

/-! ### HPARAM_SET (spec/08 R213) -/

/-- HPARAM_SET. -/
def hparamSet (p : HparamParams) (d : Dev) (rp : Reply) : Dev :=
  let sh := p.sh.toNat
  match shardOf d sh with
  | none => shardReject d rp sh 0x30 []
  | some x =>
    if 2 ≤ x.st ∧ p.step.toNat ≤ (x.step + 1).toNat then shardReject d rp sh 0x36 []
    else
      let i := p.set.toNat
      let h := x.hs.getD i ⟨[], none⟩
      let ws := (p.words ++ List.replicate 16 0).take 16
      complete (setShard d sh { x with hs := lset x.hs i { h with pend := some (p.step, ws) } }) rp 0 []

/-- The parameter block of HPARAM_SET (spec/14 R354). -/
def hparamBlock (b : List Byte) : Option HparamParams :=
  (unpackBlock ([13, 4, 32] ++ List.replicate 16 32) b).map (fun v =>
    ⟨BitVec.ofNat 13 (v.getD 0 0), BitVec.ofNat 4 (v.getD 1 0), BitVec.ofNat 32 (v.getD 2 0), (v.drop 3).map (BitVec.ofNat 32)⟩)

/-- HPARAM_SET. -/
def execHparamSet (h : CmdHdr) (c : DmaRead) (s : State) : Host.Outcome State Fault Refusal :=
  act (fun d => runCmd d h 0x32 .h [] true (withBlock hparamBlock c hparamSet)) s

/-- The round of step STEP + 1 takes its first chunk: the shard goes to BASTING and the values pending
for that step become current. -/
def beginRound (d : Dev) (sh : Nat) : Dev :=
  match shardOf d sh with
  | none => d
  | some x =>
    if x.st = 1 then
      setShard d sh { x with st := 2, hs := x.hs.map (fun h =>
        match h.pend with
        | some (s, ws) => if s = x.step + 1 then ⟨ws, none⟩ else h
        | none => h) }
    else d

/-! ### Commit and rollback (spec/08 R223–R225) -/

/-- Shards of a partition, ascending. -/
def partShards (d : Dev) (part : BitVec 12) : List (Nat × Shard) :=
  d.opt.shards.filter (fun e => e.2.part == part)

/-- OPT_COMMIT: armed unless one waits, or the tick comes too soon. -/
def execOptCommit (h : CmdHdr) (part : BitVec 12) (step tick : BitVec 32) (s : State) :
    Host.Outcome State Fault Refusal :=
  act (fun d => runCmd d h 0x33 .h [some part.toNat, some step.toNat, some tick.toNat] true (fun d rp =>
    if d.opt.commits.any (fun c => c.part == part && c.at_.isNone) then optReject d rp 0x37 []
    else if tickReached (nsNow d) tick ∨ (tick - tickNow d).toNat < 20000 then optReject d rp 0x38 []
    else { d with opt := { d.opt with commits := d.opt.commits ++ [⟨part, step, tick, activeDom d, rp, none⟩] } })) s

/-- Flip a sealed shard to step s. -/
def flipShard (step : BitVec 32) (x : Shard) : Shard :=
  { x with st := 1, side := 1 - x.side, step := step, rb := true }

/-- The next round of a context opens: nothing of the last one is kept, and frames held for it return
to their tiles (spec/08 R217). -/
def openRound (d : Dev) (slot : Nat) : Dev :=
  match ctxOf d slot with
  | none => d
  | some c =>
    let back (t : Tab (List Nat)) (x : Nat × Nat) : Tab (List Nat) := tput [] t x.1 (tgetD t x.1 [] ++ [x.2])
    let d := { d with coll := { d.coll with taken := c.heldFr.foldl back d.coll.taken } }
    setCtx d slot { c with heldFr := [], seen := [], digests := [], sealed := [], macks := [] }

/-- After a flip: grants advance, and each PRIMARY context sends its commit CREDIT frame. -/
def afterFlip (d : Dev) (sh : Nat) : Dev :=
  match shardOf d sh with
  | none => d
  | some x =>
    match x.bound with
    | none => d
    | some slot =>
      let d := advance (openRound d slot) slot
      if x.role = 0 then sendCredit d slot else d

/-- OPT_COMMIT_TICK: the oldest commit of a partition takes effect, at the end of its tick's CTRL cycle (spec/08 R223,
R224). -/
def optCommitTick (part : BitVec 12) (d : Dev) : Dev :=
  match d.opt.commits.find? (fun c => c.part == part) with
  | none => d
  | some c =>
    let d := { d with opt := { d.opt with commits := removeFirst (fun c => c.part == part) d.opt.commits } }
    let ss := partShards d part
    let bad (e : Nat × Shard) : Bool :=
      e.2.lost || (e.2.bound.isSome && !(e.2.st == 3 && e.2.step + 1 == c.step))
    match ss.find? bad with
    | some e => complete (raise d (srcOpt 0 0) 0) c.reply 2 (packFields [(13, e.1)])
    | none =>
      let up := (ss.filter (fun e => e.2.bound.isSome)).map (·.1)
      let d := up.foldl (fun d sh => match shardOf d sh with
        | some x => setShard d sh (flipShard c.step x)
        | none => d) d
      let d := event (cnt1 d (srcOpt 0 0) 6) 0x0B81 0 0 []
      complete (up.foldl afterFlip d) c.reply 1 []

/-- OPT_COMMIT_TICK. -/
def execOptCommitTick (part : BitVec 12) (s : State) : Host.Outcome State Fault Refusal :=
  act (optCommitTick part) s

/-- OPT_ROLLBACK (spec/08 R225): on all shards of the partition at step s, or on none; LOST clears. -/
def optRollback (part : BitVec 12) (step : BitVec 32) (d : Dev) (rp : Reply) : Dev :=
  let ss := partShards d part
  let at_ := ss.filter (fun e => e.2.step == step)
  if at_.any (fun e => e.2.bound.isSome) then optReject d rp 0x34 []
  else if at_.any (fun e => !e.2.rb) then optReject d rp 0x39 []
  else
    let d := ss.foldl (fun d e =>
      if e.2.step = step then
        setShard d e.1 { e.2 with step := step - 1, side := 1 - e.2.side, rb := false, lost := false }
      else setShard d e.1 { e.2 with lost := false }) d
    complete d rp 0 []

/-- OPT_ROLLBACK. -/
def execOptRollback (h : CmdHdr) (part : BitVec 12) (step : BitVec 32) (s : State) :
    Host.Outcome State Fault Refusal :=
  act (fun d => runCmd d h 0x34 .h [some part.toNat, some step.toNat] true (optRollback part step)) s

end Sys2Proof.Machine
end

