-- ==== Sys2Proof/Machine/Stitch.lean ====
section
/-! DEFINITION. Stitch: kernels, launches, groups and their divergence, scratchpad and windows, faults
(spec/08 R229–R238; spec/06 R142–R145). -/
namespace Sys2Proof.Machine

/-! ### Instruction words (spec/08 R232) -/

/-- OP. -/
def iOp (w : Nat) : Nat := bits w 63 56
/-- D. -/
def iD (w : Nat) : Nat := bits w 55 50
/-- A. -/
def iA (w : Nat) : Nat := bits w 49 44
/-- B. -/
def iB (w : Nat) : Nat := bits w 39 34
/-- C. -/
def iC (w : Nat) : Nat := bits w 33 28
/-- RM. -/
def iRM (w : Nat) : Nat := bits w 27 24
/-- TI. -/
def iTI (w : Nat) : Nat := bits w 22 19
/-- TO. -/
def iTO (w : Nat) : Nat := bits w 18 15
/-- CC. -/
def iCC (w : Nat) : Nat := bits w 14 12
/-- SZ. -/
def iSZ (w : Nat) : Nat := bits w 33 31
/-- OFF, signed bytes. -/
def iOFF (w : Nat) : Int := sx 31 w
/-- TGT, signed, from the branch's own index. -/
def iTGT (w : Nat) : Int := sx 20 (bits w 39 20)
/-- JOIN, signed, from the branch's own index. -/
def iJOIN (w : Nat) : Int := sx 20 w

/-- The opcodes of Table 08-8. -/
def opcodes : List Nat :=
  [0, 1, 2, 3, 4, 6, 0x10, 0x11, 0x12, 0x13, 0x14, 0x15, 0x16, 0x17, 0x18, 0x19, 0x1A, 0x1B, 0x1C,
   0x20, 0x21, 0x22, 0x23, 0x24, 0x25, 0x26, 0x27, 0x28, 0x29, 0x2A, 0x2B, 0x30, 0x31, 0x32, 0x33,
   0x34, 0x40, 0x41]

/-- A register, or a register pair. -/
def regPair (r : Nat) (pair : Bool) : List Nat := if pair then [r, r + 1] else [r]

/-- Registers that an instruction names. -/
def regsUsed (w : Nat) : List Nat :=
  let op := iOp w
  let wide := iSZ w == 3
  if op = 0x06 ∨ op = 0x1A then [iD w]
  else if (0x10 ≤ op ∧ op ≤ 0x18) ∨ op = 0x1B ∨ op = 0x20 ∨ op = 0x21 ∨ op = 0x23 ∨ op = 0x24 then [iD w, iA w, iB w]
  else if op = 0x19 ∨ op = 0x25 then [iA w, iB w]
  else if op = 0x1C then [iD w, iD w + 1, iA w, iA w + 1, iB w, iB w + 1]
  else if op = 0x22 then [iD w, iA w, iB w, iC w]
  else if op = 0x26 then regPair (iD w) (iTO w == 6) ++ regPair (iA w) (iTI w == 6)
  else if 0x27 ≤ op ∧ op ≤ 0x2B then [iD w, iA w]
  else if op = 0x30 ∨ op = 0x32 then iA w :: regPair (iD w) wide
  else if op = 0x31 ∨ op = 0x33 then iA w :: regPair (iB w) wide
  else if op = 0x34 then iA w :: (regPair (iB w) wide ++ regPair (iD w) wide)
  else if op = 0x40 then
    [iA w, iB w, iC w] ++ (if isMx (bits w 23 20) || isMx (bits w 19 16) then [iD w, iD w + 1] else [])
  else []

/-- The rate class of a matrix operand (spec/06 R143); 0: not a matrix operand. -/
def rateClass (t : Nat) : Nat :=
  match t with
  | 1 => 1
  | 2 => 2
  | 3 | 4 | 8 | 9 | 0xA | 0xB => 3
  | 0xC => 4
  | _ => 0

/-- A type code of Table 06-3. -/
def typeOk (t : Nat) : Bool := decide (t ≤ 6) || isMx t

/-- Does R229 refuse an instruction at an index of a kernel of `len` instructions? -/
def instrBad (regs len idx w : Nat) : Bool :=
  let op := iOp w
  let inside (o : Int) : Bool := decide (0 ≤ (idx : Int) + o) && decide ((idx : Int) + o < len)
  !opcodes.contains op || (regsUsed w).any (fun r => decide (regs ≤ r)) ||
  (if op = 0x02 then !inside (iTGT w) || !inside (iJOIN w)
   else if op = 0x06 then decide (bits w 39 32 ≠ 0) || decide (14 < bits w 31 0)
   else if op = 0x1A then decide (bits w 39 32 ≠ 0)
   else if 0x30 ≤ op ∧ op ≤ 0x34 then decide (3 < iSZ w)
   else if op = 0x40 then
     decide (bits w 8 0 ≠ 0) || decide (5 < bits w 27 24) || decide (1 < bits w 12 9) ||
     decide (rateClass (bits w 23 20) = 0) || decide (rateClass (bits w 23 20) ≠ rateClass (bits w 19 16))
   else
     decide (bits w 11 0 ≠ 0) || decide (2 < iRM w) || (decide (iRM w = 2) && decide (op ≠ 0x26)) ||
     (decide (op = 0x26) && !(typeOk (iTI w) && typeOk (iTO w))) ||
     ((decide (op = 0x19) || decide (op = 0x25)) && decide (iCC w = 7)))

/-- The first instruction that R229 refuses. -/
def firstBad (regs len : Nat) : Nat → List Nat → Option Nat
  | _, [] => none
  | i, w :: r => if instrBad regs len i w then some i else firstBad regs len (i + 1) r

/-! ### KERNEL_LOAD (spec/08 R229) -/

/-- A segment or a launch uses a kernel. -/
def kernelBusy (d : Dev) (k : Nat) : Bool :=
  d.opt.shards.any (fun e => e.2.segs.any (fun g => g.prog == 15 && g.kernel == k)) ||
  d.opt.launches.any (fun l => l.kernel == k)

/-- KERNEL_LOAD. -/
def kernelLoad (k regs spad slots len : Nat) (code : DmaRead) (d : Dev) (rp : Reply) : Dev :=
  if kernelBusy d k then optReject d rp 0x3C []
  else match dmaGet d code with
    | (none, d) => refuseDma d rp
    | (some b, d) =>
      let n := len / 8
      let ws := elemsOf 8 b n
      if len % 8 ≠ 0 ∨ n = 0 ∨ 8192 < n ∨ regs < 8 ∨ 64 < regs ∨ regs % 8 ≠ 0 ∨ spad % 256 ≠ 0 then
        optReject d rp 0x35 (packFields [(13, 0)])
      else match firstBad regs n 0 ws with
        | some i => optReject d rp 0x35 (packFields [(13, i)])
        | none =>
          let d0 := { d with opt := { d.opt with kernels := tdel d.opt.kernels k } }
          match optFit d0 (alignUp (8 * n) 256) with
          | none => optReject d rp 0x22 []
          | some a =>
            let d := memPut { d with opt := { d.opt with
              kernels := tset d.opt.kernels k ⟨regs, spad, slots, ws.map (BitVec.ofNat 64), a⟩ } } a (bytesOf 8 ws)
            complete d rp 0 []

/-- KERNEL_LOAD. -/
def execKernelLoad (h : CmdHdr) (k : BitVec 8) (regs : BitVec 8) (spad : BitVec 32) (slots : BitVec 2)
    (len : BitVec 32) (code : DmaRead) (s : State) : Host.Outcome State Fault Refusal :=
  act (fun d => runCmd d h 0x38 .h [some k.toNat, none, some len.toNat, some regs.toNat, some spad.toNat, some slots.toNat] true
    (fun d rp => withFlaws h.flaws (fun d => kernelLoad k.toNat regs.toNat spad.toNat slots.toNat len.toNat code d rp) d)) s

/-! ### Residency (spec/08 R230) -/

/-- S of a core: what its Bobbins and the built-in programs leave to kernels. -/
def spadS (d : Dev) (q : Nat) : Nat :=
  let n := bobSlots d (q / 8)
  if 224 < n then 0 else 2 ^ 22 - n * 16384 - 2 ^ 19

/-- Groups of a kernel that a core holds at most. -/
def residency (d : Dev) (q : Nat) (k : Kernel) : Nat :=
  if 224 < bobSlots d (q / 8) then 0
  else
    let r := natMin 32 (65536 / (64 * k.regs))
    if k.spad = 0 then r else natMin r (spadS d q / k.spad)

/-- Groups of a grid. -/
def gridGroups (x : Grid) : Nat := (x.g + 63) / 64

/-- Groups that fall to the i-th of `n` cores. -/
def groupsOn (total n i : Nat) : Nat := (total + n - 1 - i) / n

/-- The groups resident on a core, of every launch: window address and bytes of scratchpad, registers. -/
def residents (d : Dev) (q : Nat) : List (Nat × Nat × Nat) :=
  d.opt.launches.flatMap (fun l =>
    let k := (tget? d.opt.kernels l.kernel).getD ⟨8, 0, 0, [], 0⟩
    (l.groups.filter (fun x => x.core == q)).map (fun x => (x.res, k.spad, 64 * k.regs)))

/-- A group as it starts: threads numbered G or above are inactive. -/
def newGrp (g q res total now : Nat) : Grp :=
  let live := natMin 64 (total - 64 * g)
  let m : BitVec 64 := BitVec.ofNat 64 (2 ^ live - 1)
  { g := g, core := q, born := now, res := res, pc := 0, mask := m, ended := ~~~m, stack := [], regs := [], preds := [],
    srCnt := [], bar := false, memWait := 0, mma := [] }

/-- Replace a launch. -/
def setGrid (d : Dev) (x : Grid) : Dev :=
  { d with opt := { d.opt with launches := d.opt.launches.map (fun l => if l.id = x.id then x else l) } }

/-- Find a launch. -/
def findGrid (d : Dev) (l : Nat) : Option Grid := d.opt.launches.find? (fun x => x.id == l)

/-- Start the next group of a launch on its i-th core, as far as residency allows; `n` attempts. -/
def fillCore (l i : Nat) : Nat → Dev → Dev
  | 0, d => d
  | n + 1, d =>
    match findGrid d l with
    | none => d
    | some x =>
      match tget? d.opt.kernels x.kernel with
      | none => d
      | some k =>
        let q := x.cores.getD i 0
        let st := x.started.getD i 0
        let mine := (x.groups.filter (fun y => y.core == q)).length
        let rs := residents d q
        let regsHeld := rs.foldl (fun a r => a + r.2.2) 0
        let g := st * x.cores.length + i
        if st < groupsOn (gridGroups x) x.cores.length i ∧ mine < residency d q k ∧ rs.length < 32 ∧
            regsHeld + 64 * k.regs ≤ 65536 then
          match fitAt 0 (spadS d q) k.spad (rs.map (fun r => (r.1, r.2.1))) with
          | none => d
          | some a =>
            fillCore l i n (setGrid d { x with started := lset x.started i (st + 1),
                                               groups := x.groups ++ [newGrp g q a x.g d.now] })
        else d

/-- Start groups on every core of a launch. -/
def fillGrid (d : Dev) (l : Nat) : Dev :=
  match findGrid d l with
  | none => d
  | some x => (List.range x.cores.length).foldl (fun d i => fillCore l i 32 d) d

/-- Residency has become free: the waiting groups of every launch start as far as they fit, launches in their order
(spec/08 R230). -/
def fillAll (d : Dev) : Dev := (d.opt.launches.map (·.id)).foldl fillGrid d

/-- Begin a launch, whose events a die counts; its cores leave PATROL.  `rep`, `held`: as the launch holds them. -/
def launchGrid (d : Dev) (k g : Nat) (cores : List Nat) (seed : BitVec 32) (wins : List MemWin) (limit : Nat)
    (why : GridFor) (die : Nat) (rep : Bool := false) (held : Option (Tab Byte) := none) : Dev :=
  let id := d.opt.nextLaunch
  let x : Grid := { id := id, kernel := k, g := g, cores := cores, srSeed := seed, wins := wins, limitUs := limit,
                    at_ := d.now, why := why, die := die, started := List.replicate cores.length 0, done := 0, groups := [], rep := rep, held := held }
  fillGrid (cores.foldl yieldName
    { d with opt := { d.opt with launches := d.opt.launches ++ [x], nextLaunch := id + 1 } }) id

/-- The core names set in PLACE that are in SERVICE or in PATROL, ascending (log entry 67). -/
def placed (d : Dev) (place : Nat) : List Nat :=
  (maskList 64 place).filter (fun q => nameUp d q || coreStateAt d (q / 8) (physOf d (q / 8) (q % 8)) == 2)

/-- Does a kernel use BAR? -/
def usesBar (k : Kernel) : Bool := k.code.any (fun w => iOp w.toNat == 3)

/-- Die of the first core in PLACE. -/
def placeDie (place : Nat) : Nat := ((maskList 64 place).head?.getD 0) / 16

/-- STITCH_LAUNCH (spec/08 R228, R230). -/
def stitchLaunch (p : LaunchParams) (d : Dev) (rp : Reply) : Dev :=
  let die := placeDie p.place.toNat
  let rej (st : Nat) : Dev := complete (raise d (srcOpt die 0) 3) rp st []
  match tget? d.opt.kernels p.k.toNat with
  | none => rej 0x3D
  | some k =>
    let cs := placed d p.place.toNat
    let g := p.g.toNat
    let total := (g + 63) / 64
    if g = 0 ∨ 2 ^ 26 < g ∨ cs = [] then rej 0x09
    else if cs.any (fun q => residency d q k == 0) then rej 0x3E
    else if usesBar k ∧ (List.range cs.length).any (fun i =>
        decide (residency d (cs.getD i 0) k < groupsOn total cs.length i)) then rej 0x3E
    else
      let limit := if p.limitUs = 0 then natMax 1 (rdf d .optCtl [] 19 0) else p.limitUs.toNat
      cnt1 (launchGrid d p.k.toNat g cs p.srSeed p.wins limit (.host rp) die) (srcOpt die 0) 11

/-- The parameter block of STITCH_LAUNCH (spec/08 Table 08-6, spec/14 R354). -/
def launchBlock (b : List Byte) : Option LaunchParams :=
  (unpackBlock [8, 32, 64, 32, 64, 40, 40, 40, 40, 40, 40, 40, 40, 32] b).map (fun v =>
    let f := fun i => v.getD i 0
    ⟨BitVec.ofNat 8 (f 0), BitVec.ofNat 32 (f 1), BitVec.ofNat 64 (f 2), BitVec.ofNat 32 (f 3), BitVec.ofNat 64 (f 4),
      (List.range 4).map (fun i => ⟨BitVec.ofNat 40 (f (5 + 2 * i)), BitVec.ofNat 40 (f (6 + 2 * i))⟩), BitVec.ofNat 32 (f 13)⟩)

/-- STITCH_LAUNCH. -/
def execStitchLaunch (h : CmdHdr) (c : DmaRead) (s : State) : Host.Outcome State Fault Refusal :=
  act (fun d => runCmd d h 0x39 .h [] true (withBlock launchBlock c stitchLaunch)) s

/-! ### Segment programs -/

/-- What a segment program sees of its chunk (spec/08 R234–R236). -/
structure SegInfo where
  slot : Nat
  ctx : Ctx
  sh : Nat
  shard : Shard
  k : Nat
  seg : Seg
  chunk : Nat
  first : Nat
  count : Nat
  /-- First bytes of the chunk's Bobbins, of gr and of the copy of the hyperparameter set. -/
  bobs : List Nat
  gr : Nat
  hp : Nat

/-- Bobbins of one chunk (spec/06 R146). -/
def bobbins (p : CollParams) (mirror : Bool) : Nat :=
  let b := if mirror then 4 else accBytes p.op.toNat p.mode.toNat p.itype.toNat
  (b * p.chunkElems.toNat + 16383) / 16384

/-- First bytes of the Bobbins of a chunk, 16 KiB each (spec/06 R145, R146). -/
def bobList (d : Dev) (c : Ctx) (chunk : Nat) : List Nat :=
  let n := natMax 1 c.cores.length
  let b := natMax 1 (bobbins c.p (rubRole d c 1))
  let w := natMax 1 ((c.p.window.toNat + n - 1) / n)
  (((c.bob.getD (chunk % n) []).drop (chunk / n % w * b)).take b).map (fun i => 2 ^ 22 - (i + 1) * 16384)

/-- Scratchpad address of a chunk's accumulators: the lowest of its Bobbins. -/
def bobAddr (d : Dev) (c : Ctx) (chunk : Nat) : Nat := (bobList d c chunk).foldl natMin (2 ^ 22 - 16384)

/-- The chunk behind a launch. -/
def segInfo (d : Dev) (x : Grid) : Option SegInfo :=
  match x.why with
  | .host _ => none
  | .seg slot chunk _ =>
    match ctxOf d slot with
    | none => none
    | some c =>
      let sh := c.p.shard.toNat
      match shardOf d sh with
      | none => none
      | some s =>
        let first := chunk % natMax 1 (roundN c.p) * c.p.chunkElems.toNat
        match segAt s.segs first with
        | none => none
        | some (k, g) =>
          let q := x.cores.headD (coreOf c chunk)
          some { slot := slot, ctx := c, sh := sh, shard := s, k := k, seg := g, chunk := chunk, first := first,
                 count := expected c.p chunk, bobs := bobList d c chunk, gr := bobAddr d c chunk,
                 hp := 2 ^ 22 - bobSlots d (q / 8) * 16384 - 2 ^ 19 + 64 * (x.id % 8192) }

/-- SVAL of a lane (spec/08 R234). -/
def sval (x : Grid) (y : Grp) (i : Option SegInfo) (lane n : Nat) : Nat :=
  match n with
  | 0 => 64 * y.g + lane
  | 1 => y.g
  | 2 => lane
  | 3 => x.g
  | 4 => y.core
  | _ =>
    match i with
    | none => 0
    | some i =>
      match n with
      | 5 => (i.shard.step + 1).toNat
      | 6 => i.chunk
      | 7 => i.first % 2 ^ 32
      | 8 => i.first / 2 ^ 32
      | 9 => i.count
      | 10 => i.seg.slots
      | 11 => i.k
      | 12 => i.gr
      | 13 => i.hp
      | 14 => i.seg.prog
      | _ => 0

/-! ### Scratchpad -/

/-- Bytes of a core's scratchpad. -/
def spadRd (d : Dev) (q a n : Nat) : List Byte := tread d.opt.spad 0 (q * 2 ^ 22 + a) n

/-- Write bytes of a core's scratchpad. -/
def spadWr (d : Dev) (q a : Nat) (bs : List Byte) : Dev :=
  { d with opt := { d.opt with spad := twrite 0 d.opt.spad (q * 2 ^ 22 + a) bs } }

/-- Where a kernel's scratchpad access lands (spec/08 R235): its window, the chunk's Bobbins, or the copy
of the hyperparameter set, which it only reads. -/
def spadAt (k : Kernel) (y : Grp) (i : Option SegInfo) (wr : Bool) (a n : Nat) : Option Nat :=
  if a + n ≤ k.spad then some (y.res + a)
  else match i with
    | none => none
    | some i =>
      if (i.gr ≤ a ∧ a + n ≤ i.gr + 4 * i.count) ∨ i.bobs.any (fun b => decide (b ≤ a) && decide (a + n ≤ b + 16384)) then
        some a
      else if !wr ∧ i.hp ≤ a ∧ a + n ≤ i.hp + 64 then some a
      else none

/-! ### Groups -/

/-- Store a group of a launch. -/
def setGrp (d : Dev) (l : Nat) (y : Grp) : Dev :=
  match findGrid d l with
  | none => d
  | some x => setGrid d { x with groups := x.groups.map (fun z => if z.g = y.g then y else z) }

/-- Register `r` of a lane. -/
def rg (y : Grp) (lane r : Nat) : Nat := (tgetD y.regs (lane * 64 + r) 0).toNat

/-- Write register `r` of a lane. -/
def setRg (y : Grp) (lane r v : Nat) : Grp :=
  { y with regs := tput 0 y.regs (lane * 64 + r) (w32 v) }

/-- A register pair of a lane, low word first. -/
def rg2 (y : Grp) (lane r : Nat) : Nat := rg y lane r + 2 ^ 32 * rg y lane (r + 1)

/-- Write a register pair of a lane. -/
def setRg2 (y : Grp) (lane r v : Nat) : Grp := setRg (setRg y lane r (v % 2 ^ 32)) lane (r + 1) (v / 2 ^ 32)

/-- The guard of an instruction in a lane: predicate PI, 7 always, negated by PN. -/
def guardOf (y : Grp) (w lane : Nat) : Bool :=
  let p := bits w 42 40
  (if p = 7 then true else tgetD y.preds (lane * 8 + p) false) != bit w 43

/-- Active lanes. -/
def active (y : Grp) : List Nat := (List.range 64).filter (fun i => y.mask.getLsbD i)

/-- Active lanes in which the guard holds. -/
def onLanes (y : Grp) (w : Nat) : List Nat := (active y).filter (guardOf y w)

/-- A mask of lanes. -/
def laneMask (ls : List Nat) : BitVec 64 := BitVec.ofNat 64 (ls.foldl (fun a i => setBit a i) 0)

/-- Leave paths that have reached their JOIN or have no thread left (spec/08 R231). -/
def settle : Nat → Grp → Grp
  | 0, y => y
  | n + 1, y =>
    match y.stack with
    | [] => y
    | e :: r =>
      if y.mask = 0 ∨ y.pc = e.join.getD e.pc then
        settle n { y with pc := e.pc, mask := e.mask &&& ~~~y.ended, stack := r }
      else y

/-- Move a group to an instruction; a group with no thread left ends and what it held is filled. -/
def goto (d : Dev) (l : Nat) (y : Grp) (pc : Nat) : Dev :=
  let y := settle (y.stack.length + 1) { y with pc := pc }
  if y.mask = 0 then
    match findGrid d l with
    | none => d
    | some x =>
      fillAll (setGrid d { x with groups := x.groups.filter (fun z => z.g != y.g), done := x.done + 1 })
  else setGrp d l y

/-- Registers of a group that an access still has to write. -/
def regWaits (d : Dev) (l g : Nat) : List Nat :=
  ((allReqs d).map (·.r.src) ++ (allResps d).map (·.r.src)).filterMap (fun s => match s with
    | .thread l' g' _ r pos _ _ => if l' = l ∧ g' = g then some (if 4 ≤ pos then r + 1 else r) else none
    | _ => none)

/-- Is a group ready for the instruction at which it stands: it waits at no barrier, for no answer that a FENCE awaits, for
no matrix instruction that an MWAIT awaits, and for no register? -/
def readyAt (d : Dev) (l : Nat) (y : Grp) (w : Nat) : Bool :=
  !y.bar && !(iOp w == 4 && y.memWait != 0) && !(iOp w == 0x41 && !y.mma.isEmpty) &&
    !(regsUsed w).any (regWaits d l y.g).contains

/-- Is a group ready? -/
def ready (d : Dev) (x : Grid) (y : Grp) : Bool :=
  match (tget? d.opt.kernels x.kernel).bind (fun k => k.code[y.pc]?) with
  | some w => readyAt d x.id y w.toNat
  | none => false

/-- Is a launch a segment program? -/
def isSeg (x : Grid) : Bool := match x.why with | .seg _ _ _ => true | .host _ => false

/-- Place of a group in the issue order of its engine, lower first: segment programs ahead of standalone ones, then the
oldest (spec/08 R231; those of one TIME cycle by launch and group). -/
def issueKey (x : Grid) (y : Grp) : List Nat := [b2n (!x.rep) + b2n (!isSeg x), y.born, x.id, y.g]

/-- Does its engine issue from a group: of the ready groups of its core on the same engine, V0 for even and V1 for odd
groups, fewer than two go first (R231)? -/
def issues (d : Dev) (x : Grid) (y : Grp) : Bool :=
  decide ((d.opt.launches.flatMap (fun z => z.groups.filter (fun u =>
    u.core == y.core && u.g % 2 == y.g % 2 && decide (issueKey z u < issueKey x y) && ready d z u))).length < 2)

/-- Run the instruction at which a group stands, if it has a given opcode, the group does not wait at a
barrier, no register that it names waits for memory, its engine issues from it, and its core is ON. -/
def onInstr (op l g : Nat) (f : Dev → Grid → Kernel → Grp → Nat → Dev) (d : Dev) : Dev :=
  match findGrid d l with
  | none => d
  | some x =>
    match tget? d.opt.kernels x.kernel, x.groups.find? (fun y => y.g == g) with
    | some k, some y =>
      match k.code[y.pc]? with
      | none => d
      | some w =>
        let w := w.toNat
        if iOp w ≠ op ∨ y.bar ∨ (regsUsed w).any (regWaits d l g).contains ∨ issues d x y = false ∨
            nameOn d y.core = false then d
        else f d x k y w
    | _, _ => d

/-! ### Faults (spec/08 R238) -/

/-- A kernel faults: its launch stops; a segment program's context aborts with reason MEMORY. -/
def stitchFault (d : Dev) (l cause g idx : Nat) : Dev :=
  match findGrid d l with
  | none => d
  | some x =>
    let d := { d with opt := { d.opt with launches := d.opt.launches.filter (fun y => y.id != l) } }
    let d := fillAll (raise d (srcOpt x.die 0) 2)
    match x.why with
    | .host rp => complete d rp 3 (packFields [(8, cause), (32, g), (13, idx)])
    | .seg slot chunk _ => abortCtx d slot 9 noRank chunk

/-! ### Instruction rows with a value for each lane -/

/-- Write D in every lane in which the guard holds; `f` has the lane's free value first. -/
def aluRow (op l g : Nat) (f : Nat → Grid → Grp → Option SegInfo → Nat → Nat → Nat) (d : Dev) : Dev :=
  onInstr op l g (fun d x _ y w =>
    let i := segInfo d x
    let y' := (onLanes y w).foldl (fun z lane =>
      setRg z lane (iD w) (f (Config.freeWord (d.draw + lane)).toNat x y i w lane)) y
    goto { d with draw := d.draw + 64 } l y' (y.pc + 1)) d

/-- A two-operand row. -/
def binRow (op l g : Nat) (f : Nat → Nat → Nat → Nat) : Dev → Dev :=
  aluRow op l g (fun fr _ y _ w lane => f fr (rg y lane (iA w)) (rg y lane (iB w)))

/-- A one-operand row of the quarter-rate functions. -/
def unRow (op l g : Nat) (f : Nat → Nat) : Dev → Dev :=
  aluRow op l g (fun _ _ y _ w lane => f (rg y lane (iA w)))

/-- Rounding of an arithmetic instruction by its RM. -/
def rmOf (w : Nat) : Rm := if iRM w = 1 then .rtz else .rne

/-- An fp32 row: the exact result, rounded once by RM. -/
def fpRow (op l g : Nat) (f : Fv → Fv → Fv → Fv) : Dev → Dev :=
  aluRow op l g (fun _ _ y _ w lane =>
    fenc f32 (rmOf w) false (f (d32 (rg y lane (iA w))) (d32 (rg y lane (iB w))) (d32 (rg y lane (iC w)))))

/-- Does a comparison hold: less, equal, unordered against CC? -/
def ccHolds (cc : Nat) (lt eq un : Bool) : Bool :=
  match cc with
  | 0 => eq
  | 1 => !eq
  | 2 => lt
  | 3 => lt || eq
  | 4 => !lt && !eq && !un
  | 5 => !lt && !un
  | _ => un

/-- A compare row writes the predicate D[2:0]; there is no p7. -/
def cmpRow (op l g : Nat) (f : Nat → Nat → Nat → Bool) (d : Dev) : Dev :=
  onInstr op l g (fun d _ _ y w =>
    let p := iD w % 8
    let y' := if p = 7 then y else { y with preds := (onLanes y w).foldl (fun t lane =>
      tput false t (lane * 8 + p) (f (iCC w) (rg y lane (iA w)) (rg y lane (iB w)))) y.preds }
    goto d l y' (y.pc + 1)) d

/-- STITCH_NOP. -/
def execStitchNop (l : Nat) (g : Nat) (s : State) : Host.Outcome State Fault Refusal :=
  act (onInstr 0x00 l g (fun d _ _ y _ => goto d l y (y.pc + 1))) s

/-- EXIT: the threads in which the guard holds end. -/
def execExit (l : Nat) (g : Nat) (s : State) : Host.Outcome State Fault Refusal :=
  act (onInstr 0x01 l g (fun d _ _ y w =>
    let m := laneMask (onLanes y w)
    goto d l { y with mask := y.mask &&& ~~~m, ended := y.ended ||| m } (y.pc + 1))) s

/-- BRA: where threads differ, the group runs both paths, the one that does not branch first, and
reconverges at JOIN (spec/08 R231). -/
def execBra (l : Nat) (g : Nat) (s : State) : Host.Outcome State Fault Refusal :=
  act (onInstr 0x02 l g (fun d _ _ y w =>
    let t := laneMask (onLanes y w)
    let n := y.mask &&& ~~~t
    let tgt := ((y.pc : Int) + iTGT w).toNat
    let join := ((y.pc : Int) + iJOIN w).toNat
    if t = 0 then goto d l y (y.pc + 1)
    else if n = 0 then goto d l y tgt
    else goto d l { y with mask := n, stack := ⟨t, tgt, some join⟩ :: ⟨y.mask, join, none⟩ :: y.stack } (y.pc + 1))) s

/-- BAR: the group waits. -/
def execBar (l : Nat) (g : Nat) (s : State) : Host.Outcome State Fault Refusal :=
  act (onInstr 0x03 l g (fun d _ _ y w =>
    if onLanes y w = [] then goto d l y (y.pc + 1) else setGrp d l { y with bar := true })) s

/-- BAR_RELEASE: every group of the launch on the core has started and waits, or has ended. -/
def barRelease (l core : Nat) (d : Dev) : Dev :=
  match findGrid d l with
  | none => d
  | some x =>
    let mine := x.groups.filter (fun y => coreNo y.core == core)
    let i := x.cores.findIdx (fun q => coreNo q == core)
    if mine ≠ [] ∧ mine.all (·.bar) ∧ groupsOn (gridGroups x) x.cores.length i ≤ x.started.getD i 0 then
      mine.foldl (fun d y => goto d l { y with bar := false } (y.pc + 1)) d
    else d

/-- BAR_RELEASE. -/
def execBarRelease (l : Nat) (core : Fin 72) (s : State) : Host.Outcome State Fault Refusal :=
  act (barRelease l core) s

/-- FENCE: waits until every earlier access of the group has been answered (spec/09 R248). -/
def execFence (l : Nat) (g : Nat) (s : State) : Host.Outcome State Fault Refusal :=
  act (onInstr 0x04 l g (fun d _ _ y _ => if y.memWait = 0 then goto d l y (y.pc + 1) else d)) s

/-- SVAL. -/
def execSval (l : Nat) (g : Nat) (s : State) : Host.Outcome State Fault Refusal :=
  act (aluRow 0x06 l g (fun _ x y i w lane => sval x y i lane (bits w 7 0))) s

/-- IADD. -/
def execIadd (l : Nat) (g : Nat) (s : State) : Host.Outcome State Fault Refusal :=
  act (binRow 0x10 l g (fun _ a b => (a + b) % 2 ^ 32)) s
/-- ISUB. -/
def execIsub (l : Nat) (g : Nat) (s : State) : Host.Outcome State Fault Refusal :=
  act (binRow 0x11 l g (fun _ a b => (a + 2 ^ 32 - b) % 2 ^ 32)) s
/-- IMUL: the low 32 bits. -/
def execImul (l : Nat) (g : Nat) (s : State) : Host.Outcome State Fault Refusal :=
  act (binRow 0x12 l g (fun _ a b => a * b % 2 ^ 32)) s
/-- AND. -/
def execAnd (l : Nat) (g : Nat) (s : State) : Host.Outcome State Fault Refusal :=
  act (binRow 0x13 l g (fun _ a b => a &&& b)) s
/-- OR. -/
def execOr (l : Nat) (g : Nat) (s : State) : Host.Outcome State Fault Refusal :=
  act (binRow 0x14 l g (fun _ a b => a ||| b)) s
/-- XOR. -/
def execXor (l : Nat) (g : Nat) (s : State) : Host.Outcome State Fault Refusal :=
  act (binRow 0x15 l g (fun _ a b => a ^^^ b)) s
/-- SHL; a count of 32 or more leaves the result open (log entry 47). -/
def execShl (l : Nat) (g : Nat) (s : State) : Host.Outcome State Fault Refusal :=
  act (binRow 0x16 l g (fun fr a b => if b < 32 then a * 2 ^ b % 2 ^ 32 else fr)) s
/-- SHR. -/
def execShr (l : Nat) (g : Nat) (s : State) : Host.Outcome State Fault Refusal :=
  act (binRow 0x17 l g (fun fr a b => if b < 32 then a / 2 ^ b else fr)) s
/-- SAR. -/
def execSar (l : Nat) (g : Nat) (s : State) : Host.Outcome State Fault Refusal :=
  act (binRow 0x18 l g (fun fr a b => if b < 32 then ofInt 32 (sx 32 a / (2 ^ b : Nat)) else fr)) s
/-- ICMP, signed. -/
def execIcmp (l : Nat) (g : Nat) (s : State) : Host.Outcome State Fault Refusal :=
  act (cmpRow 0x19 l g (fun cc a b => ccHolds cc (decide (sx 32 a < sx 32 b)) (a == b) false)) s
/-- MOVI. -/
def execMovi (l : Nat) (g : Nat) (s : State) : Host.Outcome State Fault Refusal :=
  act (aluRow 0x1A l g (fun _ _ _ _ w _ => bits w 31 0)) s
/-- SEL: every active lane; the guard chooses. -/
def execSel (l : Nat) (g : Nat) (s : State) : Host.Outcome State Fault Refusal :=
  act (onInstr 0x1B l g (fun d _ _ y w =>
    goto d l ((active y).foldl (fun z lane =>
      setRg z lane (iD w) (if guardOf y w lane then rg y lane (iA w) else rg y lane (iB w))) y) (y.pc + 1))) s
/-- IADD64 on register pairs. -/
def execIadd64 (l : Nat) (g : Nat) (s : State) : Host.Outcome State Fault Refusal :=
  act (onInstr 0x1C l g (fun d _ _ y w =>
    goto d l ((onLanes y w).foldl (fun z lane =>
      setRg2 z lane (iD w) ((rg2 y lane (iA w) + rg2 y lane (iB w)) % 2 ^ 64)) y) (y.pc + 1))) s
/-- FADD. -/
def execFadd (l : Nat) (g : Nat) (s : State) : Host.Outcome State Fault Refusal :=
  act (fpRow 0x20 l g (fun a b _ => fvAdd a b)) s
/-- FMUL. -/
def execFmul (l : Nat) (g : Nat) (s : State) : Host.Outcome State Fault Refusal :=
  act (fpRow 0x21 l g (fun a b _ => fvMul a b)) s
/-- FFMA. -/
def execFfma (l : Nat) (g : Nat) (s : State) : Host.Outcome State Fault Refusal :=
  act (fpRow 0x22 l g (fun a b c => fvAdd (fvMul a b) c)) s
/-- FMAX. -/
def execFmax (l : Nat) (g : Nat) (s : State) : Host.Outcome State Fault Refusal :=
  act (binRow 0x23 l g (fun _ a b => fmaxmin f32 true a b)) s
/-- FMIN. -/
def execFmin (l : Nat) (g : Nat) (s : State) : Host.Outcome State Fault Refusal :=
  act (binRow 0x24 l g (fun _ a b => fmaxmin f32 false a b)) s
/-- FCMP. -/
def execFcmp (l : Nat) (g : Nat) (s : State) : Host.Outcome State Fault Refusal :=
  act (cmpRow 0x25 l g (fun cc a b =>
    let un := d32 a == .nan || d32 b == .nan
    let c := fvCmp (d32 a) (d32 b)
    ccHolds cc (!un && decide (c < 0)) (!un && decide (c = 0)) un)) s
/-- RCP. -/
def execRcp (l : Nat) (g : Nat) (s : State) : Host.Outcome State Fault Refusal :=
  act (unRow 0x27 l g frcp) s
/-- RSQRT. -/
def execRsqrt (l : Nat) (g : Nat) (s : State) : Host.Outcome State Fault Refusal :=
  act (unRow 0x28 l g frsqrt) s
/-- SQRT. -/
def execSqrt (l : Nat) (g : Nat) (s : State) : Host.Outcome State Fault Refusal :=
  act (unRow 0x29 l g fsqrt) s
/-- EXP2. -/
def execExp2 (l : Nat) (g : Nat) (s : State) : Host.Outcome State Fault Refusal :=
  act (unRow 0x2A l g fexp2) s
/-- LOG2. -/
def execLog2 (l : Nat) (g : Nat) (s : State) : Host.Outcome State Fault Refusal :=
  act (unRow 0x2B l g flog2) s

/-! ### CVT (spec/06 R148–R152, spec/08 R237) -/

/-- Value of an operand of CVT: an integer, a floating pattern, or an MX element with its scale in
bits [15:8] (log entry 48). -/
def cvtIn (t x : Nat) : Fv :=
  match t with
  | 5 => let v := sx 32 x; .num (decide (v < 0)) v.natAbs 0
  | 6 => let v := sx 64 x; .num (decide (v < 0)) v.natAbs 0
  | _ =>
    match fmtOf t with
    | none => .nan
    | some f =>
      let v := fdec f (x % 2 ^ typeBits t)
      if isMx t then
        let sc := bits x 15 8
        match v with
        | .num s m e => if sc = 255 then .nan else .num s m (e + sc - 127)
        | _ => .nan
      else v

/-- An integer result of `w` bits; a NaN, an infinity or a value outside leaves it open. -/
def toInt (w : Nat) (rm : Rm) (fr : Nat) (v : Fv) : Nat :=
  match v with
  | .num s m e =>
    let n : Nat :=
      if 0 ≤ e then m * 2 ^ e.toNat
      else
        let k := (-e).toNat
        let low := m % 2 ^ k
        let hi := m / 2 ^ k
        match rm with
        | .rtz => hi
        | .sr r => (m + r % 2 ^ k) / 2 ^ k
        | .rne => if 2 ^ (k - 1) < low then hi + 1 else if low = 2 ^ (k - 1) then hi + hi % 2 else hi
    let i : Int := if s then -(n : Int) else n
    if -((2 ^ (w - 1) : Nat) : Int) ≤ i ∧ i < (2 ^ (w - 1) : Nat) then ofInt w i else fr
  | _ => fr

/-- floor(log2 |v|) of a value that is neither zero nor special. -/
def fvLog (v : Fv) : Option Int :=
  match v with
  | .num _ m e => if m = 0 then none else some (e + bitLen m - 1)
  | _ => none

/-- The block scale of R149 for the values of a block; 255 where one is NaN or infinite, 0 for zeros. -/
def mxScale (t : Nat) (vs : List Fv) : Nat :=
  if vs.any (fun v => match v with | .num _ _ _ => false | _ => true) then 255
  else
    let emax : Int := match t with | 8 => 8 | 9 => 15 | 0xA => 4 | _ => 2
    match (vs.filterMap fvLog).max? with
    | none => 0
    | some e =>
      let x := e - emax + 127
      if x < 0 then 0 else if 254 < x then 254 else x.toNat

/-- An element of a block under its scale, with the scale in bits [15:8]. -/
def mxOut (t sc : Nat) (rm : Rm) (fr : Nat) (v : Fv) : Nat :=
  if sc = 255 then fr % 256 + 255 * 256
  else
    match v, fmtOf t with
    | .num s m e, some f => fround f rm true s m (e - (sc : Int) + 127) false + sc * 256
    | _, _ => fr % 256 + sc * 256

/-- r of a stochastic conversion (spec/08 R237). -/
def srBits (seed step idx cnt : Nat) : Nat :=
  crc32cFrom seed (beBytes 4 step ++ beBytes 5 idx ++ beBytes 3 (cnt % 2 ^ 24))

/-- CVT. -/
def cvt (l : Nat) (d : Dev) (x : Grid) (_k : Kernel) (y : Grp) (w : Nat) : Dev :=
  let i := segInfo d x
  let ls := onLanes y w
  let ti := iTI w
  let tt := iTO w
  let sat := bit w 23
  let inp (lane : Nat) : Fv := cvtIn ti (if ti = 6 then rg2 y lane (iA w) else rg y lane (iA w))
  let rm (lane : Nat) : Rm :=
    match iRM w with
    | 1 => .rtz
    | 2 =>
      let (seed, step, base) := match i with
        | some s => ((((s.shard.hs.getD s.seg.hset ⟨[], none⟩).cur.getD 15 0)).toNat, (s.shard.step + 1).toNat, s.first)
        | none => (x.srSeed.toNat, 0, 0)
      .sr (srBits seed step (base + 64 * y.g + lane) (tgetD y.srCnt lane 0))
    | _ => .rne
  let fr (lane : Nat) : Nat :=
    (Config.freeWord (d.draw + lane)).toNat + 2 ^ 32 * (Config.freeWord (d.draw + 64 + lane)).toNat
  let out (lane : Nat) : Nat :=
    let v := inp lane
    match tt with
    | 5 => toInt 32 (rm lane) (fr lane % 2 ^ 32) v
    | 6 => toInt 64 (rm lane) (fr lane) v
    | _ =>
      if isMx tt then
        mxOut tt (mxScale tt ((ls.filter (fun j => j / 32 == lane / 32)).map inp)) (rm lane) (fr lane) v
      else match fmtOf tt with
        | some f => fenc f (rm lane) (sat && (tt == 3 || tt == 4)) v
        | none => fr lane % 2 ^ 32
  let y1 := ls.foldl (fun z lane =>
    if tt = 6 then setRg2 z lane (iD w) (out lane) else setRg z lane (iD w) (out lane)) y
  let y2 := if iRM w = 2 then
      { y1 with srCnt := ls.foldl (fun t lane => tput 0 t lane ((tgetD t lane 0 + 1) % 2 ^ 24)) y1.srCnt }
    else y1
  goto { d with draw := d.draw + 128 } l y2 (y.pc + 1)

/-- CVT. -/
def execCvt (l : Nat) (g : Nat) (s : State) : Host.Outcome State Fault Refusal :=
  act (onInstr 0x26 l g (cvt l)) s

/-! ### Loads and stores -/

/-- Bytes of SZ. -/
def szBytes (w : Nat) : Nat := 2 ^ iSZ w

/-- Address of a scratchpad access of a lane. -/
def ldsAddr (y : Grp) (w lane : Nat) : Nat := ofInt 32 ((rg y lane (iA w) : Int) + iOFF w)

/-- A loaded value in D, or in the pair at D: bits that the access does not fill are left open. -/
def setLoaded (y : Grp) (w lane v fr : Nat) : Grp :=
  let n := szBytes w
  if n = 8 then setRg2 y lane (iD w) v
  else setRg y lane (iD w) (v + fr / 2 ^ (8 * n) * 2 ^ (8 * n))

/-- LDS. -/
def lds (l : Nat) (ecc : Ecc) (d : Dev) (x : Grid) (k : Kernel) (y : Grp) (w : Nat) : Dev :=
  let i := segInfo d x
  let ls := onLanes y w
  let n := szBytes w
  if ls.any (fun lane => (spadAt k y i false (ldsAddr y w lane) n).isNone) then stitchFault d l 1 y.g y.pc
  else
    let (ue, d) := if ls = [] then (false, d) else spadCheck d y.core ecc
    if ue then stitchFault d l 2 y.g y.pc
    else
      let y' := ls.foldl (fun z lane =>
        setLoaded z w lane
          (leVal (spadRd d y.core ((spadAt k y i false (ldsAddr y w lane) n).getD 0) n))
          (Config.freeWord (d.draw + lane)).toNat) y
      goto { d with draw := d.draw + 64 } l y' (y.pc + 1)

/-- LDS. -/
def execLds (l : Nat) (g : Nat) (ecc : Ecc) (s : State) : Host.Outcome State Fault Refusal :=
  act (onInstr 0x30 l g (lds l ecc)) s

/-- The store data of a lane. -/
def storeData (y : Grp) (w lane : Nat) : List Byte :=
  leBytes (szBytes w) (if iSZ w = 3 then rg2 y lane (iB w) else rg y lane (iB w))

/-- STS: lanes in ascending order. -/
def sts (l : Nat) (d : Dev) (x : Grid) (k : Kernel) (y : Grp) (w : Nat) : Dev :=
  let i := segInfo d x
  let ls := onLanes y w
  let n := szBytes w
  if ls.any (fun lane => (spadAt k y i true (ldsAddr y w lane) n).isNone) then stitchFault d l 1 y.g y.pc
  else
    let d := ls.foldl (fun d lane =>
      spadWr d y.core ((spadAt k y i true (ldsAddr y w lane) n).getD 0) (storeData y w lane)) d
    goto d l y (y.pc + 1)

/-- STS. -/
def execSts (l : Nat) (g : Nat) (s : State) : Host.Outcome State Fault Refusal :=
  act (onInstr 0x31 l g (sts l)) s

/-- Where a stacked-memory access of a lane lands (spec/08 R235, R236; spec/09 R244); none: it faults.
`a`: the window or slot, the side bit, and the offset. -/
def winAt (x : Grid) (i : Option SegInfo) (wr : Bool) (win side : Nat) (off : Int) (n : Nat) : Option Nat :=
  if off < 0 then none
  else
    let o := off.toNat
    match i with
    | some s =>
      if win < s.seg.slots ∧ o + n ≤ 4 * s.count ∧ (!wr ∨ side = 1) then
        some (slotAddr s.shard (if side = 0 then s.shard.side else 1 - s.shard.side) s.k s.seg win s.first + o)
      else none
    | none =>
      match x.wins[win]? with
      | none => none
      | some m =>
        if o + n ≤ m.size.toNat ∧ m.base.toNat + o + n ≤ memEnd then some (m.base.toNat + o) else none

/-- Address of an LDG or STG of a lane. -/
def ldgAddr (x : Grid) (i : Option SegInfo) (wr : Bool) (y : Grp) (w lane : Nat) : Option Nat :=
  let a := rg y lane (iA w)
  match i with
  | some _ => winAt x i wr (bits a 31 30) (bits a 29 29) ((bits a 28 0 : Int) + iOFF w) (szBytes w)
  | none => winAt x i wr (bits a 31 30) 1 ((bits a 29 0 : Int) + iOFF w) (szBytes w)

/-- A read or write of `n` bytes at an address as requests: split at units, each from a 64-byte boundary on, 64 to 256
bytes long, with its bytes of the access (spec/09 R247). -/
def reqParts (a n : Nat) (src : Nat → Nat → Requester) (data : List Byte) : List MemReq :=
  (unitSplit 2 a n).map (fun p =>
    let lo := p.1 / 64 * 64
    ⟨src (p.1 - a) p.2, lo, alignUp (p.1 + p.2) 64 - lo, slice data (p.1 - a) (if data = [] then 0 else p.2), [p.1 - lo]⟩)

/-- LDG: one request for each lane, split at unit boundaries. -/
def ldg (l : Nat) (d : Dev) (x : Grid) (_k : Kernel) (y : Grp) (w : Nat) : Dev :=
  let i := segInfo d x
  let ls := onLanes y w
  if ls.any (fun lane => (ldgAddr x i false y w lane).isNone) then stitchFault d l 1 y.g y.pc
  else
    let reqs := ls.flatMap (fun lane => reqParts ((ldgAddr x i false y w lane).getD 0) (szBytes w)
      (fun pos n => .thread l y.g lane (iD w) pos n y.pc) [])
    let d := reqs.foldl (fun d r => issue d 0 r) d
    let y' := ls.foldl (fun z lane => setLoaded z w lane 0 (Config.freeWord (d.draw + lane)).toNat) y
    goto { d with draw := d.draw + 64 } l { y' with memWait := y'.memWait + reqs.length } (y.pc + 1)

/-- LDG. -/
def execLdg (l : Nat) (g : Nat) (s : State) : Host.Outcome State Fault Refusal :=
  act (onInstr 0x32 l g (ldg l)) s

/-- The first write of a segment program to the basted side clears RB (spec/08 R225). -/
def clearRb (d : Dev) (i : Option SegInfo) : Dev :=
  match i with
  | some s => setShard d s.sh { s.shard with rb := false }
  | none => d

/-- STG: one request for each lane, lanes in ascending order. -/
def stg (l : Nat) (d : Dev) (x : Grid) (_k : Kernel) (y : Grp) (w : Nat) : Dev :=
  let i := segInfo d x
  let ls := onLanes y w
  if ls.any (fun lane => (ldgAddr x i true y w lane).isNone) then stitchFault d l 1 y.g y.pc
  else
    let reqs := ls.flatMap (fun lane => reqParts ((ldgAddr x i true y w lane).getD 0) (szBytes w)
      (fun _ _ => .store l y.g y.pc) (storeData y w lane))
    let d := reqs.foldl (fun d r => issue d 1 r) (if ls = [] then d else clearRb d i)
    goto d l { y with memWait := y.memWait + reqs.length } (y.pc + 1)

/-- STG. -/
def execStg (l : Nat) (g : Nat) (s : State) : Host.Outcome State Fault Refusal :=
  act (onInstr 0x33 l g (stg l)) s

/-- One ATOM of a lane: its code, its address and its data. -/
structure Atom where
  lane : Nat
  code : Nat
  addr : Nat
  data : List Byte

/-- The ATOM of a lane, none where R254 or R235 faults it, or where its element is not naturally aligned (R247; log entry
113). -/
def atomOf (x : Grid) (i : Option SegInfo) (y : Grp) (w lane : Nat) : Option Atom :=
  let a := rg y lane (iA w)
  let code := bits a 31 28
  if 8 < code ∨ (redOp code).1 ≠ szBytes w then none
  else match winAt x i true (bits a 27 26) 1 ((bits a 25 0 : Int) + iOFF w) (redOp code).2.1 with
    | none => none
    | some p => if p % (redOp code).2.1 = 0 then some ⟨lane, code, p, storeData y w lane⟩ else none

/-- Does a request of a code name memory of an ATOM's element? -/
def touches (c : Nat) (r : MemReq) (z : Atom) : Bool :=
  (if r.offs = [] then [0] else r.offs).any (fun o =>
    decide (r.addr + o < z.addr + (redOp z.code).2.1) && decide (z.addr < r.addr + o + (redOp c).2.1))

/-- Merge a RED into the requests so far: into one of its code and unit, where neither it nor a later request names its
element yet, else a request of its own: threads that name one element act in lane order (spec/09 R254). -/
def mergeRed (src : Requester) (z : Atom) : List (Nat × MemReq) → List (Nat × MemReq)
  | [] => [(z.code, ⟨src, z.addr / 256 * 256, 256, z.data, [z.addr % 256]⟩)]
  | (c, r) :: rest =>
    if c = z.code ∧ r.addr = z.addr / 256 * 256 ∧ !((c, r) :: rest).any (fun x => touches x.1 x.2 z) then
      (c, { r with data := r.data ++ z.data, offs := r.offs ++ [z.addr % 256] }) :: rest
    else (c, r) :: mergeRed src z rest

/-- ATOM: REDs of one unit merge; each ADD goes alone and returns the old value to D. -/
def atom (l : Nat) (d : Dev) (x : Grid) (_k : Kernel) (y : Grp) (w : Nat) : Dev :=
  let i := segInfo d x
  let ls := onLanes y w
  if ls.any (fun lane => (atomOf x i y w lane).isNone) then stitchFault d l 1 y.g y.pc
  else
    let zs := ls.filterMap (atomOf x i y w)
    let reqs := zs.foldl (fun rs z =>
      if z.code < 5 then mergeRed (.store l y.g y.pc) z rs
      else rs ++ [(z.code, ⟨.thread l y.g z.lane (iD w) 0 (szBytes w) y.pc, z.addr, (redOp z.code).2.1, z.data, []⟩)]) []
    let d := reqs.foldl (fun d r => issue d (16 + r.1) r.2) (if ls = [] then d else clearRb d i)
    let y' := (zs.filter (fun z => decide (5 ≤ z.code))).foldl (fun v z =>
      setLoaded v w z.lane 0 (Config.freeWord (d.draw + z.lane)).toNat) y
    goto { d with draw := d.draw + 64 } l { y' with memWait := y'.memWait + reqs.length } (y.pc + 1)

/-- ATOM. -/
def execAtom (l : Nat) (g : Nat) (s : State) : Host.Outcome State Fault Refusal :=
  act (onInstr 0x34 l g (atom l)) s

/-! ### Matrix instructions (spec/06 R142, R143; layouts: log entry 49) -/

/-- One product of a matrix instruction: engine, place in its array, rows of A, columns of B, and the
numbers of its first row of A, column of B and element of C. -/
structure Prod where
  eng : Nat
  r0 : Nat
  c0 : Nat
  m : Nat
  n : Nat
  ar : Nat
  bc : Nat
  c : Nat

/-- Depth of a SHAPE. -/
def shapeK (shape : Nat) : Nat := if shape = 4 then 8 else 32

/-- The products of a SHAPE. -/
def shapeProds (shape eng : Nat) : List Prod :=
  match shape with
  | 0 => (List.range 4).map (fun e => ⟨e, 0, 0, 32, 32, 32 * e, 0, 1024 * e⟩)
  | 2 => (List.range 4).map (fun t => ⟨eng, 16 * (t / 2), 16 * (t % 2), 16, 16, 16 * t, 16 * t, 256 * t⟩)
  | 3 => [⟨eng, 0, 0, 16, 16, 0, 0, 0⟩]
  | 5 => [⟨eng, 0, 0, 8, 32, 0, 0, 0⟩]
  | _ => [⟨eng, 0, 0, 32, 32, 0, 0, 0⟩]

/-- Rows of A, columns of B and elements of C in all of a SHAPE. -/
def shapeSize (shape : Nat) : Nat × Nat × Nat :=
  match shape with
  | 0 => (128, 32, 4096)
  | 2 => (64, 64, 1024)
  | 3 => (16, 16, 256)
  | 5 => (8, 32, 256)
  | _ => (32, 32, 1024)

/-- Value of a matrix operand's element; inside an MX block, or a plain operand beside one, which is treated as a block
(spec/06 R143), an E5M2 infinity is read as NaN (R148). -/
def mmaElem (mx : Bool) (t x : Nat) : Fv :=
  match fmtOf t with
  | none => .nan
  | some f =>
    match fdec f x with
    | .num s m e => .num s m e
    | v => if mx then .nan else v

/-- Exact dot product of pairs. -/
def exactDot (ps : List (Fv × Fv)) : Fv :=
  match ps with
  | [] => .num false 0 0
  | (a, b) :: r => r.foldl (fun s p => fvAdd s (fvMul p.1 p.2)) (fvMul a b)

/-- Scale a value by a power of two. -/
def fvScale (v : Fv) (k : Int) : Fv :=
  match v with
  | .num s m e => .num s m (e + k)
  | x => x

/-- Add k-groups of `g` pairs one after another, each with one rounding. -/
def addGroups (g : Nat) : Nat → Nat → List (Fv × Fv) → Nat
  | 0, acc, _ => acc
  | n + 1, acc, ps =>
    if ps = [] then acc
    else addGroups g n (e32 (fvAdd (d32 acc) (exactDot (ps.take g)))) (ps.drop g)

/-- One output element: accumulator, operand types, pairs in ascending k, and the two block scales. -/
def mmaDot (ta tb acc : Nat) (ps : List (Fv × Fv)) (xa xb : Nat) : Nat :=
  if isMx ta || isMx tb then
    if xa = 255 ∨ xb = 255 then fnan f32
    else e32 (fvAdd (d32 acc) (fvScale (exactDot ps) ((xa : Int) + xb - 254)))
  else addGroups (if rateClass ta = 3 then 2 else 1) ps.length acc ps

/-- Element `k` of row `r` of an operand with its depth contiguous. -/
def packedElem (bs : List Byte) (t depth r k : Nat) : Nat :=
  bits (leVal (slice bs (r * (depth * typeBits t / 8)) (depth * typeBits t / 8))) (typeBits t * k + typeBits t - 1) (typeBits t * k)

/-- Key of an accumulator. -/
def accKey (q eng r c : Nat) : Nat := ((q * 4 + eng) * 32 + r) * 32 + c

/-- What a matrix instruction reads and writes: address of A, B, C and of the scales of A and B, with
the bytes of each. -/
def mmaRanges (w : Nat) (v : List (BitVec 32)) : List (Nat × Nat) :=
  let sh := bits w 27 24
  let ta := bits w 23 20
  let tb := bits w 19 16
  let (ra, cb, ec) := shapeSize sh
  let k := shapeK sh
  let at_ (i : Nat) : Nat := (v.getD i 0).toNat
  [(at_ 0, ra * (k * typeBits ta / 8)), (at_ 1, cb * (k * typeBits tb / 8)),
   (at_ 2, ec * (if bits w 12 9 = 1 then 2 else 4)),
   (at_ 3, if isMx ta then ra else 0), (at_ 4, if isMx tb then cb else 0)]

/-- MMA: issue. -/
def mma (l : Nat) (ecc : Ecc) (d : Dev) (x : Grid) (k : Kernel) (y : Grp) (w : Nat) : Dev :=
  if onLanes y w = [] then goto d l y (y.pc + 1)
  else
    let v := [rg y 0 (iA w), rg y 0 (iB w), rg y 0 (iC w), rg y 0 (iD w), rg y 0 (iD w + 1)].map w32
    let i := segInfo d x
    let rs := mmaRanges w v
    if (rs.zip [false, false, true, false, false]).any (fun r =>
        decide (r.1.2 ≠ 0) && (spadAt k y i r.2 r.1.1 r.1.2).isNone) then stitchFault d l 1 y.g y.pc
    else
      let (ue, d) := spadCheck d y.core ecc
      if ue then stitchFault d l 2 y.g y.pc
      else goto d l { y with mma := y.mma ++ [(BitVec.ofNat 64 w, v)] } (y.pc + 1)

/-- MMA. -/
def execMma (l : Nat) (x : MmaTurn) (s : State) : Host.Outcome State Fault Refusal :=
  act (onInstr 0x40 l x.g (mma l x.ecc)) s

/-- The accumulators of a matrix instruction become final, and C is written in OT.  With MX operands the 8 elements of
a row of 32×32×8 form one block with one scale (DESIGN CHOICE, log entry 107). -/
def mmaFinal (d : Dev) (k : Kernel) (y : Grp) (i : Option SegInfo) (w : Nat) (v : List (BitVec 32)) : Dev :=
  let sh := bits w 27 24
  let ta := bits w 23 20
  let tb := bits w 19 16
  let depth := shapeK sh
  let rs := mmaRanges w v
  let get (j : Nat) : List Byte :=
    let r := rs.getD j (0, 0)
    spadRd d y.core ((spadAt k y i (j == 2) r.1 r.2).getD 0) r.2
  let a := get 0
  let b := get 1
  let sa := get 3
  let sb := get 4
  let ow := if bits w 12 9 = 1 then 2 else 4
  let cBase := (spadAt k y i true (rs.getD 2 (0, 0)).1 (rs.getD 2 (0, 0)).2).getD 0
  let one (d : Dev) (p : Prod) (n : Nat) : Dev :=
    let r := n / p.n
    let c := n % p.n
    let key := accKey y.core p.eng (p.r0 + r) (p.c0 + c)
    let old := if bit w 15 then (tgetD d.opt.accs key 0).toNat else 0
    let ps := (List.range depth).map (fun j =>
      (mmaElem (isMx ta || isMx tb) ta (packedElem a ta depth (p.ar + r) j),
       mmaElem (isMx ta || isMx tb) tb (packedElem b tb depth (p.bc + c) j)))
    let xa := if isMx ta then leAt sa (p.ar + r) 1 else 127
    let xb := if isMx tb then leAt sb (p.bc + c) 1 else 127
    let new := mmaDot ta tb old ps xa xb
    let d := { d with opt := { d.opt with accs := tput 0 d.opt.accs key (w32 new) } }
    spadWr d y.core (cBase + ow * (p.c + n)) (leBytes ow (if ow = 2 then fconv 0 1 new else new))
  (shapeProds sh (bits w 14 13)).foldl (fun d p => (List.range (p.m * p.n)).foldl (fun d n => one d p n) d) d

/-- MMA_COMPLETE: the oldest matrix instruction of a group. -/
def mmaComplete (l g : Nat) (d : Dev) : Dev :=
  match findGrid d l with
  | none => d
  | some x =>
    match tget? d.opt.kernels x.kernel, x.groups.find? (fun y => y.g == g) with
    | some k, some y =>
      match y.mma with
      | [] => d
      | (w, v) :: r => setGrp (mmaFinal d k y (segInfo d x) w.toNat v) l { y with mma := r }
    | _, _ => d

/-- MMA_COMPLETE. -/
def execMmaComplete (l : Nat) (g : Nat) (s : State) : Host.Outcome State Fault Refusal :=
  act (mmaComplete l g) s

/-- MWAIT. -/
def execMwait (l : Nat) (g : Nat) (s : State) : Host.Outcome State Fault Refusal :=
  act (onInstr 0x41 l g (fun d _ _ y _ => if y.mma = [] then goto d l y (y.pc + 1) else d)) s

/-! ### Responses of stacked memory (spec/09 R248, R253, R255, R258) -/

/-- Bytes of a register, or pair, replaced from a byte position on. -/
def putBytes (y : Grp) (lane r pos : Nat) (bs : List Byte) : Grp :=
  (List.range bs.length).foldl (fun z j =>
    let p := pos + j
    let reg := r + p / 4
    setRg z lane reg (putBits (rg z lane reg) (8 * (p % 4) + 7) (8 * (p % 4)) (bs.getD j 0).toNat)) y

/-- A group's access has been answered. -/
def answered (d : Dev) (l g : Nat) (f : Grp → Grp) : Dev :=
  match findGrid d l with
  | none => d
  | some x =>
    match x.groups.find? (fun y => y.g == g) with
    | none => d
    | some y => let y := f y; setGrp d l { y with memWait := y.memWait - 1 }

/-- MEM_RESPONSE: response `i` reaches its requester. -/
def memResponse (i : Nat) (d : Dev) : Dev :=
  match takeAt d.mem.resps i with
  | none => d
  | some (x, rest) =>
    let d := { d with mem := { d.mem with resps := rest } }
    let marked (d : Dev) : Dev := consumePoison d (x.marked.getD x.r.addr)
    match x.r.src with
    | .core _ slot chunk =>
      if x.op = 25 then countNotice d slot chunk x.count
      else if x.bad then abortCtx (marked d) slot 9 noRank chunk
      else spillReturn d slot chunk x.r.addr x.data
    | .tile _ slot chunk op =>
      if x.bad then abortCtx d slot 9 noRank chunk
      else if x.op = 25 then d
      else { d with coll := { d.coll with spills := d.coll.spills.map (fun y =>
          if y.id = op then { y with wait := y.wait - 1 } else y) } }
    | .thread l g lane r pos n idx =>
      if (findGrid d l).isNone then d
      else if x.bad then stitchFault (if x.op = 0 then marked d else d) l 3 g idx
      else answered d l g (fun y => putBytes y lane r pos (slice x.data (x.r.offs.headD 0) n))
    | .store l g idx => if x.bad then stitchFault d l 3 g idx else answered d l g id
    | .scrub => d
    | .bolt => d

/-- MEM_RESPONSE. -/
def execMemResponse (i : Nat) (s : State) : Host.Outcome State Fault Refusal :=
  act (memResponse i) s

/-- STITCH_WATCHDOG: a standalone launch has exceeded LIMIT_US; the cause names its oldest group. -/
def stitchWatchdog (l : Nat) (d : Dev) : Dev :=
  match findGrid d l with
  | none => d
  | some x =>
    match x.why with
    | .seg _ _ _ => d
    | .host _ =>
      let y := x.groups.head?
      stitchFault d l 4 (match y with | some y => y.g | none => 0) (match y with | some y => y.pc | none => 0)

/-- STITCH_WATCHDOG. -/
def execStitchWatchdog (l : Nat) (s : State) : Host.Outcome State Fault Refusal :=
  act (stitchWatchdog l) s

end Sys2Proof.Machine
end

