-- ==== Sys2Proof/Machine/Rub.lean ====
section
/-! DEFINITION. RUB contexts: updates of completed chunks, mirroring, digests, acknowledgements and
sealing, and the end of a Stitch launch (spec/08 R210–R222, R230, R238). -/
namespace Sys2Proof.Machine

/-- Where a chunk of a RUB context lies in its shard: the shard, segment, first element, count. -/
structure Place where
  sh : Nat
  shard : Shard
  k : Nat
  seg : Seg
  first : Nat
  count : Nat

/-- The place of a chunk. -/
def placeOf (d : Dev) (c : Ctx) (chunk : Nat) : Option Place :=
  let sh := c.p.shard.toNat
  match shardOf d sh with
  | none => none
  | some s =>
    let first := chunk % natMax 1 (roundN c.p) * c.p.chunkElems.toNat
    (segAt s.segs first).map (fun x => ⟨sh, s, x.1, x.2, first, expected c.p chunk⟩)

/-- Number of the open round: the update of step STEP + 1 (spec/08 R215). -/
def openRoundNo (c : Ctx) (s : Shard) : Nat := (s.step + 1 - c.p.stepBase).toNat

/-- Is a chunk in the open round, while its basting side is free (spec/08 R217, R219)? -/
def inOpenRound (c : Ctx) (s : Shard) (chunk : Nat) : Bool :=
  decide (chunk / natMax 1 (roundN c.p) = openRoundNo c s) && s.st != 3 &&
    !(s.st == 1 && s.pins.contains (1 - s.side))

/-- Does a chunk belong to the round that opens next? -/
def inNextRound (c : Ctx) (s : Shard) (chunk : Nat) : Bool :=
  let r := chunk / natMax 1 (roundN c.p)
  (decide (r = openRoundNo c s) && s.st == 1 && s.pins.contains (1 - s.side)) ||
    decide (r = openRoundNo c s + 1)

/-- gr of a chunk in fp32 (spec/08 R210). -/
def grOf (d : Dev) (c : Ctx) (k : Chunk) : List Nat := if rubRole d c 1 then k.res else gradOf c.p k.res

/-- The basted slot values of a chunk, slot by slot (spec/08 R217). -/
def bastedBytes (d : Dev) (x : Place) : List Byte :=
  ((List.range x.seg.slots).map (fun j =>
    memRd d (slotAddr x.shard (1 - x.shard.side) x.k x.seg j x.first) (4 * x.count))).flatten

/-- The parameters of a chunk on a side, converted to PTYPE with one rounding (spec/08 R210). -/
def paramsOf (d : Dev) (x : Place) (side : Nat) : List Nat :=
  (readSlot d x.shard side x.k x.seg 0 x.first x.count).map (fconv 0 x.seg.ptype)

/-- The slots of a chunk on a side are read from memory: the first marked address among them (spec/09 R257, R258,
R267). -/
def placeGet (d : Dev) (x : Place) (side : Nat) : Option Nat × Dev :=
  let d := slotGet d x.shard side x.k x.seg x.first x.count
  (slotPoison d x.shard side x.k x.seg x.first x.count, d)

/-- Record the digest of a chunk (spec/08 R217); an injection flips one bit of it. -/
def recordDigest (d : Dev) (slot chunk : Nat) (x : Place) : Nat × Dev :=
  let ps := paramsOf d x (1 - x.shard.side)
  let v := crc32c (bastedBytes d x ++ bytesOf (typeBytes x.seg.ptype) ps)
  let (m, d) := takeMark d 0x13 (shDie x.sh) 0
  let v := match m with
    | some _ => v ^^^ 2 ^ ((Config.freeWord d.draw).toNat % 32)
    | none => v
  let d := if m.isSome then trace { d with draw := d.draw + 1 } 0x13 slot chunk else d
  match ctxOf d slot with
  | none => (v, d)
  | some c => (v, setCtx d slot { c with digests := tset c.digests chunk (w32 v) })

/-- Drop the record of a chunk. -/
def dropChunk (d : Dev) (slot chunk : Nat) : Dev :=
  match ctxOf d slot with
  | none => d
  | some c => setCtx d slot { c with chunks := c.chunks.filter (fun k => k.idx != chunk) }

/-- A chunk meets the seal conditions. -/
def sealChunk (d : Dev) (slot chunk : Nat) : Dev :=
  match ctxOf d slot with
  | none => d
  | some c => if c.sealed.contains chunk then d else setCtx d slot { c with sealed := c.sealed ++ [chunk] }

/-- The partner's digest differs (spec/08 R217). -/
def partnerMismatch (d : Dev) (slot chunk sh : Nat) : Dev :=
  let d := traced d 0x13 slot chunk
  abortCtx (raise d (srcShard sh) 1 [(2, sh), (4, chunk)]) slot 0x0E noRank chunk

/-- Compare a kept MACK digest with the chunk's own, where both exist. -/
def compareMack (d : Dev) (slot chunk sh : Nat) : Dev :=
  match ctxOf d slot with
  | none => d
  | some c =>
    match tget? c.digests chunk, c.macks.find? (fun m => m.1 == chunk) with
    | some own, some m =>
      let d := setCtx d slot { c with macks := c.macks.filter (fun m => m.1 != chunk) }
      if own = m.2 then sealChunk d slot chunk else partnerMismatch d slot chunk sh
    | _, _ => d

/-- Address of a chunk's entry of the acknowledgement table: the last part of a mirror context's area, four bytes for each
position of a round (spec/08 R220; log entry 115). -/
def ackAddr (c : Ctx) (chunk : Nat) : Nat :=
  c.area + c.areaSize - ackBytes c.p + 4 * (chunk % natMax 1 (roundN c.p))

/-- The end of a mirror chunk: its digest is recorded, and its acknowledgement written to the table (spec/08 R218,
R220). -/
def finishMirror (d : Dev) (slot chunk : Nat) (x : Place) : Dev :=
  match placeGet d x (1 - x.shard.side) with
  | (some a, d) => abortCtx (consumePoison d a) slot 9 noRank chunk
  | (none, d) =>
    let (v, d) := recordDigest d slot chunk x
    let d := dropChunk d slot chunk
    match ctxOf d slot with
    | none => d
    | some c => setCtx (memPut d (ackAddr c chunk) (leBytes 4 v)) slot { c with macks := c.macks ++ [(chunk, w32 v)] }

/-- The update of a chunk has been written: for GRANTED it is complete (spec/08 R218); a mirror chunk of
an element-wise program is acknowledged. -/
def markUpdated (d : Dev) (slot chunk : Nat) (x : Place) : Dev :=
  match ctxOf d slot with
  | none => d
  | some c =>
    match findChunk c chunk with
    | none => d
    | some k =>
      let d := chunkComplete (setCtx d slot (setChunk c { k with updated := true })) slot chunk
      if x.shard.role = 1 ∧ x.seg.prog ≠ 4 then finishMirror d slot chunk x else d

/-- Send gr of a chunk to the partner in MIRROR frames (spec/08 R216, R218); toward a target that cannot take one the first
is released and the context aborts (spec/07 R464). -/
def sendMirror (d : Dev) (slot : Nat) (c : Ctx) (chunk sh : Nat) (gr : List Nat) : Dev :=
  let p := c.p
  let t := partnerTarget p
  let n := (4 * gr.length + 8191) / 8192
  let up := targetUp d p.part.toNat t
  let seg (d : Dev) (i : Nat) : Dev :=
    let part := (gr.drop (2048 * i)).take 2048
    let f := collFrame d c 6 chunk 0 i part.length 0 0 0 false p.partnerEp.toNat (bytesOf 4 part)
      p.partnerHandle p.partnerGen p.partnerSig
    sendTo d (homeDie slot) (coreTile (coreOf c chunk)) t { f with chdr := { f.chdr with itype := 0 } }
  if up then (List.range n).foldl (fun d i => cnt1 (seg d i) (srcShard sh) 9) d
  else abortCtx (seg d 0) slot 0x0B noRank noChunk

/-- gr of a chunk as its shadow has it (spec/06 R168). -/
def shadowGr (d : Dev) (c : Ctx) (k : Chunk) : List Nat := if rubRole d c 1 then shadowRes c k else gradOf c.p (shadowRes c k)

/-- The new slot values of a chunk of a built-in program on gr, slot by slot as far as the chunk alone decides them: of
ORTHO its momentum (spec/08 R210, R211). -/
def updateCols (d : Dev) (x : Place) (gr : List Nat) : List (List Nat) :=
  let h := (x.shard.hs.getD x.seg.hset ⟨[], none⟩).cur
  let old (j : Nat) := readSlot d x.shard x.shard.side x.k x.seg j x.first x.count
  if x.seg.prog = 15 then []
  else if x.seg.prog = 4 then
    [List.zipWith (fun m g => ffma (hword h 1) m (fmul (hword h 5) g)) (old 1) gr]
  else rangeUpdate x.seg.prog h ((List.range x.seg.slots).map old) gr

/-- Start the kernel of a STITCH chunk on a core, with gr in its scratchpad; the shadow of a sampled chunk takes the place
of the primary's Bobbin in its own scratchpad (DESIGN CHOICE, log entry 112). -/
def stitchChunk (d : Dev) (slot chunk : Nat) (c : Ctx) (x : Place) (gr : List Nat) (q : Nat) (rep : Bool)
    (held : Option (Tab Byte)) : Dev :=
  let h := (x.shard.hs.getD x.seg.hset ⟨[], none⟩).cur
  let d := spadWr d q (bobAddr d c chunk) (bytesOf 4 gr)
  let hp := 2 ^ 22 - bobSlots d (q / 8) * 16384 - 2 ^ 19 + 64 * (d.opt.nextLaunch % 8192)
  let d := spadWr d q hp (bytesOf 4 (h.map (·.toNat)))
  launchGrid d x.seg.kernel x.count [q] (w32 (hword h 15)) [] 0 (.seg slot chunk x.k) (q / 16) rep held

/-- The kernel of a sampled STITCH chunk runs on the primary and on the shadow, the writes of both held (spec/06 R168,
R169). -/
def stitchTwice (d : Dev) (slot : Nat) (c : Ctx) (k : Chunk) (x : Place) : Dev :=
  let q := coreOf c k.idx
  let d := stitchChunk d slot k.idx c x (grOf d c k) q false (some [])
  stitchChunk d slot k.idx c x (shadowGr d c k) (k.shadow.getD q) true (some [])

/-- Run the update program of a chunk on gr (spec/08 R210, R211). The accesses of a Stitch program are its kernel's. -/
def runProgram (d : Dev) (slot chunk : Nat) (c : Ctx) (x : Place) (gr : List Nat) : Dev :=
  if x.seg.prog = 15 then stitchChunk d slot chunk c x gr (coreOf c chunk) false none
  else
    match placeGet d x x.shard.side with
    | (some a, d) => abortCtx (consumePoison d a) slot 9 noRank chunk
    | (none, d) =>
      let cols := updateCols d x gr
      let d := (List.range cols.length).foldl (fun d j =>
        basteSlot d x.sh x.shard x.k x.seg (if x.seg.prog = 4 then 1 else j) x.first (cols.getD j [])) d
      markUpdated d slot chunk x

/-- The chunk of a RUB context that a STITCH segment updates. -/
def stitchPlace (d : Dev) (c : Ctx) (chunk : Nat) : Option Place :=
  if c.p.op.toNat = opRub then (placeOf d c chunk).filter (fun x => x.seg.prog == 15) else none

/-- The held writes of a chunk's program on the primary (false) or the shadow (true). -/
def writesOf (k : Chunk) (rep : Bool) : Option (Tab Byte) := (k.writes.find? (fun w => w.1 == rep)).map (·.2)

/-- The basted slot values of a chunk behind held writes, slot by slot. -/
def bastedBehind (d : Dev) (x : Place) (t : Tab Byte) : List (List Nat) :=
  (List.range x.seg.slots).map (fun j =>
    let a := slotAddr x.shard (1 - x.shard.side) x.k x.seg j x.first
    elemsOf 4 (overlaid t a (memRd d a (4 * x.count))) x.count)

/-- What primary (false) and shadow (true) compare of a chunk: its result, and for RUB the basted state and the parameters
to be broadcast that follow from it; the parameters of an ORTHO chunk are its block's, compared with it (spec/06 R169; log
entry 112). -/
def overlockView (d : Dev) (c : Ctx) (k : Chunk) (rep : Bool) : List Nat × List (List Nat) × List Nat :=
  let res := if rep then shadowRes c k else k.res
  if c.p.op.toNat = opRub then
    match placeOf d c k.idx with
    | some x =>
      let cols := if x.seg.prog = 15 then bastedBehind d x ((writesOf k rep).getD [])
        else updateCols d x (if rep then shadowGr d c k else grOf d c k)
      (res, cols, if x.seg.prog = 4 then [] else (cols.getD 0 []).map (fconv 0 x.seg.ptype))
    | none => (res, [], [])
  else (res, [], [])

/-- Held writes go to memory; a sector written whole loses its poison (spec/09 R257). -/
def landWrites (d : Dev) (t : Tab Byte) : Dev :=
  let d := t.foldl (fun d e => memWr d e.1 [e.2]) d
  let whole (k : Nat) : Bool := (List.range 64).all (fun i => (tget? t (64 * k + i)).isSome)
  { d with mem := { d.mem with poison := d.mem.poison.filter (fun k => !whole k) } }

/-- What a PRIMARY chunk does with gr before its program: its check for NaN and infinity in fp32, the format of the values
that the program takes (DESIGN CHOICE, log entry 131), and the MIRROR frames (spec/06 R161, spec/08 R218). -/
def offerGr (d : Dev) (slot chunk : Nat) (c : Ctx) (x : Place) (gr : List Nat) : Dev :=
  if x.shard.role = 1 then d
  else
    let d := nanCheck d c chunk 0 gr
    if c.p.mirrorEn then sendMirror d slot c chunk x.sh gr else d

/-- Does the context still live? -/
def stillLive (d : Dev) (slot : Nat) : Bool :=
  match ctxOf d slot with
  | some c => live c
  | none => false

/-- A sampled chunk has agreed: it goes on, and what a STITCH program of it has written and was held goes to the basted
side. -/
def overlockAgree (d : Dev) (slot : Nat) (c : Ctx) (k : Chunk) : Dev :=
  let d := cnt1 (setCtx d slot (setChunk c { k with compared := true })) (srcCore (coreNo (coreOf c k.idx))) 5
  match stitchPlace d c k.idx with
  | none => d
  | some x =>
    let t := (writesOf k false).getD []
    let d := offerGr d slot k.idx c x (grOf d c k)
    if stillLive d slot then
      let d := if t = [] then d else match shardOf d x.sh with
        | some s => setShard d x.sh { s with rb := false }
        | none => d
      markUpdated (landWrites d t) slot k.idx x
    else d

/-- May a chunk be compared: its shadow has repeated it, and the programs of a STITCH chunk have ended on both cores? -/
def comparable (d : Dev) (c : Ctx) (k : Chunk) : Bool :=
  k.done && k.sampled && !k.compared && shadowDone c k &&
    ((stitchPlace d c k.idx).isNone || ((writesOf k false).isSome && (writesOf k true).isSome))

/-- OVERLOCK_COMPARE: once the shadow has repeated a sampled chunk, the results of both are compared bitwise; `differ`: a
fault of either core has changed its own (spec/06 R169). -/
def overlockCompare (slot chunk : Nat) (differ : Bool) (d : Dev) : Dev :=
  match ctxOf d slot with
  | none => d
  | some c =>
    match findChunk c chunk with
    | none => d
    | some k =>
      if !comparable d c k then d
      else
        let q := coreOf c chunk
        let (m, d) := takeMark d 0x0B (q / 16) (coreNo q)
        let d := match (if c.p.op.toNat = opRub then placeOf d c chunk else none) with
          | some x => (placeGet d x x.shard.side).2
          | none => d
        if m.isSome || differ || overlockView d c k false != overlockView d c k true then overlockMismatch d slot c k
        else overlockAgree d slot c k

/-- OVERLOCK_COMPARE. -/
def execOverlockCompare (slot : BitVec 14) (x : ShadowCompare) (s : State) : Host.Outcome State Fault Refusal :=
  act (withFlaws x.flaws (overlockCompare slot.toNat x.chunk.toNat x.differ)) s

/-- Is a launch running for a chunk? -/
def segRunning (d : Dev) (slot chunk : Nat) : Bool :=
  d.opt.launches.any (fun l => match l.why with | .seg s k _ => s == slot && k == chunk | _ => false)

/-- Requests to the slots of a chunk, on either side, have still to be applied: an update waits for them (log entry
100). -/
def slotsQueued (d : Dev) (x : Place) : Bool :=
  (List.range x.seg.slots).any (fun j => [0, 1].any (fun side =>
    unitsQueued d (slotAddr x.shard side x.k x.seg j x.first) (4 * x.count)))

/-- May the update of a chunk run: it is reduced, compared where it is sampled, and its round is open? A sampled STITCH
chunk runs before it is compared, once its shadow has repeated it. -/
def updateDue (d : Dev) (slot : Nat) (c : Ctx) (k : Chunk) (x : Place) : Bool :=
  live c && c.p.op.toNat == opRub && k.done && !k.updated && k.writes.isEmpty && !segRunning d slot k.idx &&
    x.shard.st == 2 && inOpenRound c x.shard k.idx && !slotsQueued d x &&
    (!k.sampled || (if x.seg.prog = 15 then shadowDone c k && !k.compared else k.compared))

/-- RUB_UPDATE: steps 2 and 3 of R218 for a chunk whose reduction is complete. -/
def rubUpdate (slot chunk : Nat) (d : Dev) : Dev :=
  match ctxOf d slot with
  | none => d
  | some c =>
    match findChunk c chunk, placeOf d c chunk with
    | some k, some x =>
      if !updateDue d slot c k x then d
      else if k.sampled && x.seg.prog == 15 then stitchTwice d slot c k x
      else
        let gr := grOf d c k
        let d := offerGr d slot chunk c x gr
        match ctxOf d slot with
        | some c1 => if live c1 then runProgram d slot chunk c1 x gr else d
        | none => d
    | _, _ => d

/-- RUB_UPDATE. -/
def execRubUpdate (slot : BitVec 14) (chunk : Flawed (BitVec 32)) (s : State) : Host.Outcome State Fault Refusal :=
  act (withFlaws chunk.flaws (rubUpdate slot.toNat chunk.val.toNat)) s

/-- RUB_UPDATE_DONE: steps 4 and 5 of R218; for ORTHO once the chunk's block has been updated. -/
def rubUpdateDone (slot chunk : Nat) (d : Dev) : Dev :=
  match ctxOf d slot with
  | none => d
  | some c =>
    match findChunk c chunk, placeOf d c chunk with
    | some k, some x =>
      if !live c || !k.updated || x.shard.role != 0 || (x.seg.prog == 4 && !k.blk) then d
      else
        let p := c.p
        let ot := p.otype.toNat
        match placeGet d x (1 - x.shard.side) with
        | (some a, d) => abortCtx (consumePoison d a) slot 9 noRank chunk
        | (none, d) =>
          let (n, d) := sendSegs d slot c 4 chunk x.seg.ptype (typeBytes x.seg.ptype)
            (paramsOf d x (1 - x.shard.side))
          let d := cntN d (srcShard x.sh) 8 n
          let d := if p.gradOut && stillLive d slot then
              (sendSegs d slot c 5 chunk ot (typeBytes ot)
                (k.res.map (accOutput p.op.toNat p.mode.toNat p.itype.toNat ot))).2
            else d
          if stillLive d slot then
            let (_, d) := recordDigest d slot chunk x
            let d := dropChunk d slot chunk
            if p.mirrorEn then compareMack d slot chunk x.sh else sealChunk d slot chunk
          else d
    | _, _ => d

/-- RUB_UPDATE_DONE. -/
def execRubUpdateDone (slot : BitVec 14) (chunk : Flawed (BitVec 32)) (s : State) :
    Host.Outcome State Fault Refusal :=
  act (withFlaws chunk.flaws (rubUpdateDone slot.toNat chunk.val.toNat)) s

/-- Chunks of an ORTHO block of a segment in the open round (spec/08 R206, R215). -/
def blockChunks (c : Ctx) (s : Shard) (g : Seg) (b : Nat) : List Nat :=
  let ce := natMax 1 c.p.chunkElems.toNat
  let bb := 2 ^ (2 * g.bshift)
  let q0 := (g.start + b * bb) / ce
  (List.range (bb / ce)).map (fun i => openRoundNo c s * roundN c.p + q0 + i)

/-- The momenta of a block as the shadows of its sampled chunks have repeated them (spec/06 R168; log entry 112). -/
def shadowMomenta (d : Dev) (c : Ctx) (cs : List Nat) (m1 : List Nat) : List Nat :=
  let ce := natMax 1 c.p.chunkElems.toNat
  cs.zipIdx.flatMap (fun y =>
    let own := (m1.drop (y.2 * ce)).take ce
    match findChunk c y.1, placeOf d c y.1 with
    | some k, some x => if k.sampled then (updateCols d x (shadowGr d c k)).headD [] else own
    | _, _ => own)

/-- The rest of the program of a block: its working matrices, its parameters, and the digests of mirror chunks. -/
def orthoWrite (d : Dev) (slot : Nat) (c : Ctx) (sh : Nat) (s : Shard) (seg : Nat) (g : Seg) (b : Nat) (cs : List Nat)
    (m1 p : List Nat) : Dev :=
  let h := (s.hs.getD g.hset ⟨[], none⟩).cur
  let d := stageWork d (coreOf c (cs.headD 0)) (2 ^ g.bshift) (orthoWork (2 ^ g.bshift) h m1)
  let d := basteSlot d sh s seg g 0 (g.start + b * 2 ^ (2 * g.bshift)) (orthoBlock (2 ^ g.bshift) h m1 p)
  let d := setCtx d slot { c with chunks := c.chunks.map (fun k =>
    if cs.contains k.idx then { k with blk := true } else k) }
  if s.role = 1 then
    cs.foldl (fun d i => match placeOf d c i with
      | some x => finishMirror d slot i x
      | none => d) d
  else d

/-- ORTHO_BLOCK_UPDATE: every chunk of the block has written its momentum (spec/08 R211); of a block with sampled chunks
the parameters are compared with those that follow from the momenta of their shadows (spec/06 R169). -/
def orthoBlockUpdate (slot seg b : Nat) (d : Dev) : Dev :=
  match ctxOf d slot with
  | none => d
  | some c =>
    let sh := c.p.shard.toNat
    match shardOf d sh with
    | none => d
    | some s =>
      match s.segs[seg]? with
      | none => d
      | some g =>
        let n := 2 ^ (2 * g.bshift)
        let cs := blockChunks c s g b
        let ready (i : Nat) : Bool :=
          match findChunk c i with
          | some k => k.updated && !k.blk
          | none => false
        let e0 := g.start + b * n
        let queued := unitsQueued d (slotAddr s s.side seg g 0 e0) (4 * n) ||
          unitsQueued d (slotAddr s (1 - s.side) seg g 1 e0) (4 * n) || unitsQueued d (slotAddr s (1 - s.side) seg g 0 e0) (4 * n)
        if !live c || c.p.op.toNat != opRub || g.prog != 4 || decide (g.count < (b + 1) * n) || cs.isEmpty ||
            !cs.all ready || queued then d
        else
          let d := (memGet d (slotAddr s s.side seg g 0 e0) (4 * n)).2
          let d := (memGet d (slotAddr s (1 - s.side) seg g 1 e0) (4 * n)).2
          let bad := (poisonIn d (slotAddr s s.side seg g 0 e0) (4 * n)).orElse (fun _ =>
            poisonIn d (slotAddr s (1 - s.side) seg g 1 e0) (4 * n))
          match bad with
          | some a => abortCtx (consumePoison d a) slot 9 noRank (cs.headD noChunk)
          | none =>
            let h := (s.hs.getD g.hset ⟨[], none⟩).cur
            let m1 := readSlot d s (1 - s.side) seg g 1 e0 n
            let p := readSlot d s s.side seg g 0 e0 n
            let m2 := shadowMomenta d c cs m1
            match cs.filterMap (findChunk c) |>.find? (fun k => k.sampled) with
            | some k =>
              if orthoBlock (2 ^ g.bshift) h m1 p != orthoBlock (2 ^ g.bshift) h m2 p then overlockMismatch d slot c k
              else orthoWrite d slot c sh s seg g b cs m1 p
            | none => orthoWrite d slot c sh s seg g b cs m1 p

/-- ORTHO_BLOCK_UPDATE. -/
def execOrthoBlockUpdate (slot : BitVec 14) (seg : BitVec 6) (block : Flawed Nat) (s : State) :
    Host.Outcome State Fault Refusal :=
  act (withFlaws block.flaws (orthoBlockUpdate slot.toNat seg.toNat block.val)) s

/-- STITCH_GRID_END: the last group has ended and its stores have been answered (spec/08 R230); the writes of a sampled
chunk's program stay held until it has been compared (spec/06 R169). -/
def stitchGridEnd (l : Nat) (d : Dev) : Dev :=
  match findGrid d l with
  | none => d
  | some x =>
    let mine (r : MemReq) : Bool := match r.src with
      | .thread k _ _ _ _ _ _ | .store k _ _ => k == l
      | _ => false
    if x.done < gridGroups x ∨ (allReqs d).any (fun o => mine o.r) ∨ (allResps d).any (fun o => mine o.r) then d
    else
      let d := { d with opt := { d.opt with launches := d.opt.launches.filter (fun y => y.id != l) } }
      match x.why with
      | .host rp => complete d rp 0 []
      | .seg slot chunk _ =>
        match ctxOf d slot with
        | none => d
        | some c =>
          match x.held, findChunk c chunk, placeOf d c chunk with
          | some t, some k, _ => setCtx d slot (setChunk c { k with writes := k.writes ++ [(x.rep, t)] })
          | none, _, some p => markUpdated d slot chunk p
          | _, _, _ => d

/-- STITCH_GRID_END. -/
def execStitchGridEnd (l : Nat) (s : State) : Host.Outcome State Fault Refusal := act (stitchGridEnd l) s

/-! ### Frames from the partner (spec/08 R216, R217) -/

/-- What the checks of R183 or R217 say of a frame; `poison`: marked data at an address stands in the way. -/
inductive Verdict where
  | stale
  | abort (reason : Nat)
  | poison (a : Nat)
  | hold
  | take
deriving DecidableEq, Repr

/-- The first check of R183: state, tag, generation, partition. -/
def firstCheck (d : Dev) (f : Frame) : Option Ctx :=
  match ctxOf d (f.chdr.handle.toNat % 16384) with
  | none => none
  | some c =>
    if live c && c.p.handle == f.chdr.handle && c.gen == f.chdr.gen && c.p.part == f.hdr.part then some c
    else none

/-- Did a frame arrive on a target: the port itself, or a member of the bundle? -/
def onTarget (d : Dev) (p : Nat) (t : Nat × Nat) : Bool :=
  if t.1 = 0 then t.2 == p else (bundlePorts d (t.2 % 256)).contains p

/-- Payload bytes of a frame: what PLEN counts where it is padded to 14 (spec/02 R35). -/
def payLen (f : Frame) : Nat :=
  if f.hdr.plen.toNat < 14 ∧ f.payload.length = 14 then f.hdr.plen.toNat else f.payload.length

/-- Elements of a segment of a mirror chunk. -/
def mirrorElems (c : Ctx) (chunk seg : Nat) : Nat := natMin 2048 (expected c.p chunk - 2048 * seg)

/-- The checks of R217 in their order; `kind` is 6 MIRROR or 7 MACK. -/
def rubVerdict (d : Dev) (c : Ctx) (port : Nat) (f : Frame) (kind : Nat) : Verdict :=
  let h := f.chdr
  let chunk := h.chunk.toNat
  let seg := if kind = 6 then h.seg.toNat else 0
  if h.sig ≠ c.sig then .abort 1
  else if !rubRole d c (if kind = 6 then 1 else 0) then .abort 2
  else if f.hdr.src ≠ c.p.partnerEp ∨ !onTarget d port (partnerTarget c.p) then .abort 4
  else if h.reason ≠ 0 then .abort 0x0E
  else match shardOf d c.p.shard.toNat with
    | none => .abort 5
    | some s =>
      if inNextRound c s chunk then .hold
      else if !(inOpenRound c s chunk || (kind == 7 && decide (chunk / natMax 1 (roundN c.p) = openRoundNo c s)))
          || c.seen.contains (kind, chunk, seg) then .abort 5
      else if kind = 6 ∧ ((4 * expected c.p chunk + 8191) / 8192 ≤ seg ∨ h.elems.toNat ≠ mirrorElems c chunk seg
          ∨ payLen f ≠ 4 * h.elems.toNat) then .abort 3
      else .take

/-- The first taken frame of a tile of a kind, on VC2. -/
def takenKind (d : Dev) (tile kind : Nat) : Option Ing :=
  ((tgetD d.coll.taken tile []).filterMap (findIng d)).find? (fun i =>
    i.vcIn == 2 && i.frame.chdr.kind.toNat == kind)

/-- Take an ingress frame off its tile's list. -/
def untake (d : Dev) (tile id : Nat) : Dev :=
  { d with coll := { d.coll with taken := tput [] d.coll.taken tile ((tgetD d.coll.taken tile []).filter (· != id)) } }

/-- Discard a taken frame as stale (spec/03 R90). -/
def staleFrame (d : Dev) (tile id : Nat) : Dev := raise (freeIng d id) (srcSw tile) 1

/-- A new chunk record; the straggler timer starts (spec/07 R197), and sampling chooses a shadow. True: an
injection expires the timer (spec/16 Table 16-1). -/
def newChunk (d : Dev) (slot : Nat) (c : Ctx) (chunk : Nat) : Chunk × Bool × Dev :=
  let want := sampledChunk d c chunk
  let sh := if want then shadowOf d (coreOf c chunk) else none
  let d := if want && sh.isNone then cnt1 d (srcCore (coreNo (coreOf c chunk))) 6 else d
  let (m, d) := if c.p.stragUs = 0 then (none, d) else takeMark d 0x12 (homeDie slot) 0
  ({ idx := chunk, timer := some d.now, count := 0, memCount := 0, acc := none, held := [], spilled := false,
     rdWait := none, rdBuf := [], sampled := sh.isSome, shadow := sh, rep := ⟨0, 0, none, []⟩, log := [], back := none, done := false, res := [], compared := false,
     segs := [], updated := false, blk := false, writes := [] }, m.isSome, d)

/-- A taken frame as its tile checks it: injections corrupt GEN, and SIG of a contribution (spec/16
Table 16-1). -/
def takenFrame (d : Dev) (tile : Nat) (contrib : Bool) (f : Frame) : Frame × Dev :=
  let (g, d) := takeMark d 0x11 (tile / 16) (tile % 16)
  let f := if g.isSome then { f with chdr := { f.chdr with gen := f.chdr.gen ^^^ 1 } } else f
  if contrib then
    let (m, d) := takeMark d 0x10 (tile / 16) (tile % 16)
    (if m.isSome then { f with chdr := { f.chdr with sig := f.chdr.sig ^^^ 1 } } else f, d)
  else (f, d)

/-- A segment of a mirror chunk; with the last of them the chunk is applied, unless it is sampled and
waits for its comparison (spec/08 R217, R218). -/
def takeMirror (d : Dev) (slot : Nat) (f : Frame) : Dev :=
  match ctxOf d slot with
  | none => d
  | some c0 =>
    let d := beginRound d c0.p.shard.toNat
    let chunk := f.chdr.chunk.toNat
    let seg := f.chdr.seg.toNat
    let (k, late, d) := match findChunk c0 chunk with
      | some k => (k, false, d)
      | none => newChunk d slot c0 chunk
    let k := { k with segs := k.segs ++ [(seg, elemsOf 4 f.payload f.chdr.elems.toNat)] }
    let n := (4 * expected c0.p chunk + 8191) / 8192
    let whole := decide (n ≤ k.segs.length)
    let vals := ((List.range n).map (fun i => ((k.segs.find? (fun x => x.1 == i)).map (·.2)).getD [])).flatten
    let k := if whole then { k with done := true, res := vals, rep := ⟨n, c0.members.length, some vals, []⟩ } else k
    let c := setChunk { c0 with seen := c0.seen ++ [(6, chunk, seg)], taken := natMax c0.taken (chunk + 1) } k
    let d := setCtx d slot c
    if late then stragglerTimeout slot chunk d
    else if whole && !k.sampled then rubUpdate slot chunk d else d

/-- MIRROR_RECEIVE: the first MIRROR frame taken on a tile. -/
def mirrorReceive (tile : Nat) (d : Dev) : Dev :=
  match takenKind d tile 6 with
  | none => d
  | some i =>
    let (f, d) := takenFrame (untake d tile i.id) tile false i.frame
    let slot := f.chdr.handle.toNat % 16384
    match firstCheck d f with
    | none => staleFrame d tile i.id
    | some c =>
      match rubVerdict d c i.port f 6 with
      | .stale | .poison _ => staleFrame d tile i.id
      | .abort r => abortCtx (freeIng d i.id) slot r (if r = 0x0E then noRank else f.chdr.rank.toNat) f.chdr.chunk.toNat
      | .hold => setCtx d slot { c with heldFr := c.heldFr ++ [(tile, i.id)] }
      | .take => takeMirror (freeIng d i.id) slot f

/-- MIRROR_RECEIVE. -/
def execMirrorReceive (tile : Flawed (Fin 64)) (s : State) : Host.Outcome State Fault Refusal :=
  act (withFlaws tile.flaws (mirrorReceive tile.val)) s

/-- MACK_RECEIVE: the first MACK frame taken on a tile. -/
def mackReceive (tile : Nat) (d : Dev) : Dev :=
  match takenKind d tile 7 with
  | none => d
  | some i =>
    let (f, d) := takenFrame (untake d tile i.id) tile false i.frame
    let slot := f.chdr.handle.toNat % 16384
    let chunk := f.chdr.chunk.toNat
    match firstCheck d f with
    | none => staleFrame d tile i.id
    | some c =>
      match rubVerdict d c i.port f 7 with
      | .stale | .poison _ => staleFrame d tile i.id
      | .abort r => abortCtx (freeIng d i.id) slot r (if r = 0x0E then noRank else f.chdr.rank.toNat) chunk
      | .hold => setCtx d slot { c with heldFr := c.heldFr ++ [(tile, i.id)] }
      | .take =>
        let sh := c.p.shard.toNat
        let d := cnt1 (freeIng d i.id) (srcShard sh) 10
        let d := setCtx d slot { c with seen := c.seen ++ [(7, chunk, 0)], macks := c.macks ++ [(chunk, f.chdr.credit)] }
        compareMack d slot chunk sh

/-- MACK_RECEIVE. -/
def execMackReceive (tile : Fin 64) (s : State) : Host.Outcome State Fault Refusal :=
  act (mackReceive tile) s

/-- MACK_SEND: the oldest recorded acknowledgement of a mirror context (spec/08 R216, R220). -/
def mackSend (slot : Nat) (d : Dev) : Dev :=
  match ctxOf d slot with
  | none => d
  | some c =>
    if !live c || !rubRole d c 1 then d
    else match c.macks with
      | [] => d
      | (chunk, _) :: r =>
        let p := c.p
        let t := partnerTarget p
        let up := targetUp d p.part.toNat t
        let d := (memGet d (ackAddr c chunk) 4).2
        let f := collFrame d c 7 chunk 0 0 0 0 (mem32 d (ackAddr c chunk)) 0 false p.partnerEp.toNat [] p.partnerHandle p.partnerGen
          p.partnerSig
        let d := sendTo (setCtx d slot { c with macks := r }) (homeDie slot) (16 * homeDie slot) t f
        if up then sealChunk d slot chunk else abortCtx d slot 0x0B 0 noChunk

/-- MACK_SEND. -/
def execMackSend (slot : Flawed (BitVec 14)) (s : State) : Host.Outcome State Fault Refusal :=
  act (withFlaws slot.flaws (mackSend slot.val.toNat)) s

/-- A PARAM, GRAD or MACK frame of a context has still to reach egress staging. -/
def segsOnWay (d : Dev) (c : Ctx) : Bool :=
  let mack (e : Egr) : Bool := e.ing.isNone && e.frame.hdr.coll && e.frame.chdr.kind == 7 && e.frame.chdr.handle == c.p.partnerHandle
  d.sw.ownq.any (fun o => resultOf c o.e || mack o.e) ||
    d.sw.flights.any (fun f => match f.load with | .own e _ => resultOf c e || mack e | _ => false)

/-- SHARD_SEAL: every chunk of the open round meets the seal conditions, and its segments or MACK have been handed to egress
staging (spec/08 R222). -/
def shardSeal (sh : Nat) (d : Dev) : Dev :=
  match shardOf d sh with
  | none => d
  | some s =>
    match s.bound with
    | none => d
    | some slot =>
      match ctxOf d slot with
      | none => d
      | some c =>
        let rn := roundN c.p
        let cs := (List.range rn).map (fun q => openRoundNo c s * rn + q)
        if s.st != 2 || !live c || !cs.all (fun i => c.sealed.contains i) || segsOnWay d c then d
        else
          let dig := crc32c (cs.map (fun i => leBytes 4 (tgetD c.digests i 0).toNat)).flatten
          let d := setShard d sh { s with st := 3 }
          event (cnt1 d (srcShard sh) 7) 0x0B80 (shDie sh) sh [(2, sh), (4, (s.step + 1).toNat), (4, dig)]

/-- SHARD_SEAL. -/
def execShardSeal (sh : BitVec 13) (s : State) : Host.Outcome State Fault Refusal :=
  act (shardSeal sh.toNat) s

end Sys2Proof.Machine
end

