-- ==== Sys2Proof/Machine/Create.lean ====
section
/-! DEFINITION. COLL_CREATE, the checks on a contribution, and the writes that the state of contexts,
kernels and memory may forbid (spec/06 R145, spec/07 R177–R184, R202, spec/08 R214, R215, R241). -/
namespace Sys2Proof.Machine

/-- The combinations of Table 06-4 and Table 07-2 (spec/06 R154, spec/07 R177). -/
def pairOk (op mode it ot : Nat) : Bool :=
  mode != 3 &&
  (match op with
    | 0 | 8 =>
      match it with
      | 0 => ot == 0
      | 1 => ot == 1 || ot == 0
      | 2 => ot == 2 || ot == 0
      | 3 | 4 => ot == 1 || ot == 0
      | 5 | 6 => op == 0 && ot == it
      | _ => false
    | 1 | 2 | 6 => decide (it ≤ 6) && ot == it
    | 3 | 4 | 5 => (it == 5 || it == 6) && ot == it
    | 7 => it == 0 && ot == 0
    | _ => false)

/-- Cores placed by PLACE, by number 8c + j: those set whose names are not lost; 0 selects every core in SERVICE (spec/06
R141, spec/07 R177). -/
def placeCores (d : Dev) (place : Nat) : List Nat :=
  if place = 0 then (List.range 64).filter (nameUp d) else (maskList 64 place).filter (nameLive d)

/-- Is a field of COLL_CREATE out of range (spec/07 R177, R179, spec/08 R214)? `cores`: those placed that are in
SERVICE. -/
def createBad (p : CollParams) (n : Nat) (cores : List Nat) (mirror : Bool) : Bool :=
  let bar := p.op.toNat == opBarrier
  (if bar then p.total != 0 else p.total == 0 || decide (2 ^ 40 < p.total.toNat)) ||
  p.chunkElems == 0 || decide (8192 < p.chunkElems.toNat) ||
  (!mirror && decide (8192 < p.chunkElems.toNat * typeBytes p.itype.toNat)) ||
  p.window == 0 || decide (4096 < p.window.toNat) ||
  (decide (n ≤ p.root.toNat) && decide (p.root.toNat ≠ noRank)) ||
  cores.isEmpty || decide (2 ^ 31 < roundN p)

/-- Bobbin slots of a core that contexts hold. -/
def bobHeld (d : Dev) (q : Nat) : List Nat :=
  d.coll.ctxs.flatMap (fun e => ((e.2.cores.zip e.2.bob).filter (fun x => x.1 == q)).flatMap (·.2))

/-- Bobbins that a context reserves on each placed core (spec/07 R189). -/
def bobNeed (p : CollParams) (n : Nat) (mirror : Bool) : Nat :=
  (p.window.toNat + n - 1) / natMax 1 n * bobbins p mirror * (1 + if p.mode = 1 then p.ordHold.toNat else 0)

/-- The lowest free Bobbin slots of a core, `need` of them. -/
def bobTake (d : Dev) (q need : Nat) : Option (List Nat) :=
  let held := bobHeld d q
  let free := (List.range (bobSlots d (q / 8))).filter (fun i => !held.contains i)
  if need ≤ free.length then some (free.take need) else none

/-- Operands that a chunk can send to its core: each aligned block as one, each other member as one. -/
def operandCount (d : Dev) (ms : List (BitVec 64)) (w : Nat) : Nat → Nat → Nat
  | 0, _ => 0
  | n + 1, pos =>
    if ms.length ≤ pos then 0
    else match memTile d (ms.getD pos 0) with
      | none => 1 + operandCount d ms w n (pos + 1)
      | some t =>
        match blockK d ms t w pos 17 with
        | some k => 1 + operandCount d ms w n (pos + 2 ^ k)
        | none => 1 + operandCount d ms w n (pos + 1)

/-- Bytes of the spill area (spec/07 R193). -/
def spillSize (d : Dev) (p : CollParams) (ms : List (BitVec 64)) : Nat :=
  let e := p.chunkElems.toNat
  let w := p.window.toNat
  match accKind p.op.toNat p.mode.toNat p.itype.toNat with
  | .int => if p.spillEn then w * alignUp ((if p.itype = 6 then 8 else 4) * e + 64) 256 else 0
  | .fp32 =>
    if p.mode = 1 then
      w * ((operandCount d ms (typeBytes p.itype.toNat) ms.length 0 + 1) / 2) * alignUp (4 * e) 256
    else if p.spillEn then w * alignUp (4 * e + 64) 256 else 0
  | _ => 0

/-- Does a segment of a shard fail to meet a context's chunks (spec/08 R215)? -/
def segMismatch (ce : Nat) (g : Seg) : Bool :=
  decide (g.start % natMax 1 ce ≠ 0) || (g.prog == 4 && decide (2 ^ (2 * g.bshift) % natMax 1 ce ≠ 0))

/-- The refusals of R215 for a RUB context. -/
def rubRefusal (d : Dev) (p : CollParams) : Option Nat :=
  if p.op.toNat ≠ opRub then none
  else match shardOf d p.shard.toNat with
    | none => some 0x30
    | some s =>
      if s.st ≠ 1 ∨ s.part ≠ p.part ∨ s.bound.isSome then some 0x30
      else if p.stepBase ≠ s.step + 1 then some 0x31
      else if p.total.toNat ≠ s.elems ∨ s.segs.any (segMismatch p.chunkElems.toNat) ∨
          (s.role = 1 ∧ (p.itype ≠ 0 ∨ p.mirrorEn)) then some 0x32
      else none

/-- OVL_RATE of a member count; B3 above 10 is read as 10 (spec/06 R166, Table 06-9). -/
def ovlExp (d : Dev) (n : Nat) : Nat :=
  if n < 1024 then rdf d .ovlRate [] 3 0
  else if n < 16384 then rdf d .ovlRate [] 7 4
  else if n < 65536 then rdf d .ovlRate [] 11 8
  else natMin 10 (rdf d .ovlRate [] 15 12)

/-- The frames that PRIME sends: the committed parameters, before chunk 0 is granted (spec/08 R221). -/
def sendPrime (d : Dev) (slot : Nat) : Dev :=
  match ctxOf d slot with
  | none => d
  | some c =>
    (List.range (roundN c.p)).foldl (fun d q =>
      match ctxOf d slot with
      | none => d
      | some c =>
        if !live c then d
        else match placeOf d c q with
          | none => d
          | some x =>
            let a := slotAddr x.shard x.shard.side x.k x.seg 0 x.first
            let d := (memGet d a (4 * x.count)).2
            match poisonIn d a (4 * x.count) with
            | some a => abortCtx (consumePoison d a) slot 9 noRank q
            | none =>
              let (n, d) := sendSegs d slot c 4 q x.seg.ptype (typeBytes x.seg.ptype) (paramsOf d x x.shard.side)
              cntN d (srcShard x.sh) 8 n) d

/-- Build the context of an accepted create (spec/07 R177–R179). -/
def buildCtx (d : Dev) (p : CollParams) (pat : Pattern) (cores : List Nat) (bob : List (List Nat))
    (area size spill : Nat) : Dev :=
  let slot := p.handle.toNat % 16384
  let g0 := tgetD d.coll.gens slot 0 + 1
  let g := if g0 = 0 then 1 else g0
  let rn := roundN p
  let n := pat.members.length
  let c : Ctx :=
    { st := 1, p := p, gen := g, pgen := pat.pgen, sig := sigOf p pat.pgen, members := pat.members, cores := cores,
      bob := bob, next := [], area := area, areaSize := size, spill := area + spill,
      ovl := some (ovlExp d n), limit := 0xFFFFFFFF / natMax 1 rn * rn, granted := 0, low := 0, above := [],
      taken := 0, hwm := 0, lastCred := 0, credAt := d.now, abort := none, chunks := [], quarAt := 0, heldFr := [], seen := [],
      digests := [], sealed := [], macks := [], ckptHeld := false }
  let d := memClear d area size
  let d := { d with coll := { d.coll with gens := tset d.coll.gens slot g } }
  let d := setCtx d slot c
  let rub := decide (p.op.toNat = opRub)
  let d := match (if rub then shardOf d p.shard.toNat else none) with
    | some s => setShard d p.shard.toNat { s with bound := some slot, lost := false }
    | none => d
  let d := if rub && p.prime && rubRole d c 0 then sendPrime d slot else d
  let d := advance d slot
  match ctxOf d slot with
  | some c => setCtx d slot { c with lastCred := c.granted }
  | none => d

/-- COLL_CREATE (spec/07 R177–R179, spec/08 R214, R215). -/
def collCreate (p : CollParams) (d : Dev) (rp : Reply) : Dev :=
  let slot := p.handle.toNat % 16384
  let rej (st : Nat) : Dev := collReject d rp slot st
  if (ctxOf d slot).isSome then rej 0x23
  else if (partOf d p.part.toNat).st ≠ 1 then rej 0x24
  else match tget? d.coll.pats p.pattern.toNat with
    | none => rej 0x25
    | some pat =>
      if !pat.valid || pat.part != p.part then rej 0x25
      else if !pairOk p.op.toNat p.mode.toNat p.itype.toNat p.otype.toNat then rej 0x26
      else
        let rub := decide (p.op.toNat = opRub)
        let mirror := rub && (match shardOf d p.shard.toNat with | some s => s.role == 1 | none => false)
        let cores := placeCores d p.place.toNat
        if createBad p pat.members.length (cores.filter (nameUp d)) mirror then rej 0x09
        else
          let need := bobNeed p cores.length mirror
          let bobs := cores.map (fun q => bobTake d q need)
          if bobs.any (·.isNone) || (rub && cores.any (fun q => decide (224 < bobSlots d (q / 8)))) then rej 0x27
          else
            let nb := alignUp (4 * pat.members.length) 256
            let size := nb + spillSize d p pat.members + (if mirror then ackBytes p else 0)
            match fitAt (collBase d) (collTop d) size (collExtents d) with
            | none => rej 0x22
            | some a =>
              match rubRefusal d p with
              | some st => rej st
              | none =>
                let d := buildCtx d p pat cores (bobs.map (·.getD [])) a size nb
                let c := ctxOf d slot
                complete d rp 0 (packFields [(8, match c with | some c => c.gen.toNat | none => 0),
                  (32, match c with | some c => c.sig.toNat | none => 0)])

/-- The parameter block of COLL_CREATE: Table 07-2, then Table 08-4 (spec/14 R354, R465). -/
def collBlock (b : List Byte) : Option CollParams :=
  (unpackBlock [20, 12, 14, 4, 2, 4, 4, 20, 64, 14, 16, 4, 20, 64, 16, 1, 1, 13, 32, 1, 1, 1, 24, 10, 20, 8, 32] b).map (fun v =>
    let f := fun i => v.getD i 0
    { handle := BitVec.ofNat 20 (f 0), part := BitVec.ofNat 12 (f 1), pattern := BitVec.ofNat 14 (f 2), op := BitVec.ofNat 4 (f 3)
      mode := BitVec.ofNat 2 (f 4), itype := BitVec.ofNat 4 (f 5), otype := BitVec.ofNat 4 (f 6), root := BitVec.ofNat 20 (f 7)
      total := BitVec.ofNat 64 (f 8), chunkElems := BitVec.ofNat 14 (f 9), window := BitVec.ofNat 16 (f 10)
      ordHold := BitVec.ofNat 4 (f 11), stragUs := BitVec.ofNat 20 (f 12), place := BitVec.ofNat 64 (f 13)
      downGroup := BitVec.ofNat 16 (f 14), roundEvt := f 15 == 1, spillEn := f 16 == 1, shard := BitVec.ofNat 13 (f 17)
      stepBase := BitVec.ofNat 32 (f 18), gradOut := f 19 == 1, prime := f 20 == 1, mirrorEn := f 21 == 1
      partnerEp := BitVec.ofNat 24 (f 22), partnerTarget := BitVec.ofNat 10 (f 23), partnerHandle := BitVec.ofNat 20 (f 24)
      partnerGen := BitVec.ofNat 8 (f 25), partnerSig := BitVec.ofNat 32 (f 26) })

/-- COLL_CREATE. -/
def execCollCreate (h : CmdHdr) (c : DmaRead) (s : State) : Host.Outcome State Fault Refusal :=
  act (fun d => runCmd d h 0x22 .h [] true (withBlock collBlock c (fun p d rp => withFlaws h.flaws (fun d => collCreate p d rp) d))) s

/-! ### CONTRIB_RECEIVE (spec/07 R182–R184) -/

/-- Address of a member's Pattern entry. -/
def entryAddr (d : Dev) (c : Ctx) (rank : Nat) : Nat :=
  ((tget? d.coll.pats c.p.pattern.toNat).map (·.base)).getD 0 + 8 * rank

/-- The checks of R183 after the first that need no memory, in their order: the verdict of the first that fails. -/
def contribHead (c : Ctx) (f : Frame) : Option Verdict :=
  let h := f.chdr
  let p := c.p
  if c.st = 2 ∧ c.hwm ≤ h.chunk.toNat then some .stale
  else if h.sig ≠ c.sig then some (.abort 1)
  else if h.op ≠ p.op ∨ h.itype ≠ p.itype ∨ h.otype ≠ p.otype ∨ h.mode ≠ p.mode then some (.abort 2)
  else if c.members.length ≤ h.rank.toNat then some (.abort 4)
  else none

/-- The checks of R183 on the member's Pattern entry, and the one on the grants. -/
def contribEntry (d : Dev) (c : Ctx) (port : Nat) (f : Frame) : Option Verdict :=
  let rank := f.chdr.rank.toNat
  let m := c.members.getD rank 0
  if f.hdr.src.toNat ≠ memEp m ∨ !onTarget d port (memTarget m) ∨
      (c.p.op.toNat = opBcast ∧ rank ≠ c.p.root.toNat) then some (.abort 4)
  else if c.granted ≤ f.chdr.chunk.toNat then some (.abort 6)
  else none

/-- The checks of R183 on NEXT and the length. -/
def contribNext (c : Ctx) (f : Frame) : Option Verdict :=
  let h := f.chdr
  if h.chunk.toNat ≠ tgetD c.next h.rank.toNat 0 then some (.abort 5)
  else if h.elems.toNat ≠ expected c.p h.chunk.toNat ∨ payLen f ≠ h.elems.toNat * typeBytes c.p.itype.toNat then
    some (.abort 3)
  else none

/-- What the checks of R183 say after the first, the first failing one deciding; none: every check passes. The Pattern
entry and the NEXT counter are read where a check needs them, and marked data decides there (spec/09 R257, R258,
R267). -/
def contribVerdict (d : Dev) (c : Ctx) (port : Nat) (f : Frame) : Option Verdict × Dev :=
  match contribHead c f with
  | some v => (some v, d)
  | none =>
    let rank := f.chdr.rank.toNat
    let d := (memGet d (entryAddr d c rank) 8).2
    match (poisonIn d (entryAddr d c rank) 8).map Verdict.poison |>.or (contribEntry d c port f) with
    | some v => (some v, d)
    | none =>
      let d := (memGet d (c.area + 4 * rank) 4).2
      ((poisonIn d (c.area + 4 * rank) 4).map Verdict.poison |>.or (contribNext c f), d)

/-- A contribution that passed: NEXT advances, the chunk's first one starts its timer and, for RUB, may
open the round; the frame goes to the pre-reducer (spec/07 R183, R197, spec/08 R208). -/
def contribPass (d : Dev) (tile slot : Nat) (c : Ctx) (i : Ing) : Dev :=
  let h := i.frame.chdr
  let chunk := h.chunk.toNat
  let rank := h.rank.toNat
  let d := memPut d (c.area + 4 * rank) (leBytes 4 (chunk + 1))
  let c := { c with next := tset c.next rank (chunk + 1), taken := natMax c.taken (chunk + 1) }
  let d := if c.p.op.toNat = opRub then beginRound d c.p.shard.toNat else d
  let (c, late, d) := match findChunk c chunk with
    | some _ => (c, false, d)
    | none =>
      let (k, late, d) := newChunk d slot c chunk
      (setChunk c k, late, d)
  let d := setCtx d slot c
  let d := { d with coll := { d.coll with preQ := tput [] d.coll.preQ tile (tgetD d.coll.preQ tile [] ++ [i.id]) } }
  if late then stragglerTimeout slot chunk d else d

/-- The first taken frame of a tile that is no MIRROR or MACK frame. -/
def takenContrib (d : Dev) (tile : Nat) : Option Ing :=
  ((tgetD d.coll.taken tile []).filterMap (findIng d)).find? (fun i =>
    !(i.vcIn == 2 && (i.frame.chdr.kind == 6 || i.frame.chdr.kind == 7)))

/-- CONTRIB_RECEIVE: the next taken frame of a tile meets the checks of R183. -/
def contribReceive (tile : Nat) (d : Dev) : Dev :=
  match takenContrib d tile with
  | none => d
  | some i =>
    let (f, d) := takenFrame (untake d tile i.id) tile (i.vcIn == 1) i.frame
    let slot := f.chdr.handle.toNat % 16384
    let rank := f.chdr.rank.toNat
    let chunk := f.chdr.chunk.toNat
    match (if i.vcIn = 1 ∧ f.chdr.kind = 0 then firstCheck d f else none) with
    | none => staleFrame d tile i.id
    | some c =>
      match contribVerdict d c i.port f with
      | (some .stale, d) => staleFrame d tile i.id
      | (some (.poison a), d) => abortCtx (consumePoison (freeIng d i.id) a) slot 9 noRank chunk
      | (some (.abort r), d) => abortCtx (freeIng d i.id) slot r rank chunk
      | (_, d) => contribPass d tile slot c i

/-- CONTRIB_RECEIVE. -/
def execContribReceive (tile : Flawed (Fin 64)) (s : State) : Host.Outcome State Fault Refusal :=
  act (withFlaws tile.flaws (contribReceive tile.val)) s

/-! ### Configuration writes that live state forbids -/

/-- Is a Bobbin of a cluster held, or a group of a kernel resident in it (spec/06 R145)? -/
def clusterBusy (d : Dev) (cl : Nat) : Bool :=
  d.coll.ctxs.any (fun e => (e.2.cores.zip e.2.bob).any (fun x => decide (x.1 / 8 = cl) && !x.2.isEmpty)) ||
  d.opt.launches.any (fun l => l.groups.any (fun y => decide (y.core / 8 = cl)))

/-- A write of CL_BOB. -/
def clBobWrite (cl val : Nat) (d : Dev) : Dev :=
  if clusterBusy d cl then raise d (srcCl cl) 0
  else wrf d .clBob [cl / 2, cl % 2] 8 0 val

/-- Do two regions meet? An empty one meets none. -/
def overlaps (a b x y : Nat) : Bool := decide (a < y) && decide (x < b) && decide (a < b) && decide (x < y)

/-- COLL_MEM_BASE and COLL_MEM_SIZE as a write through a die would leave them (spec/07 R202). -/
def collMemWrite (die lo hi size : Nat) (d : Dev) : Dev :=
  let d1 := wrf (wr (wrf d .collMemBaseLo [] 31 20 (lo / 2 ^ 20)) .collMemBaseHi [] hi) .collMemSize [] 15 0 size
  let used := !d.coll.ctxs.isEmpty || d.coll.pats.any (fun e => e.2.valid)
  if used || decide (memEnd < collTop d1) then raise d (srcColl die 0) 3 else d1

/-- OPT_MEM_BASE and OPT_MEM_SIZE as a write through a die would leave them (spec/08 R241). -/
def optMemWrite (die lo hi size : Nat) (d : Dev) : Dev :=
  let d1 := wrf (wr (wrf d .optMemBaseLo [] 31 30 (lo / 2 ^ 30)) .optMemBaseHi [] hi) .optMemSize [] 9 0 size
  let used := !d.opt.shards.isEmpty || !d.opt.kernels.isEmpty
  if used || overlaps (optBase d1) (optTop d1) (collBase d1) (collTop d1) || decide (memEnd < optTop d1) then
    raise d (srcOpt die 0) 5 else d1

/-- The address at which a unit's content answers once the seed has changed from `s` to `t`: its pseudo-channel and place
there stay (spec/09 R245, R246). -/
def movedAddr (s t a : Nat) : Nat :=
  let u := a / 256
  let q := u / 768
  let h (x : Nat) : Nat := crc32cFrom x (beBytes 4 q) % 768
  (768 * q + (u % 768 + h s + 768 - h t) % 768) * 256 + a % 256

/-- A write of MEM_HASH_SEED: discarded while either region holds anything; a new seed moves every address (spec/09
R246). -/
def memHashSeedWrite (val : Nat) (d : Dev) : Dev :=
  if collUsed d ≠ 0 ∨ optUsed d ≠ 0 then raise d (srcMem 0) 5
  else
    let m := movedAddr (rd d .memHashSeed []) (val % 2 ^ 32)
    wr { d with mem := { d.mem with
      bytes := d.mem.bytes.foldl (fun t e => tput 0 t (m e.1) e.2) [], poison := d.mem.poison.map (fun k => m (64 * k) / 64) } }
      .memHashSeed [] val

end Sys2Proof.Machine
end

