-- ==== Sys2Proof/Machine/Bolt.lean ====
section
/-! DEFINITION. The Bolt store: bands and wear, images and the catalogue, checkpoints, restores, exports,
scrub and relocation, and SHARD_READ (spec/10; spec/08 R226, R227; spec/14 R376). -/
namespace Sys2Proof.Machine

/-! ### Bands, blocks and spares (spec/10 R268–R274) -/

/-- BOLT_STATE.STATE: 0 OFF, 1 MOUNTING, 2 READY, 3 WARN, 4 READONLY, 5 FAILED. -/
def boltSt (d : Dev) : Nat := rdf d .boltState [] 2 0

/-- The store is in service. -/
def boltUp (d : Dev) : Bool := decide (2 ≤ boltSt d) && decide (boltSt d ≤ 4)

/-- Change the store. -/
def setBolt (d : Dev) (f : BoltState → BoltState) : Dev := { d with bolt := f d.bolt }

/-- User bands of the store. -/
abbrev bandCount : Nat := 5120

/-- Planes of the package. -/
abbrev planeCount : Nat := 512

/-- Channel of a die of the package. -/
def chanOf (fdie : Nat) : Nat := fdie / 8

/-- Bands that images hold. -/
def bandsUsed (d : Dev) : List Nat := d.bolt.imgs.flatMap (·.bands)

/-- Free bands, ascending. -/
def bandsFree (d : Dev) : List Nat :=
  let u := bandsUsed d
  (List.range bandCount).filter (fun b => !u.contains b)

/-- Free bands that are erased. -/
def bandsErased (d : Dev) : List Nat := (bandsFree d).filter (fun b => !d.bolt.dirty.contains b)

/-- Sum over the planes of a band's erase counts. -/
def bandWear (d : Dev) (b : Nat) : Nat :=
  planeCount * tgetD d.bolt.erases b 0 -
    d.bolt.repl.foldl (fun a e => if e.1 / planeCount = b then a + e.2 else a) 0

/-- Erase count of a plane-block. -/
def blockWear (d : Dev) (b p : Nat) : Nat := tgetD d.bolt.erases b 0 - tgetD d.bolt.repl (b * planeCount + p) 0

/-- Free spares of the worst plane. -/
def spareMin (d : Dev) : Nat := 340 - (d.bolt.spareUsed.map (·.2)).foldl natMax 0

/-- BOLT_STATE and BOLT_SPARE_CNT follow the spares of the worst plane (spec/10 R274). -/
def checkSpares (d : Dev) (chan : Nat) : Dev :=
  let m := spareMin d
  let d := wr d .boltSpareCnt [] m
  if !boltUp d then d
  else
    let d := if m ≤ 16 ∧ boltSt d = 2 then raise (wr d .boltState [] 3) (srcBolt chan) 6 else d
    if m = 0 then wr d .boltState [] 4 else d

/-- The block of a plane that holds a band's data: its own, or the spare of its map entry. -/
def physBlock (d : Dev) (b p : Nat) : Nat := tgetD d.bolt.map (b * planeCount + p) b

/-- First spare block of a plane: the spares follow the user blocks and the two of the system area (log entry 116). -/
abbrev firstSpare : Nat := 5122

/-- The band whose data a block of a plane holds. -/
def bandOfBlock (d : Dev) (p block : Nat) : Option Nat :=
  match d.bolt.map.find? (fun e => e.1 % planeCount == p && e.2 == block) with
  | some e => some (e.1 / planeCount)
  | none => if block < bandCount ∧ (tget? d.bolt.map (block * planeCount + p)).isNone then some block else none

/-- A change of the catalogue or of the band map is journalled (spec/10 R280; log entry 117). -/
def journalled (d : Dev) : Dev :=
  setBolt d (fun b => { b with journal := ⟨(b.journal.map (·.seq)).headD 0 + 1, b.imgs, b.map, false, false⟩ :: b.journal })

/-- Retire a plane-block: its data goes to a spare of the same plane, and the band's map entry follows (spec/10 R271). -/
def retire (d : Dev) (p block : Nat) : Dev :=
  let chan := chanOf (p / 4)
  let band := bandOfBlock d p block
  let d := setBolt d (fun b => { b with
    bad := b.bad ++ [(p, block)],
    spareUsed := tput 0 b.spareUsed p (natMin 340 (tgetD b.spareUsed p 0 + 1)),
    map := match band with
      | some x => tset b.map (x * planeCount + p) (firstSpare + natMin 339 (tgetD b.spareUsed p 0))
      | none => b.map,
    repl := match band with
      | some x => tput 0 b.repl (x * planeCount + p) (tgetD b.erases x 0)
      | none => b.repl })
  checkSpares (raise (journalled d) (srcBolt chan) 1) chan

/-- Erase a band: its erase count rises, its read counts clear; a block at 30,000 is retired. -/
def eraseBand (d : Dev) (b : Nat) : Dev :=
  let d := setBolt d (fun x => { x with
    erases := tput 0 x.erases b (tgetD x.erases b 0 + 1),
    wseq := tdel x.wseq b,
    dirty := x.dirty.filter (· != b),
    reads := x.reads.filter (fun e => e.1 / 513 != b) })
  let d := cnt1 d (srcBolt 0) 12
  if tgetD d.bolt.erases b 0 < 30000 then d
  else (List.range planeCount).foldl (fun d p => if 30000 ≤ blockWear d b p then retire d p (physBlock d b p) else d) d

/-- The band of a list with the lowest mean erase count, the lowest number among equals. -/
def coldest (d : Dev) (l : List Nat) : Option Nat :=
  l.foldl (fun a b => match a with
    | none => some b
    | some x => if bandWear d b < bandWear d x then some b else some x) none

/-- The next band to take: a free erased one with the lowest mean erase count, else the one freed longest ago, which is
erased first (spec/10 R272).  (Irreducible: else the equations of `takeBands` count through all bands.) -/
@[irreducible] def nextBand (d : Dev) (got : List Nat) : Option (Nat × Dev) :=
  match coldest d ((bandsErased d).filter (fun b => !got.contains b)) with
  | some b => some (b, d)
  | none => (d.bolt.dirty.filter (fun b => !got.contains b)).head?.map (fun b => (b, eraseBand d b))

/-- Allocate `n` bands, one after another (spec/10 R272). -/
def takeBands : Nat → Dev → List Nat → List Nat × Dev
  | 0, d, got => (got, d)
  | n + 1, d, got =>
    match nextBand d got with
    | some (b, d) => takeBands n d (got ++ [b])
    | none => (got, d)

/-- Free bands; they wait to be erased. -/
def freeBands (d : Dev) (bs : List Nat) : Dev :=
  setBolt d (fun x => { x with
    dirty := x.dirty ++ bs, reloc := x.reloc.filter (fun b => !bs.contains b),
    scrubAt := x.scrubAt.filter (fun e => !bs.contains e.1),
    pageAt := x.pageAt.filter (fun e => !bs.contains (e.1 / 65536)) })

/-- Count one read of a plane-block, or of every block of a band's pages (plane 512), while SCRUB_EN is 1. -/
def countReads (d : Dev) (b p n : Nat) : Dev :=
  if !rdb d .boltCtl [] 0 then d
  else
  let key := b * 513 + p
  let d := setBolt d (fun x => { x with reads := tput 0 x.reads key (tgetD x.reads key 0 + n) })
  let limit := natMax 1 (rdf d .boltRd [] 15 0) * 1000
  let blockReads (q : Nat) := tgetD d.bolt.reads (b * 513 + q) 0 + tgetD d.bolt.reads (b * 513 + 512) 0
  let most := (d.bolt.reads.filter (fun e => e.1 / 513 == b && e.1 % 513 != 512)).foldl (fun a e => natMax a (blockReads (e.1 % 513))) 0
  if decide (limit ≤ natMax most (tgetD d.bolt.reads (b * 513 + 512) 0)) &&
      !d.bolt.reloc.contains b then
    setBolt d (fun x => { x with reloc := x.reloc ++ [b] })
  else d

/-- The bin of a codeword by its corrected bits (spec/10 Table 10-4). -/
def bitBin (n : Nat) : Nat := if n < 8 then 0 else if n < 24 then 1 else if n < 49 then 2 else 3

/-- Count `n` codewords read without a corrected bit. -/
def countWords (d : Dev) (n : Nat) : Dev :=
  setBolt d (fun x => { x with bins := lset x.bins 0 (x.bins.getD 0 0 + n) })

/-- One of the codewords just counted has corrected bits of a bin. -/
def moveWord (d : Dev) (k : Nat) : Dev :=
  setBolt d (fun x =>
    let b := lset x.bins 0 (x.bins.getD 0 0 - 1)
    { x with bins := lset b k (b.getD k 0 + 1) })

/-! ### Images (spec/10 R275, R276) -/

/-- S of an image of shards with given side sizes. -/
def imageSize (zs : List Nat) : Nat := zs.foldl (fun a z => a + 4096 + alignUp z 4096) 65536

/-- Bands of S bytes. -/
def imageBands (s : Nat) : Nat := (s + 2 ^ 30 - 1) / 2 ^ 30

/-- Pages of S bytes. -/
def imagePages (s : Nat) : Nat := (s + 16383) / 16384

/-- The image of a partition and generation. -/
def findImg (d : Dev) (part : BitVec 12) (gen : BitVec 32) : Option BoltImg :=
  d.bolt.imgs.find? (fun i => i.part == part && i.gen == gen)

/-- Replace an image. -/
def setImg (d : Dev) (i : BoltImg) : Dev :=
  setBolt d (fun b => { b with imgs := b.imgs.map (fun x => if x.part = i.part ∧ x.gen = i.gen then i else x) })

/-- Insert an image in ascending (PARTITION, GEN). -/
def insertImg (i : BoltImg) : List BoltImg → List BoltImg
  | [] => [i]
  | x :: r =>
    if i.part.toNat < x.part.toNat ∨ (i.part = x.part ∧ i.gen.toNat < x.gen.toNat) then i :: x :: r
    else x :: insertImg i r

/-- A catalogue entry of 64 bytes (spec/10 Table 10-2). -/
def catEntry (i : BoltImg) : List Byte :=
  leBytes 4 i.gen.toNat ++ leBytes 2 i.part.toNat ++ leBytes 1 i.scope ++ leBytes 1 i.st ++ leBytes 4 i.step.toNat
    ++ leBytes 4 i.count ++ leBytes 8 i.size ++ leBytes 8 i.time ++ leBytes 4 i.crc.toNat ++ List.replicate 28 0

/-- A checkpoint, restore or export of a partition runs. -/
def partBusy (d : Dev) (part : BitVec 12) : Bool :=
  d.opt.ckpts.any (fun c => c.part == part) || d.opt.restores.any (fun c => c.part == part) ||
    d.bolt.exports.any (fun c => c.part == part)

/-- IMAGE_BUSY for an image. -/
def imageBusy (d : Dev) (i : BoltImg) : Bool := i.st == 1 || partBusy d i.part

/-- An image is being read. -/
def imageRead (d : Dev) (i : BoltImg) : Bool :=
  d.opt.restores.any (fun c => c.part == i.part && c.gen == i.gen) ||
    d.bolt.exports.any (fun c => c.part == i.part && c.gen == i.gen)

/-- The first Bolt status that applies to a command on an existing image (spec/10 R277). -/
def imgRefusal (d : Dev) (part : BitVec 12) (gen : BitVec 32) (read : Bool) : Option Nat :=
  if !boltUp d then some 0x40
  else if gen = 0 then some 0x42
  else match findImg d part gen with
    | none => some 0x44
    | some i => if imageBusy d i then some 0x45 else if read && i.st != 2 then some 0x06 else none

/-- The first Bolt status that applies to a checkpoint. -/
def ckptRefusal (d : Dev) (part : BitVec 12) (gen : BitVec 32) (need : Nat) : Option Nat :=
  if !boltUp d then some 0x40
  else if boltSt d = 4 then some 0x41
  else if gen = 0 then some 0x42
  else if (findImg d part gen).isSome then some 0x43
  else if partBusy d part then some 0x45
  else if (bandsFree d).length < need ∨ 1024 ≤ d.bolt.imgs.length then some 0x46
  else none

/-- Refuse a Bolt command. -/
def boltReject (d : Dev) (rp : Reply) (st : Nat) : Dev := complete (raise d (srcBolt 0) 3) rp st []

/-- Report an uncorrectable codeword at a page (spec/10 R270). -/
def reportUe (d : Dev) (p : FlashPage) : Dev :=
  raise d (srcBolt (chanOf p.die.toNat)) 0
    [(1, chanOf p.die.toNat), (1, p.die.toNat), (1, p.plane.toNat), (2, p.block.toNat), (1, p.page.toNat)]

/-- Pages of an image in its j-th band. -/
def pagesIn (i : BoltImg) (j : Nat) : Nat := natMin 65536 (imagePages i.size - 65536 * j)

/-- Where a page of an image stands: its band and its page of the band. -/
def pageOf (i : BoltImg) (idx : Nat) : Nat × Nat := (i.bands.getD (idx / 65536) 0, idx % 65536)

/-- The flash page that holds it. -/
def flashPage (d : Dev) (i : BoltImg) (idx : Nat) : FlashPage :=
  let (b, pg) := pageOf i idx
  let p := pg % planeCount
  ⟨BitVec.ofNat 7 (p / 4), BitVec.ofNat 2 p, BitVec.ofNat 13 (physBlock d b p), BitVec.ofNat 7 (pg / planeCount)⟩

/-- `n` bytes of an image whose layout the spec does not give. -/
def imageFill (key n : Nat) : List Byte := slice (Config.imageBytes key n) 0 n

/-- The bytes of an image: header, then each shard's record and side (spec/10 R275). -/
def imageData (i : BoltImg) : List Byte :=
  catEntry i ++ imageFill i.key (65536 - 64) ++
    (i.shards.map (fun x => imageFill (i.key + 1 + x.sh) 4096 ++ x.side ++
      imageFill (i.key + 10000 + x.sh) (alignUp x.side.length 4096 - x.side.length))).flatten

/-- The 32 metadata bytes of a codeword: band, page, write sequence number, zeros, CRC (spec/10 R270). -/
def cwMeta (band page seq : Nat) (data : List Byte) : List Byte :=
  let m := leBytes 4 band ++ leBytes 2 page ++ leBytes 4 seq ++ List.replicate 18 0
  m ++ leBytes 4 (crc32c (data ++ m))

/-- A codeword of an image as it was written. -/
def cwWritten (i : BoltImg) (idx cw : Nat) : List Byte × List Byte :=
  let data := slice (imageData i) (16384 * idx + 4096 * cw) 4096
  (data, cwMeta (pageOf i idx).1 (pageOf i idx).2 i.seq data)

/-- A codeword's bands still hold what the image wrote there. -/
def intact (d : Dev) (i : BoltImg) (idx : Nat) : Bool := tgetD d.bolt.wseq (pageOf i idx).1 0 == i.seq

/-- A read returns a codeword: it decodes, its CRC checks, and its band and page match the address (spec/10 R270). -/
def cwGood (d : Dev) (i : BoltImg) (r : CwRead) : Bool :=
  intact d i r.idx && !i.lost.contains (r.idx, r.cw.toNat) && (r.bits == 0 || Config.ldpcCorrects r.bits) &&
  match r.word with
  | none => true
  | some (data, m) =>
    decide (leAt m 28 4 = crc32c (data ++ m.take 28)) && decide (leAt m 0 4 = (pageOf i r.idx).1) &&
      decide (leAt m 4 2 = (pageOf i r.idx).2)

/-- One codeword of those just counted as clean is not: its corrected bits are counted, above 48 its band is due for
relocation; or it is uncorrectable (spec/10 R270, R273). -/
def readWord (d : Dev) (i : BoltImg) (r : CwRead) : Dev :=
  if cwGood d i r then
    let d := cntN (if r.bits = 0 then d else moveWord d (bitBin r.bits)) (srcBolt 0) 8 r.bits
    let b := (pageOf i r.idx).1
    if 48 < r.bits ∧ ¬ d.bolt.reloc.contains b then setBolt d (fun x => { x with reloc := x.reloc ++ [b] }) else d
  else
    reportUe (setBolt d (fun x => { x with bins := lset x.bins 0 (x.bins.getD 0 0 - 1) })) (flashPage d i r.idx)

/-- The injections that wait at the channels of an image's pages: each takes the first codeword read there (spec/16
Table 16-1). -/
def injReads (d : Dev) (i : BoltImg) (idxs : List Nat) : List CwRead × Dev :=
  idxs.foldl (fun x idx =>
    let c := idx % planeCount / 32
    let (b, d) := takeMark x.2 0x0D (c / 4) c
    let (k, d) := takeMark d 0x0E (c / 4) c
    if b.isNone && k.isNone then (x.1, d)
    else
      let w := cwWritten i idx 0
      (x.1 ++ [⟨idx, 0, b.getD 0, if k.isSome then some (w.1, w.2.take 31 ++ [w.2.getD 31 0 ^^^ 1]) else none⟩], d)) ([], d)

/-- Pages of an image whose band holds other data by now, and codewords that a move could not read. -/
def lostReads (d : Dev) (i : BoltImg) : List CwRead :=
  ((List.range i.bands.length).filter (fun j => decide (0 < pagesIn i j) && !intact d i (65536 * j))).map
    (fun j => ⟨65536 * j, 0, 0, none⟩) ++ i.lost.map (fun x => ⟨x.1, BitVec.ofNat 2 x.2, 0, none⟩)

/-- One finding for each codeword: the first. -/
def mergeReads (rs : List CwRead) : List CwRead :=
  rs.foldl (fun l r => if l.any (fun x => x.idx == r.idx && x.cw == r.cw) then l else l ++ [r]) []

/-- The reads of pages `lo` to `hi - 1` of an image, with the codewords found other than clean: pages and codewords are
counted, errors reported; what was found. -/
def readPages (d : Dev) (i : BoltImg) (lo hi : Nat) (rs : List CwRead) : List CwRead × Dev :=
  let d := countWords (cntN d (srcBolt 0) 11 (hi - lo)) (4 * (hi - lo))
  let (inj, d) := injReads d i (((List.range 16).map (lo + 32 * ·)).filter (fun x => decide (x < hi)))
  let l := mergeReads (inj ++ (lostReads d i ++ rs).filter (fun r => decide (lo ≤ r.idx) && decide (r.idx < hi)))
  (l, l.foldl (fun d r => readWord d i r) d)

/-- A read of the first `m` pages of a band is counted for their blocks (spec/10 R273). -/
def bandReads (d : Dev) (b m : Nat) : Dev :=
  (List.range (m % planeCount)).foldl (fun d p => countReads d b p 1) (countReads d b 512 (m / planeCount))

/-- The reads of a whole image, a read for each page to its block; what was found. -/
def readImage (d : Dev) (i : BoltImg) (rs : List CwRead) : List CwRead × Dev :=
  let d := i.bands.zipIdx.foldl (fun d b =>
    let m := pagesIn i b.2
    let d := setBolt d (fun x => { x with
      scrubAt := if m = 0 then x.scrubAt else tset x.scrubAt b.1 d.now,
      pageAt := x.pageAt.filter (fun e => e.1 / 65536 != b.1) })
    bandReads d b.1 m) d
  readPages d i 0 (imagePages i.size) rs

/-- Of what a read found, where in the image a codeword that is uncorrectable stands. -/
def badAt (d : Dev) (i : BoltImg) (l : List CwRead) : List Nat :=
  (l.filter (fun r => !cwGood d i r)).map (fun r => 16384 * r.idx + 4096 * r.cw.toNat)

/-- Bytes of an image from a place on, as a read returned them: a codeword may decode to other data whose CRC checks. -/
def asRead (l : List CwRead) (off : Nat) (bs : List Byte) : List Byte :=
  l.foldl (fun bs r => match r.word with
    | some (data, _) =>
      let p := 16384 * r.idx + 4096 * r.cw.toNat
      if off ≤ p ∧ p < off + bs.length then bs.take (p - off) ++ (data ++ bs.drop (p - off + 4096)).take (bs.length - (p - off))
      else bs
    | none => bs) bs

/-! ### Pins (spec/08 R219, R226) -/

/-- Drop one pin of a side of a shard; a round that it kept closed may open. -/
def unpin (d : Dev) (sh side : Nat) : Dev :=
  match shardOf d sh with
  | none => d
  | some s =>
    let d := setShard d sh { s with pins := removeFirst (· == side) s.pins }
    match s.bound with
    | none => d
    | some slot => advance (if s.st = 1 then openRound d slot else d) slot

/-! ### Checkpoints (spec/08 R226, spec/10 R275–R278) -/

/-- Is a shard's role in a SCOPE? -/
def inScopeOf (scope : Nat) (s : Shard) : Bool := scope == 2 || s.role == scope

/-- OPT_CKPT. -/
def optCkpt (part : BitVec 12) (scope : Nat) (gen : BitVec 32) (d : Dev) (rp : Reply) : Dev :=
  let ss := (partShards d part).filter (fun e => inScopeOf scope e.2)
  let step := match ss with | e :: _ => e.2.step | [] => 0
  if d.opt.ckpts.any (fun c => c.part == part) then optReject d rp 0x3A []
  else if ss.any (fun e => e.2.step != step) then optReject d rp 0x3B []
  else
    let size := imageSize (ss.map (fun e => sideZ e.2.segs))
    match ckptRefusal d part gen (imageBands size) with
    | some st => optReject d rp st []
    | none =>
      let (bands, d) := takeBands (imageBands size) d []
      let img : BoltImg := { part := part, gen := gen, scope := scope, st := 1, step := step, count := ss.length,
                             size := size, time := 0, crc := 0, shards := [], bands := bands,
                             seq := d.bolt.nextSeq, key := d.draw, lost := [] }
      let d := journalled (setBolt { d with draw := d.draw + 20000 } (fun b => { b with
        imgs := insertImg img b.imgs, nextSeq := b.nextSeq + 1 }))
      let d := ss.foldl (fun d e => setShard d e.1 { e.2 with pins := e.2.pins ++ [e.2.side] }) d
      { d with opt := { d.opt with ckpts := d.opt.ckpts ++
        [⟨part, gen, scope, step, ss.map (fun e => ⟨e.1, e.2, none, false⟩), rp⟩] } }

/-- OPT_CKPT. -/
def execOptCkpt (h : CmdHdr) (part : BitVec 12) (scope : BitVec 2) (gen : BitVec 32) (s : State) :
    Host.Outcome State Fault Refusal :=
  act (fun d => runCmd d h 0x35 .h [some part.toNat, some scope.toNat, some gen.toNat] (scope != 3) (optCkpt part scope.toNat gen)) s

/-- Address of a captured side. -/
def snapAddr (x : CkptShard) : Nat := x.snap.base + x.snap.side * x.snap.z

/-- CKPT_SIDE_READ_DONE: the side has been read and is no longer pinned. -/
def ckptSideReadDone (part : BitVec 12) (sh : Nat) (d : Dev) : Dev :=
  match d.opt.ckpts.find? (fun c => c.part == part) with
  | none => d
  | some c =>
    match c.shards.find? (fun x => x.sh == sh && x.data.isNone) with
    | none => d
    | some x =>
      let d := sideGet d (snapAddr x) x.snap.segs
      let y := { x with data := some (sidePack d (snapAddr x) x.snap.segs), bad := poisoned d (snapAddr x) x.snap.z }
      let c := { c with shards := c.shards.map (fun z => if z.sh = sh then y else z) }
      unpin { d with opt := { d.opt with ckpts := d.opt.ckpts.map (fun k => if k.part = part then c else k) } }
        sh x.snap.side

/-- CKPT_SIDE_READ_DONE. -/
def execCkptSideReadDone (part : BitVec 12) (sh : Flawed (BitVec 13)) (s : State) : Host.Outcome State Fault Refusal :=
  act (withFlaws sh.flaws (ckptSideReadDone part sh.val.toNat)) s

/-- A checkpoint fails (spec/10 R278). -/
def ckptFail (d : Dev) (rp : Reply) (st : Nat) : Dev := complete (raise d (srcBolt 0) 2) rp st []

/-- The image of a checkpoint with its sides: every page has been programmed. -/
def ckptImage (c : Ckpt) (i : BoltImg) : BoltImg :=
  let shards := c.shards.map (fun x =>
    let b := x.data.getD []
    (⟨x.sh, x.snap, b, w32 (crc32c b)⟩ : ImgShard))
  { i with shards := shards, crc := w32 (crc32c (shards.map (fun x => leBytes 4 x.crc.toNat)).flatten) }

/-- OPT_CKPT_END: every side has been read; `rs`: codewords that the read-back finds other than clean. -/
def optCkptEnd (part : BitVec 12) (gen : BitVec 32) (rs : List CwRead) (d : Dev) : Dev :=
  match d.opt.ckpts.find? (fun c => c.part == part && c.gen == gen), findImg d part gen with
  | some c, some i =>
    if c.shards.any (fun x => x.data.isNone) || !flashOn d then d
    else
      let d := { d with opt := { d.opt with ckpts := d.opt.ckpts.filter (fun k => k.part != part) } }
      match c.shards.find? (·.bad) with
      | some x =>
        let d := consumePoison d ((poisonIn d (snapAddr x) x.snap.z).getD (snapAddr x))
        ckptFail (journalled (freeBands (setImg d { i with st := 3, bands := [] }) i.bands)) c.reply 0x05
      | none =>
        let i := ckptImage c i
        let d := setBolt (cntN d (srcBolt 0) 10 (imagePages i.size)) (fun b => { b with
          wseq := i.bands.foldl (fun t x => tset t x i.seq) b.wseq })
        let (l, d) := readImage (setImg d i) i rs
        if badAt d i l ≠ [] then ckptFail (journalled (setImg d { i with st := 3 })) c.reply 0x06
        else
          let d := journalled (setImg d { i with st := 2, time := nsNow d % 2 ^ 64 })
          let d := event d 0x0B82 0 0 [(2, part.toNat), (4, c.step.toNat)]
          complete d c.reply 0 (packFields [(32, c.step.toNat), (32, i.bands.length)])
  | _, _ => d

/-- OPT_CKPT_END. -/
def execOptCkptEnd (part : BitVec 12) (gen : BitVec 32) (rs : List CwRead) (s : State) :
    Host.Outcome State Fault Refusal :=
  act (optCkptEnd part gen rs) s

/-! ### Restores (spec/08 R227, spec/10 R279) -/

/-- A shard of an image is neither FREE nor IDLE and unbound. -/
def restoreBusy (d : Dev) (i : BoltImg) : Bool :=
  i.shards.any (fun x => match shardOf d x.sh with
    | some s => s.st != 1 || s.bound.isSome
    | none => false)

/-- OPT_RESTORE. -/
def optRestore (part : BitVec 12) (gen : BitVec 32) (d : Dev) (rp : Reply) : Dev :=
  let busy := boltUp d && (match findImg d part gen with | some i => restoreBusy d i | none => false)
  if busy then optReject d rp 0x34 []
  else match imgRefusal d part gen true with
    | some st => optReject d rp st []
    | none => { d with opt := { d.opt with restores := d.opt.restores ++ [⟨part, gen, rp⟩] } }

/-- OPT_RESTORE. -/
def execOptRestore (h : CmdHdr) (part : BitVec 12) (gen : BitVec 32) (s : State) :
    Host.Outcome State Fault Refusal :=
  act (fun d => runCmd d h 0x36 .h [some part.toNat, some gen.toNat] true (optRestore part gen)) s

/-- The committed side and the entry of one shard from its image record; none: no room in the region. -/
def restoreShard (d : Dev) (step : BitVec 32) (x : ImgShard) : Option Dev :=
  let entry (s : Shard) : Shard :=
    { s with st := 1, step := step, rb := false, lost := false, hs := x.snap.hs.map (fun h => ⟨h.cur, none⟩) }
  match shardOf d x.sh with
  | some s => some (setShard (sideUnpack (s.base + s.side * s.z) (sideSlots s.segs) x.side d) x.sh (entry s))
  | none =>
    match optFit d (2 * x.snap.z) with
    | none => none
    | some a =>
      let s := { x.snap with base := a, side := 0, bound := none, pins := [] }
      some (setShard (sideUnpack a (sideSlots s.segs) x.side d) x.sh (entry s))

/-- All shards of an image. -/
def restoreAll (step : BitVec 32) : List ImgShard → Dev → Option Dev
  | [], d => some d
  | x :: r, d => (restoreShard d step x).bind (restoreAll step r)

/-- The shards of an image with their sides as a read returned them, from a place on: the side, and does its shard fail: by
an uncorrectable codeword of its record or side, or by the CRC of its side (spec/10 R279; a record that decodes to other data
holds another CRC: log entry 117).  One in the header fails the first shard. -/
def shardsRead (bad : List Nat) (l : List CwRead) : Nat → List ImgShard → List (ImgShard × Bool)
  | _, [] => []
  | a, x :: r =>
    let e := a + 4096 + alignUp x.side.length 4096
    let y := { x with side := asRead l (a + 4096) x.side }
    let lo := if a = 65536 then 0 else a
    (y, bad.any (fun p => decide (lo ≤ p) && decide (p < e)) || y.crc != w32 (crc32c y.side)
        || l.any (fun r => 16384 * r.idx + 4096 * r.cw.toNat == a && r.word.isSome))
      :: shardsRead bad l e r

/-- OPT_RESTORE_END: the image has been read; `rs`: codewords found other than clean. -/
def optRestoreEnd (part : BitVec 12) (gen : BitVec 32) (rs : List CwRead) (d : Dev) : Dev :=
  if !flashOn d then d
  else match d.opt.restores.find? (fun c => c.part == part && c.gen == gen), findImg d part gen with
  | some c, some i =>
    let d := { d with opt := { d.opt with
      restores := removeFirst (fun k => k.part == part && k.gen == gen) d.opt.restores } }
    let (l, d) := readImage d i rs
    let bad := badAt d i l
    let ss := shardsRead bad l 65536 i.shards
    if bad ≠ [] ∨ ss.any (·.2) = true then
      let sh := match ss.find? (·.2) with | some x => x.1.sh | none => 0
      complete (journalled (setImg d { i with st := 3 })) c.reply 0x06 (packFields [(13, sh)])
    else
      match restoreAll i.step (ss.map (·.1)) d with
      | some d => complete d c.reply 0 (packFields [(32, i.step.toNat)])
      | none => optReject d c.reply 0x22 []
  | _, _ => d

/-- OPT_RESTORE_END. -/
def execOptRestoreEnd (part : BitVec 12) (gen : BitVec 32) (rs : List CwRead) (s : State) :
    Host.Outcome State Fault Refusal :=
  act (optRestoreEnd part gen rs) s

/-! ### SHARD_READ (spec/14 R376) -/

/-- Where slot values of `n` elements from `e` on stand, segment by segment: address and bytes; none where a segment lacks
the slot. -/
def slotPieces (s : Shard) (slot : Nat) : Nat → Nat → Nat → Option (List (Nat × Nat))
  | 0, _, n => if n = 0 then some [] else none
  | f + 1, e, n =>
    if n = 0 then some []
    else match segAt s.segs e with
      | none => none
      | some (k, g) =>
        if g.slots ≤ slot then none
        else
          let m := natMin n (g.start + g.count - e)
          (slotPieces s slot f (e + m) (n - m)).map ((slotAddr s s.side k g slot e, 4 * m) :: ·)

/-- SHARD_READ. -/
def shardReadCmd (sh slot first count : Nat) (addr : Nat) (d : Dev) (rp : Reply) : Dev :=
  match shardOf d sh with
  | none => shardReject d rp sh 0x30 []
  | some s =>
    match slotPieces s slot (s.segs.length + 1) first count with
    | none => refuseGen d rp 0x09
    | some ps =>
      let d := ps.foldl (fun d x => (memGet d x.1 x.2).2) d
      let bs := ps.flatMap (fun x => memRd d x.1 x.2)
      let d := setShard d sh { s with pins := s.pins ++ [s.side] }
      { d with opt := { d.opt with reads := d.opt.reads ++ [⟨sh, s.side, addr, bs, s.step, rp⟩] } }

/-- SHARD_READ. -/
def execShardRead (h : CmdHdr) (sh : BitVec 13) (slot : BitVec 2) (first count : BitVec 40) (addr : BitVec 64)
    (s : State) : Host.Outcome State Fault Refusal :=
  act (fun d => runCmd d h 0x37 .h [some sh.toNat, some slot.toNat, some first.toNat, some count.toNat, some addr.toNat] true
    (fun d rp => withFlaws h.flaws (fun d => shardReadCmd sh.toNat slot.toNat first.toNat count.toNat addr.toNat d rp) d)) s

/-- SHARD_READ_END: the oldest copy of a shard ends. -/
def shardReadEnd (sh : Nat) (d : Dev) : Dev :=
  match d.opt.reads.find? (fun r => r.sh == sh) with
  | none => d
  | some r =>
    let d := { d with opt := { d.opt with reads := removeFirst (fun r => r.sh == sh) d.opt.reads } }
    let d := cmdOutput (unpin d sh r.side) r.reply r.addr r.bytes
    complete d r.reply 0 (packFields [(32, r.step.toNat)])

/-- SHARD_READ_END. -/
def execShardReadEnd (sh : BitVec 13) (s : State) : Host.Outcome State Fault Refusal :=
  act (shardReadEnd sh.toNat) s

/-! ### Bolt commands (spec/10 Table 10-8) -/

/-- BOLT_LIST. -/
def execBoltList (h : CmdHdr) (addr : BitVec 64) (limit : BitVec 32) (s : State) :
    Host.Outcome State Fault Refusal :=
  act (fun d => runCmd d h 0x40 .h [some addr.toNat, some limit.toNat] true (fun d rp =>
    if !boltUp d then boltReject d rp 0x40
    else
      let l := d.bolt.imgs.take limit.toNat
      complete (cmdOutput d rp addr.toNat (l.map catEntry).flatten) rp 0 (packFields [(32, l.length)]))) s

/-- BOLT_DELETE: it takes effect when both copies of its journal record are programmed (R280). -/
def execBoltDelete (h : CmdHdr) (part : BitVec 12) (gen : BitVec 32) (s : State) :
    Host.Outcome State Fault Refusal :=
  act (fun d => runCmd d h 0x41 .h [some part.toNat, some gen.toNat] true (fun d rp =>
    match imgRefusal d part gen false with
    | some st => boltReject d rp st
    | none => setBolt d (fun b => { b with deletes := b.deletes ++ [⟨part, gen, 0, rp⟩] }))) s

/-- BOLT_DELETE_JOURNALLED: the image and its bands go; a restore or export that reads it ends first (DESIGN CHOICE, log
entry 135). -/
def boltDeleteJournalled (part : BitVec 12) (gen : BitVec 32) (d : Dev) : Dev :=
  let hit (j : BoltJob) : Bool := j.part == part && j.gen == gen
  if !flashOn d || d.opt.restores.any (fun c => c.part == part && c.gen == gen) || d.bolt.exports.any hit then d
  else match d.bolt.deletes.find? hit with
  | none => d
  | some j =>
    let d := setBolt d (fun b => { b with deletes := removeFirst hit b.deletes })
    let d := match findImg d part gen with
      | some i => journalled (freeBands (setBolt d (fun b => { b with
          imgs := b.imgs.filter (fun x => !(x.part == part && x.gen == gen)) })) i.bands)
      | none => d
    complete d j.reply 0 []

/-- BOLT_DELETE_JOURNALLED. -/
def execBoltDeleteJournalled (part : BitVec 12) (gen : BitVec 32) (s : State) :
    Host.Outcome State Fault Refusal :=
  act (boltDeleteJournalled part gen) s

/-- BOLT_EXPORT. -/
def execBoltExport (h : CmdHdr) (part : BitVec 12) (gen : BitVec 32) (addr : BitVec 64) (s : State) :
    Host.Outcome State Fault Refusal :=
  act (fun d => runCmd d h 0x42 .h [some part.toNat, some gen.toNat, some addr.toNat] true (fun d rp =>
    match imgRefusal d part gen true with
    | some st => boltReject d rp st
    | none => setBolt d (fun b => { b with exports := b.exports ++ [⟨part, gen, addr.toNat, rp⟩] }))) s

/-- BOLT_EXPORT_END: the image has been read; `rs`: codewords found other than clean. -/
def boltExportEnd (part : BitVec 12) (gen : BitVec 32) (rs : List CwRead) (d : Dev) : Dev :=
  let hit (j : BoltJob) : Bool := j.part == part && j.gen == gen
  if !flashOn d then d
  else match d.bolt.exports.find? hit, findImg d part gen with
  | some j, some i =>
    let d := setBolt d (fun b => { b with exports := removeFirst hit b.exports })
    let (l, d) := readImage d i rs
    if badAt d i l ≠ [] then complete d j.reply 0x06 []
    else complete (cmdOutput d j.reply j.addr (asRead l 0 (imageData i))) j.reply 0 (packFields [(64, i.size)])
  | _, _ => d

/-- BOLT_EXPORT_END. -/
def execBoltExportEnd (part : BitVec 12) (x : ExportRead) (s : State) : Host.Outcome State Fault Refusal :=
  act (boltExportEnd part x.gen x.rs) s

/-- TIME cycles of an hour. -/
abbrev hourCycles : Nat := 4320000000000

/-- TIME cycle of the oldest read of a page of a band with `n` written pages. -/
def pageTime (d : Dev) (b n : Nat) : Option Nat :=
  let ps := (d.bolt.pageAt.filter (fun e => e.1 / 65536 == b)).map (·.2)
  if n = 0 then none else if n ≤ ps.length then ps.min? else tget? d.bolt.scrubAt b

/-- The health record (spec/10 Table 10-4). -/
def healthRecord (d : Dev) : List Byte :=
  let total := (List.range bandCount).foldl (fun a b => a + bandWear d b) 0
  let mean := total / (planeCount * bandCount)
  let high := d.bolt.erases.foldl (fun a e => natMax a (e.2 -
    ((d.bolt.repl.filter (fun r => r.1 / planeCount == e.1)).map (·.2)).foldl natMin
      (if (d.bolt.repl.filter (fun r => r.1 / planeCount == e.1)).length = planeCount then e.2 else 0))) 0
  let oldest := (d.bolt.imgs.flatMap (fun i => i.bands.zipIdx.filterMap (fun b => pageTime d b.1 (pagesIn i b.2)))).foldl
    natMin d.now
  leBytes 4 mean ++ leBytes 4 high ++ leBytes 4 (total * 1000 / (30000 * planeCount * bandCount))
    ++ leBytes 2 (spareMin d) ++ leBytes 2 d.bolt.bad.length ++ leBytes 4 (bandsFree d).length
    ++ leBytes 4 ((d.now - oldest) / hourCycles)
    ++ (List.range 4).flatMap (fun i => leBytes 4 (d.bolt.bins.getD i 0)) ++ List.replicate 24 0

/-- BOLT_HEALTH. -/
def execBoltHealth (h : CmdHdr) (addr : BitVec 64) (s : State) : Host.Outcome State Fault Refusal :=
  act (fun d => runCmd d h 0x43 .both [some addr.toNat] true (fun d rp =>
    if !boltUp d then boltReject d rp 0x40
    else complete (cmdOutput d rp addr.toNat (healthRecord d)) rp 0 [] (healthRecord d))) s

/-! ### Wear, scrub and relocation (spec/10 R271–R273) -/

/-- BOLT_PROGRAM_FAIL: a plane-block fails a program or an erase. -/
def boltProgramFail (fdie plane block : Nat) (d : Dev) : Dev :=
  let p := 4 * fdie + plane
  if !boltUp d || decide (5462 ≤ block) || d.bolt.bad.contains (p, block) then d
  else
    let used := match bandOfBlock d p block with | some b => (bandsUsed d).contains b | none => false
    retire (if used then cntN d (srcBolt 0) 10 128 else d) p block

/-- BOLT_PROGRAM_FAIL. -/
def execBoltProgramFail (fdie : BitVec 7) (plane : BitVec 2) (block : BitVec 13) (s : State) :
    Host.Outcome State Fault Refusal :=
  act (boltProgramFail fdie.toNat plane.toNat block.toNat) s

/-- Move the data of a band of an image to a fresh band and free the old one: every written page is read, `rs` being the
codewords found other than clean.  One that cannot be read is written as it stands and stays uncorrectable (DESIGN CHOICE, log
entry 135). -/
def moveBand (d : Dev) (i : BoltImg) (b : Nat) (rs : List CwRead) : Option Dev :=
  match takeBands 1 d [] with
  | (n :: _, d) =>
    let j := i.bands.findIdx (· == b)
    let lo := 65536 * j
    let (l, d) := readPages (bandReads d b (pagesIn i j)) i lo (lo + pagesIn i j) rs
    let gone := if intact d i lo then (l.filter (fun r => !cwGood d i r)).map (fun r => (r.idx, r.cw.toNat)) else []
    let d := setImg d { i with bands := i.bands.map (fun x => if x = b then n else x), lost := (i.lost ++ gone).eraseDups }
    let d := cntN d (srcBolt 0) 10 (pagesIn i j)
    some (journalled (setBolt (freeBands d [b]) (fun x => { x with
      scrubAt := tset x.scrubAt n d.now, wseq := tput 0 x.wseq n (tgetD x.wseq b 0) })))
  | _ => none

/-- The image that holds a band. -/
def imgOfBand (d : Dev) (b : Nat) : Option BoltImg := d.bolt.imgs.find? (fun i => i.bands.contains b)

/-- Written pages of a band. -/
def bandPages (d : Dev) (b : Nat) : Nat :=
  match imgOfBand d b with
  | some i => if i.st = 1 then 0 else pagesIn i (i.bands.findIdx (· == b))
  | none => 0

/-- BOLT_WL_MOVE: the spread of erase counts exceeds SPREAD; what its reads find is free (log entry 135). -/
def boltWlMove (d : Dev) : Dev :=
  let most := (List.range bandCount).foldl (fun a b => natMax a (bandWear d b)) 0
  let least := (List.range bandCount).foldl (fun a b => natMin a (bandWear d b)) most
  if !boltUp d || !flashOn d || decide (most - least ≤ planeCount * natMax 1 (rdf d .boltWl [] 15 0)) then d
  else match coldest d ((bandsUsed d).filter (fun b => decide (0 < bandPages d b))) with
    | none => d
    | some b =>
      match imgOfBand d b with
      | none => d
      | some i => (moveBand { d with draw := d.draw + 1 } i b (Config.freeReads d.draw)).getD d

/-- BOLT_WL_MOVE. -/
def execBoltWlMove (s : State) : Host.Outcome State Fault Refusal := act boltWlMove s

/-- BOLT_BAND_ERASE: the oldest freed band. -/
def boltBandErase (d : Dev) : Dev :=
  if !boltUp d || !flashOn d then d
  else match d.bolt.dirty with
    | [] => d
    | b :: _ => eraseBand d b

/-- BOLT_BAND_ERASE. -/
def execBoltBandErase (s : State) : Host.Outcome State Fault Refusal := act boltBandErase s

/-- The next written page at or after a position (band × 65536 + page), going round. -/
def nextPage (d : Dev) (pos : Nat) : Option (Nat × Nat) :=
  let bs := (List.range bandCount).filter (fun b => (bandsUsed d).contains b && decide (0 < bandPages d b))
  let b0 := pos / 65536
  if pos % 65536 < bandPages d b0 then some (b0, pos % 65536)
  else match bs.find? (fun b => decide (b0 < b)) with
    | some b => some (b, 0)
    | none => bs.head?.map (fun b => (b, 0))

/-- BOLT_SCRUB_READ: the next written page; `rs`: its codewords found other than clean. -/
def boltScrubRead (rs : List CwRead) (d : Dev) : Dev :=
  if !boltUp d || !rdb d .boltCtl [] 0 || !flashOn d then d
  else match nextPage d d.bolt.scrubPos with
    | none => d
    | some (b, pg) =>
      match imgOfBand d b with
      | none => d
      | some i =>
        let idx := 65536 * i.bands.findIdx (· == b) + pg
        let d := setBolt (countReads d b (pg % planeCount) 1) (fun x => { x with
          scrubPos := b * 65536 + pg + 1, pageAt := tset x.pageAt (b * 65536 + pg) d.now })
        (readPages d i idx (idx + 1) (rs.map (fun r => { r with idx := idx }))).2

/-- BOLT_SCRUB_READ. -/
def execBoltScrubRead (x : PageRead) (s : State) : Host.Outcome State Fault Refusal :=
  act (boltScrubRead x.rs) s

/-- BOLT_RELOCATE: a band due for relocation, unless it is being read. -/
def boltRelocate (b : Nat) (rs : List CwRead) (d : Dev) : Dev :=
  if !boltUp d || !flashOn d || !d.bolt.reloc.contains b then d
  else match imgOfBand d b with
    | none => d
    | some i =>
      if imageRead d i || i.st == 1 then d
      else match moveBand d i b rs with
        | some d => cnt1 d (srcBolt 0) 9
        | none => d

/-- BOLT_RELOCATE. -/
def execBoltRelocate (band : BandMove) (s : State) : Host.Outcome State Fault Refusal := act (boltRelocate band.band band.rs) s

/-! ### System area (spec/10 R283) -/

/-- Record of a lane's training cache: the partner's key and the taps that are in force. -/
def laneRecord (d : Dev) (l : Nat) : Option LaneCache :=
  match (tget? d.lanes l).bind (·.partner) with
  | none => none
  | some (serial, lane) =>
    some ⟨serial, lane, (List.range 5).map (fun s =>
      BitVec.ofNat 64 (rd d .lnTapsHi (lix l ++ [s]) * 2 ^ 32 + rd d .lnTapsLo (lix l ++ [s]))),
      ((tget? d.lanes l).map (·.freq)).getD 0⟩

/-- A new version of a record, from the device's present state. -/
def newRecord (r : BoltRec) (d : Dev) : Dev :=
  match r with
    | .laneCache l =>
      match laneRecord d l with
      | some c => setBolt d (fun b => { b with lane := tset b.lane (l % 512) c })
      | none => d
    | .memTrain => setBolt d (fun b => { b with memTrain := d.mem.settings })
    | .seamMap => setBolt d (fun b => { b with seamMap := d.seams.filterMap (fun e =>
        let m := e.2.mapped.filter (fun w => !e.2.tempMap.contains w)
        if m = [] then none else some (e.1, m)) })
    | .laserAging => setBolt { d with draw := d.draw + 72 } (fun b => { b with
        aging := (List.range 8).foldl (fun t m => tset t m
          ((rd d .elsSerialHi [m] * 2 ^ 32 + rd d .elsSerialLo [m]) ::
            (List.range 9).flatMap (fun i =>
              [rdf d .elsBias [m, i] 15 0, (Config.freeWord (d.draw + 9 * m + i)).toNat % 65536]))) b.aging })
    | .repair => setBolt d (fun b => { b with
        repair := some ⟨rd d .idSpare, rd d .relSpareMap, d.mem.lanePend⟩ })
    | .boots => d

/-- The number of a record of the system area: the lanes' training records by lane, then the others. -/
def recNo (r : BoltRec) : Nat :=
  match r with
  | .laneCache l => 16 + l % 512 | .memTrain => 1 | .seamMap => 2 | .laserAging => 3 | .repair => 4 | .boots => 5

/-- A record whose new version stands whole in both copies: its number rises, and it is no longer bad (spec/10 R283). -/
def bumpRecord (r : BoltRec) (d : Dev) : Dev :=
  setBolt d (fun b => { b with
    recVer := tset b.recVer (recNo r) (tgetD b.recVer (recNo r) 0 + 1), recBad := b.recBad.filter (fun x => recNo x != recNo r) })

/-- BOLT_RECORD_WRITE: a new version of a record takes the place of the older one once both of its copies have been
programmed; `whole`: they have been.  BOOTS is the mount logic's to write (spec/10 R283). -/
def boltRecordWrite (r : BoltRec) (whole : Bool) (d : Dev) : Dev :=
  if !boltUp d || !flashOn d || !whole || recNo r == 5 then d else newRecord r (bumpRecord r d)

/-- BOLT_RECORD_WRITE. -/
def execBoltRecordWrite (w : RecWrite) (s : State) : Host.Outcome State Fault Refusal :=
  act (boltRecordWrite w.r w.whole) s

end Sys2Proof.Machine
end

