-- ==== Sys2Proof/Machine/Egress.lean ====
section
/-! DEFINITION. Copies of frames and their way out: replication, mirror sessions, Swatch records, shapers,
the scheduler and transmission (spec/02 R32, spec/04 R108–R113, R119, R120, spec/05 R129, R133, R134,
spec/13 R341, R342, spec/17 R438–R441). -/
namespace Sys2Proof.Machine

/-! ### Swatch records (spec/17 R440, R441) -/

/-- Note stage `k` (1 to 7) of a Swatch as passed now. -/
def swStage (d : Dev) (k : Nat) (s : Swatch) : Swatch :=
  { s with stages := lset s.stages (k - 1) (some (natMin 0xFFFF (d.now - s.s0))) }

/-- The 64-byte record of a Swatch (spec/17 Table 17-3). -/
def swRecord (s : Swatch) (f : Frame) (len inPort vcIn vcOut egr : Nat) (ct disc nodest demoted : Bool) :
    List Byte :=
  let st := s.stages.map (fun o => o.getD 0)
  let sat := s.stages.any (fun o => o == some 0xFFFF)
  let flags := b2n ct + 2 * b2n disc + 4 * b2n nodest + 8 * b2n s.followed + 16 * b2n sat
    + 32 * b2n f.hdr.mcast + 64 * b2n f.hdr.order + 128 * b2n demoted
  let reached := (List.range 7).foldl
    (fun a k => a + (if (s.stages.getD k none).isSome then 2 ^ (k + 1) else 0)) 1
  leBytes 1 2 ++ leBytes 1 (inPort / 128) ++ leBytes 1 flags ++ leBytes 1 reached
    ++ leBytes 2 s.id.toNat ++ leBytes 2 f.hdr.part.toNat ++ leBytes 2 inPort ++ leBytes 2 egr
    ++ leBytes 1 (vcIn + 8 * vcOut + 64 * f.hdr.cls.toNat) ++ leBytes 1 f.hdr.hopAge.toNat
    ++ leBytes 2 len ++ leBytes 8 s.ns0 ++ leBytes 2 (s.fr0 / 65536)
    ++ leBytes 1 s.hops ++ leBytes 1 s.seams
    ++ (List.range 7).flatMap (fun k => leBytes 2 (st.getD k 0))
    ++ leBytes 3 f.hdr.dst.toNat ++ leBytes 3 f.hdr.src.toNat
    ++ leBytes 1 (if nodest then 0 else egr / 128) ++ List.replicate 15 0

/-- Queue a finished record with its ingress die, which holds 64; a record of a frame sampled earlier that finds the queue
full counts as skipped (R441, log entry 139). -/
def swQueue (d : Dev) (die : Nat) (r : List Byte) : Dev :=
  if 64 ≤ (tgetD d.pmc.swq die []).length then raise d srcPmc 3
  else { d with pmc := { d.pmc with swq := tput [] d.pmc.swq die (tgetD d.pmc.swq die [] ++ [r]) } }

/-! ### Egress virtual channel, mirror copies -/

/-- A frame that its policer has moved to VC7 (spec/05 R128). -/
def demoted (i : Ing) : Bool := i.frame.hdr.vc == 7 && i.vcIn != 7

/-- The VC of a copy on a port: the frame's, or the VC on which it arrived where it was demoted and the
partner granted no VC7 cells in its initial link-control frame (spec/05 R129); before that frame has come, the frame's. -/
def egrVc (d : Dev) (i : Ing) (c : Copy) (p : Nat) : Nat :=
  match c.via with
  | .mirror _ => c.vc
  | _ => if demoted i && (linkSt d p).lcfRcvd && !(linkSt d p).vc7 then i.vcIn else i.frame.hdr.vc.toNat

/-- May a copy enter the mesh: its frame is released, or the copy is a mirror copy. -/
def copyFree (i : Ing) (c : Copy) : Bool :=
  match c.via with
  | .mirror _ => true
  | _ => i.hold == .ready && !i.floodWait

/-- Append a copy to an ingress frame. -/
def addCopy (i : Ing) (ports : List Nat) (vc : Nat) (via : Via) : Ing :=
  let n := ports.length
  { i with
    copies := i.copies ++ [⟨i.copies.foldl (fun a c => natMax a (c.id + 1)) 0, ports, vc, via⟩]
    out := i.out + n
    unsent := i.unsent + (match via with | .mirror _ => 0 | _ => n) }

/-- Cells that a session has queued toward its analysis port. -/
def mirCells (d : Dev) (s : Nat) : Nat := tgetD d.rt.mirQ s 0

/-- Change the cells that a session has queued. -/
def setMir (d : Dev) (s n : Nat) : Dev := { d with rt := { d.rt with mirQ := tput 0 d.rt.mirQ s n } }

/-- Analysis port and VC of a session. -/
def mirPort (d : Dev) (s : Nat) : Nat := rdf d .mirCtl [s] 17 9
/-- VC of a session's copies. -/
def mirVc (d : Dev) (s : Nat) : Nat := rdf d .mirCtl [s] 27 25

/-- A session's copies may leave: its analysis port begins a port of the ANALYSIS role, its VC is one of VC3–VC7
(spec/03 R86). -/
def mirWay (d : Dev) (s : Nat) : Bool :=
  let q := mirPort d s
  decide (0 < portW d q) && portRole d q == 2 && decide (3 ≤ mirVc d s)

/-- May a session copy: enabled, and its copies may leave. -/
def mirOn (d : Dev) (s : Nat) : Bool := rdb d .mirCtl [s] 31 && mirWay d s

/-- Does a session select a frame received on a port (spec/04 R119)? -/
def mirRx (d : Dev) (s p : Nat) (h : FabHdr) : Bool :=
  mirOn d s &&
  match rdf d .mirCtl [s] 29 28 with
  | 0 | 2 => rdf d .mirCtl [s] 8 0 == p
  | 3 =>
    rdf d .mirFlowP [s] 11 0 == h.part.toNat
      && (rdb d .mirFlowP [s] 31 || rdf d .mirFlowSrc [s] 23 0 == h.src.toNat)
      && (rdb d .mirFlowP [s] 30 || rdf d .mirFlowDst [s] 23 0 == h.dst.toNat)
  | _ => false

/-- Does a session select frames transmitted on a port? -/
def mirTx (d : Dev) (s p : Nat) : Bool :=
  mirOn d s && (rdf d .mirCtl [s] 29 28 == 1 || rdf d .mirCtl [s] 29 28 == 2)
    && rdf d .mirCtl [s] 8 0 == p

/-- A session's queue has room for cells. -/
def mirRoom (d : Dev) (s cells : Nat) : Bool := decide (mirCells d s + cells ≤ rdf d .mirMaxcells [s] 15 0)

/-- A copy made at a tile joins a session's queue. -/
def mirTake (d : Dev) (s t cells : Nat) : Dev := noteSent (setMir d s (mirCells d s + cells)) t cells [mirPort d s]

/-- A copy waits for room in its session's queue. -/
def mirHold (d : Dev) (die : Nat) (h : MirHeld) : Dev :=
  event (stSet { d with rt := { d.rt with mirHeld := d.rt.mirHeld ++ [h] } } (srcRt die 0) 6) 0x0406 die 0 []

/-- Copy an ingress frame for a session: at the queue limit the copy waits or is discarded
(spec/04 R120).  One that fits joins the queue, though larger ones of the session may be held (DESIGN CHOICE, log entry
19). -/
def mirrorIng (d : Dev) (i : Ing) (s : Nat) : Ing × Dev :=
  let cells := frameCells d i.orig
  if mirRoom d s cells then
    (addCopy i [mirPort d s] (mirVc d s) (.mirror s), mirTake d s (i.port / 8) cells)
  else if rdb d .mirCtl [s] 30 then (i, raise d (srcSw (i.port / 8)) 3)
  else ({ i with out := i.out + 1 }, mirHold d (i.port / 128) ⟨s, some i.id, i.orig⟩)

/-- Copy an ingress frame once for every session that selects it as received. -/
def mirrorAll (d : Dev) (i : Ing) : Ing × Dev :=
  (List.range 16).foldl
    (fun x s => if mirRx x.2 s i.port i.orig.hdr then mirrorIng x.2 x.1 s else x) (i, d)

/-- A mirror copy of a frame: as received, on the session's VC. -/
def mirFrame (f : Frame) (vc : Nat) : Frame := { f with hdr := { f.hdr with vc := BitVec.ofNat 3 vc } }

/-- A mirror copy of a frame with no ingress cells leaves a tile toward its session's analysis port. -/
def mirPush (d : Dev) (s t : Nat) (f : Frame) : Dev :=
  let v := mirVc d s
  let e : Egr := { ownEgr d (mirFrame f v) with via := .mirror s }
  { d with sw := { d.sw with ownq := d.sw.ownq ++ [⟨t, 8 * mirPort d s + v, d.now, e⟩] } }

/-- Copy a frame that has no ingress cells, one that the device made or one that ends stomped, for a session: the
limit and the policy of R120 hold for it too. -/
def mirrorOwn (d : Dev) (s t : Nat) (f : Frame) : Dev :=
  let cells := frameCells d f
  if mirRoom d s cells then mirPush (mirTake d s t cells) s t f
  else if rdb d .mirCtl [s] 30 then raise d (srcSw t) 3
  else mirHold d (t / 16) ⟨s, none, f⟩

/-- Copy a frame that starts transmission for every session that selects it: from its ingress cells, which stand
until now, or from the frame itself. -/
def mirrorOut (d : Dev) (p : Nat) (e : Egr) : Dev :=
  match e.via with
  | .mirror _ => d
  | _ =>
    (List.range 16).foldl (fun d s =>
      if mirTx d s p then
        match e.ing.bind (findIng d) with
        | some i =>
          if i.frame.fcs = .good then
            let (i, d) := mirrorIng d i s
            setIng d i
          else mirrorOwn d s (p / 8) { i.orig with fcs := .stomped }
        | none => mirrorOwn d s (p / 8) e.frame
      else d) d

/-- MIRROR_COPY_SEND: the oldest copy that a session holds joins its queue once there is room
(spec/04 R120) and the session's port and VC are such as R86 of spec/03 allows. -/
def mirrorCopySend (s : Nat) (d : Dev) : Dev :=
  match d.rt.mirHeld.find? (fun h => h.session == s) with
  | none => d
  | some h =>
    let cells := frameCells d h.frame
    if mirWay d s && mirRoom d s cells then
      let d := { d with rt := { d.rt with mirHeld := removeFirst (fun x => x.session == s) d.rt.mirHeld } }
      match h.ing with
      | none =>
        let t := rdf d .mirCtl [s] 8 0 / 8
        mirPush (mirTake d s t cells) s t h.frame
      | some id =>
        match findIng d id with
        | none => d
        | some i =>
          let i := addCopy { i with out := i.out - 1 } [mirPort d s] (mirVc d s) (.mirror s)
          mirTake (setIng d i) s (i.port / 8) cells
    else d

/-- MIRROR_COPY_SEND. -/
def execMirrorCopySend (session : Fin 16) (s : State) : Host.Outcome State Fault Refusal :=
  act (mirrorCopySend session) s

/-! ### The order tracker on the way out -/

/-- A frame has transmitted its last copy: its tracker half goes down (spec/04 R110). -/
def untrack (d : Dev) (i : Ing) : Ing × Dev :=
  match i.trk with
  | some (idx, h) =>
    if i.unsent = 0 then
      let die := i.port / 128
      ({ i with trk := none }, setHalf d die idx h (halfOf d die idx h - 1))
    else (i, d)
  | none => (i, d)

/-- One copy of an ingress frame has been transmitted, or released. -/
def copySent (d : Dev) (id : Nat) : Dev :=
  match findIng d id with
  | none => d
  | some i =>
    let (i, d) := untrack d { i with unsent := i.unsent - 1 }
    settleIng d i

/-- Write the record of a Swatch whose frame is released without transmission (R440). -/
def swNoDest (d : Dev) (i : Ing) : Dev :=
  match i.swatch with
  | none => d
  | some s =>
    swQueue d (i.port / 128)
      (swRecord s i.orig (frameLen d i.orig) i.port i.vcIn i.frame.hdr.vc.toNat 0x1FF false false true (demoted i))

/-! ### Shapers and the scheduler (spec/05 R133, R134) -/

/-- Register indices of the shaper of a port's class. -/
def shpIx (p c : Nat) : List Nat := tix (p / 8) ++ [4 * (p % 8) + c]

/-- Shaper enabled. -/
def shpOn (d : Dev) (p c : Nat) : Bool := rdb d .shpC0 (shpIx p c) 31

/-- Sizes of a shaper's buckets in 1/9600 byte: committed and peak. -/
def shpSize (d : Dev) (p c : Nat) : Int × Int :=
  ((rdf d .shpC0 (shpIx p c) 23 0 * 9600 : Nat), (rdf d .shpC1 (shpIx p c) 23 0 * 9600 : Nat))

/-- The lesser of two integers. -/
def intMin (a b : Int) : Int := if a ≤ b then a else b

/-- A shaper's token counts now; one never used has both buckets full (log entry 30). -/
def shpNow (d : Dev) (p c : Nat) : Shaper :=
  let z := shpSize d p c
  match tget? d.pol.shp (4 * p + c) with
  | none => ⟨z.1, z.2, d.now⟩
  | some s =>
    let dt := d.now - s.at_
    ⟨intMin z.1 (s.sc + (rateOf (rdf d .shpC2 (shpIx p c) 15 0) * dt : Nat)),
     intMin z.2 (s.sp + (rateOf (rdf d .shpC2 (shpIx p c) 31 16) * dt : Nat)), d.now⟩

/-- Store a shaper's token counts. -/
def setShp (d : Dev) (p c : Nat) (s : Shaper) : Dev :=
  { d with pol := { d.pol with shp := tset d.pol.shp (4 * p + c) s } }

/-- Eligibility of a head: 2 committed, 1 peak only, 0 none. -/
def shpElig (d : Dev) (p : Nat) (e : Egr) : Nat :=
  let c := e.frame.hdr.cls.toNat
  if !e.shaped || !shpOn d p c then 2
  else
    let s := shpNow d p c
    if 0 < s.sp ∧ 0 < s.sc then 2 else if 0 < s.sp then 1 else 0

/-- Subtract a frame of `len` bytes from both buckets of its class, whether or not its shaper is enabled
(spec/05 R133). -/
def shpCharge (d : Dev) (p : Nat) (e : Egr) (len : Nat) : Dev :=
  let c := e.frame.hdr.cls.toNat
  if !e.shaped then d
  else
    let s := shpNow d p c
    let l := (((len : Int) + sx 7 (rdf d .shpPort (lix p) 6 0)).toNat : Int) * 9600
    setShp d p c { s with sc := s.sc - l, sp := s.sp - l }

/-- A copy with an earlier grant for a (port, VC), key port × 8 + VC, is still in the mesh: frames leave the
queue in the order of their grants (spec/03 R89). -/
def grantBefore (d : Dev) (k n : Nat) : Bool :=
  d.sw.flights.any (fun f => match f.load with
    | .copy _ pvs _ => decide (f.grantNo < n) && pvs.contains k
    | .own _ k' => decide (f.grantNo < n) && k' == k
    | _ => false)

/-- The head of a (port, VC) queue for which the port holds credit for every cell. -/
def headOf (d : Dev) (p v : Nat) : Option Egr :=
  match egrQ d p v with
  | [] => none
  | e :: _ => if e.cells ≤ txCredit d p v ∧ grantBefore d (8 * p + v) e.grantNo = false then some e else none

/-- Quantum of a VC in bytes (R134). -/
def quantum (d : Dev) (p v : Nat) : Nat :=
  natMax 1 (bits (rd d .schWeight (lix p)) (4 * v - 1) (4 * v - 4)) * 1024

/-- The VC after `v` among VC1–VC6. -/
def nextVc (v : Nat) : Nat := if v < 6 then v + 1 else 1

/-- Deficit round-robin among the VCs of a tier: stay while the deficit lasts, else go on and add the
quantum; `n` visits left.  The deficit is charged B, without SHP_PORT.OVH; the round starts at VC1; a deficit is
cleared when its queue is found empty at a visit; both tiers share one deficit of each VC (DESIGN CHOICE, log
entry 106). -/
def drr (d : Dev) (p tier : Nat) : Nat → Nat → Option Nat × Dev
  | 0, _ => (none, d)
  | n + 1, v =>
    let set (d : Dev) (v : Nat) (x : Int) : Dev :=
      { d with pol := { d.pol with deficit := tput 0 d.pol.deficit (8 * p + v) x } }
    let fit (e : Egr) : Bool := shpElig d p e == tier
    match headOf d p v with
    | some e =>
      let len : Int := (frameLen d e.frame : Nat)
      if fit e ∧ len ≤ tgetD d.pol.deficit (8 * p + v) 0 then
        (some v, { set d v (tgetD d.pol.deficit (8 * p + v) 0 - len) with
          pol := { (set d v (tgetD d.pol.deficit (8 * p + v) 0 - len)).pol with turn := tput 0 d.pol.turn p v } })
      else
        let w := nextVc v
        let add : Int := match headOf d p w with
          | some e' => if shpElig d p e' == tier then (quantum d p w : Nat) else 0
          | none => 0
        drr (set d w (tgetD d.pol.deficit (8 * p + w) 0 + add)) p tier n w
    | none =>
      let d := if (egrQ d p v).isEmpty then set d v 0 else d
      let w := nextVc v
      let add : Int := match headOf d p w with
        | some e' => if shpElig d p e' == tier then (quantum d p w : Nat) else 0
        | none => 0
      drr (set d w (tgetD d.pol.deficit (8 * p + w) 0 + add)) p tier n w

/-- A VC of VC1–VC6 has a head of a tier. -/
def tierHas (d : Dev) (p tier : Nat) : Bool :=
  [1, 2, 3, 4, 5, 6].any (fun v => match headOf d p v with | some e => shpElig d p e == tier | none => false)

/-- The VC whose head a port sends next (spec/05 R134). -/
def pickVc (d : Dev) (p : Nat) : Option Nat × Dev :=
  let t := natMax 1 (tgetD d.pol.turn p 1)
  if (headOf d p 0).isSome then (some 0, d)
  else if tierHas d p 2 then drr d p 2 120 t
  else if tierHas d p 1 then drr d p 1 120 t
  else match headOf d p 7 with
    | some e => if 0 < shpElig d p e then (some 7, d) else (none, d)
    | none => (none, d)

/-! ### Transmission -/

/-- A port can start a frame: its link is up, the partner's first link-control frame has come, nothing is
in transmission, its lanes and their domain are awake and it is not in BYPASS. -/
def canStart (d : Dev) (p : Nat) : Bool :=
  linkUp d p && (linkSt d p).lcfRcvd && (tget? d.sw.tx p).isNone && portState d p != 3
    && (portLanes d p).all (fun l => !rdb d .lnCtl (lix l) 30) && pdOn d (80 + p / 32)

/-- SWATCH and SWATCH_ID of a frame as it leaves (spec/17 R439): `id` of a sampled frame. -/
def markSwatch (d : Dev) (h : FabHdr) (id : Option (BitVec 16)) : FabHdr :=
  if rdb d .swatchCtl [] 28 then { h with swatch := false, swatchId := 0 }
  else match id with
    | some x => if rdb d .swatchCtl [] 30 then { h with swatch := true, swatchId := x } else h
    | none => h

/-- The frame as it leaves on a VC: HOP_AGE one higher, HCRC recomputed (spec/02 R30, R32); CLEAR clears the SWATCH of every
frame, a mirror copy's too (spec/17 R439). -/
def outFrame (d : Dev) (e : Egr) (v : Nat) : Frame :=
  let id := (e.ing.bind (findIng d)).bind (fun i => i.swatch.map (·.id))
  let h := e.frame.hdr
  let h := { h with vc := BitVec.ofNat 3 v, hopAge := BitVec.ofNat 8 (natMin 255 (h.hopAge.toNat + 1)) }
  let h := markSwatch d h (match e.via with | .mirror _ => none | _ => id)
  if isForeign d e.frame then e.frame else withHcrc { e.frame with hdr := h }

/-- Count what a frame's start shows: HOP_WARN, a skipped demotion, a cut-through copy, a mirror copy, a
transmit timestamp, a late launch.  The die of the egress port counts and reports a skipped demotion, and counts a
mirror copy (DESIGN CHOICE, log entry 105). -/
def noteStart (d : Dev) (p : Nat) (e : Egr) (f : Frame) : Dev :=
  let die := p / 128
  let d := if !isForeign d f ∧ rdf d .fwdEmCtl [] 15 8 ≤ f.hdr.hopAge.toNat then raise d (srcFwd die) 1 else d
  let d := if e.demoteSkip then raise d (srcPol die) 1 else d
  let d := if e.ct then cnt1 d (srcSw (p / 8)) 9 else d
  let d := match e.via with
    | .mirror s => cnt1 (setMir d s (mirCells d s - e.cells)) (srcRt die 0) 11
    | _ => d
  let d := match e.tsid with | some t => tsqPush d p t false | none => d
  match e.launch with
  | some (slot, tick, dm) =>
    let late := (BitVec.ofNat 32 (dom d dm).ns - tick).toNat
    let long := d.time.launches.any (fun l => l.slot == slot && l.fired && decide (l.firedAt + 125 < d.now))
    let d := cnt1 d (srcTime 255 0) 9
    if (104 < late ∧ late < 2 ^ 31) ∨ long = true then raiseAt d (srcTime (p / 128) slot) 4 1 [] [] else d
  | none => d

/-- A copy in egress staging lets go of the ingress cells that it kept for mirror copies. -/
def letGo (d : Dev) (e : Egr) : Dev :=
  if e.keeps then match e.ing with | some id => freeIng d id | none => d else d

/-- The head of a VC queue starts transmission. -/
def startVc (d : Dev) (p v : Nat) : Dev :=
  match egrQ d p v with
  | [] => d
  | e :: q =>
    let f := outFrame d e v
    let d := shpCharge (setEgrQ d p v q) p e (frameLen d e.frame)
    let x := pvSt d p v
    let d := setPv d p v { x with sent := x.sent + BitVec.ofNat 16 e.cells }
    let d := noteStart d p e f
    let d := letGo (mirrorOut d p { e with frame := f }) e
    let e := { e with keeps := false, frame := f, swatch := e.swatch.map (fun s => swStage d 6 (swStage d 5 s)) }
    { d with sw := { d.sw with tx := tset d.sw.tx p e } }

/-- FRAME_TX_START: the scheduler picks a head and its transmission begins. -/
def frameTxStart (p : Nat) (d : Dev) : Dev :=
  if !canStart d p then d
  else
    let (v, d) := pickVc d p
    match v with
    | none => d
    | some v => startVc d p v

/-- FRAME_TX_START. -/
def execFrameTxStart (p : Fin 512) (s : State) : Host.Outcome State Fault Refusal := act (frameTxStart p) s

/-- Free a launch slot. -/
def freeLaunch (d : Dev) (slot : Nat) : Dev :=
  { d with time := { d.time with launches := d.time.launches.filter (·.slot != slot) } }

/-- What ends with a frame's transmission, its last bit sent or not: the tracker, its completion. -/
def endEgr (d : Dev) (e : Egr) (status : Nat) : Dev :=
  let d := letGo d e
  let d := match e.via with
    | .mirror _ => d
    | _ => match e.ing with | some id => copySent d id | none => d
  let d := match e.launch with | some (slot, _, _) => freeLaunch d slot | none => d
  completeOpt d e.reply status []

/-- The record of the Swatch that follows a transmitted copy. -/
def swSent (d : Dev) (p : Nat) (e : Egr) : Dev :=
  match e.swatch, e.ing.bind (findIng d) with
  | some s, some i =>
    swQueue d (i.port / 128)
      (swRecord (swStage d 7 s) i.orig (frameLen d i.orig) i.port i.vcIn e.frame.hdr.vc.toNat p e.ct false false
        (demoted i && !e.demoteSkip))
  | _, _ => d

/-! ### Link-control frames (spec/03 R73–R75) -/

/-- A foreign frame that waits for Tailor's queue withholds the VC0 credit of its port (spec/02 R33). -/
def vc0Held (d : Dev) (p : Nat) : Bool := d.sw.ing.any (fun i => i.hold == .foreign && i.port == p)

/-- VCs whose grants a port advertises now. -/
def lcfVcs (d : Dev) (p : Nat) : List Nat := (List.range 8).filter (fun v => v != 0 || !vc0Held d p)

/-- Grants of a port not yet advertised. -/
def unadvertised (d : Dev) (p : Nat) : Nat :=
  (lcfVcs d p).foldl (fun a v => a + ((pvSt d p v).grant - (pvSt d p v).adv)) 0

/-- The link-control frame that spells a body: 64 bytes with the FCS (R73; byte order: log entry 110). -/
def lcfFrame (d : Dev) (p : Nat) (l : Lcf) : Frame :=
  { dmac := 0, smac := 0, etype := BitVec.ofNat 16 (rdf d .swLcf (tix (p / 8)) 31 16), hdr := default, chdr := default,
    payload := [l.ver, BitVec.ofNat 8 (b2n l.init)] ++ (List.range 8).flatMap (fun v => beBytes 2 (l.cg.getD v 0).toNat)
      ++ List.replicate 28 0,
    fcs := l.fcs }

/-- The body of a received link-control frame. -/
def lcfOf (f : Frame) : Lcf :=
  ⟨f.payload.getD 0 0, bit (f.payload.getD 1 0).toNat 0,
   (List.range 8).map (fun v => BitVec.ofNat 16 (beVal (slice f.payload (2 + 2 * v) 2))), f.fcs⟩

/-- A link-control frame is due: the first of the link, BATCH cells of new grants, or the interval is over (R75). -/
def lcfReady (d : Dev) (p : Nat) : Bool :=
  let ix := tix (p / 8)
  !(linkSt d p).initSent || decide (natMax 1 (rdf d .swLcf ix 15 8) ≤ unadvertised d p)
    || decide (12 * natMax 1 (rdf d .swLcf ix 7 0) ≤ d.now - (linkSt d p).lcfAt)

/-- A link-control frame starts: it carries the cumulative grants, and INIT where it is the first of its link. -/
def lcfStart (d : Dev) (p : Nat) : Dev :=
  let k := linkSt d p
  let d := (lcfVcs d p).foldl (fun d v => setPv d p v { pvSt d p v with adv := (pvSt d p v).grant }) d
  let f := lcfFrame d p ⟨1, !k.initSent, (List.range 8).map (fun v => BitVec.ofNat 16 (pvSt d p v).adv), .good⟩
  { d with sw := { d.sw with
      link := tset d.sw.link p { k with initSent := true, lcfAt := d.now, lcfDue := false },
      tx := tset d.sw.tx p { ownEgr d f with shaped := false } } }

/-- LCF_SEND: at once where nothing is in transmission, else after the frame that is (R75); a grant waits while its LANE
domain wakes (spec/15 R392). -/
def lcfSend (p : Nat) (d : Dev) : Dev :=
  if linkUp d p && portState d p != 3 && (portLanes d p).all (fun l => !rdb d .lnCtl (lix l) 30) && pdOn d (80 + p / 32) && lcfReady d p then
    if (tget? d.sw.tx p).isNone then lcfStart d p
    else { d with sw := { d.sw with link := tset d.sw.link p { linkSt d p with lcfDue := true } } }
  else d

/-- LCF_SEND. -/
def execLcfSend (p : Fin 512) (s : State) : Host.Outcome State Fault Refusal := act (lcfSend p) s

/-- A link-control frame of a port (spec/03 R73), which is no frame that the port has to send (spec/11 R305). -/
def isLcf (d : Dev) (p : Nat) (f : Frame) : Bool := f.etype.toNat == rdf d .swLcf (tix (p / 8)) 31 16

/-- FRAME_TX_END: the last bit leaves (spec/04 R110); a link-control frame that is due follows (spec/03 R75). -/
def frameTxEnd (p : Nat) (d : Dev) : Dev :=
  match tget? d.sw.tx p with
  | none => d
  | some e =>
    let d := swSent d p e
    let d := endEgr { d with sw := { d.sw with tx := tdel d.sw.tx p } } e 0
    let d := if isLcf d p e.frame then d
      else { d with sw := { d.sw with link := tset d.sw.link p { linkSt d p with idleAt := d.now } } }
    if (linkSt d p).lcfDue && linkUp d p && pdOn d (80 + p / 32) then lcfStart d p else d

/-- FRAME_TX_END. -/
def execFrameTxEnd (p : Fin 512) (s : State) : Host.Outcome State Fault Refusal := act (frameTxEnd p) s

/-! ### Replication (spec/02 R52–R54, spec/03 R85, spec/04 R113) -/

/-- Length of a frame in units of 1/960 byte, as a flood bucket counts it. -/
def floodCost (d : Dev) (f : Frame) : Nat := frameLen d f * 960

/-- Give an ingress frame its copies for a set of ports, one per destination die. -/
def perDie (i : Ing) (ps : List Nat) : Ing :=
  [0, 1, 2, 3].foldl (fun i die =>
    match ps.filter (fun p => p / 128 == die) with
    | [] => i
    | l => addCopy i l i.frame.hdr.vc.toNat .multi) i

/-- A frame without destination: released, its Swatch recorded (spec/02 R54). -/
def releaseNoDest (d : Dev) (i : Ing) : Dev :=
  let d := swNoDest d i
  let (i, d) := untrack d i
  settleIng (noDest d (i.port / 128)) i

/-- Some frame waits in the flood queue of a die. -/
def floodWaits (d : Dev) (die : Nat) : Bool := d.sw.ing.any (fun i => i.floodWait && i.port / 128 == die)

/-- Pass a frame that is to be flooded through its flood limiter (spec/02 R53).  Any frame that fits takes the tokens,
before those that wait; waiting frames are released in any order (DESIGN CHOICE, log entry 97). -/
def floodLimit (d : Dev) (i : Ing) : Ing × Dev :=
  let die := i.port / 128
  let part := i.frame.hdr.part.toNat
  let tok := floodTok d die part
  let cost := floodCost d i.frame
  if cost ≤ tok then (i, setFlood d die part (tok - cost))
  else
    let d := if floodWaits d die then d else event (stSet d (srcFwd die) 7) 0x0107 die 0 []
    ({ i with floodWait := true }, d)

/-- Replicate a frame: one copy per destination die, each counted (spec/04 R113). -/
def replicate (d : Dev) (i : Ing) (ps : List Nat) : Dev :=
  let j := perDie i ps
  cntN (noteSent (setIng d j) (i.port / 8) (frameCells d i.frame) ps) (srcRt (i.port / 128) 0) 10 (j.copies.length - i.copies.length)

/-- Send a resolved frame on: one copy, or one per destination die; nothing left is no destination. -/
def dispatchIng (d : Dev) (i : Ing) (dst : Dest) : Dev :=
  match dst with
  | .one q via =>
    if turnOk d i.port q then
      noteSent (setIng d (addCopy i [q] i.frame.hdr.vc.toNat via)) (i.port / 8) (frameCells d i.frame) [q]
    else releaseNoDest d i
  | .many ps =>
    match ps.filter (turnOk d i.port) with
    | [] => releaseNoDest d i
    | l => replicate d i l
  | .flood =>
    let d := cnt1 d (srcFwd (i.port / 128)) 14
    match (maskPorts d (partCfg d i.frame.hdr.part.toNat).mask).filter (turnOk d i.port) with
    | [] => releaseNoDest d i
    | l =>
      let (i, d) := floodLimit d i
      replicate d i l

/-- FLOOD_RELEASE: a frame that waits for tokens is released once its bucket holds enough. -/
def floodRelease (id : Nat) (d : Dev) : Dev :=
  match findIng d id with
  | none => d
  | some i =>
    let die := i.port / 128
    let part := i.frame.hdr.part.toNat
    let cost := floodCost d i.frame
    if i.floodWait ∧ cost ≤ floodTok d die part then
      setIng (setFlood d die part (floodTok d die part - cost)) { i with floodWait := false }
    else d

/-- FLOOD_RELEASE. -/
def execFloodRelease (id : Nat) (s : State) : Host.Outcome State Fault Refusal := act (floodRelease id) s

end Sys2Proof.Machine
end

