-- ==== Sys2Proof/Machine/Links.lean ====
section
/-! DEFINITION. Ports and lanes: leaving and entering service, the lane state machine, training, loss of
link, the quiet states, link-control frames (spec/03 R74–R76, spec/04 R95–R98, R115–R118, spec/11). -/
namespace Sys2Proof.Machine

/-! ### A port leaves service (spec/04 R98) -/

/-- A copy of a frame that waits in an ingress pool for one port alone. -/
def soleCopy (p : Nat) (c : Copy) : Bool := decide (c.ports = [p])

/-- Take a copy back from an ingress frame, so that it can be resolved again. -/
def dropCopy (i : Ing) (c : Copy) : Ing :=
  { i with copies := i.copies.filter (fun x => x.id != c.id), out := i.out - 1, unsent := i.unsent - 1 }

/-- Frames that wait for a port through a bundle are sprayed again among the remaining members. -/
def respray (d : Dev) (p : Nat) : Dev :=
  (d.sw.ing.map (·.id)).foldl (fun d id =>
    match findIng d id with
    | none => d
    | some i =>
      match i.copies.find? (soleCopy p) with
      | some c =>
        match c.via with
        | .bundle b =>
          let (dst, d) := viaBundle d i.port b i.frame.hdr
          dispatchIng d (dropCopy i c) dst
        | _ => d
      | none => d) d

/-- A DRAINING port gives up its direct frames: each is resolved again as a new lookup (R116). -/
def giveUp (d : Dev) (p : Nat) : Dev :=
  (d.sw.ing.map (·.id)).foldl (fun d id =>
    match findIng d id with
    | none => d
    | some i =>
      match i.copies.find? (fun c => soleCopy p c && c.via == .port) with
      | some c =>
        let (dst, d) := redirect d i.port p i.frame.hdr
        dispatchIng d (dropCopy i c) dst
      | none => d) d

/-- Queued frames that asked for a timestamp and whose port leaves service report LOST (spec/13 R341). -/
def loseStamps (d : Dev) (p : Nat) : Dev :=
  (List.range 8).foldl (fun d v =>
    let d := (egrQ d p v).foldl (fun d e => match e.tsid with | some t => tsqPush d p t true | none => d) d
    setEgrQ d p v ((egrQ d p v).map (fun e => { e with tsid := none }))) d

/-- What follows when a port leaves service: its depth samples are lost (R104), its bundle frames are
sprayed again, and contexts that need it abort. -/
def leaveService (d : Dev) (p : Nat) : Dev :=
  let d := { d with rt := { d.rt with warm := tdel d.rt.warm p } }
  linkAborts (respray (loseStamps d p) p) p

/-- The link state of a port is lost, and with it the frame in transmission (spec/11 R304). -/
def dropLink (d : Dev) (p : Nat) : Dev :=
  let d := { d with sw := { d.sw with link := tdel d.sw.link p } }
  match tget? d.sw.tx p with
  | some e => endEgr { d with sw := { d.sw with tx := tdel d.sw.tx p } } e 4
  | none => d

/-! ### Lanes (spec/11 R298–R304, R462, R463) -/

/-- A lane after a reset. -/
def laneReset : LaneSt := 
  ⟨none, none, [], [], [], 0, [], [], none, false, 0, none, none, 0, [], false, 0, [], 0, false, none, false, none⟩

/-- Inner state of a lane. -/
def laneSt (d : Dev) (l : Nat) : LaneSt := tgetD d.lanes l laneReset

/-- Store a lane's inner state. -/
def setLane (d : Dev) (l : Nat) (x : LaneSt) : Dev := { d with lanes := tput laneReset d.lanes l x }

/-- May a port train (R299)? -/
def mayTrain (d : Dev) (p : Nat) : Bool := [1, 2, 4].contains (portState d p)

/-- Store LN_STATE.STATE. -/
def setLnState (d : Dev) (l st : Nat) : Dev := wrf d .lnState (lix l) 2 0 st

/-- A cause reaches a lane: LN_STATE.CAUSE keeps the lowest of one cycle (R304), but that THIMBLE goes before the
LOS of a re-sweep (spec/12 R327; log entry 120). -/
def setCause (d : Dev) (l c : Nat) : Dev :=
  let x := laneSt d l
  let old := rdf d .lnState (lix l) 11 8
  let keep := x.causeAt == some d.now && decide (old < c) && !(c == 4 && x.sweepLos)
  wrf (setLane d l { x with causeAt := some d.now, sweepLos := x.sweepLos && keep }) .lnState (lix l) 11 8
    (if keep then old else c)

/-- A further cause reaches a lane that another one of this cycle has already taken down. -/
def lateCause (d : Dev) (l c : Nat) : Dev := if (laneSt d l).causeAt = some d.now then setCause d l c else d

/-- A lane leaves both quiet states. -/
def wakeLane (d : Dev) (l : Nat) : Dev := wrf (wrf d .lnState (lix l) 3 3 0) .lnCtl (lix l) 30 30 0

/-- A mapping that stands is counted and reported (R302). -/
def countClaim (d : Dev) (l : Nat) : Dev :=
  let x := laneSt d l
  if x.claimDue then raise (setLane d l { x with claimDue := false }) (srcLn l) 3 [] [l] else d

/-- A lane gives up its strand's place on SX. -/
def dropClaim (d : Dev) (l : Nat) : Dev :=
  wrf (setLane d l { laneSt d l with claim := none, claimDue := false }) .lnSpare (lix l) 3 0 0

/-- A lane's claim on SX is released (R302). -/
def unclaim (d : Dev) (l : Nat) : Dev := dropClaim (countClaim d l) l

/-- Every claim of the cycle that ends stands. -/
def countClaims (d : Dev) : Dev := d.lanes.foldl (fun d e => countClaim d e.1) d

/-- The lane goes to DOWN. -/
def toDown (d : Dev) (l : Nat) : Dev :=
  let d := unclaim (wakeLane d l) l
  setLnState (setLane d l { laneSt d l with sent := none }) l 0

/-- The lane goes to HOLD and its retrain delay advances (R303): 1 ms, then doubling up to 1,024 ms. -/
def toHold (d : Dev) (l : Nat) : Dev :=
  let x := laneSt d l
  let n := match x.delay with | none => 1 | some k => natMin 1024 (2 * k)
  setLnState (setLane (wakeLane d l) l { x with delay := some n, sent := none }) l 6

/-- Store the taps of a lane's strands. -/
def putTaps (d : Dev) (l : Nat) (t : List (BitVec 64)) : Dev :=
  (List.range 5).foldl (fun d s =>
    let v := (t.getD s 0).toNat
    wr (wr d .lnTapsLo (lix l ++ [s]) (v % 2 ^ 32)) .lnTapsHi (lix l ++ [s]) (v / 2 ^ 32)) d

/-- Load the taps of a lane's strands; nothing is accumulated below their unit. -/
def setTaps (d : Dev) (l : Nat) (t : List (BitVec 64)) : Dev :=
  putTaps (setLane d l { laneSt d l with frac := [] }) l t

/-- MARKER of a training frame (Table 11-2). -/
def trainMarker : BitVec 64 := 0x5A3C96F00FC369A5

/-- CRC of a training frame, over its bits 64–127, the lowest first (R300). -/
def trainCrc (f : TrainFrame) : Nat :=
  crc32c (leBytes 8 (f.state.toNat + f.width.toNat * 2 ^ 4 + f.lane.toNat * 2 ^ 6 + f.rxmap.toNat * 2 ^ 15
    + f.minfom.toNat * 2 ^ 19 + f.rsvd.toNat * 2 ^ 27 + f.serial.toNat * 2 ^ 32))

/-- The training frame that a lane's strands send (R300, Table 11-2). -/
def trainFrame (d : Dev) (l : Nat) : TrainFrame :=
  let foms := (List.range 4).map (fun s => rdf d .lnFom (lix l) (8 * s + 7) (8 * s))
  let f : TrainFrame := ⟨trainMarker, BitVec.ofNat 4 (rdf d .lnState (lix l) 3 0), BitVec.ofNat 2 (lnW d (portOf d l)),
    BitVec.ofNat 9 l, BitVec.ofNat 4 (rdf d .lnSpare (lix l) 3 0), BitVec.ofNat 8 (foms.foldl natMin 255), 0,
    w32 (rd d .idSerialLo), 0⟩
  { f with crc := BitVec.ofNat 32 (trainCrc f) }

/-- What a lane in TRAIN or MAP sends follows its state. -/
def sendTraining (d : Dev) (l : Nat) : Dev :=
  setLane d l { laneSt d l with
    sent := if laneState d l = 2 ∨ laneState d l = 3 then some (trainFrame d l) else none }

/-- Engine, fibre and own channels of a lane, the fibre's spare last (spec/12 R310, R311). -/
def laneChans (l : Nat) : List Nat := (List.range 4).map (4 * (l % 2) + ·) ++ [8]

/-- Rings of a lane that are OFF or FAILED begin a sweep (spec/12 R312, R316). -/
def startSweeps (d : Dev) (l : Nat) : Dev :=
  (laneChans l).foldl (fun d c =>
    [Reg.oeTxring, Reg.oeRxring].foldl (fun d r =>
      let ix := [l / 32, 9 * (l % 32 / 2) + c]
      let st := rdf d r ix 31 29
      if st = 0 ∨ st = 4 then wrf d r ix 31 29 1 else d) d) d

/-- The lane goes to WAIT_OPTICS and loads its cache record, if the store has one (R301). -/
def toWait (d : Dev) (l : Nat) : Dev :=
  let c := if boltUp d then tget? d.bolt.lane l else none
  let d := startSweeps (setTaps d l (match c with | some r => r.taps | none => [])) l
  setLnState (setLane d l { laneSt d l with
    key := c.map (fun r => (r.serial, r.lane)), checked := false, pass := [], below := 0, aligned := false,
    partnerFom := 0, freq := (c.map (·.freq)).getD 0, sent := none, ucwRun := 0, ucwAge := [] }) l 1

/-- The lane goes to TRAIN; last_good is cleared (R296), and its training frames begin. -/
def toTrain (d : Dev) (l : Nat) : Dev :=
  sendTraining (setLnState (setLane d l { laneSt d l with
    lastGood := [], coarse := [], low := [], weak := [], pass := [], below := 0 }) l 2) l

/-- A failed training (R303). -/
def trainFail (d : Dev) (l cause : Nat) : Dev :=
  let d := raise (setCause d l cause) (srcLn l) 1 [(1, cause)] [l]
  toHold d l

/-- Continuous UP of at least 1 s restarts the sequence of delays (R303). -/
def endUp (d : Dev) (l : Nat) : Dev :=
  let x := laneSt d l
  let long := match x.upAt with | some t => decide (1200000000 ≤ d.now - t) | none => false
  setLane d l { x with upAt := none, delay := if long then none else x.delay }

/-- A lane in UP leaves it (R304): counted and reported; HOLD while the port may train, else DOWN. -/
def laneLeave (d : Dev) (p l cause : Nat) : Dev :=
  if laneState d l = 5 then
    let d := raise (setCause (endUp d l) l cause) (srcLn l) 0 [(1, cause)] [l]
    if mayTrain d p then toHold d l else toDown d l
  else lateCause d l cause

/-- The whole port goes down with a cause (R304). -/
def portDown (d : Dev) (p cause : Nat) : Dev :=
  let was := inService d p
  let up := linkUp d p
  let d := (portLanes d p).foldl (fun d l => laneLeave d p l cause) d
  let d := if up then dropLink d p else d
  if was then leaveService d p else d

/-- Lanes of a port that may no longer train (R462): DOWN at once, cause SOFTWARE. -/
def stopTraining (d : Dev) (p : Nat) : Dev :=
  (portLanes d p).foldl (fun d l =>
    let s := laneState d l
    if 1 ≤ s ∧ s ≤ 4 then toDown (setCause d l 6) l
    else if s = 6 then toDown (setCause d l 6) l
    else d) d

/-- Lanes of a port that may train anew: those in DOWN or HOLD go to WAIT_OPTICS. -/
def startTraining (d : Dev) (p : Nat) : Dev :=
  (portLanes d p).foldl (fun d l =>
    let s := laneState d l
    if s = 0 ∨ s = 6 then toWait d l else d) d

/-! ### Port states (spec/04 R96, R115–R118) -/

/-- Store RT_PORT.STATE. -/
def setPortState (d : Dev) (p st : Nat) : Dev := wrf d .rtPort (lix p) 30 28 st

/-- The port reaches DISABLED: its lanes go DOWN with cause SOFTWARE. -/
def setDisabled (d : Dev) (p : Nat) : Dev :=
  let d := setPortState { d with rt := { d.rt with toDisable := d.rt.toDisable.filter (· != p) } } p 0
  stopTraining (portDown d p 6) p

/-- Nothing waits for a port in egress staging, on its way there, or in transmission. -/
def egressEmpty (d : Dev) (p : Nat) : Bool :=
  (List.range 8).all (fun v => (egrQ d p v).isEmpty && tgetD d.sw.egrRsv (8 * p + v) 0 == 0)
    && (tget? d.sw.tx p).isNone

/-- Some copy in an ingress pool, or a frame of the device's own, waits for the port. -/
def waitsFor (d : Dev) (p : Nat) : Bool :=
  d.sw.ing.any (fun i => i.copies.any (fun c => c.ports.contains p)) || d.sw.ownq.any (fun o => o.k / 8 == p)

/-- One frame released without transmission from a dead port (R116). -/
def deadRel (d : Dev) (p : Nat) : Dev := raiseAt d (srcRt (p / 128) (p % 128)) 16 7 [(2, p)] [p]

/-- Release one frame, in egress staging or on its way there, without transmission. -/
def releaseEgr (d : Dev) (p : Nat) (e : Egr) : Dev :=
  let d := match e.via with | .mirror s => setMir d s (mirCells d s - e.cells) | _ => d
  let d := match e.tsid with | some t => tsqPush d p t true | none => d
  endEgr (deadRel d p) e 4

/-- Release the frames in a port's egress staging. -/
def releaseStaging (d : Dev) (p : Nat) : Dev :=
  (List.range 8).foldl (fun d v => (egrQ d p v).foldl (fun d e => releaseEgr d p e) (setEgrQ d p v [])) d

/-- Release the frames of the device's own that wait for the mesh, or are in it, on their way to a port. -/
def releaseOwn (d : Dev) (p : Nat) : Dev :=
  let wait := d.sw.ownq.filter (fun o => o.k / 8 == p)
  let fly (f : Flight) : Option (Nat × Egr) := match f.load with | .own e k => if k / 8 = p then some (k, e) else none | _ => none
  let out := d.sw.flights.filterMap fly
  let d := { d with sw := { d.sw with ownq := d.sw.ownq.filter (fun o => o.k / 8 != p),
                                      flights := d.sw.flights.filter (fun f => (fly f).isNone) } }
  let d := wait.foldl (fun d o => releaseEgr d p o.e) d
  out.foldl (fun d x =>
    releaseEgr { d with sw := { d.sw with egrRsv := tput 0 d.sw.egrRsv x.1 (tgetD d.sw.egrRsv x.1 0 - x.2.cells) } } p x.2) d

/-- Release the copies that wait in ingress pools for a port. -/
def releaseWaiting (d : Dev) (p : Nat) : Dev :=
  (d.sw.ing.map (·.id)).foldl (fun d id =>
    match findIng d id with
    | none => d
    | some i =>
      let hit := i.copies.filter (fun c => c.ports.contains p)
      match hit with
      | [] => d
      | _ =>
        let sent := (hit.filter (fun c => match c.via with | .mirror _ => false | _ => true)).length
        let cs := (i.copies.map (fun c => { c with ports := c.ports.filter (· != p) })).filter (fun c => !c.ports.isEmpty)
        let d := hit.foldl (fun d c => match c.via with
          | .mirror s => setMir d s (mirCells d s - frameCells d i.orig)
          | _ => d) (hit.foldl (fun d _ => deadRel d p) d)
        let (i, d) := untrack d { i with copies := cs, out := i.out - hit.length, unsent := i.unsent - sent }
        settleIng d i) d

/-- Release the copies that are in the mesh on their way to a port: their reserved space falls free. -/
def releaseFlights (d : Dev) (p : Nat) : Dev :=
  d.sw.flights.foldl (fun d fl =>
    match fl.load with
    | .copy id pvs via =>
      let hit := pvs.filter (fun k => k / 8 == p)
      if hit.isEmpty then d
      else
        let rest := pvs.filter (fun k => k / 8 != p)
        let fl' := { fl with load := .copy id rest via, dests := (rest.map (fun k => 8 * tileY (k / 64) + tileX (k / 64))).eraseDups }
        let d := { d with sw := { d.sw with
          flights := if rest.isEmpty then d.sw.flights.filter (fun x => x.id != fl.id)
                     else d.sw.flights.map (fun x => if x.id = fl.id then fl' else x) } }
        match findIng d id with
        | none => d
        | some i =>
          let cells := frameCells d i.orig
          let d := hit.foldl (fun d k =>
            let d := deadRel { d with sw := { d.sw with egrRsv := tput 0 d.sw.egrRsv k (tgetD d.sw.egrRsv k 0 - cells) } } p
            match via with | .mirror s => setMir d s (mirCells d s - cells) | _ => d) d
          let sent := match via with | .mirror _ => 0 | _ => hit.length
          let (i, d) := untrack d { i with out := i.out - hit.length, unsent := i.unsent - sent }
          settleIng d i
    | _ => d) d

/-- Release the mirror copies that a session holds for a port (spec/04 R120). -/
def releaseMirHeld (d : Dev) (p : Nat) : Dev :=
  let hit (h : MirHeld) : Bool := mirPort d h.session == p
  let gone := d.rt.mirHeld.filter hit
  let d := { d with rt := { d.rt with mirHeld := d.rt.mirHeld.filter (fun h => !hit h) } }
  gone.foldl (fun d h => match h.ing with | some id => freeIng (deadRel d p) id | none => deadRel d p) d

/-- Release everything that waits for a port. -/
def releasePort (d : Dev) (p : Nat) : Dev :=
  releaseMirHeld (releaseOwn (releaseFlights (releaseWaiting (releaseStaging d p) p) p) p) p

/-- State changes that software may make (spec/04 Table 04-2). -/
def stateOk (old new : Nat) : Bool :=
  match old, new with
  | 2, 0 | 3, 0 | 0, 1 | 2, 1 | 1, 2 | 3, 4 => true
  | a, b => a == b

/-- A write of RT_PORT: judged as a whole (R95, R96), then the new state's effects. -/
def rtPortWrite (p val : Nat) (d : Dev) : Dev :=
  let old := portState d p
  let new := bits val 30 28
  let role := bits val 27 26
  if role = 3 ∨ (role ≠ portRole d p ∧ old ≠ 0 ∧ old ≠ 3) ∨ !stateOk old new then
    raise d (srcRt (p / 128) 0) 0
  else
    let was := inService d p
    let cand := wr d .rtPort (lix p) (putBits (putBits (putBits (putBits 0 30 28 old) 27 26 role) 24 24 (bits val 24 24)) 23 16 (bits val 23 16))
    if old = new then cand
    else match new with
      | 0 =>
        if old = 2 then
          let d := if linkUp cand p then cand else releasePort cand p
          if egressEmpty d p && !waitsFor d p then setDisabled d p
          else { d with rt := { d.rt with toDisable := d.rt.toDisable ++ [p] } }
        else setDisabled cand p
      | 1 =>
        let d := setPortState { cand with rt := { cand.rt with toDisable := cand.rt.toDisable.filter (· != p) } } p 1
        startTraining d p
      | 2 =>
        let d := setPortState cand p 2
        let d := if was then leaveService d p else d
        giveUp d p
      | 4 =>
        -- in BYPASS the port may not train: lanes still UP go DOWN (R118, spec/11 R304)
        let up := linkUp cand p
        let d := (portLanes cand p).foldl (fun d l => laneLeave d p l 6) cand
        startTraining (setPortState (if up then dropLink d p else d) p 4) p
      | _ => cand

/-- PORT_BYPASS: a drained port moves to BYPASS (R115). -/
def portBypass (p : Nat) (d : Dev) : Dev :=
  if portState d p = 2 ∧ !d.rt.toDisable.contains p ∧ egressEmpty d p ∧ !waitsFor d p then
    stopTraining (event (setPortState d p 3) 0x0480 (p / 128) (p % 128) [(2, p)] [p]) p
  else d

/-- PORT_BYPASS. -/
def execPortBypass (p : Fin 512) (s : State) : Host.Outcome State Fault Refusal := act (portBypass p) s

/-- PORT_DISABLED_DRAINED (R116). -/
def portDisabledDrained (p : Nat) (d : Dev) : Dev :=
  if d.rt.toDisable.contains p ∧ egressEmpty d p ∧ !waitsFor d p then setDisabled d p else d

/-- PORT_DISABLED_DRAINED. -/
def execPortDisabledDrained (p : Fin 512) (s : State) : Host.Outcome State Fault Refusal :=
  act (portDisabledDrained p) s

/-- PORT_DEAD_RELEASE: tDEAD_REL has passed with the link down (R116). -/
def portDeadRelease (p : Nat) (d : Dev) : Dev :=
  if portState d p = 2 ∧ !linkUp d p then releasePort d p else d

/-- PORT_DEAD_RELEASE. -/
def execPortDeadRelease (p : Fin 512) (s : State) : Host.Outcome State Fault Refusal := act (portDeadRelease p) s

/-- PORT_RESTORED (R118). -/
def portRestored (p : Nat) (d : Dev) : Dev :=
  if portState d p = 4 ∧ linkUp d p ∧ (linkSt d p).lcfRcvd then
    event (setPortState d p 1) 0x0481 (p / 128) (p % 128) [(2, p)] [p]
  else d

/-- PORT_RESTORED. -/
def execPortRestored (p : Fin 512) (s : State) : Host.Outcome State Fault Refusal := act (portRestored p) s

/-! ### Link-control frames (spec/03 R73–R75) -/

/-- Queue an accepted copy in the order of the grants (spec/03 R89). -/
def byGrant (e : Egr) : List Egr → List Egr
  | [] => [e]
  | x :: r => if e.grantNo < x.grantNo then e :: x :: r else x :: byGrant e r

/-- An initial link-control frame says whether the partner has VC7 cells: the demoted copies in egress staging take their
VC by it (spec/05 R129, log entry 140). -/
def placeDemoted (d : Dev) (p : Nat) : Dev :=
  let at_ (e : Egr) (v : Nat) : Nat := match e.via, e.ing.bind (findIng d) with
    | .mirror _, _ => v
    | via, some i => if demoted i then egrVc d i ⟨0, [p], 0, via⟩ p else v
    | _, none => v
  let all := (List.range 8).flatMap (fun v => (egrQ d p v).map (fun e => (v, at_ e v, e)))
  let d := (List.range 8).foldl (fun d v => setEgrQ d p v ((all.filter (fun x => x.1 == v && x.2.1 == v)).map (·.2.2))) d
  (all.filter (fun x => x.1 != x.2.1)).foldl (fun d x =>
    setEgrQ d p x.2.1 (byGrant { x.2.2 with demoteSkip := x.2.1 != 7 } (egrQ d p x.2.1))) d

/-- LCF_RECEIVE. -/
def lcfReceive (p : Nat) (l : Lcf) (d : Dev) : Dev :=
  if !linkUp d p then d
  else match l.fcs with
    | .good =>
      if l.ver ≠ 1 then d
      else
        let d := (List.range 8).foldl (fun d v => setPv d p v { pvSt d p v with cg := l.cg.getD v 0 }) d
        let k := linkSt d p
        let vc7 := if l.init ∨ !k.lcfRcvd then l.cg.getD 7 0 != 0 else k.vc7
        let e := { d with sw := { d.sw with link := tset d.sw.link p { k with lcfRcvd := true, vc7 := vc7 } } }
        if l.init ∨ !k.lcfRcvd then placeDemoted e p else e
    | f =>
      let d := if f = .stomped then cnt1 d (srcSw (p / 8)) 8 else d
      raise d (srcSw (p / 8)) 0

/-- LCF_RECEIVE. -/
def execLcfReceive (p : Fin 512) (l : Lcf) (s : State) : Host.Outcome State Fault Refusal := act (lcfReceive p l) s

/-! ### Loss of link -/

/-- A lane's training or its link ends for a cause that its receiver found. -/
def laneCause (d : Dev) (l cause : Nat) : Dev :=
  let s := laneState d l
  if s = 5 then portDown d (portOf d l) cause
  else if 1 < s ∧ s ≤ 4 then trainFail d l cause
  else lateCause d l cause

/-- CDR_LOSS: loss of lock on a strand that carries data (R294). -/
def cdrLoss (l strand : Nat) (d : Dev) : Dev :=
  let c := (laneSt d l).claim
  let used := if strand = 4 then c.isSome else c != some strand
  if used then laneCause d l 1 else d

/-- CDR_LOSS. -/
def execCdrLoss (lane : Fin 512) (strand : Fin 5) (s : State) : Host.Outcome State Fault Refusal :=
  act (cdrLoss lane strand) s

/-- FEC_CODEWORD: `errs` symbol errors; at 16 or more it cannot be corrected (spec/11 R291). -/
def fecCodeword (l errs : Nat) (d : Dev) : Dev :=
  if laneState d l ≠ 5 ∨ rdb d .lnState (lix l) 3 then d
  else
    let (m, d) := takeMark d 3 (l / 128) (l % 128)
    let n := errs + m.getD 0
    let d := cnt1 d (srcLn l) 4
    let x := laneSt d l
    let age := ((x.ucwAge.map (· + 1)).filter (· < 8192)).take 256
    if n = 0 then setLane d l { x with ucwRun := 0, ucwAge := age }
    else if n < 16 then
      let d := binError (cntN (cnt1 d (srcLn l) 5) (srcLn l) 6 n) 3 (l / 128)
      setLane d l { x with ucwRun := 0, ucwAge := age }
    else setLane (cnt1 d (srcLn l) 7) l { x with ucwRun := x.ucwRun + 1, ucwAge := 0 :: age }

/-- FEC_CODEWORD. -/
def execFecCodeword (lane : Fin 512) (errs : Nat) (s : State) : Host.Outcome State Fault Refusal :=
  act (fecCodeword lane errs) s

/-- UCW_LINK_DOWN: 8 uncorrectable codewords in a row, or LN_THRESH.UCW of them within 8,192 (R304); a receiver in
Rx-quiet does not check (R306).  On lanes that another cause has taken down in this cycle the lower code is recorded. -/
def ucwLinkDown (l : Nat) (d : Dev) : Dev :=
  let x := laneSt d l
  let lim := natMax 1 (rdf d .lnThresh (tix (l / 8)) 7 0)
  if !rdb d .lnState (lix l) 3 ∧ (8 ≤ x.ucwRun ∨ lim ≤ x.ucwAge.length) then portDown d (portOf d l) 2 else d

/-- UCW_LINK_DOWN. -/
def execUcwLinkDown (lane : Fin 512) (s : State) : Host.Outcome State Fault Refusal := act (ucwLinkDown lane) s

/-! ### Training (spec/11 R295–R303) -/

/-- The other lane of a lane's fibre. -/
def fibreMate (l : Nat) : Nat := if l % 2 = 0 then l + 1 else l - 1

/-- A lane takes SX for one of its strands and trains it from zero taps (R302); an odd lane's mapping counts when the
cycle ends. -/
def claimSpare (d : Dev) (l s : Nat) : Dev :=
  let x := laneSt d l
  let d := setLane d l { x with claim := some s, claimAt := d.now, claimDue := true, pass := [], below := 0, frac := x.frac.take 4,
                                lastGood := x.lastGood.take 4, coarse := x.coarse.take 4, low := x.low.take 4 }
  let d := wrf d .lnSpare (lix l) 3 0 (8 + 4 * (l % 2) + s)
  let d := wr (wr d .lnTapsLo (lix l ++ [4]) 0) .lnTapsHi (lix l ++ [4]) 0
  sendTraining (setLnState (if l % 2 = 0 then countClaim d l else d) l 3) l

/-- Map a failing strand to SX, or fail with cause SPARE where the fibre's spare is taken (R302); of two claims in
one cycle the even lane's stands (log entry 20). -/
def mapSpare (d : Dev) (l s : Nat) : Dev :=
  let mate := laneSt d (fibreMate l)
  if (laneSt d l).claim.isSome then trainFail d l 9
  else if mate.claim.isNone then claimSpare d l s
  else if l % 2 = 0 ∧ mate.claimAt = d.now ∧ laneState d (l + 1) = 3 then
    claimSpare (trainFail (dropClaim d (l + 1)) (l + 1) 9) l s
  else trainFail d l 9

/-- Figure of merit of a strand (R295): four times the empty bins between the data levels, 255 at most.  Bin k holds
what threshold k counts and the next does not (log entry 118). -/
def winFom (tol : Nat) (w : StrandWin) : Nat :=
  let bin (k : Nat) : Nat :=
    let a := w.counts.getD k 0
    let b := w.counts.getD (k + 1) 0
    natMax a b - natMin a b
  natMin 255 (4 * ((List.range 64).filter (fun k => decide (w.lo < k) && decide (k < w.hi) && decide (bin k ≤ tol))).length)

/-- The receive ring of a lane's strand is FAILED (spec/12 R318); strand 4 is SX. -/
def rxFailed (d : Dev) (l s : Nat) : Bool :=
  rdf d .oeRxring [l / 32, 9 * (l % 32 / 2) + (if s = 4 then 8 else 4 * (l % 2) + s)] 31 29 == 4

/-- Figures of merit of a lane's strands: a strand whose receive ring is FAILED is at 0 (spec/12 R318). -/
def winFoms (d : Dev) (l : Nat) (wins : List StrandWin) : List Nat :=
  (List.range 5).map (fun s =>
    if rxFailed d l s then 0 else winFom (rdf d .lnCtl (lix l) 7 0) (wins.getD s default))

/-- The figure of merit of strand `s` of a lane: SX's where the strand is mapped to it. -/
def fomOf (x : LaneSt) (foms : List Nat) (s : Nat) : Nat := foms.getD (if x.claim = some s then 4 else s) 0

/-- The strands that miss FOM_TRAIN by the last latched FOM. -/
def failing (d : Dev) (l : Nat) : List Nat :=
  [0, 1, 2, 3].filter (fun s => decide (rdf d .lnFom (lix l) (8 * s + 7) (8 * s) < rdf d .lnThresh (tix (l / 8)) 23 16))

/-- One tap after a window's updates (R296): by one unit each when COARSE, by an eighth each, accumulated, when FINE;
it saturates (log entry 118).  The tap and what is left below its unit. -/
def lmsTap (coarse : Bool) (tap : BitVec 8) (frac : Nat) (n : Int) : BitVec 8 × Nat :=
  let v := 8 * tap.toInt + frac + (if coarse then 8 * n else n)
  let q := v / 8
  if q < -128 then (-128, 0) else if 127 < q then (127, 0) else (BitVec.ofInt 8 q, (v % 8).toNat)

/-- A strand's eight taps after a window's updates, T1 in the lowest byte. -/
def lmsStrand (coarse : Bool) (taps : BitVec 64) (frac : List Nat) (signs : List Int) : BitVec 64 × List Nat :=
  let r := (List.range 8).map (fun i =>
    lmsTap coarse (taps.extractLsb' (8 * i) 8) (frac.getD i 0) (signs.getD i 0))
  (BitVec.ofNat 64 (leVal (r.map (·.1))), r.map (·.2))

/-- One strand's adaptation at a window's end (R296): low count, last good taps, step; the taps in force and what FINE
updates have left. -/
def adapt (d : Dev) (l fom : Nat) (low : Nat) (good : Option (BitVec 64)) (tap : BitVec 64 × List Nat) :
    Nat × Option (BitVec 64) × Bool × (BitVec 64 × List Nat) :=
  let th (m k : Nat) := rdf d .lnThresh (tix (l / 8)) m k
  let coarse := decide (fom < th 23 16)
  let good := if th 31 24 ≤ fom then some tap.1 else good
  let low := if fom < th 15 8 then low + 1 else 0
  match low, good with
  | 4, some g => (0, some g, true, (g, []))
  | _, _ => (low, good, coarse, tap)

/-- The taps of a strand, as LN_TAPS shows them. -/
def strandTaps (d : Dev) (l s : Nat) : BitVec 64 :=
  BitVec.ofNat 64 (rd d .lnTapsHi (lix l ++ [s]) * 2 ^ 32 + rd d .lnTapsLo (lix l ++ [s]))

/-- The FOM latched; and, but while Tailor restarts (spec/14 R371), the window's updates of the taps, and every strand's
step set for the next window. -/
def latchFom (d : Dev) (l : Nat) (foms : List Nat) (signs : List (List Int)) : Dev :=
  let x := laneSt d l
  let d := wr d .lnFom (lix l)
    ((List.range 4).foldl (fun a s => a + fomOf x foms s * 2 ^ (8 * s)) 0)
  if tlrHolds d then d
  else
  let r := (List.range 5).map (fun s =>
    adapt d l (foms.getD s 0) (x.low.getD s 0) (x.lastGood.getD s none)
      (lmsStrand (x.coarse.getD s true) (strandTaps d l s) (x.frac.getD s []) (signs.getD s [])))
  let d := putTaps d l (r.map (fun y => y.2.2.2.1))
  setLane d l { x with low := r.map (·.1), lastGood := r.map (·.2.1), coarse := r.map (·.2.2.1),
                       frac := r.map (fun y => y.2.2.2.2) }

/-- Strands weak for a fourth window in a row while UP (R297): each is reported once. -/
def weakCheck (d : Dev) (l : Nat) (foms : List Nat) : Dev :=
  let x := laneSt d l
  let warn := rdf d .lnThresh (tix (l / 8)) 15 8
  let w := (List.range 4).map (fun s => if fomOf x foms s < warn then x.weak.getD s 0 + 1 else 0)
  let d := setLane d l { x with weak := w }
  (List.range 4).foldl (fun d s =>
    if w.getD s 0 = 4 then raise d (srcLn l) 2 [(2, l), (1, if x.claim = some s then 4 else s)] [l] else d) d

/-- FOM_WINDOW_END: what the windows of S0–S3 and SX have shown. -/
def fomWindowEnd (l : Nat) (wins : List StrandWin) (signs : List (List Int)) (d : Dev) : Dev :=
  let s := laneState d l
  if s < 2 ∨ 5 < s ∨ rdb d .lnState (lix l) 3 then d
  else
    let foms := winFoms d l wins
    let d := sendTraining (latchFom d l foms signs) l
    let x := laneSt d l
    let th := rdf d .lnThresh (tix (l / 8)) 23 16
    if s = 5 then weakCheck d l foms
    else if s = 4 then d
    else
      let pass := (List.range 4).map (fun k => if th ≤ fomOf x foms k then x.pass.getD k 0 + 1 else 0)
      let ok (k : Nat) : Bool := decide (2 ≤ pass.getD k 0)
      let bad := (List.range 4).filter (fun k => pass.getD k 0 == 0)
      let d := setLane d l { x with pass := pass }
      if (List.range 4).all ok ∧ th ≤ x.partnerFom then sendTraining (setLnState d l 4) l
      else if s = 2 then
        match bad with
        | [k] =>
          if (List.range 4).all (fun j => j == k || ok j) then
            let n := x.below + 1
            let lim := natMax 1 (rdf d .lnCtl (lix l) 15 8)
            if lim < n then mapSpare d l k else setLane d l { laneSt d l with below := n }
          else setLane d l { laneSt d l with below := 0 }
        | _ => setLane d l { laneSt d l with below := 0 }
      else d

/-- FOM_WINDOW_END. -/
def execFomWindowEnd (lane : Fin 512) (wins : List StrandWin) (signs : List (List Int)) (s : State) :
    Host.Outcome State Fault Refusal := act (fomWindowEnd lane wins signs) s

/-- A frame begins with MARKER and its CRC is good. -/
def goodTraining (f : TrainFrame) : Bool := f.marker == trainMarker && f.crc.toNat == trainCrc f

/-- TRAINING_FRAME_RECEIVE: a frame with a failing CRC is ignored (R300, R301).  A cold start takes the frequency offset
that the phase tracker finds, a free value (log entry 118). -/
def trainingFrameReceive (l : Nat) (f : TrainFrame) (d : Dev) : Dev :=
  let s := laneState d l
  if !goodTraining f ∨ s < 2 ∨ 4 < s then d
  else if f.width.toNat ≠ lnW d (portOf d l) then trainFail d l 7
  else
    let x := laneSt d l
    let warm := x.key == some (f.serial, f.lane)
    let d := if x.checked then d
      else if warm then cnt1 d (srcLn l) 8
      else
        let d := cnt1 (setTaps d l []) (srcLn l) 9
        { setLane d l { laneSt d l with freq := Config.freeWord d.draw } with draw := d.draw + 1 }
    let d := setLane d l { laneSt d l with checked := true, partnerFom := f.minfom.toNat, partner := some (f.serial, f.lane) }
    wrf d .lnSpare (lix l) 7 4 f.rxmap.toNat

/-- TRAINING_FRAME_RECEIVE. -/
def execTrainingFrameReceive (lane : Fin 512) (f : TrainFrame) (s : State) : Host.Outcome State Fault Refusal :=
  act (trainingFrameReceive lane f) s

/-- TRAIN_TIMEOUT: one failing strand is mapped, else the training fails with cause FOM (R302). -/
def trainTimeout (l : Nat) (d : Dev) : Dev :=
  match laneState d l with
  | 2 =>
    match failing d l with
    | [k] => mapSpare d l k
    | _ => trainFail d l 10
  | 3 => trainFail d l 10
  | _ => d

/-- TRAIN_TIMEOUT. -/
def execTrainTimeout (lane : Fin 512) (s : State) : Host.Outcome State Fault Refusal := act (trainTimeout lane) s

/-- Credits at link up (spec/03 R74): sent-cell counts 0, the reserves granted; cells of frames that an
earlier link brought are owed to nobody (log entry 50). -/
def startCredits (d : Dev) (p : Nat) : Dev :=
  let d := { d with sw := { d.sw with
    ing := d.sw.ing.map (fun i => if i.port = p then { i with old := true } else i),
    link := tset d.sw.link p ⟨false, false, false, d.now, false, d.now⟩ } }
  (List.range 8).foldl (fun d v => setPv d p v ⟨0, 0, 0, reserveOf d p v, 0, 0, 0, 0⟩) d

/-- ALIGN_DONE: every lane of the port goes UP, or a skew above tDESKEW fails the training (R290, R298). -/
def alignDone (p : Nat) (skewed : Bool) (d : Dev) : Dev :=
  let ls := portLanes d p
  if ls.isEmpty || !ls.all (fun l => laneState d l == 4) then d
  else if skewed then ls.foldl (fun d l => trainFail d l 8) d
  else
    let d := ls.foldl (fun d l => setLnState (setLane d l { laneSt d l with
      upAt := some d.now, ucwRun := 0, ucwAge := [], weak := [] }) l 5) d
    event (startCredits d p) 0x0E80 (p / 128) (p % 128) [(2, p)] [p]

/-- ALIGN_DONE. -/
def execAlignDone (p : Fin 512) (skewed : Bool) (s : State) : Host.Outcome State Fault Refusal :=
  act (alignDone p skewed) s

/-- HOLD_EXPIRY (R303). -/
def holdExpiry (l : Nat) (d : Dev) : Dev :=
  if laneState d l = 6 then
    if mayTrain d (portOf d l) then toWait d l else toDown d l
  else d

/-- HOLD_EXPIRY. -/
def execHoldExpiry (lane : Fin 512) (s : State) : Host.Outcome State Fault Refusal := act (holdExpiry lane) s

/-- Restart the training of a whole port (R463). -/
def retrainPort (p : Nat) (d : Dev) : Dev :=
  let ls := portLanes d p
  if ls.all (fun l => laneState d l == 0) then d
  else
    let train := mayTrain d p
    let d := ls.foldl (fun d l =>
      if 1 ≤ laneState d l ∧ laneState d l ≤ 4 then unclaim (setCause d l 6) l else d) d
    let d := portDown d p 6
    ls.foldl (fun d l => if train then toWait d l else toDown d l) d

/-- A write of LN_CTL: its fields are stored, RETRAIN = 1 acts on the port. -/
def lnCtlWrite (l val : Nat) (d : Dev) : Dev :=
  let d := wrf d .lnCtl (lix l) 15 0 val
  if bit val 31 then retrainPort (portOf d l) d else d

/-! ### Quiet states (spec/11 R305, R306) -/

/-- The port has had no frame to send for LN_QUIET.IDLE_NS of the lane (R305). -/
def idleLong (d : Dev) (l : Nat) : Bool :=
  decide (6 * natMax 1 (rdf d .lnQuiet (lix l) 19 0) ≤ 5 * (d.now - (linkSt d (portOf d l)).idleAt))

/-- TX_QUIET_ENTER. -/
def txQuietEnter (l : Nat) (d : Dev) : Dev :=
  let p := portOf d l
  if rdb d .lnQuiet (lix l) 31 ∧ laneState d l = 5 ∧ egressEmpty d p ∧ idleLong d l ∧ unadvertised d p = 0 then
    wrf d .lnCtl (lix l) 30 30 1
  else d

/-- TX_QUIET_ENTER. -/
def execTxQuietEnter (lane : Fin 512) (s : State) : Host.Outcome State Fault Refusal := act (txQuietEnter lane) s

/-- TX_WAKE: for a queued frame, for grants that reach BATCH, or for an armed launch (spec/13 R342). -/
def txWake (l : Nat) (d : Dev) : Dev :=
  let p := portOf d l
  let batch := natMax 1 (rdf d .swLcf (tix (p / 8)) 15 8)
  let why := !egressEmpty d p || decide (batch ≤ unadvertised d p) || d.time.launches.any (fun x => x.port == p)
  if why then wrf d .lnCtl (lix l) 30 30 0 else d

/-- TX_WAKE. -/
def execTxWake (lane : Fin 512) (s : State) : Host.Outcome State Fault Refusal := act (txWake lane) s

/-- RX_QUIET_ENTER: on QUIET, where RX_EN is 1. -/
def rxQuietEnter (l : Nat) (d : Dev) : Dev :=
  if rdb d .lnQuiet (lix l) 30 ∧ laneState d l = 5 then wrf d .lnState (lix l) 3 3 1 else d

/-- RX_QUIET_ENTER. -/
def execRxQuietEnter (lane : Fin 512) (s : State) : Host.Outcome State Fault Refusal := act (rxQuietEnter lane) s

/-- RX_WAKE. -/
def rxWake (l : Nat) (d : Dev) : Dev := wrf d .lnState (lix l) 3 3 0

/-- RX_WAKE. -/
def execRxWake (lane : Fin 512) (s : State) : Host.Outcome State Fault Refusal := act (rxWake lane) s

/-! ### Register writes judged as a whole -/

/-- Ports of a tile as a LN_PORT word sets them: first lane and number of lanes. -/
def tilePorts (w : Nat) : List (Nat × Nat) :=
  (List.range 8).filterMap (fun k => match bits w (2 * k + 1) (2 * k) with
    | 0 => some (k, 1)
    | 1 => some (k, 2)
    | 2 => some (k, 4)
    | _ => none)

/-- A port configuration obeys R13, and every lane lies in exactly one port (R292). -/
def lnPortOk (w : Nat) : Bool :=
  let ps := tilePorts w
  ps.all (fun p => p.1 % p.2 == 0)
    && (List.range 8).all (fun k => (ps.filter (fun p => decide (p.1 ≤ k) && decide (k < p.1 + p.2))).length == 1)

/-- A write of LN_PORT (R292); the lanes of a new port that may train leave DOWN (R298, Table 11-1). -/
def lnPortWrite (t val : Nat) (d : Dev) : Dev :=
  let new := tilePorts (bits val 15 0)
  let gone := (tilePorts (rdf d .lnPort (tix t) 15 0)).filter (fun p => !new.contains p)
  let busy := gone.any (fun p => (List.range p.2).any (fun j => laneState d (8 * t + p.1 + j) != 0))
  if !lnPortOk val || busy then raise d (srcLnTile t) 0
  else
    let old := tilePorts (rdf d .lnPort (tix t) 15 0)
    (new.filter (fun p => !old.contains p)).foldl (fun d p =>
      if mayTrain d (8 * t + p.1) then startTraining d (8 * t + p.1) else d)
      (wr d .lnPort (tix t) (val % 65536 + 2 ^ 31 * bits val 31 31))

/-- A write of SW_RSV of a lane and VC (spec/03 R70). -/
def swRsvWrite (l v val : Nat) (d : Dev) : Dev :=
  let p := portOf d l
  let d1 := wr d .swRsv (lix l ++ [v]) (bits val 11 0)
  let r := reserveOf d1 p v
  if (0 < r ∧ r < 33) ∨ 22008 < tileReserve d1 (l / 8) ∨ linkUp d p then raise d (srcSw (l / 8)) 6 else d1

/-- A write of RT_ORD_SEED (spec/04 R123). -/
def rtOrdSeedWrite (die val : Nat) (d : Dev) : Dev :=
  if (List.range 512).any (inService d) then raise d (srcRt die 0) 0 else wr d .rtOrdSeed [] val

/-- A write of MIR_CTL (spec/04 R119). -/
def mirCtlWrite (die s val : Nat) (d : Dev) : Dev :=
  if bits val 27 25 < 3 then raise d (srcRt die 0) 0
  else wr d .mirCtl [s] (putBits val 24 18 0)

end Sys2Proof.Machine
end

