-- ==== Sys2Proof/Machine/Pmc.lean ====
section
/-! DEFINITION. The collector: reading counters, freezes, dumps and their records, Swatch records on their
way to the telemetry ring (spec/17). -/
namespace Sys2Proof.Machine

/-! ### Counters as the collector reads them (spec/17 R430, R436) -/

/-- PMC_CTL.MODE: 0 OFF, 1 DUMP, 2 FREEZE; 3 is read as 0. -/
def pmcMode (d : Dev) : Nat := if rdf d .pmcCtl [] 1 0 = 3 then 0 else rdf d .pmcCtl [] 1 0

/-- A counter in a set of counters and LOAD bins: the bins of spec/16 R411 lie at 0x0070_2000 + 8 × (12k + b). -/
def cntIn (c : Tab (BitVec 48) × Tab (BitVec 48)) (off : Nat) : BitVec 48 :=
  let i := (off - 0x702000) / 8
  if 0x702000 ≤ off ∧ i < 60 ∧ 8 ≤ i % 12 then tgetD c.2 (4 * (i / 12) + (i % 12 - 8)) 0 else tgetD c.1 off 0

/-- A counter as a BAR0 read shows it: live, of a sleeping block as it was (spec/01 R20), or with SNAP_VIEW its snapshot, 0 before the first freeze
(log entry 58). -/
def cntShown (d : Dev) (off : Nat) : BitVec 48 :=
  if rdb d .pmcCtl [] 3 then
    match d.pmc.snap with
    | some c => cntIn c off
    | none => 0
  else cntIn (match sleptAt d off with | some x => x.cnt | none => d.cnt, d.loadBins) off

/-! ### Records (spec/17 R437, Table 17-2) -/

/-- A row of counters of a dump: block, DIE, UNIT, offset of the first counter, FIRST, how many. -/
structure DumpRow where
  blk : Nat
  die : Nat
  unit : Nat
  off : Nat
  first : Nat
  num : Nat

/-- The counters of a unit. -/
def rowOf (s : Src) (n : Nat) : DumpRow := ⟨s.blk, s.die, s.unit, s.cnt, 0, n⟩

/-- The units of the device with their counters, in ascending (BLOCK, DIE, UNIT, FIRST). -/
def dumpRows : List DumpRow :=
  let dies := List.range 4
  let tiles := List.range 64
  let occ (die code unit off : Nat) : DumpRow := ⟨0x16, die, code * 65536 + unit, off, 0, 4⟩
  dies.map (fun k => rowOf (srcFwd k) 20)
  ++ tiles.map (fun t => rowOf (srcSw t) 11)
  ++ dies.map (fun k => rowOf (srcMesh k 0) 7)
  ++ dies.map (fun k => rowOf (srcRt k 0) 17)
  ++ dies.map (fun k => rowOf (srcPol k) 2)
  ++ tiles.map (fun t => rowOf (srcShp t) 1)
  ++ (List.range 72).map (fun c => rowOf (srcCore c) 11)
  ++ (List.range 8).map (fun c => rowOf (srcCl c) 1)
  ++ tiles.map (fun t => rowOf (srcPre t) 4)
  ++ dies.map (fun k => rowOf (srcColl k 0) 11)
  ++ dies.map (fun k => rowOf (srcOpt k 0) 12)
  ++ [{ rowOf (srcMem 0) 13 with die := 255 }, { rowOf (srcBolt 0) 13 with die := 255 }]
  ++ (List.range 512).map (fun l => rowOf (srcLn l) 12)
  ++ tiles.map (fun t => rowOf (srcLnTile t) 1)
  ++ (List.range 16).map (fun n => rowOf (srcOe n n) 7)
  ++ (List.range 8).map (fun m => rowOf (srcEls m) 5)
  ++ [rowOf (srcTime 255 0) 12, rowOf (srcHif 0) 13, rowOf (srcSys 0 0) 9, rowOf (srcRel 255 0) 14,
      ⟨0x15, 255, 0, 0x702000, 0x40, 60⟩]
  ++ dies.flatMap (fun k =>
       (List.range 16).map (fun t => occ k 2 t (tileBase (16 * k + t) + 0x7020))
       ++ [occ k 3 0 (dieBase k + 0x302020)]
       ++ (List.range 18).map (fun c => occ k 7 (18 * k + c) (coreBase (18 * k + c) + 0x220))
       ++ (List.range 3).map (fun s => occ k 12 (3 * k + s) (0x2C00120 + 0x10000 * (3 * k + s))))
  ++ [⟨0x16, 255, 0x160000, 0x601000, 0, 7⟩]

/-- The rows of the blocks that PMC_MASK selects. -/
def maskedRows (d : Dev) : List DumpRow := dumpRows.filter (fun r => rdb d .pmcMask [] r.blk)

/-- Counter records of a row: seven counters each. -/
def rowRecs (r : DumpRow) : Nat := (r.num + 6) / 7

/-- PMC_NREC: counter records of the next dump. -/
def pmcNrec (d : Dev) : Nat := (maskedRows d).foldl (fun a r => a + rowRecs r) 0

/-- The START record of a dump. -/
def startRecord (frozen : Bool) (seq ns count : Nat) : List Byte :=
  leBytes 1 3 ++ leBytes 1 0xFF ++ [0, 0, 0] ++ leBytes 1 (b2n frozen) ++ leBytes 2 seq ++ leBytes 8 ns
    ++ leBytes 4 count ++ List.replicate 44 0

/-- Record `i` of a row. -/
def counterRecord (c : Tab (BitVec 48) × Tab (BitVec 48)) (frozen : Bool) (seq ns : Nat) (r : DumpRow) (i : Nat) :
    List Byte :=
  let n := natMin 7 (r.num - 7 * i)
  let body := (List.range n).flatMap (fun k => leBytes 6 (cntIn c (r.off + 8 * (7 * i + k))).toNat)
  leBytes 1 1 ++ leBytes 1 r.die ++ leBytes 1 r.blk ++ leBytes 1 (r.first + 7 * i) ++ leBytes 1 n
    ++ leBytes 1 (b2n frozen) ++ leBytes 2 seq ++ leBytes 8 ns ++ leBytes 4 r.unit ++ slice body 0 42 ++ [0, 0]

/-- Write a record to the telemetry ring and, with TEL_EN, to the management port (spec/14 R363, R367). -/
def telRecord (d : Dev) (r : List Byte) : Dev :=
  let d := ringPush d 17 r
  if rdb d .mgmtCtl [] 30 then
    let (ok, d) := mgmtPush d 3 r
    if ok then d else raise d (srcHif 0) 7
  else d

/-- The telemetry ring takes `n` more records. -/
def telRoom (d : Dev) (n : Nat) : Bool := ringOn d 17 && decide (n ≤ ringFree d 17)

/-- The counter records of the next dump: row of the device, record of the row. -/
def dumpRecs (d : Dev) : List (Nat × Nat) :=
  (dumpRows.zipIdx.filter (fun x => rdb d .pmcMask [] x.1.blk)).flatMap (fun x =>
    (List.range (rowRecs x.1)).map (fun i => (x.2, i)))

/-- A dump starts: its START record is written, its counter records follow; without room for all of them, none (spec/14
R363). -/
def writeDump (d : Dev) (frozen : Bool) : Dev :=
  let n := pmcNrec d
  if telRoom d (n + 1) then
    let ns := nsNow d
    let seq := (rdf d .pmcSeq [] 15 0 + 1) % 65536
    let d := telRecord (wr d .pmcSeq [] seq) (startRecord frozen seq ns n)
    { d with pmc := { d.pmc with dump := some ⟨frozen, ns, dumpRecs d⟩ } }
  else raise d (srcHif 0) 5

/-- The next counter record of a dump: of a snapshot with the freeze's time, else its counters as they are now, with the
present time (spec/17 R435). -/
def dumpNext (d : Dev) : Dev :=
  match d.pmc.dump with
  | some ⟨frozen, ns, (k, i) :: q⟩ =>
    let d := { d with pmc := { d.pmc with dump := some ⟨frozen, ns, q⟩ } }
    match dumpRows[k]? with
    | some r =>
      let c := if frozen then d.pmc.snap.getD ([], []) else (cntSeen d, d.loadBins)
      telRecord d (counterRecord c frozen (rdf d .pmcSeq [] 15 0) (if frozen then ns else nsNow d) r i)
    | none => d
  | _ => d

/-- A number of counter records of a dump. -/
def dumpMany : Nat → Dev → Dev
  | 0, d => d
  | n + 1, d => dumpMany n (dumpNext d)

/-- While a dump is being written, one record on each CTRL edge, every third TIME cycle (spec/17 R435, log entry 59). -/
def dumpStep (d : Dev) : Dev := if d.now % 3 = 0 then dumpNext d else d

/-! ### Freezes and dumps (spec/17 R434–R436) -/

/-- A freeze: every counter and bin, and those of the policers, are copied, and the snapshot begins to be written; discarded while
the last one is still being written. -/
def freeze (d : Dev) : Dev :=
  if pmcMode d ≠ 2 then d
  else if d.pmc.dump.isSome then raise d srcPmc 2
  else
    let c := (cntSeen d, d.loadBins)
    let d := cnt1 { d with pmc := { d.pmc with snap := some c, snapPol := d.pol.dies } } srcPmc 5
    let d := writeDump d true
    wrf d .pmcFreeze [] 29 29 (b2n d.pmc.dump.isSome)

/-- PMC_FREEZE_TICK: the armed tick freezes the counters and disarms itself (log entry 58). -/
def pmcFreezeTick (d : Dev) : Dev :=
  if rdb d .pmcFreeze [] 30 then freeze (wrf d .pmcFreeze [] 30 30 0) else d

/-- PMC_FREEZE_TICK. -/
def execPmcFreezeTick (s : State) : Host.Outcome State Fault Refusal := act pmcFreezeTick s

/-- PMC_DUMP: a dump starts, or is skipped while the last one is being written (spec/17 R435). -/
def pmcDump (d : Dev) : Dev :=
  if pmcMode d ≠ 1 then d
  else if d.pmc.dump.isSome then raise d srcPmc 1
  else writeDump d false

/-- PMC_DUMP. -/
def execPmcDump (s : State) : Host.Outcome State Fault Refusal := act pmcDump s

/-- PMC_DUMP_END: the last records are written; a MODE written meanwhile takes effect (spec/17 R434). -/
def pmcDumpEnd (d : Dev) : Dev :=
  match d.pmc.dump with
  | none => d
  | some x =>
    let d := dumpMany x.left.length d
    let d := cnt1 { d with pmc := { d.pmc with dump := none } } srcPmc 4
    let d := if x.frozen then wrf d .pmcFreeze [] 29 29 0 else d
    match d.pmc.mode with
    | some m => { wrf d .pmcCtl [] 1 0 m with pmc := { d.pmc with mode := none } }
    | none => d

/-- PMC_DUMP_END. -/
def execPmcDumpEnd (s : State) : Host.Outcome State Fault Refusal := act pmcDumpEnd s

/-- A write of PMC_CTL, its fields as they stand after the write: MODE waits for a dump's end, and one
that the lock ignores leaves what waits (spec/17 R434). -/
def pmcCtlWrite (val : Nat) (d : Dev) : Dev :=
  if d.pmc.dump.isSome then
    let old := rdf d .pmcCtl [] 1 0
    let m := if rdb d .pmcCtl [] 31 then d.pmc.mode else some (bits val 1 0)
    wr { d with pmc := { d.pmc with mode := m } } .pmcCtl [] (putBits val 1 0 old)
  else wr d .pmcCtl [] val

/-- A write of PMC_FREEZE: AT_V arms the tick, unless it has passed; GO freezes (spec/17 R436, R443). -/
def pmcFreezeWrite (val : Nat) (d : Dev) : Dev :=
  let t := BitVec.ofNat 32 (rd d .pmcFreezeAt)
  let was := rdb d .pmcFreeze [] 30
  let at_ := bit val 30 && (was || !tickReached (nsNow d) t)
  let d := wrf d .pmcFreeze [] 30 30 (b2n at_)
  let d := if at_ ∧ !was then { d with pmc := { d.pmc with frzDom := activeDom d } } else d
  if bit val 31 then freeze d else d

/-- SWATCH_RECORD_WRITE: the oldest record of a die enters the ring between dumps (spec/17 R437, R441). -/
def swatchRecordWrite (die : Nat) (d : Dev) : Dev :=
  match tgetD d.pmc.swq die [] with
  | [] => d
  | r :: q =>
    if d.pmc.dump.isNone ∧ telRoom d 1 then
      cnt1 (telRecord { d with pmc := { d.pmc with swq := tput [] d.pmc.swq die q } } r) srcPmc 6
    else d

/-- SWATCH_RECORD_WRITE. -/
def execSwatchRecordWrite (die : Fin 4) (s : State) : Host.Outcome State Fault Refusal :=
  act (swatchRecordWrite die) s

/-! ### Selectors (spec/17 R432, Table 17-1) -/

/-- Is a SRC listed for a block (0 tile, 1 core, 2 stack, 3 die), and its UNIT in range? -/
def srcOk (kind src unit : Nat) : Bool :=
  match kind, src with
  | 0, 1 | 0, 4 | 1, 0x10 | 1, 0x11 | 1, 0x13 | 2, 0x20 | 2, 0x22 | 3, 0x30 | 3, 0x31 | 3, 0x32 | 3, 0x34 => unit == 0
  | 0, 2 | 0, 3 => decide (unit < 64)
  | 0, 5 => decide (unit < 10)
  | 1, 0x12 => decide (unit < 4)
  | 2, 0x21 => decide (unit < 64)
  | 3, 0x33 => decide (unit < 16)
  | _, _ => false

/-- The kind of block that a selector belongs to. -/
def selKind (r : Reg) : Option Nat :=
  match r with
  | .pmcSelTile => some 0
  | .pmcSelCore => some 1
  | .pmcSelStack => some 2
  | .pmcSelDie => some 3
  | _ => none

/-- A write of a selector at a register's instance: it clears its counter, or is discarded. -/
def pmcSelApply (r : Reg) (ix : List Nat) (val : Nat) (d : Dev) : Dev :=
  match selKind r with
  | none => d
  | some k =>
    if srcOk k (bits val 29 23) (bits val 22 16) then
      let n := ix.getLastD 0
      let off := regAddr r ix - 4 * n + 0x20 + 8 * n
      { wr d r ix val with cnt := tdel d.cnt off }
    else raise d srcPmc 0

end Sys2Proof.Machine
end

