-- ==== Sys2Proof/Machine/Fault.lean ====
section
/-! DEFINITION. The emergency stop and the device fault (spec/14 R368, spec/16 R404–R406). -/
namespace Sys2Proof.Machine

/-! ### The four steps of R368 -/

/-- Transmit `n` frames of VC2 of a port. -/
def drainVc2 : Nat → Dev → Nat → Dev
  | 0, d, _ => d
  | n + 1, d, p => drainVc2 n (frameTxEnd p (startVc d p 2)) p

/-- An ABORT frame, or the notice of one to a partner (spec/07 R186). -/
def isAbort (e : Egr) : Bool := e.frame.hdr.coll && e.frame.chdr.kind == 3

/-- Frames of a port's VC2 queue up to and including the last ABORT frame. -/
def abortDepth (d : Dev) (p : Nat) : Nat :=
  let q := egrQ d p 2
  q.length - (q.reverse.findIdx isAbort)

/-- ABORT frames that wait for the mesh, or are in it, reach their egress queues. -/
def landAborts (d : Dev) : Dev :=
  let fly (f : Flight) : Option (Nat × Egr) := match f.load with | .own e k => if isAbort e then some (k, e) else none | _ => none
  let out := d.sw.flights.filterMap fly
  let wait := d.sw.ownq.filter (fun o => isAbort o.e)
  let d := { d with sw := { d.sw with ownq := d.sw.ownq.filter (fun o => !isAbort o.e),
                                      flights := d.sw.flights.filter (fun f => (fly f).isNone) } }
  let d := out.foldl (fun d x =>
    egrPush { d with sw := { d.sw with egrRsv := tput 0 d.sw.egrRsv x.1 (tgetD d.sw.egrRsv x.1 0 - x.2.cells) } }
      (x.1 / 8) (x.1 % 8) x.2) d
  wait.foldl (fun d o => egrPush d (o.k / 8) (o.k % 8) o.e) d

/-- The ABORT frames leave their ports: the frame in transmission ends, then VC2 sends as far as the last
ABORT frame (log entry 52). -/
def flushAborts (d : Dev) : Dev :=
  let d := landAborts d
  (List.range 512).foldl (fun d p =>
    if (egrQ d p 2).isEmpty || !linkUp d p then d
    else match abortDepth d p with
      | 0 => d
      | n => drainVc2 n (frameTxEnd p d) p) d

/-- Every partition goes to OFF without DRAIN. -/
def partsOff (d : Dev) : Dev :=
  { d with fwd := { d.fwd with
      parts := (d.fwd.parts.map (fun e => (e.1, { e.2 with st := 0 }))).filter
        (fun e => e.2 != ⟨0, ⟨0, false, 0, 0⟩, ⟨0, false, 0, 0⟩⟩) } }

/-- Ports of the device: first lanes. -/
def allPorts (d : Dev) : List Nat := (List.range 512).filter (fun p => decide (0 < portW d p))

/-- A port goes to DISABLED at once: what waits for it is released, its lanes go DOWN. -/
def portOff (d : Dev) (p : Nat) : Dev := stopTraining (portDown (releasePort d p) p 6) p

/-- Every port goes to DISABLED at once. -/
def portsOff (d : Dev) : Dev :=
  let ps := allPorts d
  let d := ps.foldl (fun d p => if portState d p = 0 then d else setPortState d p 0) d
  ps.foldl portOff { d with rt := { d.rt with toDisable := [], warm := [] } }

/-- Offsets of the transmit ring registers: engine and ring, where an offset is one. -/
def txRingAt (off : Nat) : Option (Nat × Nat) :=
  if off < 0x2801000 then none
  else
    let n := (off - 0x2801000) / 0x20000
    let o := (off - 0x2801000) % 0x20000
    if n < 16 ∧ o < 576 ∧ o % 4 = 0 then some (n, o / 4) else none

/-- Register of a modulator or a drop filter. -/
def ringReg (tx : Bool) : Reg := if tx then .oeTxring else .oeRxring

/-- Key of a ring's lock. -/
def ringKey (n : Nat) (tx : Bool) (f c : Nat) : Nat := ((n * 2 + b2n tx) * 16 + f) * 9 + c

/-- A ring's lock. -/
def ringLock (d : Dev) (n : Nat) (tx : Bool) (f c : Nat) : RingLock :=
  tgetD d.oe.rings (ringKey n tx f c) ⟨0, 0, 0, 0, 0, 0⟩

/-- Store a ring's lock. -/
def setRingLock (d : Dev) (n : Nat) (tx : Bool) (f c : Nat) (x : RingLock) : Dev :=
  { d with oe := { d.oe with rings := tput ⟨0, 0, 0, 0, 0, 0⟩ d.oe.rings (ringKey n tx f c) x } }

/-- Temperature at the sensor beside a feed group, °C. -/
def groupTemp (d : Dev) (n g : Nat) : Int := (rdf d .oeTemp [n] (8 * g + 7) (8 * g) : Nat)

/-- The feed-forward term of a ring at a temperature, in heater codes, rounded down (spec/12 R313; log entry 119). -/
def ffTerm (x : RingLock) (t : Int) : Int := ((x.href : Int) * 1140 - (x.kff : Int) * (t - x.tref)) / 1140

/-- The heater code of a ring: its feed-forward term with a correction, within the heater's range. -/
def heaterAt (x : RingLock) (t corr : Int) : Nat := natMin 65535 (ffTerm x t + corr).toNat

/-- Locked modulator rings of feed groups that go dark hold their heaters on the feed-forward term (spec/12 R317). -/
def holdRings (d : Dev) (q : Nat → Nat → Bool) : Dev :=
  { d with regs := d.regs.map (fun e =>
      match txRingAt e.1 with
      | some (n, r) =>
        if q n (r / 36) && bits e.2.toNat 31 29 == 2 then
          (e.1, w32 (3 * 2 ^ 29 + heaterAt (ringLock d n true (r / 9) (r % 9)) (groupTemp d n (r / 36)) 0))
        else e
      | none => e) }

/-- The four steps; contexts abort with a reason.  KILL and the probes follow from the stop itself. -/
def stopAll (d : Dev) (reason : Nat) : Dev :=
  let d := flushAborts (abortWhere d (fun _ => true) reason)
  holdRings (portsOff (partsOff d)) (fun _ _ => true)

/-! ### Device faults -/

/-- A device fault (spec/16 R404–R406): `cause` 1 MESH_UE, 2 SEAM_FAIL, 3 control parity, 4 mesh Patrol. -/
def deviceFault (d : Dev) (cause die unit : Nat) : Dev :=
  let d := raise d (srcRel die unit) 4
  let d := if d.host.fault then d
    else wr d .relFault [] (2 ^ 31 + cause * 2 ^ 24 + die * 2 ^ 16 + unit)
  let d := if rdb d .pmcCtl [] 2 then freeze d else d
  let d := stopAll d 9
  { wrf d .idStatus [] 4 4 0 with host := { d.host with fault := true } }

/-- KILL is asserted on every output: an emergency stop, a device fault, a thermal trip, or a start-up that has not yet
discovered the laser sources (spec/14 R368, spec/15 R398, spec/18 R450; log entry 126). -/
def killAll (d : Dev) : Bool := d.host.estop || d.host.fault || d.pwr.tripped || decide (d.pwr.step < 5)

end Sys2Proof.Machine
end

