-- ==== Sys2Proof/Machine/Forward.lean ====
section
/-! DEFINITION. The ingress pipeline: admission to the pool, the checks, foreign frames, policing, learning,
lookup, ordering, sampling (spec/02 R31–R55, spec/03 R66–R78, spec/04 R108–R114, spec/05 R126–R130,
spec/17 R438). -/
namespace Sys2Proof.Machine

/-! ### Admission (spec/03 R66–R72, R76) -/

/-- Take a mark at a detector of any lane of a port. -/
def laneMark (d : Dev) (id p : Nat) : Bool × Dev :=
  (portLanes d p).foldl (fun x l =>
    if x.1 then x
    else
      let (m, e) := takeMark x.2 id (l / 128) (l % 128)
      if m.isSome then (true, e) else x) (false, d)

/-- A frame as its port receives it: ended at 8,266 bytes (spec/02 R34), hit by the injections on its way. -/
def asReceived (d : Dev) (p : Nat) (f : Frame) : Frame × Dev :=
  let exc := frameLen d f - 8266
  let f := if exc = 0 then f else { f with payload := f.payload.take (f.payload.length - exc), fcs := .bad }
  let (m1, d) := laneMark d 1 p
  let f := if m1 then { f with fcs := .bad } else f
  let (m2, d) := laneMark d 2 p
  (if m2 then { f with hdr := { f.hdr with hcrc := f.hdr.hcrc ^^^ 1 } } else f, d)

/-- The VC that a frame is accounted on: foreign frames on VC0 (spec/02 R33). -/
def vcOf (d : Dev) (f : Frame) : Nat := if isForeign d f then 0 else f.hdr.vc.toNat

/-- Store a new ingress frame with its cells; one use of them, the pipeline's, is open. -/
def newIng (d : Dev) (p v : Nat) (f : Frame) (res shr guard : Nat) : Ing × Dev :=
  let i : Ing := ⟨d.sw.nextId, p, v, f, f, res, shr, guard, false, [], 1, 0, .ready, false, none, d.now,
    (d.time.d0, d.time.d1), d.now, none, decide ((partOf d f.hdr.part.toNat).st = 1), false⟩
  (i, { d with sw := { d.sw with ing := d.sw.ing ++ [i], nextId := d.sw.nextId + 1 } })

/-- Occupancy of a frame's partition on its die has reached the cap (R72). -/
def capped (d : Dev) (part die : Nat) : Bool := decide (rdf d .swPcap [die] 18 0 ≤ partOcc d part die)

/-- Holds of R72 whose partition's occupancy is still at or above its cap. -/
def pruneHolds (d : Dev) : Dev :=
  { d with sw := { d.sw with capHold := d.sw.capHold.filter (fun h => capped d h.2 (h.1 / 1024)) } }

/-- A (port, VC) has received a frame of a capped partition: it claims nothing until the occupancy falls
below the cap (R72). -/
def holdClaims (d : Dev) (k part : Nat) : Dev :=
  { d with sw := { d.sw with capHold := (d.sw.capHold.filter (· != (k, part))) ++ [(k, part)] } }

/-- Charge a frame that arrives with credit: the reserve first, then the claimed shared cells; further
shared cells are claimed in its place unless a capped partition holds the (port, VC) back. -/
def takeIn (d : Dev) (p v : Nat) (f : Frame) (cells : Nat) : Ing × Dev :=
  let d := pruneHolds d
  let x := pvSt d p v
  let res := natMin cells (reserveOf d p v - x.resUsed)
  let d := setPv d p v { x with resUsed := x.resUsed + res, shrUsed := x.shrUsed + (cells - res), rcvd := x.rcvd + cells }
  let (i, d) := newIng d p v f res (cells - res) 0
  let d := if !isForeign d f && capped d f.hdr.part.toNat (p / 128) then holdClaims d (8 * p + v) f.hdr.part.toNat else d
  (i, if d.sw.capHold.any (·.1 == 8 * p + v) then d else claimCells cells d p v)

/-- A frame without credit goes into the overrun guard, 33 cells per lane; one that finds it full is ended
there and fails its FCS (R76). -/
def takeInGuard (d : Dev) (p v : Nat) (f : Frame) (cells : Nat) : Ing × Dev :=
  let d := pruneHolds d
  let used := tgetD d.sw.guard p 0
  let room := 33 * portW d p - used
  let f := if room < cells then
      { f with fcs := .bad, payload := f.payload.take (f.payload.length - (frameLen d f - 256 * room)) } else f
  let n := natMin cells room
  newIng { d with sw := { d.sw with guard := tput 0 d.sw.guard p (used + n) } } p v f 0 0 n

/-- Drop a frame: its cells are freed at once. -/
def discardIng (d : Dev) (i : Ing) : Dev := settleIng d { i with copies := [], out := 0, unsent := 0, hold := .ready }

/-! ### Policers (spec/05 R125–R130) -/

/-- A policer's configuration. -/
def polOf (d : Dev) (k : Nat) : Policer := tgetD d.pol.pols k ⟨false, false, 0, 0, 0, 0, 0, 0⟩

/-- A policer's state on a die. -/
def polDie (d : Dev) (die k : Nat) : PolDie := tgetD d.pol.dies (die * 16384 + k) ⟨0, 0, 0, 0, 0, 0⟩

/-- Store a policer's state on a die. -/
def setPolDie (d : Dev) (die k : Nat) (x : PolDie) : Dev :=
  { d with pol := { d.pol with dies := tput ⟨0, 0, 0, 0, 0, 0⟩ d.pol.dies (die * 16384 + k) x } }

/-- A policer's buckets on a die, filled up to now. -/
def polNow (d : Dev) (die k : Nat) : PolDie :=
  let c := polOf d k
  let x := polDie d die k
  { x with tc := fillTo x.tc (c.cbs.toNat * 9600) (rateOf c.cir.toNat) (d.now - x.at_),
           tp := fillTo x.tp (c.pbs.toNat * 9600) (rateOf c.pir.toNat) (d.now - x.at_),
           at_ := d.now }

/-- The marker of R127: colour (0 green, 1 yellow, 2 red) and the buckets after, for a length in 1/9600
byte. -/
def marker (c : Policer) (x : PolDie) (colourIn len : Nat) : Nat × PolDie :=
  let cin := if c.aware then natMin 2 colourIn else 0
  if cin = 2 ∨ x.tp < len then (2, { x with red := x.red + 1 })
  else if cin = 1 ∨ x.tc < len then (1, { x with tp := x.tp - len, yellow := x.yellow + 1 })
  else (0, { x with tp := x.tp - len, tc := x.tc - len, green := x.green + 1 })

/-- The header after metering: COLOUR always, CM and VC by the colour's action (R127, R128). -/
def remark (c : Policer) (h : FabHdr) (vcIn col : Nat) : FabHdr :=
  let a := if col = 1 then c.yelAct.toNat else if col = 2 then c.redAct.toNat else 0
  { h with colour := BitVec.ofNat 2 col, cm := h.cm || bit a 1,
           vc := if bit a 0 && vcIn != 1 && vcIn != 2 then 7 else h.vc }

/-- Meter a frame on its ingress die. -/
def meter (d : Dev) (i : Ing) : Ing × Dev :=
  let h := i.frame.hdr
  let k := 4 * h.part.toNat + h.cls.toNat
  let c := polOf d k
  if i.vcIn = 0 ∨ !c.en then (i, d)
  else
    let die := i.port / 128
    let len := ((frameLen d i.frame : Nat) + sx 7 (rdf d .polCtl [] 6 0)).toNat * 9600
    let (col, x) := marker c (polNow d die k) h.colour.toNat len
    ({ i with frame := { i.frame with hdr := remark c h i.vcIn col } }, setPolDie d die k x)

/-! ### Learning (spec/02 R49, R50) -/

/-- Queue a learn request, or lose it. -/
def learnRequest (d : Dev) (i : Ing) : Dev :=
  let h := i.frame.hdr
  if rdb d .fwdEmCtl [] 0 && (partCfg d h.part.toNat).learnEn && portRole d i.port == 0 && !h.mcast then
    let die := i.port / 128
    let q := d.fwd.learnQ.getD die []
    if q.length < 256 then
      { d with fwd := { d.fwd with learnQ := lset d.fwd.learnQ die (q ++ [⟨h.part, h.src, i.port⟩]) } }
    else raise d (srcFwd die) 5
  else d

/-! ### Swatch sampling (spec/17 R438, R441) -/

/-- The sampling hash of the n-th eligible frame of a tile. -/
def swHash (d : Dev) (tn n : Nat) : Nat := crc32cFrom (rd d .swatchSeed) (beBytes 2 tn ++ beBytes 6 n) % 65536

/-- Sample an eligible frame, or follow one that an earlier device marked; S0 is its ingress timestamp point (R440). -/
def sample (d : Dev) (i : Ing) : Ing × Dev :=
  if !rdb d .swatchCtl [] 31 || i.vcIn == 0 then (i, d)
  else
    let t := i.port / 8
    let tn := 8 * tileY t + tileX t
    let n := tgetD d.pmc.elig tn 0 + 1
    let d := { d with pmc := { d.pmc with elig := tput 0 d.pmc.elig tn n } }
    let h := i.frame.hdr
    let follow := h.swatch && rdb d .swatchCtl [] 29
    if !follow && decide (rdf d .swatchCtl [] 15 0 ≤ swHash d tn n) then (i, d)
    else if 64 ≤ (tgetD d.pmc.swq (t / 16) []).length then (i, raise d srcPmc 3)
    else
      let k := tgetD d.pmc.samples tn 0
      let id := if follow then h.swatchId else BitVec.ofNat 16 (tn * 1024 + k % 1024)
      let a := if activeDom d = 0 then i.rx.1 else i.rx.2
      let s : Swatch := ⟨id, follow, i.rxAt, a.ns, a.fr, List.replicate 7 none, 0, 0, 0x1FF⟩
      ({ i with swatch := some (swStage d 2 (swStage d 1 s)) },
       if follow then d else { d with pmc := { d.pmc with samples := tput 0 d.pmc.samples tn (k + 1) } })

/-- The port whose copy a Swatch follows: the lowest-numbered egress port (R440). -/
def aimSwatch (i : Ing) : Ing :=
  let ps := i.copies.flatMap (fun c => match c.via with | .mirror _ => [] | _ => c.ports)
  match i.swatch, ps with
  | some s, p :: r => { i with swatch := some { s with egr := r.foldl natMin p } }
  | _, _ => i

/-! ### Cut-through and stomping (spec/03 R77, R78) -/

/-- Is a copy for a (port, VC) sent cut-through? -/
def ctOk (d : Dev) (i : Ing) (p v : Nat) : Bool :=
  rdb d .swCtMap (tix (i.port / 8)) (4 * (i.port % 8) + i.frame.hdr.cls.toNat)
    && decide (portW d p ≤ portW d i.port) && (egrQ d p v).isEmpty

/-- The egress entry of a copy. -/
def mkEgr (d : Dev) (i : Ing) (via : Via) (v : Nat) (ct : Bool) (s : Option Swatch) : Egr :=
  let f := match via with | .mirror _ => mirFrame i.orig v | _ => i.frame
  let skip := match via with | .mirror _ => false | _ => demoted i && v != 7
  ⟨f, frameCells d f, some i.id, v != 0, skip, ct, via, none, none, none, s, 0, false⟩

/-- The record of a Swatch that follows a copy sent cut-through and stomped. -/
def swStomped (d : Dev) (i : Ing) (p v : Nat) : Dev :=
  match i.swatch with
  | some s =>
    if s.egr = p then
      swQueue d (i.port / 128)
        (swRecord (swStage d 6 (swStage d 5 (swStage d 4 (swStage d 3 s)))) i.orig (frameLen d i.orig) i.port i.vcIn v p
          true true false (demoted i && v == 7))
    else d
  | none => d

/-- A frame whose FCS fails after its transmission has begun ends stomped at one egress port: the scheduler starts its
copy, the first of its queue, and the frame leaves with the stomped FCS (R78, spec/05 R134).  A frame of one cell too
is taken as begun before its FCS is checked (DESIGN CHOICE, log entry 129).  `x` counts the copies that have begun. -/
def stompOne (x : Nat × Dev) (i : Ing) (via : Via) (p : Nat) : Nat × Dev :=
  let d := x.2
  let v := egrVc d i ⟨0, [p], 0, via⟩ p
  let e := mkEgr d i via v true none
  let e := { e with frame := { e.frame with fcs := .stomped } }
  let (w, d') := pickVc (setEgrQ d p v [e]) p
  if ctOk d i p v && !grantBefore d (8 * p + v) d.sw.nextId && canStart d p && w == some v then
    (x.1 + 1, swStomped (raise (startVc d' p v) (srcSw (p / 8)) 7) i p v)
  else x

/-- Count a frame in the check-sequence case (R90). -/
def countFcs (d : Dev) (i : Ing) : Dev :=
  let t := i.port / 8
  raise (if i.frame.fcs = .stomped then cnt1 d (srcSw t) 8 else d) (srcSw t) 0

/-- A frame is discarded in the check-sequence case. -/
def discFcs (d : Dev) (i : Ing) : Dev := discardIng (countFcs d i) i

/-- Ports and way of a resolved destination set, under the turn rule. -/
def destPorts (d : Dev) (i : Ing) (dst : Dest) : List Nat × Via :=
  match dst with
  | .one q via => ([q].filter (turnOk d i.port), via)
  | .many ps => (ps.filter (turnOk d i.port), .multi)
  | .flood => ((maskPorts d (partCfg d i.frame.hdr.part.toNat).mask).filter (turnOk d i.port), .multi)

/-- The stomped copies of a frame, `n` of them, hold back later ORDER frames of its flow until their last bit has left
(spec/04 R108–R110); its cells are free. -/
def stomped (d : Dev) (i : Ing) (n : Nat) : Dev :=
  if n = 0 then discFcs d i
  else
    let idx := flowHash d i.frame.hdr % 65536
    let (h, d) := trackIn (countFcs d i) (i.port / 128) idx
    settleIng d { i with trk := some (idx, h), copies := [], out := 0, unsent := n, hold := .ready }

/-- A looked-up frame whose FCS fails: a cut-through copy that has begun ends stomped, the rest is discarded.  None has
begun of a frame that waits for its fence or for flood tokens, or that was read only once all of it had arrived. -/
def badFcs (d : Dev) (i : Ing) (dst : Dest) : Dev :=
  let (ps, via) := destPorts d i dst
  let i := match i.swatch, ps with
    | some s, p :: r => { i with swatch := some { s with egr := r.foldl natMin p } }
    | _, _ => i
  let d := match dst with
    | .flood => cnt1 d (srcFwd (i.port / 128)) 14
    | _ => d
  if i.late || i.frame.hdr.order then discFcs d i
  else
    let (i, d) := if dst = .flood ∧ ps ≠ [] then floodLimit d i else (i, d)
    if i.floodWait then discFcs d i
    else
      let x := ps.foldl (fun x p => stompOne x i via p) (0, d)
      stomped x.2 i x.1

/-! ### The pipeline -/

/-- Hold or open the fence of an ORDER frame; any other frame counts in the tracker (spec/04 R110–R112). -/
def orderGate (d : Dev) (i : Ing) : Dev :=
  let die := i.port / 128
  let idx := flowHash d i.frame.hdr % 65536
  if (fenceAt d idx).isNone then
    let (i, d) := openFence d i idx
    setIng d i
  else if orderHeld d die < 256 then setIng d { i with hold := .orderQ }
  else raise (setIng d { i with hold := .orderStall }) (srcRt die 0) 3

/-- A forwarded frame enters the tracker. -/
def order (d : Dev) (id : Nat) : Dev :=
  match findIng d id with
  | none => d
  | some i =>
    let i := aimSwatch i
    if i.unsent = 0 then setIng d i
    else if i.frame.hdr.order then orderGate d i
    else
      let idx := flowHash d i.frame.hdr % 65536
      let (h, d) := trackIn d (i.port / 128) idx
      setIng d { i with trk := some (idx, h) }

/-- Does the device take the frame for its own contexts (spec/07 R173)? -/
def takes (d : Dev) (f : Frame) : Bool :=
  let self := rdf d .collSelf [] 23 0
  f.hdr.coll && (f.hdr.vc == 1 || f.hdr.vc == 2) && !f.hdr.mcast && self != 0 && f.hdr.dst.toNat == self

/-- A taken frame waits at its tile for its checks (spec/02 R37). -/
def takeIng (d : Dev) (i : Ing) : Dev :=
  let t := i.port / 8
  let (i, d) := mirrorAll d { i with hold := .taken }
  let d := setIng d i
  { d with coll := { d.coll with taken := tput [] d.coll.taken t (tgetD d.coll.taken t [] ++ [i.id]) } }

/-- A foreign frame goes to Tailor's queue of its die, with the times of its timestamp point. -/
def foreignPush (d : Dev) (i : Ing) : Dev :=
  let die := i.port / 128
  discardIng { d with fwd := { d.fwd with
    foreignQ := lset d.fwd.foreignQ die (d.fwd.foreignQ.getD die [] ++ [⟨i.port, i.frame, i.rx.1, i.rx.2⟩]) } } i

/-- A foreign frame (spec/02 R33). -/
def foreignIn (d : Dev) (i : Ing) : Dev :=
  let die := i.port / 128
  let d := cnt1 d (srcFwd die) 2
  if (d.fwd.foreignQ.getD die []).length < 64 then foreignPush d i
  else event (stSet (setIng d { i with hold := .foreign }) (srcFwd die) 2) 0x0102 die 0 []

/-- The partition cap (spec/03 R72): CM is set on each frame. -/
def capIn (d : Dev) (i : Ing) : Ing × Dev :=
  if capped d i.frame.hdr.part.toNat (i.port / 128) then
    ({ i with frame := { i.frame with hdr := { i.frame.hdr with cm := true } } }, raise d (srcSw (i.port / 8)) 5)
  else (i, d)

/-- PAYLOAD_LEN accounts for the payload received: it is its length, or that of a payload padded to 14 bytes
(spec/02 R34, R35). -/
def lenOk (f : Frame) : Bool :=
  f.payload.length == f.hdr.plen.toNat || (f.payload.length == 14 && decide (f.hdr.plen.toNat < 14))

/-- What a frame whose check sequence is good still brings: its length count and its lesson. -/
def goodTail (d : Dev) (i : Ing) : Dev :=
  let d := if lenOk i.frame then d else raise d (srcFwd (i.port / 128)) 3
  learnRequest d i

/-- Forward a frame that passed the checks of R31 and R39. -/
def forwardIng (d : Dev) (i : Ing) : Dev :=
  let (i, d) := meter d i
  let (i, d) := sample d { i with at_ := d.now }
  let (dst, d) := resolve d i.port i.frame.hdr
  if i.frame.fcs ≠ .good then badFcs d i dst
  else
    let d := goodTail d i
    let (i, d) := mirrorAll d { i with out := 0 }
    order (dispatchIng (setIng d i) i dst) i.id

/-- The pipeline on a stored frame: foreign, HCRC, BYPASS, dead partition, cap, taken, forwarded.  A frame that was
already buffered as its partition left LIVE goes on (spec/02 R39). -/
def pipeline (d : Dev) (i : Ing) : Dev :=
  let f := i.frame
  let t := i.port / 8
  let die := i.port / 128
  if isForeign d f then
    if f.fcs = .good then foreignIn d i else discFcs d i
  else if f.hdr.hcrc ≠ hcrcOf f.hdr then
    discardIng (raise (stSet (cnt1 d (srcFwd die) 0) (srcFwd die) 0) (srcSw t) 0) i
  else
    let d := if portState d i.port = 3 then raise d (srcRt die (i.port % 128)) 5 [] [i.port] else d
    let part := f.hdr.part.toNat
    if ((partOf d part).st ≠ 1 ∧ !(i.late && i.live)) ∨ !inMask (partCfg d part).mask i.port then
      discardIng (raise d (srcSw t) 2) i
    else
      let (i, d) := capIn d i
      if takes d f then
        let (i, d) := meter d i
        if f.fcs = .good then takeIng (goodTail d i) i else discFcs d i
      else forwardIng d i

/-- A frame that stands in a stalled pipeline slice: unread behind it, or the ORDER frame that stalls it. -/
def inStall (i : Ing) : Bool := i.hold == .stall || i.hold == .orderStall

/-- Frames of a die whose pipeline slices stand still, in the order in which they move on. -/
def stalledOf (d : Dev) (die : Nat) : List Ing := d.sw.ing.filter (fun i => inStall i && i.port / 128 == die)

/-- The first frame of each stalled tile that can move on: unread frames and, while the order-hold queue has
room, the ORDER frame that waits for it (spec/04 R112). -/
def nextStalled (d : Dev) (die : Nat) : Option Ing :=
  let l := stalledOf d die
  let heads := l.filter (fun i => l.all (fun j => j.port / 8 != i.port / 8 || decide (i.id ≤ j.id)))
  (heads.filter (fun i => i.hold == .stall || decide (orderHeld d die < 256))).foldl (fun b i =>
    match b with
    | none => some i
    | some x => if i.at_ < x.at_ ∨ (i.at_ = x.at_ ∧ i.port / 8 < x.port / 8) then some i else some x) none

/-- Let stalled frames of a die move on, at most `n`. -/
def unstall : Nat → Dev → Nat → Dev
  | 0, d, _ => d
  | n + 1, d, die =>
    match nextStalled d die with
    | none => d
    | some i =>
      let d := if i.hold == .stall then pipeline d { i with hold := .ready, late := true } else orderGate d { i with hold := .ready }
      unstall n d die

/-- Let every stalled frame of a die move on that can. -/
def unstallDie (d : Dev) (die : Nat) : Dev := unstall (stalledOf d die).length d die

/-- The pipeline slice of a tile stands still. -/
def tileStalled (d : Dev) (t : Nat) : Bool := d.sw.ing.any (fun i => inStall i && i.port / 8 == t)

/-- FRAME_RECEIVE: a link-control frame goes to the Selvedge (spec/03 R73), every other frame into the pool; one that
finds the overrun guard full at its first cell fails its FCS there (R76). -/
def frameReceive (p : Nat) (f : Frame) (d : Dev) : Dev :=
  if !linkUp d p then d
  else if f.etype.toNat = rdf d .swLcf (tix (p / 8)) 31 16 then lcfReceive p (lcfOf f) d
  else
    let d := unstallDie d (p / 128)
    let (f, d) := asReceived d p f
    let v := vcOf d f
    let cells := frameCells d f
    let (m5, d) := laneMark d 5 p
    let exc := m5 || decide ((pvSt d p v).adv < (pvSt d p v).rcvd + cells)
    let d := if exc then portDown (raise d (srcSw (p / 8)) 4 [] (portLanes d p)) p 5 else d
    let (i, d) := if exc then takeInGuard d p v f cells else takeIn d p v f cells
    if exc ∧ i.guard = 0 then discFcs d i
    else if tileStalled d (p / 8) then setIng d { i with hold := .stall }
    else pipeline d i

/-- FRAME_RECEIVE. -/
def execFrameReceive (p : Fin 512) (f : Frame) (s : State) : Host.Outcome State Fault Refusal := act (frameReceive p f) s

/-- FOREIGN_DEQUEUE: Tailor takes the oldest foreign frame; a held one follows into its place. -/
def foreignDequeue (die : Nat) (d : Dev) : Dev :=
  let d := { d with fwd := { d.fwd with foreignQ := lset d.fwd.foreignQ die ((d.fwd.foreignQ.getD die []).drop 1) } }
  match d.sw.ing.find? (fun i => i.hold == .foreign && i.port / 128 == die) with
  | some i => if (d.fwd.foreignQ.getD die []).length < 64 then foreignPush d i else d
  | none => d

/-- FOREIGN_DEQUEUE. -/
def execForeignDequeue (die : Fin 4) (s : State) : Host.Outcome State Fault Refusal := act (foreignDequeue die) s

/-! ### Fences (spec/04 R110, R111) -/

/-- ORDER_FENCE_REQUEST: a die flips CUR for the fence that is open at an index. -/
def orderFenceRequest (die idx : Nat) (d : Dev) : Dev :=
  match fenceAt d idx with
  | some (_, id, ds) =>
    if ds.contains die then d
    else
      let d := flipCur d die idx
      { d with rt := { d.rt with fences := d.rt.fences.map (fun f => if f.1 = idx then (idx, id, ds ++ [die]) else f) } }
  | none => d

/-- ORDER_FENCE_REQUEST. -/
def execOrderFenceRequest (die : Fin 4) (idx : BitVec 16) (s : State) : Host.Outcome State Fault Refusal :=
  act (orderFenceRequest die idx.toNat) s

/-- Every die has flipped for a fence and counts no frame in the old half. -/
def fenceClear (d : Dev) (idx : Nat) (ds : List Nat) : Bool :=
  [0, 1, 2, 3].all (fun die => ds.contains die && halfOf d die idx (1 - curOf d die idx) == 0)

/-- ORDER_RELEASE: the ORDER frame of a clear fence is released to the mesh, the fence closes, and the next
waiting frame opens its own. -/
def orderRelease (idx : Nat) (d : Dev) : Dev :=
  match fenceAt d idx with
  | none => [0, 1, 2, 3].foldl unstallDie d
  | some (_, id, ds) =>
    if fenceClear d idx ds then
      let d := { d with rt := { d.rt with fences := d.rt.fences.filter (fun f => f.1 != idx) } }
      let d := match findIng d id with
        | some i => setIng d { i with hold := .ready }
        | none => d
      let d := match nextOrder d idx with
        | some i =>
          let (i, d) := openFence d i idx
          setIng d i
        | none => d
      [0, 1, 2, 3].foldl unstallDie d
    else d

/-- ORDER_RELEASE. -/
def execOrderRelease (idx : BitVec 16) (s : State) : Host.Outcome State Fault Refusal := act (orderRelease idx.toNat) s

/-! ### Depth samples and broadcasts (spec/04 R102–R104, R114) -/

/-- Cells of copies that wait at the egress-staging grant arbiter of a (port, VC) (spec/04 R102). -/
def waitCells (d : Dev) (p v : Nat) : Nat :=
  d.sw.ownq.foldl (fun a o => if o.k = 8 * p + v then a + o.e.cells else a) 0 + d.sw.ing.foldl (fun a i =>
    i.copies.foldl (fun a c => if copyFree i c && c.ports.contains p && egrVc d i c p == v then a + frameCells d i.frame else a) a) 0

/-- The depth of a (port, VC) in units of 8 cells. -/
def depthNow (d : Dev) (p v : Nat) : Nat := natMin 255 ((egrCells d p v + waitCells d p v + 7) / 8)

/-- DEPTH_SAMPLE: a tile's depth sample reaches every tile. -/
def depthSample (t : Nat) (d : Dev) : Dev :=
  let ps := (List.range 8).map (8 * t + ·) |>.filter (fun p => decide (0 < portW d p))
  let d := ps.foldl (fun d p =>
    let d := (List.range 8).foldl (fun d v =>
      { d with rt := { d.rt with depth := tput 0 d.rt.depth (8 * p + v) (depthNow d p v) } }) d
    if inService d p then { d with rt := { d.rt with warm := tput 0 d.rt.warm p (tgetD d.rt.warm p 0 + 1) } } else d) d
  let d := { d with rt := { d.rt with sent := d.rt.sent.filter (fun e => e.1 % 512 / 8 != t) } }
  (d.fwd.bundles.map (·.1)).foldl noteWarm d

/-- DEPTH_SAMPLE. -/
def execDepthSample (tile : Fin 64) (s : State) : Host.Outcome State Fault Refusal := act (depthSample tile) s

/-- Mesh coordinates that a broadcast reaches from its origin tile: its row, its column, or every tile. -/
def bcastDests (t : Nat) (k : BcastKind) : List Nat :=
  match k with
  | .weft => (List.range 8).map (8 * tileY t + ·)
  | .warp => (List.range 8).map (8 * · + tileX t)
  | .all => List.range 64

/-- The Patrol unit that issues a broadcast runs (spec/16 R420, R422). -/
def unitRuns (d : Dev) (u : Option PatrolUnit) : Bool :=
  match u with
  | none => false
  | some u => d.rel.patrol.contains u || d.rel.full.isSome

/-- The router of a physical core 9c + j: that of its name, or the lower column's for a spare that holds none (spec/03
R466). -/
def coreRouter (d : Dev) (n : Nat) : Nat :=
  match nameOf d (n / 9) (n % 9) with
  | some j => coreTile (8 * (n / 9) + j)
  | none => coreTile (8 * (n / 9))

/-- Where a broadcast starts: at its tile; that of a Patrol unit of a core at the core's router. -/
def bcastTile (d : Dev) (t : Nat) (unit : Option PatrolUnit) : Nat :=
  match unit with
  | some (.core n) => coreRouter d n
  | _ => t

/-- BCAST_REQUEST: accepted outside SERVICE, or for a Patrol unit that runs; an accepted broadcast starts on channel M. -/
def bcastRequest (t : Nat) (k : BcastKind) (unit : Option PatrolUnit) (d : Dev) : Dev :=
  let t := bcastTile d t unit
  if rdf d .meshBcastCtl [t / 16] 1 0 ≠ 0 ∨ unitRuns d unit then
    let x := freePlane d t
    launchFlight x.2 t 2 x.1 0 (.bcast t k unit) (bcastDests t k)
  else raise d (srcRt (t / 16) 0) 4

/-- BCAST_REQUEST. -/
def execBcastRequest (tile : Fin 64) (kind : BcastKind) (unit : Option PatrolUnit) (s : State) :
    Host.Outcome State Fault Refusal := act (bcastRequest tile kind unit) s

end Sys2Proof.Machine
end

