-- ==== Sys2Proof/Machine/Optics.lean ====
section
/-! DEFINITION. Optical engines, laser sources and the Thimble interlock (spec/12). -/
namespace Sys2Proof.Machine

/-! ### Rings (spec/12 R310–R318) -/

/-- STATE of a ring: 0 OFF, 1 SWEEP, 2 LOCKED, 3 HOLD, 4 FAILED. -/
def ringState (d : Dev) (n : Nat) (tx : Bool) (f c : Nat) : Nat := rdf d (ringReg tx) [n, 9 * f + c] 31 29

/-- Set the STATE of a ring. -/
def setRingState (d : Dev) (n : Nat) (tx : Bool) (f c st : Nat) : Dev := wrf d (ringReg tx) [n, 9 * f + c] 31 29 st

/-- A feed fibre. -/
def feedOf (d : Dev) (n g : Nat) : Feed := tgetD d.oe.feeds (4 * n + g) ⟨false, false, false⟩

/-- Store a feed fibre. -/
def setFeed (d : Dev) (n g : Nat) (x : Feed) : Dev :=
  { d with oe := { d.oe with feeds := tput ⟨false, false, false⟩ d.oe.feeds (4 * n + g) x } }

/-- KILL is asserted on the source output of a feed fibre. -/
def killOn (d : Dev) (n g : Nat) : Bool := killAll d || ((feedOf d n g).killed && !(feedOf d n g).probing)

/-- A feed fibre carries light. -/
def feedLit (d : Dev) (n g : Nat) : Bool := (feedOf d n g).lit && !killOn d n g

/-- State of a fibre's Thimble: 0 SHUT, 1 PROBE, 2 RESP, 3 LIT. -/
def thim (d : Dev) (n f : Nat) : Nat := rdf d .oeThim [n, f] 1 0

/-- Set the state of a fibre's Thimble. -/
def setThim (d : Dev) (n f st : Nat) : Dev := wr d .oeThim [n, f] st

/-- A ring's fibre is lit (R317): for a drop filter, `rx` says that its receive fibre is at or above the Thimble
threshold. -/
def fibreLit (d : Dev) (n : Nat) (tx : Bool) (f : Nat) (rx : Bool) : Bool := if tx then feedLit d n (f / 4) else rx

/-- A ring on an unlit fibre holds its heater on the feed-forward term alone (R317). -/
def holdRing (d : Dev) (n : Nat) (tx : Bool) (f c : Nat) : Dev :=
  let x := ringLock d n tx f c
  let d := setRingLock d n tx f c { x with wrong := 0, corr := 0 }
  wr d (ringReg tx) [n, 9 * f + c] (3 * 2 ^ 29 + heaterAt x (groupTemp d n (f / 4)) 0)

/-- The heater of a ring is left to the feed-forward term alone: no correction, and no window counts (spec/14 R371). -/
def ffAlone (d : Dev) (n : Nat) (tx : Bool) (f c : Nat) : Dev :=
  let x := ringLock d n tx f c
  wrf (setRingLock d n tx f c { x with wrong := 0, corr := 0 }) (ringReg tx) [n, 9 * f + c] 15 0
    (heaterAt x (groupTemp d n (f / 4)) 0)

/-- A sample of a group's sensor (R313): the feed-forward term of the group's locked rings follows the temperature; a
ring in HOLD has no other. -/
def sensorSample (d : Dev) (n g temp : Nat) : Dev :=
  let d := wrf d .oeTemp [n] (8 * g + 7) (8 * g) temp
  [true, false].foldl (fun d tx => (List.range 36).foldl (fun d i =>
    let r := 36 * g + i
    let x := ringLock d n tx (r / 9) (r % 9)
    match ringState d n tx (r / 9) (r % 9) with
    | 2 => wrf d (ringReg tx) [n, r] 15 0 (heaterAt x (groupTemp d n g) x.corr)
    | 3 => wrf d (ringReg tx) [n, r] 15 0 (heaterAt x (groupTemp d n g) 0)
    | _ => d) d) d

/-- The loop bandwidth in force, kHz (R313): firmware's choice clamped to 10–100. -/
def loopBw (val : Nat) : Nat := natMin 100 (natMax 10 val)

/-- OE_CTL as written: LOOP_BW holds the clamped bandwidth (R313, R328; log entry 119). -/
def oeCtlWrite (n val : Nat) (d : Dev) : Dev := wr d .oeCtl [n] (putBits val 23 16 (loopBw (bits val 23 16)))

/-- The two lanes of a fibre. -/
def fibreLanes (n f : Nat) : List Nat := [32 * n + 2 * f, 32 * n + 2 * f + 1]

/-- The lane that a channel of a fibre carries: the even or the odd one; the spare's is the lane that has
mapped a strand to it, on its own side or its partner's. -/
def ringLane (d : Dev) (n : Nat) (tx : Bool) (f c : Nat) : Option Nat :=
  if c < 4 then some (32 * n + 2 * f)
  else if c < 8 then some (32 * n + 2 * f + 1)
  else (fibreLanes n f).find? (fun l => if tx then rdb d .lnSpare (lix l) 7 else rdb d .lnSpare (lix l) 3)

/-- A cause that an engine finds reaches a lane: UP ends, training ends with that cause (spec/11 Table 11-1,
R304). -/
def opticsCause (d : Dev) (l cause : Nat) : Dev :=
  let s := laneState d l
  if s = 5 then portDown d (portOf d l) cause
  else if 1 ≤ s ∧ s ≤ 4 then trainFail d l cause
  else lateCause d l cause

/-- The resonances of a sweep in ascending order of heater code. -/
def ascending : List Resonance → List Resonance
  | [] => []
  | r :: rs =>
    let s := ascending rs
    s.takeWhile (fun x => decide (x.h < r.h)) ++ r :: s.dropWhile (fun x => decide (x.h < r.h))

/-- The first resonance of a tone after a heater code. -/
def toneAfter (res : List Resonance) (tone : Nat) (h : Nat) : Option Nat :=
  (res.find? (fun r => r.tone == tone && decide (h ≤ r.h))).map (·.h)

/-- Heater codes between a ring's own tone and its neighbour's (R312). -/
def toneGap (res : List Resonance) (c : Nat) : Option Nat :=
  let lo := if c = 8 then 7 else c
  match toneAfter res lo 0 with
  | none => none
  | some a => (toneAfter res (lo + 1) a).map (· - a)

/-- Feed-forward slope in 1/1140 code per °C, from DRIFT in pm/°C and the 1.14 nm grid. -/
def slope (d : Dev) (n gap : Nat) : Nat := rdf d .oeFf [n] 15 0 * gap

/-- A resonance holds over the whole design range of 20–105 °C (R312). -/
def holds (h k : Nat) (t : Int) : Bool :=
  decide (0 ≤ (h : Int) * 1140 - (k : Int) * (105 - t)) && decide ((h : Int) * 1140 + (k : Int) * (t - 20) ≤ 65535 * 1140)

/-- The lock that a sweep finds: heater code and slope. -/
def sweepLock (d : Dev) (n c : Nat) (res : List Resonance) (t : Int) : Option (Nat × Nat) :=
  match toneGap res c with
  | none => none
  | some g =>
    let k := slope d n g
    (res.find? (fun r => r.tone == c && holds r.h k t)).map (fun r => (r.h, k))

/-- A ring whose sweep may end now: it is in SWEEP, or was never locked, on a lit fibre; where light is gone the sweep
stands still (R327). -/
def sweeping (d : Dev) (n : Nat) (tx : Bool) (f c : Nat) (rx : Bool) : Bool :=
  decide (ringState d n tx f c ≤ 1) && fibreLit d n tx f rx

/-- RING_SWEEP_DONE: the ring locks, or after three failed sweeps in a row is FAILED (R312, R316). -/
def ringSweepDone (n : Nat) (tx : Bool) (f c : Nat) (res : List Resonance) (temp : Nat) (rx : Bool) (d : Dev) : Dev :=
  if !sweeping d n tx f c rx || !pdOn d (80 + n) then d
  else
    let d := cnt1 (sensorSample d n (f / 4) temp) (srcOe n n) 4
    match sweepLock d n c (ascending res) temp with
    | some (h, k) =>
      wr (setRingLock d n tx f c ⟨h, temp, k, 0, 0, 0⟩) (ringReg tx) [n, 9 * f + c] (2 * 2 ^ 29 + h)
    | none =>
      let x := ringLock d n tx f c
      if x.fails + 1 = 3 then
        raise (setRingState (setRingLock d n tx f c { x with fails := 0 }) n tx f c 4) (srcOe n (64 + 16 * n + f)) 1 []
          (fibreLanes n f)
      else setRingState (setRingLock d n tx f c { x with fails := x.fails + 1 }) n tx f c 1

/-- RING_SWEEP_DONE. -/
def execRingSweepDone (oe : Fin 16) (tx : Bool) (f : Fin 16) (c : Fin 9) (res : List Resonance) (t : GroupSample)
    (s : State) : Host.Outcome State Fault Refusal := act (ringSweepDone oe tx f c res t.temp.toNat t.rx) s

/-- Take a mark at a detector that ARG names. -/
def takeMarkArg (d : Dev) (id die unit arg : Nat) : Bool × Dev :=
  let m := (id, die, unit, arg)
  if d.rel.marks.contains m then
    (true, { d with rel := { d.rel with marks := d.rel.marks.erase m, injected := true } })
  else (false, d)

/-- The LOS of a re-sweep reaches a port: its lanes in UP leave it, and a cause that another one of this cycle has given keeps
the lowest code; a THIMBLE of the cycle stands, and goes before this LOS (R316, R327, spec/11 R304; log entry 120). -/
def sweepCause (d : Dev) (l : Nat) : Dev :=
  let p := portOf d l
  let cause (d : Dev) (k : Nat) : Option Nat :=
    if (laneSt d k).causeAt = some d.now then some (rdf d .lnState (lix k) 11 8) else none
  let e := if laneState d l = 5 then portDown d p 3 else if cause d l = some 4 then d else lateCause d l 3
  (portLanes d p).foldl (fun e k =>
    if cause e k = some 3 ∧ cause d k ≠ some 3 then setLane e k { laneSt e k with sweepLos := true } else e) e

/-- A locked ring is re-swept for a cause, numbered by the rows of Table 12-3 (R315, R316). -/
def resweep (d : Dev) (n : Nat) (tx : Bool) (f c cause : Nat) : Dev :=
  let d := setRingState (setRingLock d n tx f c { ringLock d n tx f c with wrong := 0 }) n tx f c 1
  let d := raise d (srcOe n (64 + 16 * n + f)) 0 [(1, f), (1, c), (1, (Config.resweepCode cause).toNat)] (fibreLanes n f)
  match ringLane d n tx f c with
  | some l => sweepCause d l
  | none => d

/-- The heater lies farther from the feed-forward term than ORDER_TOL, 0.2441 µW a code (R315). -/
def outOfOrder (d : Dev) (n f heater : Nat) (x : RingLock) : Bool :=
  let tol := natMax 1 (rdf d .oeCtl [n] 15 0)
  let e : Int := (heater : Int) * 1140 - ((x.href : Int) * 1140 - (x.kff : Int) * (groupTemp d n (f / 4) - x.tref))
  decide ((tol * 10000 * 1140 : Nat) < e.natAbs * 2441)

/-- TONE_WINDOW_END: one 64 µs window of a locked ring, beside a sensor sample: `tone` is the tone seen, none in the dark;
`heater` the code that the loop has put.  While Tailor restarts the ring is on feed-forward alone, and the clocks of an
engine that is not ON stand (spec/14 R371, spec/15 R391). -/
def toneWindowEnd (n : Nat) (tx : Bool) (f c : Nat) (tone : Option Nat) (heater temp : Nat) (rx : Bool) (d : Dev) : Dev :=
  let d := sensorSample d n (f / 4) temp
  let st := ringState d n tx f c
  if st ≠ 2 ∧ st ≠ 3 then d
  else if !fibreLit d n tx f rx then holdRing d n tx f c
  else if tlrHolds d then ffAlone d n tx f c
  else if !pdOn d (80 + n) then d
  else
    let (m, d) := takeMarkArg d 0x14 (n / 4) n (9 * f + c)
    let d := wrf d (ringReg tx) [n, 9 * f + c] 15 0 heater
    let x := ringLock d n tx f c
    let wrong := if m then 2 else match tone with
      | some t => if t = c then 0 else x.wrong + 1
      | none => 0
    let d := setRingLock d n tx f c { x with wrong := wrong, corr := heater - ffTerm x (groupTemp d n (f / 4)) }
    if 2 ≤ wrong then resweep d n tx f c 0
    else if st = 3 then (if tone = some c then setRingState d n tx f c 2 else d)
    else if outOfOrder d n f heater x then resweep d n tx f c 1
    else if heater = 0 ∨ heater = 65535 then resweep d n tx f c 2
    else if tone = none then resweep d n tx f c 3
    else d

/-- TONE_WINDOW_END. -/
def execToneWindowEnd (oe : Fin 16) (tx : Bool) (f : Fin 16) (c : Fin 9) (tone : Option (Fin 9)) (w : RingWindow)
    (s : State) : Host.Outcome State Fault Refusal :=
  act (toneWindowEnd oe tx f c (tone.map (·.val)) w.heater.toNat w.temp.toNat w.rx) s

/-! ### Received power and readiness (spec/12 R318, R319) -/

/-- LOS threshold and the level that ends a loss, in 0.1 dBm. -/
def losLevel (d : Dev) (n : Nat) : Int := sx 16 (rdf d .oeLos [n] 15 0)

/-- A strand's record against LOS. -/
def losOf (d : Dev) (n f c : Nat) : LosSt := tgetD d.oe.los ((n * 16 + f) * 9 + c) ⟨0, 0, false⟩

/-- Store a strand's record against LOS. -/
def setLos (d : Dev) (n f c : Nat) (x : LosSt) : Dev :=
  { d with oe := { d.oe with los := tput ⟨0, 0, false⟩ d.oe.los ((n * 16 + f) * 9 + c) x } }

/-- RXPWR_SAMPLE: a strand's power every 10 µs; a locked strand below LOS in two samples running gives its lane the cause. -/
def rxpwrSample (n f c pwr : Nat) (d : Dev) : Dev :=
  let (m, d) := takeMarkArg d 0x15 (n / 4) n (9 * f + c)
  let d := wr d .oeRxpwr [n, 9 * f + c] pwr
  let x := losOf d n f c
  if ringState d n false f c ≠ 2 then setLos d n f c { x with below := 0 }
  else
    let p := sx 16 pwr
    let los := losLevel d n
    if m ∨ p < los then
      let b := if m then 2 else x.below + 1
      let d := setLos d n f c ⟨b, 0, x.lost || decide (2 ≤ b)⟩
      if 2 ≤ b then
        match ringLane d n false f c with
        | some l => opticsCause d l 3
        | none => d
      else d
    else if los + (rdf d .oeLos [n] 23 16 : Nat) ≤ p then
      setLos d n f c ⟨0, x.above + 1, x.lost && decide (x.above + 1 < 2)⟩
    else setLos d n f c ⟨0, 0, x.lost⟩

/-- RXPWR_SAMPLE. -/
def execRxpwrSample (oe : Fin 16) (f : Fin 16) (c : Fin 9) (pwr : BitVec 16) (s : State) :
    Host.Outcome State Fault Refusal := act (rxpwrSample oe f c pwr.toNat) s

/-- A receive strand is at or above the loss threshold. -/
def strandLit (d : Dev) (n f c : Nat) : Bool :=
  !(losOf d n f c).lost && decide (losLevel d n ≤ sx 16 (rdf d .oeRxpwr [n, 9 * f + c] 15 0))

/-- The engine may report a lane ready (R318); the sources of an ABSENT ELS never do (R322). -/
def opticsReady (d : Dev) (l : Nat) : Bool :=
  let n := l / 32
  let f := l % 32 / 2
  let cs := (List.range 4).map (4 * (l % 2) + ·)
  let other := if l % 2 = 0 then l + 1 else l - 1
  let bad := cs.filter (fun c => ringState d n false f c != 2)
  let rx := bad.isEmpty ||
    (bad.length == 1 && bad.all (fun c => ringState d n false f c == 4) && ringState d n false f 8 == 2
      && (laneSt d other).claim.isNone)
  decide (rdf d .elsState [n / 2] 1 0 ≠ 0) && thim d n f == 3 && cs.all (fun c => ringState d n true f c == 2) && rx
    && (cs ++ [8]).all (fun c => ringState d n false f c != 2 || (c == 8 && bad.isEmpty) || strandLit d n f c)

/-- OE_LANE_READY: WAIT_OPTICS ends; it waits while the lanes' domain wakes (spec/15 R392). -/
def oeLaneReady (l : Nat) (d : Dev) : Dev := if laneState d l = 1 ∧ opticsReady d l ∧ pdOn d (80 + l / 32) then toTrain d l else d

/-- OE_LANE_READY. -/
def execOeLaneReady (lane : Fin 512) (s : State) : Host.Outcome State Fault Refusal := act (oeLaneReady lane) s

/-! ### Laser sources (spec/12 R320–R323) -/

/-- CAP of a source's wavelength. -/
def elsCap (d : Dev) (m i : Nat) : Nat := rdf d .elsBias [m, i] 31 16

/-- BIAS at CAP while the mean feed power is more than 1 dB below its target (`low`) is reported once (R323). -/
def capCheck (d : Dev) (m i : Nat) (low : Bool) : Dev :=
  let cap := elsCap d m i
  let k := 9 * m + i
  if 0 < cap ∧ rdf d .elsBias [m, i] 15 0 = cap ∧ low then
    if d.oe.capped.contains k then d
    else raise { d with oe := { d.oe with capped := d.oe.capped ++ [k] } } (srcEls m) 3
  else { d with oe := { d.oe with capped := d.oe.capped.filter (· != k) } }

/-- A bias that first reaches WARN_PCT of CAP is reported (R323). -/
def ageCheck (d : Dev) (m i : Nat) : Dev :=
  let cap := elsCap d m i
  let k := 9 * m + i
  let pct := natMin 100 (rdf d .elsCtl [m] 15 8)
  if 0 < cap ∧ pct * cap ≤ 100 * rdf d .elsBias [m, i] 15 0 ∧ !d.oe.aged.contains k then
    raise { d with oe := { d.oe with aged := d.oe.aged ++ [k] } } (srcEls m) 2
  else d

/-- A bias write under the clamp of R322, and the thresholds of R323. -/
def biasWrite (d : Dev) (m i val : Nat) (low : Bool) : Dev :=
  let cap := elsCap d m i
  let d := if cap < val then raise d (srcEls m) 1 else d
  capCheck (ageCheck (wrf d .elsBias [m, i] 15 0 (natMin val cap)) m i) m i low

/-- Every 10 µs the taps measure the feed power of each wavelength; of a dark feed they show 0x8000, of a lit one a value that
the spec leaves open, as it does each source's mean against its target (R323; log entry 136). -/
def feedMeasure (d : Dev) : Dev :=
  if d.now % 12000 ≠ 0 then d
  else
    let d := (List.range 64).foldl (fun d k => (List.range 9).foldl (fun d c =>
      wr { d with draw := d.draw + 1 } .oeFeed [k / 4, 9 * (k % 4) + c]
        (if feedLit d (k / 4) (k % 4) then (Config.freeWord d.draw).toNat % 65536 else 0x8000)) d) d
    (List.range 72).foldl (fun d k => capCheck { d with draw := d.draw + 1 } (k / 9) (k % 9) (Config.freeBool d.draw)) d

/-- A write of ELS_CTL.OUT_EN reaches the source: outputs that it disables go dark, those that it enables light
up (spec/12 Table 12-4). -/
def outEn (d : Dev) (m old new : Nat) : Dev :=
  (List.range 8).foldl (fun d o =>
    let n := 2 * m + o / 4
    let g := o % 4
    if bit old o && !bit new o then
      holdRings (setFeed d n g { feedOf d n g with lit := false }) (fun n' g' => n' == n && g' == g)
    else if !bit old o && bit new o && decide (rdf d .elsState [m] 1 0 = 2) && !(feedOf d n g).killed then
      setFeed d n g { feedOf d n g with lit := true }
    else d) d

/-- ELS_CTL as written. -/
def elsCtlWrite (m val : Nat) (d : Dev) : Dev :=
  let old := rdf d .elsCtl [m] 7 0
  outEn (wr d .elsCtl [m] val) m old (bits val 7 0)

/-- ELS_BUS_TRANSACTION: one attempt and up to three retries; `replies` are the answers in order, none for an
absent one or a failing CRC; the command byte names the register that the operand repeats (R320).  A source that discovery
found ABSENT stays so (R322). -/
def elsBus (m cmd reg data : Nat) (replies : List (Option (BitVec 16))) (d : Dev) : Dev :=
  if reg ≠ cmd % 128 then d
  else
  let (mk, d) := takeMark d 0x18 (if m < 4 then 1 else 3) m
  let rs := if mk.isSome then none :: replies.drop 1 else replies
  match (rs.take 4).find? (·.isSome) with
  | some (some v) =>
    let d := { d with oe := { d.oe with busFails := tdel d.oe.busFails m } }
    if bit cmd 7 then { d with oe := { d.oe with busData := tput 0 d.oe.busData m v } }
    else if 8 ≤ reg ∧ reg < 17 then biasWrite { d with draw := d.draw + 1 } m (reg - 8) data (Config.freeBool d.draw)
    else if reg = 0x3A then
      let old := rdf d .elsCtl [m] 7 0
      outEn (wrf d .elsCtl [m] 7 0 data) m old (bits data 7 0)
    else d
  | _ =>
    let n := tgetD d.oe.busFails m 0 + 1
    let d := raise { d with oe := { d.oe with busFails := tput 0 d.oe.busFails m n } } (srcEls m) 0
    if 16 ≤ n ∧ rdf d .elsState [m] 1 0 ≠ 0 then wrf d .elsState [m] 1 0 3 else d

/-- ELS_BUS_TRANSACTION: on a bus that the device drives (spec/18 R450). -/
def execElsBusTransaction (m : Fin 8) (cmd reg : BitVec 8) (data : BitVec 16) (replies : List (Option (BitVec 16)))
    (s : State) : Host.Outcome State Fault Refusal := act (fun d => if drives d .laserBus then elsBus m cmd.toNat reg.toNat data.toNat replies d else d) s

/-- ELS_ALERT (R322). -/
def execElsAlert (m : Fin 8) (alarm : BitVec 16) (s : State) : Host.Outcome State Fault Refusal :=
  act (fun d => raise d (srcEls m) 4 [(2, alarm.toNat)]) s

/-! ### Feeds (spec/12 R324) -/

/-- FEED_KILL: a feed fibre has gone dark while its source output is enabled. -/
def feedKill (n g : Nat) (d : Dev) : Dev :=
  let x := feedOf d n g
  if x.killed || !rdb d .elsCtl [n / 2] (4 * (n % 2) + g) then d
  else
    let d := holdRings (setFeed d n g ⟨false, false, true⟩) (fun n' g' => n' == n && g' == g)
    raise d (srcOe n (4 * n + g)) 3

/-- FEED_KILL. -/
def execFeedKill (oe : Fin 16) (g : Fin 4) (s : State) : Host.Outcome State Fault Refusal := act (feedKill oe g) s

/-- No fibre or feed probes: THIM_CTL.NOPROBE, or the stop of R368. -/
def noProbe (d : Dev) : Bool := rdb d .thimCtl [] 8 || killAll d

/-- FEED_PROBE: KILL is released for a probe. -/
def feedProbe (n g : Nat) (d : Dev) : Dev :=
  let x := feedOf d n g
  if x.killed && !x.probing && !noProbe d then cnt1 (setFeed d n g { x with probing := true }) (srcOe n n) 6 else d

/-- FEED_PROBE. -/
def execFeedProbe (oe : Fin 16) (g : Fin 4) (s : State) : Host.Outcome State Fault Refusal := act (feedProbe oe g) s

/-! ### Thimble (spec/12 R325, R326) -/

/-- A SHUT fibre probes, where one of its lanes belongs to a port that may train. -/
def startProbe (d : Dev) (n f : Nat) : Dev :=
  if thim d n f = 0 ∧ !noProbe d ∧ (fibreLanes n f).any (fun l => mayTrain d (portOf d l)) then
    cnt1 (setThim d n f 1) (srcOe n n) 5
  else d

/-- THIMBLE_PROBE: on the Thimble timer, once the fibre's feed is lit. -/
def thimbleProbe (n f : Nat) (d : Dev) : Dev := if feedLit d n (f / 4) then startProbe d n f else d

/-- THIMBLE_PROBE. -/
def execThimbleProbe (oe : Fin 16) (f : Fin 16) (s : State) : Host.Outcome State Fault Refusal :=
  act (thimbleProbe oe f) s

/-- FEED_PROBE_END: with light the KILL stays released and the group's fibres probe at once; else KILL returns. -/
def feedProbeEnd (n g : Nat) (light : Bool) (d : Dev) : Dev :=
  let x := feedOf d n g
  if !x.probing then d
  else if light then
    (List.range 4).foldl (fun d k => startProbe d n (4 * g + k)) (setFeed d n g ⟨true, false, false⟩)
  else setFeed d n g { x with probing := false }

/-- FEED_PROBE_END. -/
def execFeedProbeEnd (oe : Fin 16) (g : Fin 4) (light : Bool) (s : State) : Host.Outcome State Fault Refusal :=
  act (feedProbeEnd oe g light) s

/-- THIMBLE_PROBE_END: the probe ends unconfirmed. -/
def execThimbleProbeEnd (oe : Fin 16) (f : Fin 16) (s : State) : Host.Outcome State Fault Refusal :=
  act (fun d => if thim d oe f = 1 then setThim d oe f 0 else d) s

/-- THIMBLE_RESP: light above the probe threshold reaches a SHUT fibre whose ports may train. -/
def execThimbleResp (oe : Fin 16) (f : Fin 16) (s : State) : Host.Outcome State Fault Refusal :=
  act (fun d =>
    if thim d oe f = 0 ∧ (fibreLanes oe f).any (fun l => mayTrain d (portOf d l)) then setThim d oe f 2 else d) s

/-- THIMBLE_RESP_DARK: the light of a responding fibre falls below the probe threshold. -/
def execThimbleRespDark (oe : Fin 16) (f : Fin 16) (s : State) : Host.Outcome State Fault Refusal :=
  act (fun d => if thim d oe f = 2 then setThim d oe f 0 else d) s

/-- THIMBLE_LIT: tPROBE_CONF of continuous light. -/
def execThimbleLit (oe : Fin 16) (f : Fin 16) (s : State) : Host.Outcome State Fault Refusal :=
  act (fun d => if thim d oe f = 1 ∨ thim d oe f = 2 then setThim d oe f 3 else d) s

/-- THIMBLE_TRIP: a LIT fibre goes dark: its shutter closes, its drop filters hold, its lanes get the cause. -/
def thimbleTrip (n f : Nat) (d : Dev) : Dev :=
  if thim d n f ≠ 3 then d
  else
    let d := raise (setThim d n f 0) (srcOe n (64 + 16 * n + f)) 2 [(1, f)] (fibreLanes n f)
    let d := (List.range 9).foldl (fun d c => if ringState d n false f c = 2 then holdRing d n false f c else d) d
    (fibreLanes n f).foldl (fun d l => opticsCause d l 4) d

/-- THIMBLE_TRIP. -/
def execThimbleTrip (oe : Fin 16) (f : Fin 16) (s : State) : Host.Outcome State Fault Refusal := act (thimbleTrip oe f) s

/-- Fibres of a port that a write has made ACTIVE or RESTORING probe at once (R326). -/
def probePort (d : Dev) (p : Nat) : Dev :=
  ((portLanes d p).map (fun l => (l / 32, l % 32 / 2))).eraseDups.foldl (fun d x => startProbe d x.1 x.2) d

end Sys2Proof.Machine
end

