-- ==== Sys2Proof/Machine/Time.lean ====
section
/-! DEFINITION. Coalesced records (spec/16 R414–R416), the time domains, ticks, launches, frame sends and
the 1PPS signals (spec/13). -/
namespace Sys2Proof.Machine

/-! ### Coalesced records (spec/16 R414–R416) -/

/-- The SUMMARY record of a fold under a root. -/
def summaryOf (d : Dev) (root die unit : Nat) (f : Fold) : Event where
  code := f.code
  die := die
  unit := unit
  injected := f.injected
  summary := true
  time := f.time
  temp := if die < 4 then BitVec.ofNat 8 (rdf d .thmDie [die] 23 16) else Config.freeTemp d.draw
  load := dieLoad d die
  count := f.count
  args := leBytes 8 f.bitmap ++ leBytes 2 root
  lanes := []

/-- Write SUMMARY records. -/
def writeSummary (d : Dev) (root die unit : Nat) (f : Fold) : Dev :=
  let e := summaryOf d root die unit f
  record (cnt1 { d with draw := d.draw + 1 } (srcRel 255 0) 13) e

/-- COAL_WINDOW_CLOSE: window `i` closes. -/
def coalWindowClose (i : Nat) (d : Dev) : Dev :=
  match takeAt d.rel.wins i with
  | none => d
  | some (w, r) =>
    let d := { d with rel := { d.rel with wins := r } }
    w.folds.foldl (fun d f => writeSummary d w.root.code w.root.die w.root.unit f) d

/-- COAL_WINDOW_CLOSE. -/
def execCoalWindowClose (i : Nat) (s : State) : Host.Outcome State Fault Refusal := act (coalWindowClose i) s

/-- COAL_RATE_INTERVAL_END: the folded records of every code are written and the counts start anew. -/
def coalRateIntervalEnd (d : Dev) : Dev :=
  let rs := d.rel.rates
  let d := { d with rel := { d.rel with rates := [] } }
  rs.foldl (fun d c => match c.fold with
    | some f => writeSummary d f.code f.die f.unit f
    | none => d) d

/-- COAL_RATE_INTERVAL_END. -/
def execCoalRateIntervalEnd (s : State) : Host.Outcome State Fault Refusal := act coalRateIntervalEnd s

/-! ### Domains (spec/13 R333–R338) -/

/-- Store a domain's count. -/
def setDom (d : Dev) (i : Nat) (x : Dom) : Dev :=
  if i = 0 then { d with time := { d.time with d0 := x } } else { d with time := { d.time with d1 := x } }

/-- One TIME cycle of a domain: its increment is added, the fraction carrying into NS (R333). -/
def advanceDom (d : Dev) (i : Nat) : Dev :=
  let x := dom d i
  let fr := x.fr + rd d .timeIncLo [i]
  setDom d i ⟨(x.ns + rdf d .timeIncHi [i] 3 0 + fr / 2 ^ 32) % 2 ^ 64, fr % 2 ^ 32⟩

/-- A discarded load or switch (R335). -/
def timeReject (d : Dev) : Dev := raiseAt d (srcTime 255 0) 7 4 [] []

/-- A target bound to a domain has been reached. -/
def reachedIn (d : Dev) (i : Nat) (t : BitVec 32) : Bool := tickReached (dom d i).ns t

/-- Some armed target is bound to a domain (R338). -/
def boundTo (d : Dev) (i : Nat) : Bool :=
  d.fwd.commit.any (fun c => c.dom == i) || d.fwd.held.any (fun h => h.due.any (fun x => x.2 == i)) || d.opt.commits.any (fun c => c.dom == i && c.at_.isNone)
    || d.time.pend.any (fun p => p.2 == i) || d.time.launches.any (fun l => l.dom == i && !l.fired)
    || (rdb d .pmcFreeze [] 30 && d.pmc.frzDom == i)

/-! ### The 1PPS output (spec/13 R343) -/

/-- The output rises. -/
def ppsRise (d : Dev) : Dev := { d with time := { d.time with ppsOut := true } }

/-- PPS_OUT_EDGE: NS of OUT_DOM reaches a multiple of 10^9. -/
def ppsOutEdge (d : Dev) : Dev := if rdb d .timePpsCtl [] 31 then ppsRise d else d

/-- A change of a domain's NS that crosses a second boundary upward gives one edge of the output. -/
def ppsCross (d : Dev) (i old : Nat) : Dev :=
  if rdf d .timePpsCtl [] 30 30 = i ∧ old / 10 ^ 9 < (dom d i).ns / 10 ^ 9 then ppsOutEdge d else d

/-- A written TIME_SET applies: its domain is not active and no target is bound to it (R335). -/
def loads (d : Dev) (i : Nat) : Bool := d.time.setPend.contains i && i != activeDom d && !boundTo d i

/-- TIME_SET_LOAD: a written TIME_SET is loaded or discarded (R335); a multiple of 10^9 that OUT_DOM is loaded with gives an
edge of the output (R343). -/
def timeSetLoad (i : Nat) (d : Dev) : Dev :=
  if d.time.setPend.contains i then
    let ok := loads d i
    let d := { d with time := { d.time with setPend := d.time.setPend.filter (· != i) } }
    if ok then
      let ns := rd d .timeSetHi [i] * 2 ^ 32 + rd d .timeSetLo [i]
      let d := setDom d i ⟨ns, 0⟩
      if rdf d .timePpsCtl [] 30 30 = i ∧ ns % 10 ^ 9 = 0 then ppsOutEdge d else d
    else timeReject d
  else d

/-- TIME_SET_LOAD. -/
def execTimeSetLoad (dom : Fin 2) (s : State) : Host.Outcome State Fault Refusal := act (timeSetLoad dom) s

/-- A write of TIME_CTL.GO (R336). -/
def switchGo (d : Dev) : Dev :=
  let t := BitVec.ofNat 32 (rd d .timeSwitchAt)
  if d.time.pend.isSome ∨ tickReached (nsNow d) t then timeReject d
  else wrf { d with time := { d.time with pend := some (t, activeDom d) } } .timeCtl [] 1 1 1

/-- TIME_SWITCHED: the pending switch takes place; the rate interval of the coalescer closes with it
(R336, spec/16 R416). -/
def timeSwitched (d : Dev) : Dev :=
  match d.time.pend with
  | none => d
  | some (t, _) =>
    let new := 1 - activeDom d
    let d := coalRateIntervalEnd d
    let d := wrf { d with time := { d.time with pend := none } } .timeCtl [] 1 0 new
    event (cnt1 d (srcTime 255 0) 8) 0x1280 255 0 [(1, new), (4, t.toNat)]

/-- TIME_SWITCHED. -/
def execTimeSwitched (s : State) : Host.Outcome State Fault Refusal := act timeSwitched s

/-! ### Launches and frame sends (spec/13 R342, spec/14 R465) -/

/-- A frame of the device's own for the staging of a port: not metered; launched frames and those of FRAME_SEND are
not shaped either (R342, spec/14 R465). -/
def sendEgr (d : Dev) (f : Frame) (shaped : Bool) (tsid : Option (BitVec 16)) (reply : Option Reply)
    (launch : Option (Nat × BitVec 32 × Nat)) : Egr :=
  ⟨f, frameCells d f, none, shaped, false, false, .port, tsid, reply, launch, none, 0, false⟩

/-- TSID of a send, with TSV. -/
def tsidOf (c : SendParams) : Option (BitVec 16) := if c.tsv then some c.tsid else none

/-- A requesting frame that cannot leave reports LOST (R341). -/
def lostStamp (d : Dev) (p : Nat) (tsid : Option (BitVec 16)) : Dev :=
  match tsid with
  | some t => tsqPush d p t true
  | none => d

/-- Read the frame of a command: none when the read failed. -/
def sendFrame (d : Dev) (c : SendParams) : Option Frame × Dev :=
  let (b, d) := dmaGet d (if c.dmaOk then .ok [] else .err)
  (b.map (fun _ => c.frame), d)

/-- TIME_LAUNCH (R342, spec/14 R465). -/
def execTimeLaunch (h : CmdHdr) (c : SendParams) (s : State) : Host.Outcome State Fault Refusal :=
  act (fun d => runCmd d h 0x50 .h [some c.slot.toNat, some c.tick.toNat, some c.port.toNat, some c.vc.toNat, some (b2n c.tsv), some c.tsid.toNat, some c.flen.toNat, none] true (fun d rp =>
    if d.time.launches.any (fun l => l.slot == c.slot.toNat) then complete d rp 0x50 []
    else if tickReached (nsNow d) c.tick then complete d rp 0x38 []
    else if 8266 < c.flen.toNat ∨ c.slot.toNat / 16 ≠ c.port.toNat / 128 then complete d rp 0x09 []
    else
      let (f, d) := sendFrame d c
      match f with
      | none => refuseDma d rp
      | some f =>
        let l : Launch :=
          ⟨c.slot.toNat, c.tick, activeDom d, c.port.toNat, c.vc.toNat, tsidOf c, f, rp, false, 0⟩
        { d with time := { d.time with launches := d.time.launches ++ [l] } })) s

/-- Put a launched frame at the head of a queue, behind those of lower slots that were placed on the same TIME cycle
(R342; log entry 56). -/
def launchInto (e : Egr) (slot : Nat) (same : List Nat) : List Egr → List Egr
  | [] => [e]
  | x :: r =>
    match x.launch with
    | some (s', _, _) => if s' < slot ∧ same.contains s' then x :: launchInto e slot same r else e :: x :: r
    | none => e :: x :: r

/-- LAUNCH_TARGET: the frame of an armed launch is placed at the head of its queue, or the launch fails
(R342). -/
def launchTarget (slot : Nat) (d : Dev) : Dev :=
  match d.time.launches.find? (fun l => l.slot == slot && !l.fired) with
  | none => d
  | some l =>
    if inService d l.port then
      let e := sendEgr d l.frame false l.tsid (some l.reply) (some (slot, l.tick, l.dom))
      let same := (d.time.launches.filter (fun x => x.fired && x.firedAt == d.now)).map (·.slot)
      let ls := d.time.launches.map (fun x => if x.slot = slot then { x with fired := true, firedAt := d.now } else x)
      let d := { d with time := { d.time with launches := ls } }
      setEgrQ d l.port l.vc (launchInto e slot same (egrQ d l.port l.vc))
    else
      let d := raiseAt (lostStamp d l.port l.tsid) (srcTime (l.port / 128) slot) 5 2 [] []
      complete (freeLaunch d slot) l.reply 4 []

/-- LAUNCH_TARGET. -/
def execLaunchTarget (slot : Fin 64) (s : State) : Host.Outcome State Fault Refusal := act (launchTarget slot) s

/-- FRAME_SEND: the frame joins the tail of its queue; on a port that is not in service it fails as a
launch does (spec/14 R358, R465; log entry 57). -/
def execFrameSend (h : CmdHdr) (c : SendParams) (s : State) : Host.Outcome State Fault Refusal :=
  act (fun d => runCmd d h 0x51 .h [some c.port.toNat, some c.vc.toNat, some (b2n c.tsv), some c.tsid.toNat, some c.flen.toNat, none] true (fun d rp =>
    let (f, d) := sendFrame d c
    match f with
    | none => refuseDma d rp
    | some f =>
      if inService d c.port.toNat then
        egrPush d c.port.toNat c.vc.toNat (sendEgr d f false (tsidOf c) (some rp) none)
      else complete (lostStamp d c.port.toNat (tsidOf c)) rp 4 [])) s

/-- TAILOR_FRAME_SEND: a frame of Tailor's own, sent while Tailor runs (R339, R341; log entry 57). -/
def tailorFrameSend (t : TailorFrame) (d : Dev) : Dev :=
  let id := if t.tsv then some t.tsid else none
  if d.host.tlr != .running then d
  else if inService d t.port then egrPush d t.port (t.vc % 8) (sendEgr d t.frame (t.vc % 8 != 0) id none none)
  else lostStamp d t.port id

/-- TAILOR_FRAME_SEND. -/
def execTailorFrameSend (t : TailorFrame) (s : State) : Host.Outcome State Fault Refusal := act (tailorFrameSend t) s

/-- Remove the head of a die's transmit timestamp queue (R341). -/
def tsqPop (die : Nat) (d : Dev) : Dev :=
  { d with time := { d.time with tsq := lset d.time.tsq die ((d.time.tsq.getD die []).drop 1) } }

/-! ### Firing of targets (spec/13 R337, R338) -/

/-- The optimizer commits whose tick lies in an earlier CTRL cycle, of three TIME cycles, take effect (spec/08 R223,
R224). -/
def commitsDue (d : Dev) : Dev :=
  let due (c : OptCommit) : Bool := match c.at_ with | some t => decide (t / 3 < d.now / 3) | none => false
  ((d.opt.commits.filter due).map (·.part)).foldl (fun d p => optCommitTick p d) d

/-- Fire every target that its domain has reached: epoch commit, optimizer commits, which take effect at the end of the CTRL
cycle, freeze, launches in ascending slot order, then the switch (log entry 56). -/
def fireTargets (d : Dev) : Dev :=
  let d := if d.fwd.commit.any (fun c => reachedIn d c.dom c.tick) then flipEpoch d else d
  let d := { d with opt := { d.opt with commits := d.opt.commits.map (fun c =>
    if c.at_.isNone && reachedIn d c.dom c.tick then { c with at_ := some d.now } else c) } }
  let d := if rdb d .pmcFreeze [] 30 && reachedIn d d.pmc.frzDom (BitVec.ofNat 32 (rd d .pmcFreezeAt))
    then pmcFreezeTick d else d
  let ls := (List.range 64).filter (fun s =>
    d.time.launches.any (fun l => l.slot == s && !l.fired && reachedIn d l.dom l.tick))
  let d := ls.foldl (fun d s => launchTarget s d) d
  if d.time.pend.any (fun p => reachedIn d p.2 p.1) then timeSwitched d else d

/-! ### 1PPS (spec/13 R343) -/

/-- PPS_OUT_EDGE. -/
def execPpsOutEdge (s : State) : Host.Outcome State Fault Refusal := act ppsOutEdge s

/-- PPS_OUT_END: WIDTH_US after the edge the output falls. -/
def execPpsOutEnd (s : State) : Host.Outcome State Fault Refusal :=
  act (fun d => { d with time := { d.time with ppsOut := false } }) s

/-- A write of TIME_ADJ: the step is added on the next TIME cycle (R335). -/
def timeStep (i val : Nat) (d : Dev) : Dev :=
  { d with time := { d.time with adj := d.time.adj ++ [(i, sx 32 val)] } }

/-- The steps that wait are added to NS of their domains (R335). -/
def applySteps (d : Dev) : Dev :=
  let l := d.time.adj
  let step (d : Dev) (x : Nat × Int) : Dev :=
    let y := dom d x.1
    setDom d x.1 { y with ns := ofInt 64 ((y.ns : Int) + x.2) }
  l.foldl step { d with time := { d.time with adj := [] } }

/-- PPS_IN_EDGE: both domains' NS are captured; an injection masks the edge (R343, spec/16 Table 16-1). -/
def ppsInEdge (d : Dev) : Dev :=
  if rdb d .timePpsCtl [] 29 then
    match takeMark d 0x21 0 0 with
    | (some _, d) => trace d 0x21 0 0
    | (none, d) =>
      let d := untrace d 0x21 0 0
      let a := d.time.d0.ns
      let b := d.time.d1.ns
      let d := wr (wr d .timePpsCap0Lo [] a) .timePpsCap0Hi [] (a / 2 ^ 32)
      let d := wr (wr d .timePpsCap1Lo [] b) .timePpsCap1Hi [] (b / 2 ^ 32)
      cnt1 d (srcTime 0 0) 10
  else d

/-- PPS_IN_EDGE. -/
def execPpsInEdge (s : State) : Host.Outcome State Fault Refusal := act ppsInEdge s

/-- PPS_LOST: 1.1 s without an edge. -/
def ppsLost (d : Dev) : Dev := if rdb d .timePpsCtl [] 29 then raiseAt (traced d 0x21 0 0) (srcTime 0 0) 6 3 [] [] else d

/-- PPS_LOST. -/
def execPpsLost (s : State) : Host.Outcome State Fault Refusal := act ppsLost s

end Sys2Proof.Machine
end

