-- ==== Sys2Proof/Machine/Host.lean ====
section
/-! DEFINITION. The host interface: rings and doorbells, descriptors, event records and interrupts, the
management port, Tailor and its firmware, the emergency stop (spec/14). -/
namespace Sys2Proof.Machine

/-! ### Rings (spec/14 R349–R351) -/

/-- Write pending entries of a producer ring while it has room. -/
def ringFlush : Nat → Dev → Nat → Dev
  | 0, d, _ => d
  | n + 1, d, r =>
    match (ringSt d r).pend with
    | [] => d
    | e :: q =>
      if ringOn d r ∧ ringHeld d r < ringSize d r ∧ pcieUp d ∧ d.host.dmaHeld = [] then
        ringFlush n (ringWrite (setRing d r { ringSt d r with pend := q }) r e) r
      else d

/-- Write all pending entries that fit. -/
def ringDrain (d : Dev) (r : Nat) : Dev := ringFlush (ringSt d r).pend.length d r

/-- Once the PCIe PHY has woken, the pending entries of the producer rings are written (spec/15 R392). -/
def ringsWake (d : Dev) : Dev :=
  if pcieUp d then (d.host.rings.filter (fun x => decide (8 ≤ x.1) && !x.2.pend.isEmpty)).foldl (fun d x => ringDrain d x.1) d
  else d

/-- A ring error: ERR is set, which stops the ring (R351). -/
def ringError (d : Dev) (r : Nat) : Dev := raise (wrf d .ringCtl [r] 30 30 1) (srcHif r) 2 [(1, r)]

/-- A discarded ring write (R350). -/
def ringReject (d : Dev) (r : Nat) : Dev := raise d (srcHif r) 1

/-- A write of RING_CTL (R350). -/
def ringCtlWrite (r val : Nat) (d : Dev) : Dev :=
  let err := rdf d .ringCtl [r] 30 30
  let keep := putBits (val % 2 ^ 32) 30 30 err
  if !bit val 31 then wr d .ringCtl [r] keep
  else if rdb d .ringCtl [r] 31 then
    if bits val 4 0 = rdf d .ringCtl [r] 4 0 then wr d .ringCtl [r] keep else ringReject d r
  else
    let d := setCons (setProd (wr d .ringCtl [r] (clrBit keep 30)) r 0) r 0
    ringDrain (setRing d r { ringSt d r with total := 0, since := 0 }) r

/-- A write of PROD of a command ring (R349, R351). -/
def prodWrite (r val : Nat) (d : Dev) : Dev :=
  if ringSize d r < (val % 65536 + 65536 - ringCons d r) % 65536 then ringError d r else setProd d r val

/-- A write of CONS of a producer ring (R349, R351). -/
def consWrite (r val : Nat) (d : Dev) : Dev :=
  if ringHeld d r < (ringProd d r + 65536 - val % 65536) % 65536 then ringError d r
  else ringDrain (setCons d r val) r

/-- A write of a ring's base or write-back address, discarded while EN is 1 (R350). -/
def ringAddrWrite (reg : Reg) (r val : Nat) (d : Dev) : Dev :=
  if rdb d .ringCtl [r] 31 then ringReject d r else wr d reg [r] val

/-! ### Descriptors (spec/14 R352–R358) -/

/-- The general checks of R357 on a descriptor and the data behind it: the status that refuses it. -/
def generalCheck (d : Dev) (p : Path) (bs data : List Byte) : Option Nat :=
  match opSpec (leAt bs 0 2) with
  | none => some 0x08
  | some (acc, blk, ws) =>
    match pathRefusal d p acc with
    | some st => some st
    | none => if 1 < leAt bs 2 1 ∨ leAt bs 3 1 ≠ 0 ∨ !paramsOk bs blk ws ∨ 1024 < data.length then some 0x09 else none

/-- A command ring that a descriptor can be taken from: it holds one, and its completion ring has a free
entry (R352). -/
def ringReady (d : Dev) (i : Nat) : Bool :=
  ringOn d i && decide (0 < ringHeld d i) && decide (0 < ringFree d (8 + i))

/-- The ring that round-robin serves next. -/
def ringTurn (d : Dev) : Option Nat :=
  ((List.range 8).map (fun k => (d.host.turn + k) % 8)).find? (ringReady d)

/-- Bring in a descriptor, or refuse it under the general checks: `data` is what a CMD frame carries behind it. -/
def acceptDesc (d : Dev) (p : Path) (bs data : List Byte) : Dev :=
  let opc := leAt bs 0 2
  let tag := BitVec.ofNat 32 (leAt bs 4 4)
  match generalCheck d p bs data with
  | some st => refuseGen (cnt1 d (srcHif 0) 11) ⟨p, tag, opc, d.host.epoch⟩ st
  | none => { d with host := { d.host with
      fetched := d.host.fetched ++ [⟨pathNo p, tag, opc, slice bs 8 56, data, d.host.epoch⟩] } }

/-- DESCRIPTOR_FETCH (R352): its completion entry is reserved; a fence waits for every earlier command of its ring; during a
restart of Tailor nothing is accepted (R371), and while PD120 sleeps nothing is fetched (spec/15 R392). -/
def descriptorFetch (i : Nat) (r : DmaRead) (d : Dev) : Dev :=
  if ringTurn d ≠ some i ∨ tlrHolds d = true ∨ pcieUp d = false then d
  else
    let (b, d) := dmaGet d r
    match b with
    | none => ringError d i
    | some b =>
      let bs := slice b 0 64
      let d := { d with host := { d.host with turn := (i + 1) % 8 } }
      if bit (leAt bs 2 1) 0 ∧ 0 < (ringSt d i).open_ then d
      else
        let c := ringCons d i + 1
        acceptDesc (reserveCpl (writeBack (setCons d i c) i c) (.ring i)) (.ring i) bs []

/-- DESCRIPTOR_FETCH. -/
def execDescriptorFetch (ring : Fin 8) (b : DmaRead) (s : State) : Host.Outcome State Fault Refusal :=
  act (descriptorFetch ring b) s

/-- A write of TBL_WIN_CTL (R360). -/
def tblWinWrite (die val : Nat) (d : Dev) : Dev :=
  if !bit val 31 then d
  else
    let bs := (List.range 16).flatMap (fun k => leBytes 4 (rd d .tblWinDesc [die, k]))
    let opc := leAt bs 0 2
    if rdb d .tblWinCtl [die] 30 ∨ opc < 0x10 ∨ 0x18 < opc then raise d (srcHif 0) 1
    else
      acceptDesc (wrf d .tblWinCtl [die] 30 30 1) (.window die) bs []

/-- NOP. -/
def execNop (h : CmdHdr) (s : State) : Host.Outcome State Fault Refusal :=
  act (fun d => runCmd d h 0x01 .both [] true (fun d rp => complete d rp 0 [])) s

/-! ### Interrupts (spec/14 R347, R364) -/

/-- A write of a vector's control word: a pending vector that it unmasks is raised. -/
def msixCtlWrite (v val : Nat) (d : Dev) : Dev :=
  let d := wr d .msixCtl [v] (val % 2)
  if val % 2 = 0 ∧ rdb d .msixPba [v / 32] (v % 32) then
    raiseVec (wr d .msixPba [v / 32] (clrBit (rd d .msixPba [v / 32]) (v % 32))) v
  else d

/-- RING_INTERRUPT: RING_MOD.USEC has passed since the first entry written after the last interrupt (R364). -/
def ringInterrupt (r : Nat) (d : Dev) : Dev :=
  let x := ringSt d r
  if r < 8 ∨ x.since = 0 ∨ rdf d .ringMod [r] 31 16 = 0 ∨ d.now < x.first + 1200 * rdf d .ringMod [r] 15 0 then d
  else raiseVec (setRing d r { x with since := 0 }) (rdf d .ringCtl [r] 20 16)

/-- RING_INTERRUPT. -/
def execRingInterrupt (ring : Fin 18) (s : State) : Host.Outcome State Fault Refusal := act (ringInterrupt ring) s

/-! ### Event records (spec/14 R361, R362) -/

/-- The event ring has room for a record. -/
def eventRoom (d : Dev) : Bool := ringOn d 16 && pcieUp d && decide (0 < ringFree d 16)

/-- A record enters the event ring. -/
def eventPut (d : Dev) (e : Event) : Dev := cnt1 (ringPush d 16 (eventBytes e)) (srcHif 0) 12

/-- EVENT_RECORD_WRITE: first the record of events lost, else the oldest record held (R362). -/
def eventRecordWrite (d : Dev) : Dev :=
  if eventRoom d then
    if 0 < d.rel.lost then
      let e := { mkEvent d 0x1304 0 0 [] [] with count := natMin 0xFFFF d.rel.lost }
      eventPut (recordOut { d with draw := d.draw + 1, rel := { d.rel with lost := 0 } } e) e
    else
      match d.rel.store with
      | [] => d
      | e :: q => eventPut { d with rel := { d.rel with store := q } } e
  else d

/-- EVENT_RECORD_WRITE. -/
def execEventRecordWrite (s : State) : Host.Outcome State Fault Refusal := act eventRecordWrite s

/-! ### The management port (spec/14 R365–R367) -/

/-- Bytes of a management frame that its tag covers. -/
def mgmtBytes (f : MgmtFrame) : List Byte :=
  leBytes 1 f.ver.toNat ++ leBytes 1 f.typ.toNat ++ beBytes 2 f.len.toNat ++ beBytes 8 f.seq.toNat ++ f.body

/-- A CMD frame's tag verifies; injection 0x1F corrupts it. -/
def tagOk (d : Dev) (f : MgmtFrame) : Bool × Dev :=
  let good := beVal ((hmacSha256 Config.mgmtKey (mgmtBytes f)).take 16) == f.tag.toNat
  match takeMark d 0x1F 0 0 with
  | (some _, d) => (false, d)
  | (none, d) => (good, d)

/-- MGMT_FRAME_RECEIVE: a CMD frame, once the store is mounted (R365, R366).  Another EtherType, version or type, or a
length that is not its body's, is no CMD (log entry 62). -/
def mgmtFrameReceive (f : MgmtFrame) (d : Dev) : Dev :=
  if f.etype.toNat ≠ rdf d .mgmtCtl [] 15 0 ∨ f.ver ≠ 1 ∨ f.typ ≠ 0 ∨ f.len.toNat ≠ f.body.length ∨ d.pwr.step < 4 then d
  else
    let (ok, d) := tagOk d f
    if !ok then raise d (srcHif 0) 6
    else
      let bs := slice f.body 0 64
      if f.seq.toNat ≤ d.host.last then
        complete (raise d (srcHif 0) 6) ⟨.mgmt, BitVec.ofNat 32 (leAt bs 4 4), leAt bs 0 2, d.host.epoch⟩ 9
          (leBytes 8 d.host.last)
      else acceptDesc { d with host := { d.host with last := f.seq.toNat } } .mgmt bs (f.body.drop 64)

/-- A frame of the device's own on the wire: EtherType, header, body, and the tag that all but BOOT_REQ carry. -/
def mgmtWire (d : Dev) (m : MgmtOut) : List Byte :=
  let b := [1] ++ leBytes 1 m.typ ++ beBytes 2 m.body.length ++ beBytes 8 m.seq ++ m.body
  beBytes 2 (rdf d .mgmtCtl [] 15 0) ++ b ++ (if m.typ = 4 then [] else (hmacSha256 Config.mgmtKey b).take 16)

/-- The management port sends its oldest frame; EVENT and TEL go to MGMT_PEER (R367; log entry 134). -/
def mgmtSend (d : Dev) : Dev :=
  match d.host.mgmtTx with
  | [] => d
  | m :: q =>
    let peer := BitVec.ofNat 48 (rdf d .mgmtPeerHi [] 15 0 * 2 ^ 32 + rd d .mgmtPeerLo [])
    { d with host := { d.host with mgmtTx := q, mgmtSent := d.host.mgmtSent ++
        [⟨if m.typ = 2 ∨ m.typ = 3 then some peer else none, mgmtWire d m⟩] } }

/-- MGMT_FRAME_RECEIVE. -/
def execMgmtFrameReceive (f : MgmtFrame) (s : State) : Host.Outcome State Fault Refusal := act (mgmtFrameReceive f) s

/-! ### Firmware (spec/14 R369–R373) -/

/-- Check an image: its version and SVN, or the status that refuses it (R369). -/
def imageCheck (d : Dev) (b : List Byte) : FwImg ⊕ Nat :=
  let body := b.drop 256
  let key := slice b 64 96
  let good := decide (256 ≤ b.length) && decide (b.length ≤ 2 ^ 23) && leAt b 0 4 == 0x5441494C
    && leAt b 12 4 == body.length && sha384 key == Config.fusedKeyHash
    && p384Verify (sha384 (slice b 0 160)) (leAt b 64 48) (leAt b 112 48) (leAt b 160 48) (leAt b 208 48)
    && sha384 body == slice b 16 48
  if !good then .inr 0x0E
  else if leAt b 8 2 < rdf d .tlrSvn [] 15 0 then .inr 0x0F
  else .inl ⟨BitVec.ofNat 32 (leAt b 4 4), BitVec.ofNat 16 (leAt b 8 2)⟩

/-- A refused image is counted and reported (R369). -/
def fwReject (d : Dev) : Dev := raise d (srcHif 0) 9

/-- Bytes of the image collected so far. -/
def stagedImage (d : Dev) : List Byte := tread d.host.stage 0 0 d.host.stageLen

/-- FW_STAGE: a piece of the image; on FINAL the image is checked (R371).  A piece at offset 0 begins a new
image (log entry 60). -/
def execFwStage (h : CmdHdr) (off : BitVec 32) (total : BitVec 32) (final : Bool) (piece : List Byte) (s : State) :
    Host.Outcome State Fault Refusal :=
  act (fun d => runCmd d h 0x61 .m [some off.toNat, some total.toNat, some (b2n final)] ((fetchedNext d h.path).all (fun a => a.data == piece)) (fun d rp =>
    let old := if off = 0 then [] else d.host.stage
    let d := { d with host := { d.host with stage := twrite 0 old off.toNat piece, stageLen := total.toNat } }
    if final then
      let img := imageCheck d (stagedImage d)
      let d := { d with host := { d.host with stage := [], stageLen := 0 } }
      match img with
      | .inl x => complete { d with host := { d.host with checked := some x } } rp 0 []
      | .inr st => complete (fwReject { d with host := { d.host with checked := none } }) rp st []
    else complete d rp 0 [])) s

/-- Tailor restarts: the command that asked completes when the image runs (R371). -/
def tlrRestart (d : Dev) (rp : Option Reply) : Dev :=
  wr { d with host := { d.host with tlr := .restarting rp } } .tlrState [] 0

/-- FW_ACTIVATE: only a running Tailor restarts on a checked image (R371, R372; log entry 60). -/
def execFwActivate (h : CmdHdr) (s : State) : Host.Outcome State Fault Refusal :=
  act (fun d => runCmd d h 0x62 .m [] true (fun d rp =>
    match d.host.checked, d.host.tlr with
    | some x, .running =>
      tlrRestart { d with host := { d.host with image := some x, checked := none } } (some rp)
    | _, _ => complete (fwReject d) rp 0x0E [])) s

/-- TLR_RESTART_DONE: the image runs on all four cores (R371). -/
def tlrRestartDone (d : Dev) : Dev :=
  match d.host.tlr with
  | .restarting rp =>
    let v := match d.host.image with | some x => x.version.toNat | none => 0
    let d := wr (wr { d with host := { d.host with tlr := .running } } .tlrState [] 0xF) .idFw [] v
    completeOpt d rp 0 (packFields [(32, v)])
  | _ => d

/-- TLR_RESTART_DONE. -/
def execTlrRestartDone (s : State) : Host.Outcome State Fault Refusal := act tlrRestartDone s

/-- TLR_WATCHDOG_EXPIRY: a restart, or a stop on the second within 60 s (R372). -/
def tlrWatchdogExpiry (c : Nat) (d : Dev) : Dev :=
  if d.host.tlr != .running then d
  else
    let (_, d) := takeMark d 0x1E 0 c
    let again := match d.host.tlrAt with
      | some t => decide (d.now - t < 60 * 1200000000)
      | none => false
    let d := raise d { srcHif c with die := c } 10 [(1, c)]
    if again then wr { d with host := { d.host with tlr := .stopped } } .tlrState [] 0
    else tlrRestart { d with host := { d.host with tlrAt := some d.now } } none

/-- TLR_WATCHDOG_EXPIRY. -/
def execTlrWatchdogExpiry (core : Fin 4) (s : State) : Host.Outcome State Fault Refusal :=
  act (tlrWatchdogExpiry core) s

/-- FW_COMMIT_SVN: the fuses take the running image's SVN (R373). -/
def execFwCommitSvn (h : CmdHdr) (s : State) : Host.Outcome State Fault Refusal :=
  act (fun d => runCmd d h 0x63 .m [] true (fun d rp =>
    let v := match d.host.image with | some x => x.svn | none => 0
    if v.toNat ≤ rdf d .tlrSvn [] 15 0 then complete d rp 9 []
    else
      let d := wr { d with host := { d.host with fuseSvn := some v } } .tlrSvn [] v.toNat
      complete d rp 0 (packFields [(16, v.toNat)]))) s

/-- The boot ROM waits for an image (R370). -/
def bootWaits (d : Dev) : Bool :=
  d.host.tlr == .off && decide (3 ≤ d.pwr.step) && rdf d .idStatus [] 3 0 == 0

/-- BOOT_REQ_SEND: the boot ROM asks for an image. -/
def bootReqSend (d : Dev) : Dev := if bootWaits d then (mgmtPush d 4 []).2 else d

/-- BOOT_REQ_SEND. -/
def execBootReqSend (s : State) : Host.Outcome State Fault Refusal := act bootReqSend s

/-- The boot ROM checks an image and runs it on core 0, or waits for another (R370). -/
def bootImage (d : Dev) (b : List Byte) : Dev :=
  match imageCheck d b with
  | .inl x =>
    let d := { d with host := { d.host with image := some x, tlr := .running, bootBuf := [] } }
    wrf (wr (wr d .tlrState [] 1) .idFw [] x.version.toNat) .tlrBootCtl [] 7 0 0
  | .inr st => wrf (fwReject { d with host := { d.host with bootBuf := [] } }) .tlrBootCtl [] 7 0 st

/-- BOOT_IMG_RECEIVE: a piece of a boot image; the last one lets it be checked. -/
def bootImgReceive (off total : Nat) (final : Bool) (piece : List Byte) (d : Dev) : Dev :=
  if bootWaits d then
    let buf := slice d.host.bootBuf 0 off ++ piece
    let d := { d with host := { d.host with bootBuf := buf } }
    if final then bootImage d (slice buf 0 total) else d
  else d

/-- BOOT_IMG_RECEIVE. -/
def execBootImgReceive (off : BitVec 32) (total : BitVec 32) (final : Bool) (piece : List Byte) (s : State) :
    Host.Outcome State Fault Refusal := act (bootImgReceive off.toNat total.toNat final piece) s

/-- A write of TLR_BOOT_CTL.GO: the boot ROM takes the host's image; a failed read shows DMA_ERROR. -/
def tlrBootGo (img : DmaRead) (d : Dev) : Dev :=
  if bootWaits d then
    let (b, d) := dmaGet d img
    match b with
    | none => wrf d .tlrBootCtl [] 7 0 0x0B
    | some b => bootImage d (slice b 0 (rdf d .tlrBootLen [] 23 0))
  else d

/-! ### Emergency stop (spec/14 R368) -/

/-- ESTOP. -/
def execEstop (h : CmdHdr) (s : State) : Host.Outcome State Fault Refusal :=
  act (fun d => runCmd d h 0x64 .m [] true (fun d rp =>
    let d := raise d (srcHif 0) 8
    let d := stopAll { d with host := { d.host with estop := true } } 0x0D
    complete d rp 0 [])) s

/-- ESTOP_CLEAR: KILL and the probes are released, unless a device fault holds (R368, spec/16 R406). -/
def execEstopClear (h : CmdHdr) (s : State) : Host.Outcome State Fault Refusal :=
  act (fun d => runCmd d h 0x65 .m [] true (fun d rp =>
    complete { d with host := { d.host with estop := false } } rp 0 [])) s

end Sys2Proof.Machine
end

