-- ==== Sys2Proof/Machine/Mesh.lean ====
section
/-! DEFINITION. The mesh and the Seam links: injection, routing, replication, memory traffic, broadcasts, replay and
repair (spec/03 R79–R89, spec/04 R106, R107, R113, R114, spec/09 R248, R249). -/
namespace Sys2Proof.Machine

/-- Free credits of the output from `a` to `b` on a plane and channel: a Seam transmitter's free replay
slots, else free flits of the neighbour's input buffer (R107). -/
def credits (d : Dev) (plane chan a b : Nat) : Nat :=
  match seamOf a b plane with
  | some (die, link) =>
    let x := seamSt d die link
    128 - (x.txSeq - x.acked).toNat
  | none =>
    d.sw.flights.foldl (fun n f =>
      if f.tile = b ∧ f.prev = a ∧ f.plane = plane ∧ f.inChan = chan then n - natMin 4 (loadFlits d f.load) else n)
      (chanDepth chan)

/-- The adaptive choice of R107 from `a` toward `b`: the productive neighbour with more free credits, on a
tie the direction with more hops left, then weft. -/
def adaptive (d : Dev) (plane a b : Nat) : Option Nat :=
  match stepX a b, stepY a b with
  | some x, some y =>
    let cx := credits d plane 0 a x
    let cy := credits d plane 0 a y
    if cx < cy ∨ (cx = cy ∧ absDiff (a % 8) (b % 8) < absDiff (a / 8) (b / 8)) then some y else some x
  | some x, none => some x
  | none, y => y

/-- A flight of `n` flits may cross from `a` to `b` now: a free credit, and toward another die a free replay slot for
each of its flits, space in the far router's input buffer as CRED has returned it, a link that no wire repair holds, and a
receiver that waits for no replay (spec/03 R82–R84). -/
def mayGo (d : Dev) (plane chan a b n : Nat) : Bool :=
  match seamOf a b plane with
  | none => decide (0 < credits d plane chan a b)
  | some (die, link) =>
    let x := seamSt d die link
    let y := seamSt d (seamFar die link) link
    decide (n ≤ credits d plane chan a b) && decide (tgetD x.used chan 0 < chanDepth chan)
      && !x.hold && !y.hold && !y.waiting

/-- The age of a wait at a tile since a TIME cycle of two MESH cycles, in the units of SW_TILE_CTL of that tile: the
ingress tile's for the stamp, each router's own for its wait (spec/03 R88; whose units: DESIGN CHOICE, log entry 103). -/
def ageOf (d : Dev) (t since : Nat) : Nat :=
  natMin 1023 (2 * (d.now - since) / 2 ^ natMin 10 (rdf d .swTileCtl (tix t) 3 0))

/-! ### Injection (spec/03 R79, spec/04 R106, R113) -/

/-- Mesh coordinates of a list of (port, VC) keys. -/
def destsOf (pvs : List Nat) : List Nat := (pvs.map (fun k => meshNo (k / 64))).eraseDups

/-- The root of a copy: the masked tile nearest to the ingress tile, ties to the lowest tile index. -/
def rootOf (src : Nat) (ds : List Nat) : Nat :=
  ds.foldl (fun b x =>
    if hopsN src x < hopsN src b ∨ (hopsN src x = hopsN src b ∧ tileOfN x < tileOfN b) then x else b) (ds.getD 0 src)

/-- Egress queues that a copy goes to, as port × 8 + VC. -/
def copyPvs (d : Dev) (i : Ing) (c : Copy) : List Nat := c.ports.map (fun p => 8 * p + egrVc d i c p)

/-- Every destination of a copy has space for it. -/
def copyRoom (d : Dev) (i : Ing) (c : Copy) : Bool :=
  let n := frameCells d i.frame
  (copyPvs d i c).all (fun k => decide (n ≤ egrRoom d (k / 8) (k % 8)))

/-- Receive staging of a core that is taken or reserved, in flits. -/
def stgFlits (d : Dev) (core : Nat) : Nat :=
  (tgetD d.coll.stg core []).foldl (fun a p => a + partFlits d p) 0
    + d.sw.flights.foldl (fun a f => match f.load with
        | .partial_ p c => if c = core then a + partFlits d p else a
        | _ => a) 0

/-- The cores to which the mesh delivers an operand: its chunk's, and the shadow of a sampled chunk (spec/06 R168). -/
def operCores (c : Ctx) (p : Partial) : List Nat :=
  coreOf c p.chunk :: (match findChunk c p.chunk with | some k => k.shadow.toList | none => [])

/-- What may be injected at a tile: a copy of an ingress frame, a waiting operand, or a frame of the device's own. -/
inductive Cand where
  | copy (i : Ing) (c : Copy)
  | oper (o : OutOp)
  | own (o : OwnOut)

/-- Age stamp of a candidate. -/
def candAge (d : Dev) (t : Nat) : Cand → Nat
  | .copy i _ => ageOf d t i.rxAt
  | .oper o => ageOf d t o.at_
  | .own o => ageOf d t o.at_

/-- The VC of a copy is known: a demoted one waits until each partner has said whether it grants VC7 cells
(spec/05 R129). -/
def vcKnown (d : Dev) (i : Ing) (c : Copy) : Bool :=
  match c.via with
  | .mirror _ => true
  | _ => !demoted i || c.ports.all (fun p => (linkSt d p).lcfRcvd)

/-- What waits at a tile for its injection arbiter, oldest id first. -/
def reqs (d : Dev) (t : Nat) : List Cand :=
  (d.sw.ing.filter (fun i => i.port / 8 == t)).flatMap (fun i =>
    (i.copies.filter (fun c => copyFree i c && vcKnown d i c)).map (Cand.copy i))
  ++ (d.coll.outq.filter (fun o => o.tile == t)).map Cand.oper
  ++ (d.sw.ownq.filter (fun o => o.tile == t)).map Cand.own

/-- The destination of what waits can reserve space for it (spec/03 R79). -/
def candRoom (d : Dev) : Cand → Bool
  | .copy i c => copyRoom d i c
  | .own o => decide (o.e.cells ≤ egrRoom d (o.k / 8) (o.k % 8))
  | .oper o =>
    match ctxOf d o.p.slot with
    | some c =>
      (match findChunk c o.p.chunk with | some k => k.spilled | none => false)
        || (operCores c o.p).all (fun q => decide (stgFlits d (coreNo q) + partFlits d o.p ≤ 1024))
    | none => true

/-- Input of its tile's injection arbiter that a candidate stands at: a lane, the operands', the device's own. -/
def candInput : Cand → Nat
  | .copy i _ => i.port % 8
  | .oper _ => 8
  | .own _ => 9

/-- Place of a candidate in the round-robin of its tile's injection arbiter: 0 first. -/
def candTurn (d : Dev) (t : Nat) (c : Cand) : Nat := (candInput c + 10 - tgetD d.sw.injNext t 0) % 10

/-- The candidate with the largest age; ties by round-robin over the inputs, within one input to the frame
received first (spec/03 R89, log entry 73). -/
def oldest (d : Dev) (t : Nat) (l : List Cand) : Option Cand :=
  l.foldl (fun b c => match b with
    | none => some c
    | some x =>
      if candAge d t x < candAge d t c ∨ (candAge d t x = candAge d t c ∧ candTurn d t c < candTurn d t x) then some c
      else some x) none

/-- Egress queues that a candidate asks a grant of. -/
def candPvs (d : Dev) : Cand → List Nat
  | .copy i c => copyPvs d i c
  | .oper _ => []
  | .own o => [o.k]

/-- Two candidates ask a grant of one egress queue. -/
def candsMeet (d : Dev) (x y : Cand) : Bool := (candPvs d x).any (candPvs d y).contains

/-- Of two that wait at one tile, each with its place in the tile's list, the second goes first. -/
def firstHere (d : Dev) (t : Nat) (x y : Cand × Nat) : Bool :=
  let a := candAge d t x.1
  let b := candAge d t y.1
  let m := candTurn d t x.1
  let n := candTurn d t y.1
  decide (a < b ∨ (a = b ∧ (n < m ∨ (n = m ∧ y.2 < x.2))))

/-- What a tile may inject: its space can be reserved, and nothing of the tile asks the same egress queue and goes first,
be there room for that or not (spec/03 R89). -/
def cands (d : Dev) (t : Nat) : List Cand :=
  let rs := (reqs d t).zipIdx
  (rs.filter (fun x => candRoom d x.1 && !rs.any (fun y => candsMeet d x.1 y.1 && firstHere d t x y))).map (·.1)

/-- Place of a tile in the round-robin of the grant arbiter of an egress queue: 0 first. -/
def grantTurn (d : Dev) (k t : Nat) : Nat := (t + 64 - tgetD d.sw.grantNext k 0) % 64

/-- A request of another tile at the same egress-staging grant arbiter goes first there, be there room for it or not: it
is older, or as old and first in the round-robin of every arbiter that both ask (spec/03 R89). -/
def outGranted (d : Dev) (t : Nat) (x : Cand) : Bool :=
  (List.range 64).any (fun u => u != t &&
    (reqs d u).any (fun y =>
      let both := (candPvs d y).filter (candPvs d x).contains
      !both.isEmpty && (decide (candAge d t x < candAge d u y)
        || (candAge d t x == candAge d u y && both.all (fun k => decide (grantTurn d k u < grantTurn d k t))))))

/-- The grant arbiters of egress queues have granted a tile. -/
def tookGrant (d : Dev) (t : Nat) (ks : List Nat) : Dev :=
  { d with sw := { d.sw with grantNext := ks.foldl (fun g k => tput 0 g k ((t + 1) % 64)) d.sw.grantNext } }

/-- The injection arbiter of a tile has granted an input. -/
def tookTurn (d : Dev) (t n : Nat) : Dev :=
  { d with sw := { d.sw with injNext := tput 0 d.sw.injNext t ((n + 1) % 10) } }

/-- Choose the plane of a frame on channel A: more free credits at the first hop, ties alternately (spec/04 R106: for
each ingress tile; DESIGN CHOICE, log entry 130); plane 0 while plane 1 of the die is OFF. -/
def pickPlane (d : Dev) (t dst : Nat) : Nat × Dev :=
  let a := meshNo t
  let cr (plane : Nat) : Nat := match adaptive d plane a dst with | some b => credits d plane 0 a b | none => 0
  let tie := tgetD d.sw.tie t 0
  let (pl, d) :=
    if plane1Off d (t / 16) ∨ cr 1 < cr 0 then (0, d) else if cr 0 < cr 1 then (1, d)
    else (tie, { d with sw := { d.sw with tie := tput 0 d.sw.tie t (1 - tie) } })
  (pl, cnt1 d (srcRt (t / 16) 0) (12 + pl))

/-- The Swatch of a frame as one of its copies enters the mesh. -/
def noteEnter (d : Dev) (i : Ing) (c : Copy) : Ing :=
  match i.swatch, c.via with
  | _, .mirror _ => i
  | some s, .multi => if c.ports.contains s.egr then { i with swatch := some (swStage d 3 s) } else i
  | some s, _ => { i with swatch := some (swStage d 3 { s with egr := c.ports.getD 0 0x1FF }) }
  | none, _ => i

/-- Reserve egress staging for cells on their way to a queue (spec/03 R79). -/
def reserve (d : Dev) (k n : Nat) : Dev :=
  { d with sw := { d.sw with egrRsv := tput 0 d.sw.egrRsv k (tgetD d.sw.egrRsv k 0 + n) } }

/-- A copy enters the mesh: on M for its own die, else on A toward its root. -/
def injectCopy (d : Dev) (t : Nat) (i : Ing) (c : Copy) : Dev :=
  let age := ageOf d t i.rxAt
  let pvs := copyPvs d i c
  let ds := destsOf pvs
  let n := frameCells d i.frame
  let d := pvs.foldl (fun d k => reserve d k n) d
  let own := c.via == .multi && ds.all (fun x => dieOfN x == t / 16)
  let (pl, d) := if own then freePlane d t else pickPlane d t (rootOf (meshNo t) ds)
  let i := noteEnter d { i with copies := i.copies.filter (fun x => x.id != c.id) } c
  launchFlight (setIng d i) t (if own then 2 else 0) pl age (.copy i.id pvs c.via) ds

/-- An operand enters the mesh toward each of its cores, or goes to its chunk's memory accumulator once the chunk is
spilled (spec/07 R191). -/
def injectOper (d : Dev) (t : Nat) (o : OutOp) : Dev :=
  let d := { d with coll := { d.coll with outq := removeFirst (fun x => x == o) d.coll.outq } }
  match ctxOf d o.p.slot with
  | none => d
  | some c =>
    let sp := match findChunk c o.p.chunk with | some k => k.spilled | none => false
    if sp then spillOperand d t c o.p
    else (operCores c o.p).foldl (fun d q =>
      let dst := meshNo (coreTile q)
      let (pl, d) := pickPlane d t dst
      launchFlight d t 0 pl (ageOf d t o.at_) (.partial_ o.p (coreNo q)) [dst]) d

/-- A frame of the device's own enters the mesh toward its egress queue (spec/01 R15). -/
def injectOwn (d : Dev) (t : Nat) (o : OwnOut) : Dev :=
  let d := { d with sw := { d.sw with ownq := removeFirst (fun x => x == o) d.sw.ownq } }
  let d := reserve d o.k o.e.cells
  let dst := meshNo (o.k / 64)
  let (pl, d) := pickPlane d t dst
  launchFlight d t 0 pl (ageOf d t o.at_) (.own o.e o.k) [dst]

/-- A candidate enters the mesh. -/
def inject (d : Dev) (t : Nat) : Cand → Dev
  | .copy i c => injectCopy d t i c
  | .oper o => injectOper d t o
  | .own o => injectOwn d t o

/-- MESH_INJECT: the oldest candidate of a tile enters the mesh, unless an older one of another tile has first
claim to its egress staging. -/
def meshInject (t : Nat) (d : Dev) : Dev :=
  match oldest d t (cands d t) with
  | none => d
  | some x => if outGranted d t x then d else inject (tookGrant (tookTurn d t (candInput x)) t (candPvs d x)) t x

/-- MESH_INJECT. -/
def execMeshInject (tile : Fin 64) (s : State) : Host.Outcome State Fault Refusal := act (meshInject tile) s

/-! ### Routing (spec/03 R79–R81, spec/04 R107) -/

/-- A flight. -/
def findFlight (d : Dev) (id : Nat) : Option Flight := d.sw.flights.find? (fun f => f.id == id)

/-- Remove a flight. -/
def dropFlight (d : Dev) (id : Nat) : Dev :=
  { d with sw := { d.sw with flights := d.sw.flights.filter (fun f => f.id != id) } }

/-- Cells that a flight had reserved in an egress queue are no longer on their way. -/
def unreserve (d : Dev) (k n : Nat) : Dev :=
  { d with sw := { d.sw with egrRsv := tput 0 d.sw.egrRsv k (tgetD d.sw.egrRsv k 0 - n) } }

/-- Some mirror session copies the frames that a port transmits: their ingress cells stand until then (spec/04 R119). -/
def txMirrored (d : Dev) (p : Nat) : Bool := (List.range 16).any (fun s => mirTx d s p)

/-- A copy is accepted by the egress staging of a (port, VC); its cells fall free with the last of them, but for a
mirror session that copies it as it is transmitted. -/
def acceptCopy (d : Dev) (fl : Flight) (id : Nat) (via : Via) (k : Nat) : Dev :=
  match findIng d id with
  | none => d
  | some i =>
    let p := k / 8
    let v := match via with | .mirror _ => k % 8 | _ => egrVc d i ⟨0, [p], 0, via⟩ p
    let s := match i.swatch, via with
      | _, .mirror _ => none
      | some s, _ => if s.egr = p then some (swStage d 4 { s with hops := fl.hops, seams := fl.seams }) else none
      | none, _ => none
    let keep := (match via with | .mirror _ => false | _ => true) && txMirrored d p
    let e := { mkEgr d i via v (ctOk d i p v && !grantBefore d k fl.grantNo) s with grantNo := fl.grantNo, keeps := keep }
    let d := setEgrQ (unreserve d k (frameCells d i.frame)) p v (byGrant e (egrQ d p v))
    if keep then d else freeIng d id

/-- A frame of the device's own is accepted by egress staging. -/
def acceptOwn (d : Dev) (fl : Flight) (e : Egr) (k : Nat) : Dev :=
  setEgrQ (unreserve d k e.cells) (k / 8) (k % 8) (byGrant { e with grantNo := fl.grantNo } (egrQ d (k / 8) (k % 8)))

/-- Data of a flit of what a flight carries: a frame's bytes behind its mesh header, 256 bytes a flit; no layout is
stated for anything else in the mesh (log entry 98). -/
def flitData (d : Dev) (fl : Flight) (j : Nat) : BitVec 2048 :=
  let f : Option Frame := match fl.load with
    | .copy id _ _ => (findIng d id).map (·.frame)
    | .own e _ => some e.frame
    | _ => none
  let bytes := match f with
    | some f => slice (Config.meshHeader fl.id) 0 32 ++ frameBytes d f ++ leBytes 4 (Config.frameFcs (frameBytes d f)).toNat
    | none => (Config.meshHeader fl.id).drop 32
  BitVec.ofNat 2048 (leVal (slice bytes (256 * j) 256))

/-- CRC of a Seam flit: over the data bits, then sideband [63:32], both least significant byte first. -/
def seamCrc (f : SeamFlit) : Nat := crc32c (leBytes 256 f.data.toNat ++ leBytes 4 (f.side.toNat / 2 ^ 32))

/-- A flit with its sideband complete (spec/03 Table 03-4). -/
def mkFlit (data : BitVec 2048) (seq ack : BitVec 8) (typ chan cred : Nat) : SeamFlit :=
  let hi := (seq.toNat * 2 ^ 56 + ack.toNat * 2 ^ 48 + typ % 4 * 2 ^ 46 + chan % 8 * 2 ^ 43 + cred % 32 * 2 ^ 38)
  let f : SeamFlit := ⟨data, BitVec.ofNat 64 hi⟩
  { f with side := BitVec.ofNat 64 (hi + seamCrc f) }

/-- The channel whose credits a flit returns, and how many of them: where several owe some, the lowest-numbered (DESIGN
CHOICE, log entry 25). -/
def credOf (x : Seam) : Nat × Nat :=
  match [0, 1, 2, 3, 4].find? (fun c => decide (0 < tgetD x.owed c 0)) with
  | some c => (c, natMin 31 (tgetD x.owed c 0))
  | none => (0, 0)

/-- A Seam transmitter sends one flit: its own sequence number, what its receiver has received good, and credits of its
receiver; the flit stays in the replay buffer, 128 deep. -/
def seamSendFlit (d : Dev) (die link : Nat) (data : BitVec 2048) : Dev :=
  let x := seamSt d die link
  let (c, n) := credOf x
  let f := mkFlit data (x.txSeq + 1) x.rxSeq 0 c n
  setSeam d die link { x with
    txSeq := x.txSeq + 1, owed := tput 0 x.owed c (tgetD x.owed c 0 - n),
    buf := (x.buf ++ [f]).drop (x.buf.length + 1 - 128), wires := x.wires ++ [f], busy := x.busy + 1 }

/-- The flits of a flight cross a Seam link: they take a place each in the replay buffer and, as far as they fit, in the
input buffer of the far router. -/
def seamCross (d : Dev) (fl : Flight) (die link : Nat) : Dev :=
  let n := loadFlits d fl.load
  let d := (List.range n).foldl (fun d j => seamSendFlit d die link (flitData d fl j)) d
  let x := seamSt d die link
  setSeam d die link { x with used := tput 0 x.used fl.chan (tgetD x.used fl.chan 0 + natMin 4 n) }

/-- A flight leaves the router that it has reached: where it came over a Seam link, its flits are credits that the
receiver owes the far end. -/
def returnCredits (d : Dev) (fl : Flight) : Dev :=
  match seamOf fl.prev fl.tile fl.plane with
  | none => d
  | some (die, link) =>
    let y := seamFar die link
    let x := seamSt d y link
    setSeam d y link { x with owed := tput 0 x.owed fl.inChan (tgetD x.owed fl.inChan 0 + natMin 4 (loadFlits d fl.load)) }

/-- Remove a flight from its router. -/
def leave (d : Dev) (fl : Flight) : Dev := dropFlight (returnCredits d fl) fl.id

/-- Note what a link of the mesh carries, and forget what it carried more than 100 µs ago (spec/14 R361). -/
def noteHop (d : Dev) (a b plane n : Nat) : Dev :=
  let u : MeshUse := ⟨dieOfN a, a, b, plane, decide (dieOfN a ≠ dieOfN b), d.now, n⟩
  { d with sw := { d.sw with meshUse := d.sw.meshUse.filter (fun u => decide (d.now < u.at_ + 120000)) ++ [u] } }

/-- Move a flight over one hop, its wait added to its age. -/
def moveTo (d : Dev) (fl : Flight) (b : Nat) (ds : List Nat) (pvs : Option (List Nat)) (chan : Nat) : Dev :=
  let load := match fl.load, pvs with
    | .copy id _ via, some l => Load.copy id l via
    | l, _ => l
  let age := natMin 1023 (fl.age + ageOf d (tileOfN fl.tile) fl.since)
  let x := seamOf fl.tile b fl.plane
  let d := match x with
    | none => d
    | some (die, link) => seamCross d { fl with chan := chan } die link
  let d := noteHop d fl.tile b fl.plane (loadFlits d load)
  let seams := fl.seams + (if x.isSome then 1 else 0)
  let fl : Flight := ⟨d.sw.nextId, load, chan, fl.plane, b, fl.tile, ds, age, d.now, fl.hops + 1, seams, fl.grantNo, chan⟩
  { d with sw := { d.sw with flights := d.sw.flights ++ [fl], nextId := d.sw.nextId + 1 } }

/-- The branches of the dimension-ordered tree at a router: neighbour and the destinations behind it. -/
def branches (a : Nat) (ds : List Nat) : List (Nat × List Nat) :=
  let nx := (ds.filterMap (stepXY a)).eraseDups
  nx.map (fun b => (b, ds.filter (fun x => stepXY a x == some b)))

/-- Branches of a flight at its router. -/
def flBranches (fl : Flight) : List (Nat × List Nat) := branches fl.tile (fl.dests.filter (· != fl.tile))

/-- Every branch of a flight on channel M may go on. -/
def treeFree (d : Dev) (fl : Flight) : Bool := (flBranches fl).all (fun b => mayGo d fl.plane 2 fl.tile b.1 (loadFlits d fl.load))

/-- Replication on channel M at a router: local copies are accepted, one branch goes on in each direction
(spec/04 R113). -/
def routeTree (d : Dev) (fl : Flight) (id : Nat) (pvs : List Nat) (via : Via) : Dev :=
  let here := pvs.filter (fun k => meshNo (k / 64) == fl.tile)
  if treeFree d fl then
    let d := leave d fl
    let d := (flBranches fl).foldl (fun d b =>
      moveTo d fl b.1 b.2 (some (pvs.filter (fun k => b.2.contains (meshNo (k / 64))))) 2) d
    here.foldl (fun d k => acceptCopy d fl id via k) d
  else d

/-- A broadcast at a router: the tile's control agent has it, one branch goes on in each direction (spec/04 R114). -/
def routeBcast (d : Dev) (fl : Flight) (origin : Nat) (kind : BcastKind) : Dev :=
  if treeFree d fl then
    let d := leave d fl
    let d := (flBranches fl).foldl (fun d b => moveTo d fl b.1 b.2 none 2) d
    if fl.dests.contains fl.tile then
      { d with rt := { d.rt with bcast := d.rt.bcast ++ [(tileOfN fl.tile, origin, kind)] } }
    else d
  else d

/-- The next router of a flight toward one destination. -/
def nextHop (d : Dev) (fl : Flight) (dst : Nat) : Option Nat :=
  if fl.chan = 0 then adaptive d fl.plane fl.tile dst else stepXY fl.tile dst

/-- Root of a copy on its way to another die. -/
def copyRoot (d : Dev) (fl : Flight) (id : Nat) : Nat :=
  rootOf (match findIng d id with | some i => meshNo (i.port / 8) | none => fl.tile) fl.dests

/-- The one destination of a flight that is no tree. -/
def goal (fl : Flight) : Nat := fl.dests.getD 0 fl.tile

/-- Outputs that a flight asks of its router now: neighbours, and its own tile where something stays there;
none while it waits for a credit. -/
def wants (d : Dev) (fl : Flight) : List Nat :=
  let tree (stays : Bool) : List Nat :=
    if treeFree d fl then (if stays then [fl.tile] else []) ++ (flBranches fl).map (·.1) else []
  let one (dst : Nat) : List Nat :=
    match nextHop d fl dst with
    | none => []
    | some b => if mayGo d fl.plane fl.chan fl.tile b (loadFlits d fl.load) then [b] else []
  match fl.load with
  | .copy id pvs _ =>
    if fl.chan = 2 ∨ copyRoot d fl id = fl.tile then tree (pvs.any (fun k => meshNo (k / 64) == fl.tile))
    else one (copyRoot d fl id)
  | .bcast _ _ _ => tree (fl.dests.contains fl.tile)
  | _ => if goal fl = fl.tile then [fl.tile] else one (goal fl)

/-- Age of a flight at its router: its stamp and its wait there so far (spec/03 R88). -/
def flightAge (d : Dev) (fl : Flight) : Nat := natMin 1023 (fl.age + ageOf d (tileOfN fl.tile) fl.since)

/-- Input of its router, over all channels, that a flight stands at: the injection input and the four sides. -/
def inputOf (fl : Flight) : Nat :=
  5 * (if fl.prev = fl.tile then 0 else if fl.prev + 1 = fl.tile then 1 else if fl.prev = fl.tile + 1 then 2
       else if fl.prev < fl.tile then 3 else 4) + fl.chan

/-- Place of a flight in the round-robin of a router output: 0 first. -/
def outTurn (d : Dev) (fl : Flight) (o : Nat) : Nat :=
  (inputOf fl + 25 - tgetD d.sw.outNext ((fl.tile * 2 + fl.plane) * 64 + o) 0) % 25

/-- Outputs for which a multicast copy waits at its router on channel M, with credit or without. -/
def treeAsks (d : Dev) (fl : Flight) : List Nat :=
  match fl.load with
  | .copy id pvs via =>
    if fl.chan = 2 ∨ (copyRoot d fl id = fl.tile ∧ via = .multi) then
      (if pvs.any (fun k => meshNo (k / 64) == fl.tile) then [fl.tile] else []) ++ (flBranches fl).map (·.1)
    else []
  | _ => []

/-- A broadcast that a Patrol unit issues in SERVICE takes channel M only where no multicast copy waits for the same
output (spec/04 R114). -/
def yields (d : Dev) (fl g : Flight) : Bool :=
  match fl.load with
  | .bcast o _ (some _) => rdf d .meshBcastCtl [o / 16] 1 0 == 0 && (wants d fl).any (treeAsks d g).contains
  | _ => false

/-- Another flight asks the same output of the router, on the same plane, and goes first: it is older, or as old and
first in the round-robin of every output that both ask (spec/03 R89). -/
def outbid (d : Dev) (fl : Flight) : Bool :=
  d.sw.flights.any (fun g => g.id != fl.id && g.tile == fl.tile && g.plane == fl.plane &&
    let both := (wants d g).filter (wants d fl).contains
    yields d fl g || (!both.isEmpty && !yields d g fl && (decide (flightAge d fl < flightAge d g)
      || (flightAge d fl == flightAge d g && both.all (fun o => decide (outTurn d g o < outTurn d fl o))))))

/-- The outputs of a router have granted a flight. -/
def tookOutputs (d : Dev) (fl : Flight) : Dev :=
  { d with sw := { d.sw with outNext := (wants d fl).foldl (fun t o =>
      tput 0 t ((fl.tile * 2 + fl.plane) * 64 + o) ((inputOf fl + 1) % 25)) d.sw.outNext } }

/-- An earlier request of the same requester to the same unit is still in the mesh (spec/09 R248). -/
def reqOvertakes (d : Dev) (fl : Flight) (m : MemOut) : Bool :=
  d.sw.flights.any (fun g => match g.load with
    | .memQ n => decide (g.grantNo < fl.grantNo) && reqId n.r.src == reqId m.r.src && n.r.addr / 256 == m.r.addr / 256
    | _ => false)

/-- A request reaches its stack: it enters the queue of its pseudo-channel, or the input buffer of 256; while that is
full the controller accepts nothing (spec/09 R249). -/
def memArrive (d : Dev) (fl : Flight) (m : MemOut) : Dev :=
  if 256 ≤ stkBuf d (memStack d m.r.addr) ∨ reqOvertakes d fl m then d
  else
    let d := leave d fl
    { d with mem := { d.mem with reqs := d.mem.reqs ++ [m] } }

/-- What a flight that has reached its destination does there. -/
def arrive (d : Dev) (fl : Flight) : Dev :=
  match fl.load with
  | .partial_ p core => stageOperand (leave d fl) core p
  | .own e k => acceptOwn (leave d fl) fl e k
  | .memQ m => memArrive d fl m
  | .memP m => let d := leave d fl; { d with mem := { d.mem with resps := d.mem.resps ++ [m] } }
  | _ => d

/-- A head flit that has passed its SECDED check goes on from its router. -/
def routeOn (d : Dev) (fl : Flight) : Dev :=
  let go (dst : Nat) : Dev :=
    match nextHop d fl dst with
    | none => d
    | some b => if mayGo d fl.plane fl.chan fl.tile b (loadFlits d fl.load) then moveTo (leave d fl) fl b fl.dests none fl.chan else d
  match fl.load with
  | .copy id pvs via =>
    if fl.chan = 2 ∨ copyRoot d fl id = fl.tile then routeTree d fl id pvs via else go (copyRoot d fl id)
  | .bcast o k _ => routeBcast d fl o k
  | _ => if goal fl = fl.tile then arrive d fl else go (goal fl)

/-- A flight waits for a domain to wake: plane 1 of its die, or the cluster whose staging it has reached
(spec/15 R392). -/
def asleep (d : Dev) (fl : Flight) : Bool :=
  (fl.plane == 1 && !pdOn d (108 + dieOfN fl.tile))
    || (match fl.load with
        | .partial_ _ core => fl.dests.getD 0 fl.tile == fl.tile && !pdOn d (72 + core / 9)
        | _ => false)

/-- The router's arbiters let a flight go on, or it waits for an older one (spec/03 R89). -/
def routeWon (d : Dev) (fl : Flight) : Dev := if asleep d fl || outbid d fl then d else routeOn (tookOutputs d fl) fl

/-- MESH_FLIT_ROUTE: the SECDED check of a head flit at its router, then its route. -/
def meshFlitRoute (id : Nat) (ecc : Ecc) (d : Dev) : Dev :=
  match findFlight d id with
  | none => d
  | some fl =>
    let t := tileOfN fl.tile
    let (m, d) := takeMark d 6 (t / 16) (t % 16)
    let n := (match ecc with | .clean => 0 | .ce _ => 1 | .ue => 2) + m.getD 0
    if n = 0 then routeWon d fl
    else if n = 1 then routeWon (binError (raise d (srcMesh (t / 16) (t % 16)) 0) 0 (t / 16)) fl
    else deviceFault (raise d (srcMesh (t / 16) (t % 16)) 1) 1 (t / 16) (t % 16)

/-- MESH_FLIT_ROUTE. -/
def execMeshFlitRoute (fid : Nat) (ecc : Ecc) (s : State) : Host.Outcome State Fault Refusal :=
  act (meshFlitRoute fid ecc) s

/-- MESH_ESCAPE: a head flit that has waited SW_MESH_CTL.ESC_WAIT MESH cycles at its router, two in a TIME cycle, moves
from channel A to E (spec/03 R80). -/
def meshEscape (id : Nat) (d : Dev) : Dev :=
  match findFlight d id with
  | some fl =>
    if fl.chan = 0 ∧ natMax 1 (rdf d .meshCtl [dieOfN fl.tile] 7 0) ≤ 2 * (d.now - fl.since) then
      let d := { d with sw := { d.sw with flights := d.sw.flights.map (fun f => if f.id = id then { f with chan := 1 } else f) } }
      cnt1 d (srcMesh (dieOfN fl.tile) 0) 6
    else d
  | none => d

/-- MESH_ESCAPE. -/
def execMeshEscape (fid : Nat) (s : State) : Host.Outcome State Fault Refusal := act (meshEscape fid) s

/-! ### Seam links (spec/03 R82–R84) -/

/-- SEQ, ACK and TYPE of a flit's sideband. -/
def seamSeq (f : SeamFlit) : BitVec 8 := BitVec.ofNat 8 (bits f.side.toNat 63 56)
/-- ACK of a flit's sideband. -/
def seamAck (f : SeamFlit) : BitVec 8 := BitVec.ofNat 8 (bits f.side.toNat 55 48)
/-- TYPE of a flit's sideband. -/
def seamType (f : SeamFlit) : Nat := bits f.side.toNat 47 46

/-- Store SEAM_STATE.STATE at both ends of a link. -/
def seamState (d : Dev) (die link st : Nat) : Dev :=
  wrf (wrf d .seamState [die, link] 5 4 st) .seamState [seamFar die link, link] 5 4 st

/-- A Seam link has failed (R83). -/
def seamFail (d : Dev) (die link : Nat) : Dev :=
  deviceFault (raise (seamState d die link 0) (srcMesh die link) 3 [(1, link)]) 2 die link

/-- Errors of a wire within the window (spec/03 R84). -/
def wireErrs (d : Dev) (die link wire : Nat) : List (Nat × Bool) :=
  let win := rdf d .seamRepairCtl [die] 31 16 * 1200
  (tgetD (seamSt d die link).wireErr wire []).filter (fun e => decide (d.now - e.1 ≤ win))

/-- A wire has to be repaired: its errors within the window reach SEAM_REPAIR_CTL.THRESH (R84).  The errors of a wire
that has been mapped are those of the spare that carries its bits now. -/
def wireDue (d : Dev) (die link wire : Nat) : Bool :=
  decide (natMax 1 (rdf d .seamRepairCtl [die] 7 0) ≤ (wireErrs d die link wire).length)

/-- Charge one error to a wire of a receiver now; where that makes a repair due, both ends hold the link (R84). -/
def chargeWire (d : Dev) (die link wire : Nat) (inj : Bool) : Dev :=
  let x := seamSt d die link
  let d := setSeam d die link { x with wireErr := tset x.wireErr wire (tgetD x.wireErr wire [] ++ [(d.now, inj)]) }
  if wireDue d die link wire then seamState (setSeam d die link { seamSt d die link with hold := true }) die link 3 else d

/-- Wires on which two copies of a flit differ: a wire carries four bits in a row, data on wires 0 to 511, the CRC on the
first eight of the 16 sideband wires (log entry 53). -/
def wiresDiffer (a b : SeamFlit) : List Nat :=
  let x := a.data.toNat ^^^ b.data.toNat
  let c := (a.side.toNat ^^^ b.side.toNat) % 2 ^ 32
  (List.range 512).filter (fun w => bits x (4 * w + 3) (4 * w) != 0)
    ++ ((List.range 8).filter (fun w => bits c (4 * w + 3) (4 * w) != 0)).map (512 + ·)

/-- Data of a flit that carries none (log entry 98). -/
def fillData (d : Dev) : BitVec 2048 := BitVec.ofNat 2048 (leVal (slice ((Config.meshHeader d.draw).drop 32) 0 256))

/-- A transmitter puts flits on its wires. -/
def seamPut (d : Dev) (die link : Nat) (fs : List SeamFlit) : Dev :=
  let x := seamSt d die link
  setSeam d die link { x with wires := x.wires ++ fs, busy := x.busy + fs.length }

/-- Flits of a replay buffer that follow a sequence number. -/
def flitsAfter (x : Seam) (ack : BitVec 8) : List SeamFlit :=
  x.buf.filter (fun f => seamSeq f != ack && decide ((seamSeq f - ack).toNat ≤ (x.txSeq - ack).toNat))

/-- A transmitter learns the last sequence number that the far end has received good: the flits up to it leave the replay
buffer. -/
def seamAcked (x : Seam) (ack : BitVec 8) : Seam := { x with acked := ack, buf := flitsAfter x ack }

/-- A NAK: the transmitter replays from the flit after the one named; the sixteenth NAK in a row that names one SEQ fails
the link, unless its receiver has failed it already (R83). -/
def seamNak (die link : Nat) (ack : BitVec 8) (d : Dev) : Dev :=
  let x := seamSt d die link
  let n := if x.naks ≠ 0 ∧ x.nakSeq = ack then x.naks + 1 else 1
  let d := retrace d 7 (seamFar die link) link
  let d := setSeam (cnt1 d (srcMesh die link) 5) die link { seamAcked x ack with nakSeq := ack, naks := n }
  let d := seamPut d die link (mkFlit (fillData d) ack x.rxSeq 2 0 0 :: flitsAfter x ack)
  if n = 16 ∧ (seamSt d (seamFar die link) link).fails < 16 then seamFail d die link else d

/-- A good flit: its credits and its acknowledgement reach the transmitter beside the receiver, a replayed copy of the
failed flit shows which wires erred, and a NAK is carried out (R82–R84). -/
def seamGood (die link : Nat) (f : SeamFlit) (d : Dev) : Dev :=
  let x := seamSt d die link
  let again := match x.failed with | some b => seamSeq b == seamSeq f && seamType f != 1 && seamType f != 3 | none => false
  let d := match x.failed with
    | some b => if again then (wiresDiffer f b).foldl (fun d w => chargeWire d die link w d.rel.injected) (traced d 7 die link) else d
    | none => d
  let y := seamAcked (seamSt d die link) (seamAck f)
  let c := bits f.side.toNat 45 43
  let y := { y with used := tput 0 y.used c (tgetD y.used c 0 - bits f.side.toNat 42 38), waiting := false,
                    rxSeq := if seamType f = 0 ∨ seamType f = 2 then seamSeq f else y.rxSeq }
  let d := setSeam d die link (if again then { y with failed := none, fails := 0 } else y)
  if seamType f = 3 then seamNak die link (seamAck f) d else d

/-- A flit that fails its CRC is kept and answered with NAK; the sixteenth failure of one SEQ fails the link (R83). -/
def seamBad (die link : Nat) (f : SeamFlit) (d : Dev) : Dev :=
  let x := seamSt d die link
  let d := trace (binError (cnt1 d (srcMesh die link) 4) 0 die) 7 die link
  let n := match x.failed with
    | some b => if seamSeq b = seamSeq f then x.fails + 1 else 1
    | none => 1
  let d := setSeam d die link { x with waiting := true, failed := some f, fails := n }
  let d := seamPut d die link [mkFlit (fillData d) x.txSeq x.rxSeq 3 0 0]
  if n = 16 then seamFail d die link else d

/-- SEAM_FLIT_RECEIVE: the flit that stands first on the wires from the far end arrives, as its wires have left it; until
the next replay start a receiver that has sent NAK drops every flit (R83). -/
def seamFlitReceive (die link : Nat) (f : SeamFlit) (d : Dev) : Dev :=
  let (m, d) := takeMark d 7 die link
  let f := match m with | some w => { f with data := f.data ^^^ (1#2048 <<< (4 * (w % 512))) } | none => f
  let far := seamFar die link
  let d := setSeam d far link { seamSt d far link with wires := (seamSt d far link).wires.drop 1 }
  let x := seamSt d die link
  let good := decide (seamCrc f = f.side.toNat % 2 ^ 32)
  if x.waiting && !(good && seamType f == 2) && !(!good && (x.failed.map seamSeq == some (seamSeq f))) then d
  else if good then seamGood die link f d
  else seamBad die link f d

/-- SEAM_FLIT_RECEIVE. -/
def execSeamFlitReceive (die : Fin 4) (link : Fin 16) (f : SeamFlit) (s : State) : Host.Outcome State Fault Refusal :=
  act (seamFlitReceive die link f) s

/-- SEAM_NAK_RECEIVE. -/
def execSeamNakReceive (die : Fin 4) (link : Fin 16) (ack : BitVec 8) (s : State) :
    Host.Outcome State Fault Refusal := act (seamNak die link ack) s

/-- The transmitter that faces a receiver sends again, from its replay buffer, what stands on the wires behind the last
flit received good; a NAK on them stays. -/
def seamAgain (d : Dev) (die link : Nat) : Dev :=
  let far := seamFar die link
  let y := seamAcked (seamSt d far link) (seamSt d die link).rxSeq
  let fs := mkFlit (fillData d) y.acked y.rxSeq 2 0 0 :: flitsAfter y y.acked
  setSeam d far link { y with wires := y.wires.filter (fun f => seamType f == 3) ++ fs, busy := y.busy + fs.length }

/-- The link goes on, from the replay buffer, once no repair is due any more (R84). -/
def seamResume (d : Dev) (die link : Nat) : Dev :=
  if (seamSt d die link).wireErr.any (fun e => wireDue d die link e.1) then d
  else seamAgain (seamState (setSeam d die link { seamSt d die link with hold := false }) die link 2) die link

/-- SEAM_REPAIR: a wire whose errors reach THRESH is mapped onto the next spare; a ninth one, or a forwarded clock wire,
which has no error count, fails the link (R84).  A repair that is due only with injected errors lasts until the next
training (spec/16 R409). -/
def seamRepair (die link wire : Nat) (d : Dev) : Dev :=
  let x := seamSt d die link
  let inj := decide (((wireErrs d die link wire).filter (fun e => !e.2)).length < natMax 1 (rdf d .seamRepairCtl [die] 7 0))
  let d := if inj && wireDue d die link wire then { d with rel := { d.rel with injected := true } } else d
  if 536 ≤ wire then seamFail d die link
  else if !wireDue d die link wire then d
  else if 8 ≤ x.mapped.length then seamFail d die link
  else
    let d := setSeam d die link { x with wireErr := tdel x.wireErr wire, mapped := x.mapped ++ [wire],
                                          tempMap := if inj then x.tempMap ++ [wire] else x.tempMap }
    let d := raise (wrf d .seamState [die, link] 3 0 (x.mapped.length + 1)) (srcMesh die link) 2 [(1, link), (2, wire)]
    seamResume d die link

/-- SEAM_REPAIR. -/
def execSeamRepair (die : Fin 4) (link : Fin 16) (wire : BitVec 10) (s : State) : Host.Outcome State Fault Refusal :=
  act (seamRepair die link wire.toNat) s

end Sys2Proof.Machine
end

