-- ==== Sys2Proof/Machine/PolShp.lean ====
section
/-! DEFINITION. Policer and shaper set-up (spec/05 R130, R131, R135, R137). -/
namespace Sys2Proof.Machine

/-- The policer entry that POL_DATA0–2 spell. -/
def polData (d : Dev) : Policer :=
  let a := rd d .polData0
  let b := rd d .polData1
  let c := rd d .polData2
  ⟨bit a 31, bit a 30, BitVec.ofNat 2 (bits a 27 26), BitVec.ofNat 2 (bits a 25 24), BitVec.ofNat 24 a,
   BitVec.ofNat 24 b, BitVec.ofNat 16 (bits c 31 16), BitVec.ofNat 16 c⟩

/-- Rates and burst sizes that R131 and R135 accept. -/
def bucketsOk (cir pir cbs pbs : Nat) : Bool :=
  decide (rateOf cir ≤ rateOf pir) && decide (8329 ≤ cbs) && decide (8329 ≤ pbs)

/-- Apply a policer write on one die: tokens are kept and clamped; enabling fills both buckets (R130). -/
def polApply (d : Dev) (old new : Policer) (k die : Nat) : Dev :=
  let x := polNow d die k
  let cb := new.cbs.toNat * 9600
  let pb := new.pbs.toNat * 9600
  let x := if new.en ∧ !old.en then { x with tc := cb, tp := pb }
           else { x with tc := natMin x.tc cb, tp := natMin x.tp pb }
  if !old.en ∧ !new.en then d else setPolDie d die k x

/-- Write a policer entry on all four dies. -/
def polWrite (d : Dev) (k : Nat) (new : Policer) : Dev :=
  let old := polOf d k
  let d := [0, 1, 2, 3].foldl (fun d die => polApply d old new k die) d
  { d with pol := { d.pol with pols := tput ⟨false, false, 0, 0, 0, 0, 0, 0⟩ d.pol.pols k new } }

/-- A write of POL_CMD through a die: `op` writes the entry, else it is read at the command's end; a write
with EN = 1 is discarded in the cases of R131, a read while BUSY is 1 changes nothing (log entry 54). -/
def polCmdWrite (die val : Nat) (d : Dev) : Dev :=
  let k := bits val 13 0
  let busy := rdb d .polCmd [] 31
  if bit val 16 then
    let new := polData d
    if new.en && (busy || !bucketsOk new.cir.toNat new.pir.toNat new.cbs.toNat new.pbs.toNat) then
      raise d (srcPol die) 0
    else
      let d := polWrite d k new
      if busy then d
      else wrf { d with pol := { d.pol with cmd := some (die, true, false, k) } } .polCmd [] 31 31 1
  else if busy then d
  else wrf { d with pol := { d.pol with cmd := some (die, false, bit val 17, k) } } .polCmd [] 31 31 1

/-- Show a 48-bit count in a pair of registers of a die. -/
def polShow (d : Dev) (lo hi : Reg) (die : Nat) (c : BitVec 48) : Dev :=
  wr (wr d lo [die] (c.toNat % 2 ^ 32)) hi [die] (c.toNat / 2 ^ 32)

/-- The entry read, in POL_DATA and in the counters of every die, with SNAP_VIEW those of the snapshot (spec/17 R436). -/
def polRead (d : Dev) (k : Nat) : Dev :=
  let c := polOf d k
  let d := wr d .polData0 [] (b2n c.en * 2 ^ 31 + b2n c.aware * 2 ^ 30 + c.redAct.toNat * 2 ^ 26
    + c.yelAct.toNat * 2 ^ 24 + c.cbs.toNat)
  let d := wr (wr d .polData1 [] c.pbs.toNat) .polData2 [] (c.pir.toNat * 2 ^ 16 + c.cir.toNat)
  [0, 1, 2, 3].foldl (fun d die =>
    let x := if rdb d .pmcCtl [] 3 then tgetD d.pmc.snapPol (die * 16384 + k) ⟨0, 0, 0, 0, 0, 0⟩ else polDie d die k
    polShow (polShow (polShow d .polCntGLo .polCntGHi die x.green) .polCntYLo .polCntYHi die x.yellow)
      .polCntRLo .polCntRHi die x.red) d

/-- POL_CMD_COMPLETE: the command ends on all four dies; BUSY clears. -/
def polCmdComplete (d : Dev) : Dev :=
  match d.pol.cmd with
  | none => d
  | some (die, op, clr, k) =>
    let d := if op then d
      else
        let d := polRead d k
        if clr then setPolDie d die k { polDie d die k with green := 0, yellow := 0, red := 0 } else d
    wrf { d with pol := { d.pol with cmd := none } } .polCmd [] 31 31 0

/-- POL_CMD_COMPLETE. -/
def execPolCmdComplete (s : State) : Host.Outcome State Fault Refusal := act polCmdComplete s

/-- A write of register 0–2 of a shaper, judged with the two others as they stand; token counts are kept and
clamped to the new sizes (R135). -/
def shpWrite (p c r val : Nat) (d : Dev) : Dev :=
  let ix := shpIx p c
  let reg : Reg := if r = 0 then .shpC0 else if r = 1 then .shpC1 else .shpC2
  let d1 := wr d reg ix val
  let cir := rdf d1 .shpC2 ix 15 0
  let pir := rdf d1 .shpC2 ix 31 16
  if shpOn d1 p c && (rateOf pir == 0 || !bucketsOk cir pir (rdf d1 .shpC0 ix 23 0) (rdf d1 .shpC1 ix 23 0)) then
    raise d (srcShp (p / 8)) 0
  else
    let s := shpNow d p c
    let z := shpSize d1 p c
    setShp d1 p c { s with sc := intMin s.sc z.1, sp := intMin s.sp z.2 }

end Sys2Proof.Machine
end

