-- ==== Sys2Proof/Machine/Power.lean ====
section
/-! DEFINITION. References, power domains, thermal throttling and the trip, resets and the start-up sequence
(spec/15), the stacks' temperature (spec/09 R262–R264) and the substitution of cores (spec/16 R419). -/
namespace Sys2Proof.Machine

/-- A discarded write of spec/15 (R400). -/
def sysReject (d : Dev) : Dev := raise d (srcSys 0 0) 5

/-! ### Reference inputs (spec/15 R387–R390) -/

/-- A reference input is good. -/
def refOk (d : Dev) (k : Nat) : Bool := rdb d .clkRefStatus [] (1 + k)

/-- The input in use. -/
def refActive (d : Dev) : Nat := rdf d .clkRefStatus [] 0 0

/-- The root PLL is in holdover. -/
def inHoldover (d : Dev) : Bool := rdb d .clkRefStatus [] 3

/-- The root PLL locks to an input (ROOT_LOCK: log entry 64). -/
def lockTo (d : Dev) (k : Nat) : Dev :=
  let d := wrf (wrf (wrf d .clkRefStatus [] 0 0 k) .clkRefStatus [] 3 3 0) .clkRefStatus [] 4 4 1
  { d with pwr := { d.pwr with refSwitch := none } }

/-- The root PLL enters holdover (R389). -/
def enterHoldover (d : Dev) : Dev :=
  let d := wrf (wrf d .clkRefStatus [] 3 3 1) .clkRefStatus [] 4 4 0
  raise { d with pwr := { d.pwr with refSwitch := none } } (srcSys 0 0) 1

/-- REF_FAIL: an input is found bad (R387, R389).  Before the first lock there is none to hold (R390). -/
def refFail (k : Nat) (d : Dev) : Dev :=
  let d := wrf d .clkRefStatus [] (1 + k) (1 + k) 0
  if d.pwr.step < 2 ∨ inHoldover d ∨ (refActive d ≠ k ∧ d.pwr.refSwitch ≠ some k) then d
  else if refOk d (1 - k) then
    if refActive d = k then trace { wrf d .clkRefStatus [] 4 4 0 with pwr := { d.pwr with refSwitch := some (1 - k) } } 0x1C 0 0
    else { d with pwr := { d.pwr with refSwitch := none } }
  else enterHoldover d

/-- REF_FAIL. -/
def execRefFail (input : Fin 2) (s : State) : Host.Outcome State Fault Refusal := actPins (refFail input) s

/-- A switch to an input is complete: counted and reported (R387). -/
def switchTo (d : Dev) (k : Nat) : Dev := raise (lockTo d k) (srcSys 0 k) 0

/-- REF_SWITCH: the switch under way is complete. -/
def refSwitch (d : Dev) : Dev :=
  match d.pwr.refSwitch with
  | some k => if refOk d k then switchTo (traced d 0x1C 0 0) k else d
  | none => d

/-- REF_SWITCH. -/
def execRefSwitch (s : State) : Host.Outcome State Fault Refusal := actPins refSwitch s

/-- REF_REVERT: with REVERT set, the primary has been good for 100 ms. -/
def refRevert (d : Dev) : Dev :=
  if rdb d .clkRefCtl [] 2 ∧ refActive d = 1 ∧ refOk d 0 ∧ ¬ inHoldover d then switchTo d 0 else d

/-- REF_REVERT. -/
def execRefRevert (s : State) : Host.Outcome State Fault Refusal := actPins refRevert s

/-- A write of CLK_REF_CTL (R388): the PLL ends on the input named last. -/
def clkRefWrite (val : Nat) (d : Dev) : Dev :=
  let k := bits val 1 1
  if !refOk d k then sysReject d
  else
    let d := wr d .clkRefCtl [] val
    let stays := refActive d = k ∧ (rdb d .clkRefStatus [] 4 ∨ inHoldover d)
    { untrace d 0x1C 0 0 with pwr := { d.pwr with refSwitch := if stays then none else some k } }

/-- HOLDOVER_RELOCK: an input has been good for 100 ms (R389). -/
def holdoverRelock (k : Nat) (d : Dev) : Dev := if inHoldover d ∧ refOk d k then lockTo d k else d

/-- HOLDOVER_RELOCK. -/
def execHoldoverRelock (input : Fin 2) (s : State) : Host.Outcome State Fault Refusal := actPins (holdoverRelock input) s

/-! ### Cores and their spares (spec/00 R14, spec/06 R141, spec/16 R419) -/

/-- The repair record follows the present substitutions and lanes, where the store can be written. -/
def saveRepair (d : Dev) : Dev :=
  if boltUp d then newRecord .repair (bumpRecord .repair d) else d

/-- A lane's last 64 corrected errors lie within one hour (spec/09 R261). -/
def lanePendDue (d : Dev) (key : Nat) : Bool :=
  match tgetD d.mem.laneErr key [] with
  | t :: r => decide (63 ≤ r.length) && decide (d.now - t ≤ 4320000000000)
  | [] => false

/-- MEM_LANE_PENDING: a lane with 64 corrected errors within one hour is recorded for repair (spec/09 R261). -/
def memLanePending (stack channel lane : Nat) (d : Dev) : Dev :=
  let key := stack * 8192 + channel % 32 * 128 + lane
  if lanePendDue d key ∧ ¬ d.mem.lanePend.contains key then
    let d := wr d .memStkPend [stack] (setBit (rd d .memStkPend [stack]) (channel % 32))
    let d := { d with mem := { d.mem with lanePend := d.mem.lanePend ++ [key], laneErr := tdel d.mem.laneErr key } }
    raise (saveRepair d) (srcMem stack) 4
  else d

/-- MEM_LANE_PENDING. -/
def execMemLanePending (stack : Fin 12) (channel : BitVec 6) (lane : BitVec 7) (s : State) :
    Host.Outcome State Fault Refusal :=
  act (memLanePending stack channel.toNat lane.toNat) s

/-- Suspicion count of a name 9c + j. -/
def susp (d : Dev) (n : Nat) : Nat := rdf d .relSusp [n / 9] (3 * (n % 9) + 2) (3 * (n % 9))

/-- Store a suspicion count. -/
def setSusp (d : Dev) (n v : Nat) : Dev := wrf d .relSusp [n / 9] (3 * (n % 9) + 2) (3 * (n % 9)) v

/-- A name is lost: contexts that place it abort with reason CORE (R141). -/
def coreLost (d : Dev) (c j phys cause : Nat) : Dev :=
  let n := rdf d .idConfig [] 23 16
  let d := raise (wrf d .idConfig [] 23 16 (n - 1)) (srcRel (c / 2) (9 * c + j)) 3
    [(1, 8 * c + j), (1, phys), (1, cause)]
  abortWhere d (fun x => x.cores.contains (8 * c + j)) 0x0C

/-- The spare of a cluster takes name j. -/
def spareTakes (d : Dev) (c j cause : Nat) : Dev :=
  let d := wrf (wr d .idSpare [] (setBit (rd d .idSpare) c)) .relSpareMap [] (4 * c + 3) (4 * c) j
  let d := setSusp (setCoreState d c 8 1) (9 * c + j) 0
  saveRepair (raise d (srcRel (c / 2) (9 * c + j)) 2 [(1, 8 * c + j), (1, j), (1, cause)])

/-- The spare of a cluster is on its way to take a name (spec/16 R419). -/
def spareTested (d : Dev) (c : Nat) : Bool := d.rel.sparing.any (fun x => x.1 == c)

/-- The spare of a cluster is OFF and unused. -/
def spareFree (d : Dev) (c : Nat) : Bool :=
  spareHolds d c == 15 && coreStateAt d c 8 == 0 && !spareTested d c

/-! ### Power domains (spec/15 R391–R395) -/

/-- A domain leaves ON: its block stays readable as it is (spec/01 R20). -/
def fallAsleep (d : Dev) (n : Nat) : Dev :=
  let inDom (off : Nat) : Bool := sleepDom off == some n
  { d with pwr := { d.pwr with
      slept := tset d.pwr.slept n ⟨d.regs.filter (fun e => inDom e.1), d.cnt.filter (fun e => inDom e.1)⟩ } }

/-- Store the state of a domain. -/
def setPd (d : Dev) (n s : Nat) : Dev :=
  let d := if s = 0 then { d with pwr := { d.pwr with slept := tdel d.pwr.slept n } }
    else if pdOn d n then fallAsleep d n else d
  wrf d .pwrDomState [n / 16] (2 * (n % 16) + 1) (2 * (n % 16)) s

/-- Class of a domain; 8: it cannot sleep. -/
def pdClass (n : Nat) : Nat :=
  if n < 72 then 0 else if n < 80 then 1 else if n < 96 then 2 else if n < 108 then 3 else if n < 112 then 4
  else if n < 116 then 5 else if n < 120 then 6 else if n = 120 then 7 else 8

/-- The die that a domain is part of; FD0 for the PCIe PHY (Table 15-3). -/
def pdDie (n : Nat) : Nat :=
  match pdClass n with
  | 0 => n / 18
  | 1 => (n - 72) / 2
  | 2 => (n - 80) / 4
  | 3 => (n - 96) / 3
  | 4 => n - 108
  | 5 => n - 112
  | 6 => n - 116
  | _ => 0

/-- Maximum wake time in ns of a state of a class (Table 15-5); none: the class does not use it. -/
def wakeNs (cls s : Nat) : Option Nat :=
  match cls, s with
  | 0, 1 => some 10 | 0, 2 => some 1000 | 0, 3 => some 20000
  | 1, 1 => some 10 | 1, 3 => some 20000
  | 2, 1 => some 530 | 2, 2 => some 100000 | 2, 3 => some 2000000
  | 3, 1 => some 30 | 3, 2 => some 2000 | 3, 3 => some 200000000
  | 4, 1 => some 5 | 4, 3 => some 5000
  | 5, 1 => some 5 | 5, 3 => some 1000
  | 6, 1 => some 100 | 6, 3 => some 50000
  | 7, 1 => some 8000 | 7, 3 => some 100000
  | _, _ => none

/-- A name holds a Bobbin or a resident group. -/
def nameHolds (d : Dev) (q : Nat) : Bool :=
  d.coll.ctxs.any (fun e => (e.2.cores.zip e.2.bob).any (fun x => x.1 == q && !x.2.isEmpty))
    || d.opt.launches.any (fun l => l.groups.any (fun g => g.core == q))

/-- A name has work: an operand in its receive staging, or a finished chunk whose result has not left. -/
def nameWork (d : Dev) (q : Nat) : Bool :=
  !(tgetD d.coll.stg (coreNo q) []).isEmpty
    || d.coll.ctxs.any (fun e => live e.2 && e.2.chunks.any (fun k => k.done && coreOf e.2 k.idx == q))

/-- A group of a name can issue (R391). -/
def nameIssues (d : Dev) (q : Nat) : Bool :=
  d.opt.launches.any (fun x => x.groups.any (fun y => y.core == q && ready d x y))

/-- A domain has no work: what its class waits for (Table 15-3). -/
def pdIdle (d : Dev) (n : Nat) : Bool :=
  match pdClass n with
  | 0 => match nameOf d (n / 9) (n % 9) with
    | some j => !nameWork d (8 * (n / 9) + j) && !nameIssues d (8 * (n / 9) + j)
    | none => true
  | 3 => !(allReqs d).any (fun x => memStack d x.r.addr == n - 96)
  | 4 => !d.sw.flights.any (fun f => f.plane == 1 && dieOfN f.tile == n - 108)
      && !d.sw.meshUse.any (fun u => u.plane == 1 && decide (d.now < u.at_ + 2) && (u.die == n - 108 || dieOfN u.b == n - 108))
  | 5 => (List.range 16).all (fun t => (tgetD d.coll.pre (16 * (n - 112) + t) []).isEmpty)
  | 6 => d.opt.ckpts.isEmpty && d.opt.restores.isEmpty && d.bolt.exports.isEmpty && d.bolt.deletes.isEmpty
  | _ => true

/-- The domains that had work in a TIME cycle wait anew (R391; log entry 65). -/
def idleStep (d : Dev) : Dev :=
  let keep (t : Tab Nat) (n : Nat) : Tab Nat :=
    if !pdIdle d n then tdel t n else if (tget? t n).isSome then t else tset t n d.now
  { d with pwr := { d.pwr with idle := ((List.range 72 ++ (List.range 24).map (96 + ·)).foldl keep d.pwr.idle) } }

/-- A domain has had no work for a number of TIME cycles. -/
def idleFor (d : Dev) (n k : Nat) : Bool :=
  pdIdle d n && (match tget? d.pwr.idle n with
    | some t => decide (k ≤ d.now - t)
    | none => k == 0)

/-- PWR_CTL.IDLE_US in TIME cycles; 0 is read as 1. -/
def idleUs (d : Dev) : Nat := 1200 * natMax 1 (rdf d .pwrCtl [] 7 0)

/-- Every plane-0 link of a die carries less than MESH_LO %, above 50 read as 50, of the flits that it could in the last
10 µs (R391): two in each of 12,000 TIME cycles. -/
def plane0Low (d : Dev) (die : Nat) : Bool :=
  let us := d.sw.meshUse.filter (fun u => u.plane == 0 && u.die == die && decide (d.now < u.at_ + 12000))
  us.all (fun u =>
    decide (100 * us.foldl (fun n v => if v.a = u.a ∧ v.b = u.b then n + v.flits else n) 0
      < natMin 50 (rdf d .pwrCtl [] 15 8) * 24000))
    && decide (0 < rdf d .pwrCtl [] 15 8)

/-- A spare that holds no name and is not to take one, or a FAILED core: OFF whatever the registers say (R394). -/
def coreDown (d : Dev) (c i : Nat) : Bool :=
  coreStateAt d c i == 3 || (i == 8 && coreStateAt d c 8 == 0 && !spareTested d c)

/-- The conditions of Table 15-3 for the states below ON. -/
def pdMay (d : Dev) (n s : Nat) : Bool :=
  match pdClass n, s with
  | 0, s => match nameOf d (n / 9) (n % 9) with
    | some j => coreStateAt d (n / 9) (n % 9) != 2 && idleFor d n (if s = 2 then idleUs d else 0)
        && (s != 3 || !nameHolds d (8 * (n / 9) + j))
    | none => !spareTested d (n / 9)
  | 1, 1 => (List.range 9).all (fun i => 0 < pdState d (9 * (n - 72) + i))
      && (List.range 8).all (fun j => (tgetD d.coll.stg (9 * (n - 72) + j) []).isEmpty)
  | 1, 3 => (List.range 9).all (fun i => pdState d (9 * (n - 72) + i) == 3)
  | 2, 1 => (List.range 32).all (fun k =>
      let l := 32 * (n - 80) + k
      laneState d l == 0 || (laneState d l == 5 && rdb d .lnQuiet (lix l) 31 && rdb d .lnQuiet (lix l) 30))
  | 2, 2 | 2, 3 => (List.range 32).all (fun k => portState d (portOf d (32 * (n - 80) + k)) == 0)
  | 3, 1 => idleFor d n 120
  | 3, 2 => idleFor d n (idleUs d)
  | 3, 3 => pdIdle d n && rd d .collMemSize == 0 && rd d .optMemSize == 0 && !rdb d .memCtl [] 0
  | 4, 1 => idleFor d n 32
  | 4, 3 => plane0Low d (n - 108)
  | 5, 1 => pdIdle d n
  | 5, 3 => idleFor d n (idleUs d)
  | 6, 1 => idleFor d n 1200
  | 6, 3 => idleFor d n (idleUs d)
  | 7, 1 => (d.pwr.aspm.want != 0 && d.pwr.aspm.l1)
  | 7, 3 => d.pwr.aspm.want == 3 && d.pwr.aspm.l12
  | _, _ => false

/-- May a domain be in a state (R394)?  CLUSTER has no tolerance of its own (R391). -/
def pdAllowed (d : Dev) (n s : Nat) : Bool :=
  let c := pdClass n
  decide (s ≤ rdf d .pwrDepth [] (2 * c + 1) (2 * c)) && pdMay d n s
    && (match wakeNs c s with
        | some w => c == 1 || decide (w ≤ 10 * rdf d .pwrTol [c] 23 0)
        | none => s == 0)

/-- What a domain loses when it goes OFF, and the heaters of an engine in RETAIN on feed-forward alone (spec/15 Table
15-3). -/
def loseState (d : Dev) (n s : Nat) : Dev :=
  if s = 2 ∧ pdClass n = 2 then
    (List.range 288).foldl (fun d r =>
      let tx := decide (r < 144)
      if ringState d (n - 80) tx (r % 144 / 9) (r % 9) = 2 then holdRing d (n - 80) tx (r % 144 / 9) (r % 9) else d) d
  else if s ≠ 3 then d
  else match pdClass n with
  | 0 =>
    match nameOf d (n / 9) (n % 9) with
    | some j =>
      let q := 8 * (n / 9) + j
      { d with opt := { d.opt with spad := d.opt.spad.filter (fun e => e.1 / 2 ^ 22 != q),
                                   accs := d.opt.accs.filter (fun e => e.1 / 4096 != q) } }
    | none => d
  | 2 =>
    let m := n - 80
    (List.range 288).foldl (fun d r =>
      let tx := decide (r < 144)
      setRingState d m tx (r % 144 / 9) (r % 9) 0) d
  | 3 =>
    let s := n - 96
    { d with mem := { d.mem with bytes := d.mem.bytes.filter (fun e => memStack d e.1 != s),
                                 poison := d.mem.poison.filter (fun k => memStack d (64 * k) != s) } }
  | _ => d

/-- A wake to ON begins (R392). -/
def wakeStart (d : Dev) (n : Nat) : Dev :=
  if pdState d n = 0 ∨ d.pwr.waking.contains n ∨ (n < 72 ∧ coreDown d (n / 9) (n % 9)) then d
  else { d with pwr := { d.pwr with waking := d.pwr.waking ++ [n] } }

/-- The state that a domain is to take: the deepest allowed (R394). -/
def pdTarget (d : Dev) (n : Nat) : Nat := ([3, 2, 1].find? (pdAllowed d n)).getD 0

/-- What the host has enabled of the PCIe link and what the link asks for, at an evaluation of its PHY (R393). -/
def noteLink (n : Nat) (k : PcieLow) (d : Dev) : Dev :=
  if n = 120 then { d with pwr := { d.pwr with aspm := k } } else d

/-- State of the PCIe link (R393): GATED is L1, or L1.1 where the link asks for it and it is enabled; OFF is L1.2. -/
def pcieLink (d : Dev) : Fin 4 :=
  match pdState d 120 with
  | 0 => 0
  | 3 => 3
  | _ => if 2 ≤ d.pwr.aspm.want ∧ d.pwr.aspm.l11 then 2 else 1

/-- A domain takes its target; one that must be ON begins to wake (R394, R395; log entry 65).  While Tailor restarts power
states hold (spec/14 R371). -/
def pdSettle (n : Nat) (d : Dev) : Dev :=
  if 121 ≤ n ∨ d.pwr.waking.contains n ∨ tlrHolds d then d
  else if n < 72 ∧ coreDown d (n / 9) (n % 9) then setPd d n 3
  else
    let s := pdTarget d n
    if s = pdState d n then d
    else if s = 0 then wakeStart d n
    else
      loseState (setPd d n s) n s

/-- PWR_EVAL (R394). -/
def pwrEval (n : Nat) (k : PcieLow) (d : Dev) : Dev := pdSettle n (noteLink n k d)

/-- PWR_EVAL. -/
def execPwrEval (dom : Fin 128) (link : PcieLow) (s : State) : Host.Outcome State Fault Refusal :=
  act (pwrEval dom link) s

/-- DOMAIN_WAKE. -/
def execDomainWake (dom : Fin 128) (s : State) : Host.Outcome State Fault Refusal := act (fun d => wakeStart d dom) s

/-- Throttle fraction of a die's level, in quarters (Table 15-4). -/
def ladder (l : Nat) : Nat := if l = 0 then 4 else if l = 1 then 3 else if l = 2 then 2 else 1

/-- Stacks adjacent to a cluster (spec/01 R16). -/
def stacksOf (c : Nat) : List Nat := if c % 2 = 0 then [3 * (c / 2), 3 * (c / 2) + 1] else [3 * (c / 2) + 2, 3 * (c / 2) + 1]

/-- Permitted issue fraction of a cluster, in quarters: the lesser of the die's ladder and the co-throttle of
its stacks (R396, spec/09 R263). -/
def targetFrac (d : Dev) (c : Nat) : Nat :=
  let l := (stacksOf c).foldl (fun a s => natMax a (rdf d .memStkState [s] 9 8)) 0
  natMin (ladder (rdf d .thmDie [c / 2] 2 0)) (4 - l)

/-- A fraction that must fall falls at once; one that may rise waits for its ramp (R397). -/
def settleFrac (d : Dev) : Dev :=
  let f := (List.range 8).map (fun c => natMin (d.pwr.frac.getD c 4) (targetFrac d c))
  { d with pwr := { d.pwr with frac := f } }

/-- ISSUE_RAMP_STEP: a cluster's fraction rises by one quarter (R397). -/
def issueRampStep (c : Nat) (d : Dev) : Dev :=
  let f := d.pwr.frac.getD c 4
  if f < targetFrac d c then { d with pwr := { d.pwr with frac := lset d.pwr.frac c (f + 1) } } else d

/-- ISSUE_RAMP_STEP. -/
def execIssueRampStep (cluster : Fin 8) (s : State) : Host.Outcome State Fault Refusal := act (issueRampStep cluster) s

/-! ### Thermal (spec/15 R396–R398, spec/09 R262–R264) -/

/-- A thermal trip (R398): KILL, shutters and THERMTRIP_N act, the clocks stop; `cause` 1 a die, 2 a stack. -/
def thermalTrip (d : Dev) (cause unit : Nat) : Dev :=
  let d := wr d .thmTrip [] (64 * cause + unit)
  let d := holdRings d (fun _ _ => true)
  let d := (List.range 256).foldl (fun d k => setThim d (k / 16) (k % 16) 0) d
  { d with pwr := { d.pwr with tripped := true, trip_n := true } }

/-- A sample at or above its trip temperature: the second in a row trips (R398). -/
def tripCheck (d : Dev) (key cause unit : Nat) (hot : Bool) : Dev :=
  let was := d.pwr.tripArm.contains key
  let d := { d with pwr := { d.pwr with tripArm := d.pwr.tripArm.filter (· != key) ++ (if hot then [key] else []) } }
  if hot && was then thermalTrip d cause unit else d

/-- Entry temperature of a level: THR_BASE clamped to 85–100, +3, +6, and 108 °C. -/
def thmEntry (d : Dev) (l : Nat) : Int :=
  let b : Int := (natMin 100 (natMax 85 (rdf d .thmCtl [] 15 8)) : Nat)
  if l = 1 then b else if l = 2 then b + 3 else if l = 3 then b + 6 else 108

/-- The natural level after a sample: up to the highest level reached, or down by one. -/
def thmNext (d : Dev) (l : Nat) (t : Int) : Nat :=
  match [4, 3, 2, 1].find? (fun k => decide (l < k) && decide (thmEntry d k ≤ t)) with
  | some k => k
  | none => if 0 < l ∧ t ≤ thmEntry d l - 3 then l - 1 else l

/-- ILIM_Nd forces the die: it is low, or rose less than 100 µs ago. -/
def ilimOn (d : Dev) (die : Nat) : Bool := d.pwr.ilimLow.contains die || d.pwr.ilimHold.contains die

/-- The throttle level of a die follows its temperature and ILIM_Nd; a rise from T0 is reported. -/
def applyThrottle (d : Dev) (die : Nat) : Dev :=
  let old := rdf d .thmDie [die] 2 0
  let nat := d.pwr.thmNat.getD die 0
  let new := if ilimOn d die then natMax 3 nat else nat
  let d := wrf (wrf d .thmDie [die] 2 0 new) .thmDie [die] 3 3 (b2n (ilimOn d die))
  let d := if old = 0 ∧ 0 < new then raise d (srcSys die 0) 2 [(1, die), (1, new)] else d
  settleFrac d

/-- Samples with the injections of detector 0x19 added to the sensors that they name. -/
def thmInject (d : Dev) (die : Nat) : Nat → List (BitVec 8) → List Int × Dev
  | _, [] => ([], d)
  | i, t :: r =>
    let (m, d) := takeMark d 0x19 die i
    let x := sx 8 t.toNat + (m.getD 0 : Nat)
    let (l, d) := thmInject d die (i + 1) r
    (x :: l, d)

/-- The greatest of a list of integers, from a start. -/
def intMax (a : Int) (l : List Int) : Int := l.foldl (fun a b => if a ≤ b then b else a) a

/-- THM_SAMPLE: the samples of a die's sensors, 16 of tiles and 4 of clusters (R396, R398, R460). -/
def thmSample (die : Nat) (temps : List (BitVec 8)) (d : Dev) : Dev :=
  let (l, d) := thmInject d die 0 (temps.take 20)
  let high := intMin 127 (intMax (-128) l)
  let temp := intMin 127 (high + (natMin 15 (rdf d .thmCtl [] 7 0) : Nat))
  let d := wrf (wrf d .thmDie [die] 23 16 (ofInt 8 temp)) .thmDie [die] 15 8 (ofInt 8 high)
  let nat := thmNext d (d.pwr.thmNat.getD die 0) temp
  let d := applyThrottle { d with pwr := { d.pwr with thmNat := lset d.pwr.thmNat die nat } } die
  tripCheck d die 1 die (decide (115 ≤ temp))

/-- THM_SAMPLE. -/
def execThmSample (die : Fin 4) (temps : List (BitVec 8)) (s : State) : Host.Outcome State Fault Refusal :=
  actPins (thmSample die temps) s

/-- ILIM_ASSERT (R396). -/
def ilimAssert (die : Nat) (d : Dev) : Dev :=
  if d.pwr.ilimLow.contains die then d
  else
    let d := { d with pwr := { d.pwr with ilimLow := d.pwr.ilimLow ++ [die], ilimHold := d.pwr.ilimHold.filter (· != die) } }
    applyThrottle (raise d (srcSys die 0) 3) die

/-- ILIM_ASSERT. -/
def execIlimAssert (die : Fin 4) (s : State) : Host.Outcome State Fault Refusal := actPins (ilimAssert die) s

/-- ILIM_RELEASE: the 100 µs hold begins (R396). -/
def ilimRelease (die : Nat) (d : Dev) : Dev :=
  if d.pwr.ilimLow.contains die then
    { d with pwr := { d.pwr with ilimLow := d.pwr.ilimLow.filter (· != die), ilimHold := d.pwr.ilimHold ++ [die] } }
  else d

/-- ILIM_RELEASE. -/
def execIlimRelease (die : Fin 4) (s : State) : Host.Outcome State Fault Refusal := actPins (ilimRelease die) s

/-- ILIM_HOLD_END (R396). -/
def ilimHoldEnd (die : Nat) (d : Dev) : Dev :=
  if d.pwr.ilimHold.contains die then
    applyThrottle { d with pwr := { d.pwr with ilimHold := d.pwr.ilimHold.filter (· != die) } } die
  else d

/-- ILIM_HOLD_END. -/
def execIlimHoldEnd (die : Fin 4) (s : State) : Host.Outcome State Fault Refusal := actPins (ilimHoldEnd die) s

/-- MEM_THERM.THROT, clamped to 70–92 °C (spec/09 R264). -/
def memThrot (d : Dev) : Int := (natMin 92 (natMax 70 (rdf d .memTherm [] 7 0)) : Nat)

/-- Threshold at which a stack entered a level. -/
def memEntered (d : Dev) (s l : Nat) : Int :=
  match tget? d.mem.entered (4 * s + l) with
  | some v => (v : Int)
  | none => memThrot d + 2 * ((l - 1 : Nat) : Int)

/-- The co-throttle level of a stack after a sample (spec/09 R263, R264), with the threshold of a level
entered. -/
def memLevel (d : Dev) (s l : Nat) (t : Int) : Nat × Option Nat :=
  if 96 < t then (3, if l < 3 then some 96 else none)
  else if l < 3 ∧ memThrot d + 2 * (l : Int) < t then (l + 1, some (memThrot d + 2 * (l : Int)).toNat)
  else if 0 < l ∧ t ≤ memEntered d s l - 3 then (l - 1, none)
  else (l, none)

/-- MEM_TEMP_SAMPLE: the refresh interval, the co-throttle level and the trip of a stack (spec/09 R262–R264). -/
def memTempSample (s : Nat) (temp : BitVec 8) (d : Dev) : Dev :=
  let (m, d) := takeMark d 0x1A (s / 3) s
  let t := intMin 127 (sx 8 temp.toNat + (m.getD 0 : Nat))
  let old := rdf d .memStkState [s] 9 8
  let (l, e) := memLevel d s old t
  let x2 := if 85 < t then 1 else if t ≤ 82 then 0 else rdf d .memStkState [s] 4 4
  let d := wrf (wrf (wrf d .memStkState [s] 23 16 (ofInt 8 t)) .memStkState [s] 9 8 l) .memStkState [s] 4 4 x2
  let d := match e with
    | some v => { d with mem := { d.mem with entered := tset d.mem.entered (4 * s + l) v } }
    | none => d
  let d := if old = 0 ∧ 0 < l then event (stSet d (srcMem s) 3) 0x0C03 (s / 3) s [(1, s), (1, l)] else d
  tripCheck (settleFrac d) (16 + s) 2 s (decide (100 ≤ t))

/-- MEM_TEMP_SAMPLE. -/
def execMemTempSample (stack : Fin 12) (temp : BitVec 8) (s : State) : Host.Outcome State Fault Refusal :=
  act (memTempSample stack temp) s

/-! ### Start-up (spec/15 R399, Table 15-6) -/

/-- Step 2: what the fuses hold (spec/01 R26, R27, spec/14 R373). -/
def fuseLoad (d : Dev) : Dev :=
  let sn := Config.fuseSerial.toNat
  let d := wrf d .idRev [] 15 0 Config.fuseStepping.toNat
  let d := wr (wr d .idSerialLo [] sn) .idSerialHi [] (sn / 2 ^ 32)
  wr d .tlrSvn [] (natMax Config.fuseSvnMin.toNat ((d.host.fuseSvn.map (·.toNat)).getD 0))

/-- A record whose copies both fail their CRC is absent (spec/10 R283). -/
def dropRecord (d : Dev) (r : BoltRec) : Dev :=
  let d := setBolt d (fun b => match r with
    | .laneCache l => { b with lane := tdel b.lane l }
    | .memTrain => { b with memTrain := [] }
    | .seamMap => { b with seamMap := [] }
    | .laserAging => { b with aging := [] }
    | .repair => { b with repair := none }
    | .boots => b)
  raise d (srcBolt 0) 4 [(1, (Config.boltRecCode (natMin 16 (recNo r) % 16)).toNat)]

/-- An image that was being written is removed at mount (spec/10 R281). -/
def dropImage (d : Dev) (i : BoltImg) : Dev :=
  let d := setBolt d (fun b => { b with imgs := b.imgs.filter (fun x => !(x.part == i.part && x.gen == i.gen)) })
  raise (journalled (freeBands d i.bands)) (srcBolt 0) 5 [(2, i.part.toNat), (4, i.gen.toNat)]

/-- LAST and SEQ after a cold reset, from BOOTS (spec/14 R366). -/
def setLast (d : Dev) (boots : Nat) : Dev :=
  { d with host := { d.host with last := boots * 2 ^ 32, seq := natMax d.host.seq (boots * 2 ^ 32) } }

/-- What POR_RELEASE finds of the store's copies: journal records and system-area records whose CRC fails (spec/10 R280,
R283). -/
def findCopies (d : Dev) (i : StartupIn) : Dev :=
  setBolt d (fun b => { b with
    journal := b.journal.zipIdx.map (fun x => match i.journalBad[x.2]? with
      | some y => { x.1 with bad1 := x.1.bad1 || y.1, bad2 := x.1.bad2 || y.2 }
      | none => x.1)
    recBad := (b.recBad ++ i.badRecs).eraseDups })

/-- The device with the catalogue and band map of the newest journal record that has a good copy; none without one (spec/10
R280). Bands that no image of it holds are free, and wait to be erased. -/
def goodRecord (d : Dev) : Option Dev :=
  match d.bolt.journal with
  | [] => some d
  | top :: _ =>
    match d.bolt.journal.dropWhile (fun r => r.bad1 && r.bad2) with
    | [] => none
    | r :: rest =>
      if r.seq = top.seq then some d
      else
        let used := r.imgs.flatMap (·.bands)
        some (setBolt d (fun b => { b with
          imgs := r.imgs, map := r.map, journal := r :: rest,
          dirty := ((b.dirty ++ b.imgs.flatMap (·.bands)).eraseDups).filter (fun x => !used.contains x) }))

/-- Steps 3 and 4: the store mounts, or is left FAILED; a cold start adds one to BOOTS (spec/10 R281–R283, spec/14 R366;
BOOTS: log entry 63). -/
def mount (d : Dev) (i : StartupIn) (warm : Bool) : Dev :=
  let d := if warm then d else findCopies d i
  match (if i.mountOk then goodRecord d else none) with
  | some d =>
    let d := wr d .boltState [] 2
    let d := (d.bolt.imgs.filter (fun x => x.st == 1)).foldl dropImage d
    let d := d.bolt.recBad.foldl dropRecord (setBolt d (fun b => { b with bins := [0, 0, 0, 0] }))
    let d := checkSpares d 0
    if warm then d
    else if d.bolt.recBad.contains .boots then setLast d 0xFFFFFFFF
    else
      let n := natMin 0xFFFFFFFF (d.bolt.boots + 1)
      setLast (setBolt (if n = d.bolt.boots then d else bumpRecord .boots d) (fun b => { b with boots := n })) n
  | none =>
    let d := raise (wr d .boltState [] 5) (srcBolt 0) 7
    if warm then d else setLast d 0xFFFFFFFF

/-- Wires of a link that training maps: those of the stored map, then those that it finds failing (spec/03 R84). -/
def trainedMap (d : Dev) (i : StartupIn) (die link : Nat) : List Nat :=
  let old := if boltUp d then tgetD d.bolt.seamMap (die * 16 + link) [] else []
  (old ++ (i.seamWires.filter (fun w => w.1 == die && w.2.1 == link)).map (·.2.2)).eraseDups

/-- A link with more than eight failing wires, or a failing clock wire, cannot be mapped. -/
def mapBad (m : List Nat) : Bool := decide (8 < m.length) || m.any (fun w => decide (536 ≤ w))

/-- The link that fails at start-up: the one that is found failed, or the first that cannot be mapped. -/
def seamLost (d : Dev) (i : StartupIn) : Option (Nat × Nat) :=
  match i.seamFail with
  | some x => some (x.1 % 4, x.2 % 16)
  | none => ((List.range 64).find? (fun k => mapBad (trainedMap d i (k / 16) (k % 16)))).map (fun k => (k / 16, k % 16))

/-- The maps that training finds are kept in the store, as a new version of their record where they differ. -/
def saveMaps (d : Dev) : Dev :=
  let m := d.seams.filterMap (fun e => if e.2.mapped = [] then none else some (e.1, e.2.mapped))
  if boltUp d && m != d.bolt.seamMap then setBolt (bumpRecord .seamMap d) (fun b => { b with seamMap := m }) else d

/-- Step 5: the Seam links are trained, and the maps kept in the store. -/
def seamsUp (d : Dev) (i : StartupIn) : Dev :=
  saveMaps <| (List.range 64).foldl (fun d k =>
    let m := trainedMap d i (k / 16) (k % 16)
    let d := setSeam d (k / 16) (k % 16) { seamSt d (k / 16) (k % 16) with mapped := m, tempMap := [] }
    wr d .seamState [k / 16, k % 16] (2 * 16 + natMin 8 m.length)) d

/-- Step 5: spares are placed from the repair record. -/
def placeSpares (d : Dev) : Dev :=
  match d.bolt.repair, boltUp d with
  | some r, true =>
    let d := wr (wr d .idSpare [] r.spare) .relSpareMap [] r.map
    let d := { d with mem := { d.mem with lanePend := r.lanes } }
    (List.range 8).foldl (fun d c =>
      if spareHolds d c < 8 then
        let d := setCoreState d c (spareHolds d c) 3
        if coreStateAt d c 8 = 3 then d else setCoreState d c 8 1
      else d) d
  | _, _ => d

/-- Step 5: a core fails its self-test, or has stayed FAILED over a WARM reset (spec/06 R140); its name goes to the
spare, or is lost, which is reported once. -/
def selfTestFail (d : Dev) (n : Nat) : Dev :=
  let c := n / 9
  let i := n % 9
  let name := nameOf d c i
  let free := spareFree d c
  let known := coreStateAt d c i == 3
  let d := setCoreState d c i 3
  match name with
  | none => d
  | some j => if i < 8 ∧ free then spareTakes d c j 0 else if known then d else coreLost d c j i 0

/-- Names whose core is FAILED: they are lost (spec/06 R141). -/
def lostNames (d : Dev) : List Nat :=
  (List.range 64).filter (fun q => coreStateAt d (q / 8) (physOf d (q / 8) (q % 8)) == 3)

/-- Step 5: the cores that the self-test finds failing and those that are FAILED already; ID_CONFIG.CORES counts the names
that remain. -/
def coresTested (d : Dev) (i : StartupIn) : Dev :=
  let old := (List.range 72).filter (fun n => coreStateAt d (n / 9) (n % 9) == 3)
  let d := (old ++ i.coreFail.filter (fun n => decide (n < 72) && !old.contains n)).foldl selfTestFail d
  wrf d .idConfig [] 23 16 (64 - (lostNames d).length)

/-- Spares that hold no name and FAILED cores are OFF (R394). -/
def coresOff (d : Dev) : Dev :=
  (List.range 72).foldl (fun d n => if coreDown d (n / 9) (n % 9) then setPd d n 3 else d) d

/-- Failing lanes of a channel: those recorded for repair and those that fail their eye margin (spec/09 R260, R261). -/
def lanesBad (d : Dev) (i : StartupIn) (s ch : Nat) : Nat :=
  let now := (i.laneFail.filter (fun x => x.1 == s && x.2.1 == ch)).map (fun x => s * 8192 + ch * 128 + x.2.2)
  (d.mem.lanePend.filter (fun k => k / 128 == 64 * s + ch) ++ now).eraseDups.length

/-- Training settings of a stack: those of the store's training cache, or new ones where it has none or they fail; what a
training from defaults finds is open (spec/09 R260, log entry 111). -/
def trainSettings (d : Dev) (i : StartupIn) (s : Nat) : Dev :=
  match (if boltUp d && !i.cacheFail.getLsbD s then tget? d.bolt.memTrain s else none) with
  | some v => { d with mem := { d.mem with settings := tset d.mem.settings s v } }
  | none => { d with draw := d.draw + 1, mem := { d.mem with settings := tset d.mem.settings s (Config.freeWord d.draw).toNat } }

/-- Step 6: a stack trains, with its failing lanes mapped out, or fails (spec/09 R260, R261). -/
def trainStack (i : StartupIn) (d : Dev) (s : Nat) : Dev :=
  if i.stackFail.getLsbD s || (List.range 32).any (fun ch => 2 < lanesBad d i s ch) then
    let d := wrf d .memStkState [s] 1 0 3
    wr d .memTrain [] (setBit (rd d .memTrain) (16 + s))
  else
    let half (k : Nat) : Nat := (List.range 16).foldl (fun a c => a + lanesBad d i s (16 * k + c) * 4 ^ c) 0
    let d := trainSettings (wrf d .memStkState [s] 1 0 2) i s
    let d := wr (wr d .memStkSpareLo [s] (half 0)) .memStkSpareHi [s] (half 1)
    wr (wr d .memStkPend [s] 0) .memTrain [] (setBit (rd d .memTrain) s)

/-- Step 6: a laser source is discovered; a recorded bias of the same serial is resumed by a bias write, never above CAP, and
the thresholds are checked (spec/12 R322, R323). -/
def discover (i : StartupIn) (d : Dev) (m : Nat) : Dev :=
  match i.elsSerial.getD m none with
  | none => wrf d .elsState [m] 1 0 0
  | some sn =>
    let h := if boltUp d then tgetD d.bolt.aging m [] else []
    let d := wrf (wr (wr d .elsSerialLo [m] sn.toNat) .elsSerialHi [m] (sn.toNat / 2 ^ 32)) .elsState [m] 1 0 2
    let d := (List.range 9).foldl (fun d k =>
      let cap := ((i.elsCap.getD m []).getD k 0).toNat
      let own := ((i.elsBias.getD m []).getD k 0).toNat
      let d := wr d .elsBias [m, k] (cap * 65536 + natMin cap own)
      if h.head? = some sn.toNat then biasWrite { d with draw := d.draw + 1 } m k (h.getD (1 + 2 * k) 0) (Config.freeBool d.draw)
      else ageCheck d m k) d
    (List.range 8).foldl (fun d o =>
      if rdb d .elsCtl [m] o then setFeed d (2 * m + o / 4) (o % 4) ⟨true, false, false⟩ else d) d

/-- Store the start-up step. -/
def setStep (d : Dev) (n : Nat) : Dev := { d with pwr := { d.pwr with step := n } }

/-- Steps 2 to 6 of the sequence; a die whose ILIM_Nd is low, or rose less than 100 µs ago, starts at T3 (R396). -/
def startSteps (d : Dev) (i : StartupIn) (warm : Bool) : Dev :=
  let d := (d.pwr.ilimLow ++ d.pwr.ilimHold).foldl applyThrottle d
  let d := wrf (fuseLoad d) .idStatus [] 3 0 i.dieFail.toNat
  if i.dieFail.getLsbD 0 then setStep d 2
  else if i.dieFail ≠ 0 then setStep d 3
  else
    let d := setStep (mount d i warm) 4
    match seamLost d i with
    | some (die, link) => seamFail (seamsUp d i) die link
    | none =>
      let d := coresTested (placeSpares (seamsUp d i)) i
      let d := setStep (coresOff d) 5
      let d := (List.range 8).foldl (discover i) ((List.range 12).foldl (trainStack i) d)
      if rdf d .memTrain [] 27 16 = 0 then setStep d 6 else d

/-- Step 1: the root PLL locks on the primary reference, or on the backup; without either it waits (R390). -/
def startup (d : Dev) (i : StartupIn) : Dev :=
  let d := wrf (wrf d .clkRefStatus [] 1 1 (b2n i.priOk)) .clkRefStatus [] 2 2 (b2n i.bakOk)
  if i.priOk then startSteps (lockTo d 0) i false
  else if i.bakOk then startSteps (lockTo d 1) i false
  else setStep d 1

/-- POR_RELEASE: POR_N rises (R399). -/
def porRelease (i : StartupIn) (d : Dev) : Dev :=
  if d.pwr.porHigh then d
  else
    startup { d with
      host := { d.host with i3cStrap := i.i3cAddr }
      pwr := { d.pwr with porHigh := true, perstHigh := i.perstHigh, found := some i } } i

/-- POR_RELEASE. -/
def execPorRelease (i : StartupIn) (s : State) : Host.Outcome State Fault Refusal := actPins (porRelease i) s

/-- REF_GOOD: an input becomes good; a device that waits for its first lock goes on (R387, R390). -/
def refGood (k : Nat) (d : Dev) : Dev :=
  let d := wrf d .clkRefStatus [] (1 + k) (1 + k) 1
  match d.pwr.found with
  | some i => if d.pwr.porHigh ∧ d.pwr.step = 1 ∧ ¬ rdb d .clkRefStatus [] 4 then startSteps (lockTo d k) i false else d
  | none => d

/-- REF_GOOD. -/
def execRefGood (input : Fin 2) (s : State) : Host.Outcome State Fault Refusal := actPins (refGood input) s

/-- STARTUP_COMPLETE: steps 7 and 8, once the image runs and the steps before are done (R399, spec/04 R114). -/
def startupComplete (d : Dev) : Dev :=
  if d.pwr.step = 6 ∧ d.host.tlr = .running ∧ ¬ d.host.fault then
    let d := wrf (wr (setStep d 8) .tlrState [] 0xF) .idStatus [] 4 4 1
    let d := (List.range 4).foldl (fun d k => wrf d .meshBcastCtl [k] 1 0 0) d
    event d 0x1480 0 0 [(1, rd d .idSpare)]
  else d

/-- STARTUP_COMPLETE. -/
def execStartupComplete (s : State) : Host.Outcome State Fault Refusal := act startupComplete s

/-! ### Resets (spec/15 R382–R386) -/

/-- What outlives every reset: the fuses, the Bolt store's contents, THM_TRIP while VDD_AON is up (R398), and the model's own
records; the pins stay as they are. -/
def coldDev (d : Dev) : Dev :=
  { wr Dev.reset .thmTrip [] (rd d .thmTrip) with
    dmaOut := d.dmaOut, now := d.now, draw := d.draw, fwd := { FwdState.reset with sweepAt := d.now }
    bolt := { d.bolt with exports := [], deletes := [] }
    host := { HostState.reset with fuseSvn := d.host.fuseSvn, mgmtSent := d.host.mgmtSent }
    pwr := { PwrState.reset with perstHigh := d.pwr.perstHigh, ilimLow := d.pwr.ilimLow } }

/-- POR_ASSERT: POR_N low, a cold reset (R383). -/
def execPorAssert (s : State) : Host.Outcome State Fault Refusal := actAlways coldDev s

/-- BROWNOUT: a cold reset; RST_CAUSE shows it if VDD_AON stayed up (R382; log entry 66). -/
def brownout (r : Rail) (d : Dev) : Dev :=
  match r with
  | .aon => wr (coldDev d) .thmTrip [] 0
  | .fab _ => wr (coldDev d) .rstCause [] 3

/-- BROWNOUT. -/
def execBrownout (rail : Rail) (s : State) : Host.Outcome State Fault Refusal := actAlways (brownout rail) s

/-- A WARM reset, with its bit of RST_CAUSE (R383, R384): then start-up from the fuse load on, with what the
last POR_RELEASE found (log entry 55).  FAILED cores stay FAILED until a cold reset (spec/06 R140). -/
def warm (cause : Nat) (d : Dev) : Dev :=
  let keep (off : Nat) : Bool := decide (off < 0x3000) || off == 0x700008
  let failed := (List.range 72).filter (fun n => coreStateAt d (n / 9) (n % 9) == 3)
  let tlr : TlrRun := match d.host.tlr with
    | .off => .off
    | .stopped => .stopped
    | _ => .restarting none
  let n : Dev := { Dev.reset with
    regs := d.regs.filter (fun e => keep e.1), cnt := d.cnt.filter (fun e => keep e.1)
    stage := d.stage.filter (fun e => decide (e.1 < 0x3000)), snap := d.snap.filter (fun e => decide (e.1 < 0x3000))
    dmaOut := d.dmaOut, now := d.now, draw := d.draw, fwd := { FwdState.reset with sweepAt := d.now }
    bolt := { d.bolt with exports := [], deletes := [] }
    rel := { RelState.reset with log := d.rel.log, traces := d.rel.traces.filter (fun t => t.1 == 0x1C) }
    host := { HostState.reset with
      mgmtSent := d.host.mgmtSent, last := d.host.last, seq := d.host.seq, image := d.host.image, tlr := tlr, fuseSvn := d.host.fuseSvn, i3cStrap := d.host.i3cStrap, i3cAddr := d.host.i3cAddr }
    pwr := { PwrState.reset with
      ilimLow := d.pwr.ilimLow, ilimHold := d.pwr.ilimHold, refSwitch := d.pwr.refSwitch, porHigh := d.pwr.porHigh, perstHigh := d.pwr.perstHigh, step := natMin 1 d.pwr.step, found := d.pwr.found } }
  let n := failed.foldl (fun n k => setCoreState n (k / 9) (k % 9) 3) n
  let n := wrf (wr n .rstCause [] (setBit (rd n .rstCause) cause)) .idStatus [] 4 4 0
  match d.pwr.found with
  | some i => if n.pwr.porHigh ∧ 2 ≤ d.pwr.step then startSteps n i true else n
  | none => n

/-- A write of RST_CTL, its fields as they stand after the write; one of WARM with another KEY is discarded (R383). -/
def rstCtlWrite (val : Nat) (d : Dev) : Dev :=
  if bit val 0 && bits val 15 8 != 0xA5 then sysReject d
  else
    let d := wr d .rstCtl [] (2 ^ 31 * bits val 31 31)
    if bit val 0 then warm 2 d else d

/-- I3C_WARM: the board controller's WARM command (R386). -/
def execI3cWarm (s : State) : Host.Outcome State Fault Refusal := actPins (warm 3) s

/-- Offsets of the host-ring region. -/
def inHostRing (off : Nat) : Bool := decide (0x100000 ≤ off) && decide (off < 0x200000)

/-- PCIE_RESET: the endpoint, MSI-X and the host-ring region; no completion entry of a command accepted before
it is written (R383, R385). -/
def pcieReset (k : PcieResetKind) (d : Dev) : Dev :=
  let d := { d with
    regs := d.regs.filter (fun e => !inHostRing e.1), cnt := d.cnt.filter (fun e => !inHostRing e.1)
    stage := d.stage.filter (fun e => !inHostRing e.1), snap := d.snap.filter (fun e => !inHostRing e.1)
    host := { d.host with rings := [], dmaHeld := [], turn := 0, irqs := [], epoch := d.host.epoch + 1 } }
  let d := { d with pwr := { d.pwr with aspm := PwrState.reset.aspm } }
  match k with
  | .perst => wr { d with pwr := { d.pwr with perstHigh := false } } .rstCause [] (setBit (rd d .rstCause) 4)
  | _ => d

/-- PCIE_RESET. -/
def execPcieReset (k : PcieResetKind) (s : State) : Host.Outcome State Fault Refusal := actPins (pcieReset k) s

/-- PERST_RELEASE: the endpoint may become ready for configuration (R399). -/
def execPerstRelease (s : State) : Host.Outcome State Fault Refusal :=
  actPins (fun d => { d with pwr := { d.pwr with perstHigh := true } }) s

/-- The static address of the I3C target, of its straps (spec/18 R449). -/
def i3cStatic (d : Dev) : Nat := 0x50 + d.host.i3cStrap.toNat

/-- Does the I3C target answer at an address, in I3C or by an I2C transfer (spec/18 R449)?  A dynamic address takes the
static one's place (log entry 137). -/
def i3cAnswers (d : Dev) (i2c : Bool) (a : BitVec 7) : Bool :=
  match d.host.i3cAddr with
  | some x => !i2c && a == x
  | none => a.toNat == i3cStatic d

/-- I3C_DYNAMIC_ADDRESS: SETDASA or ENTDAA (spec/18 R449). -/
def execI3cDynamicAddress (addr : BitVec 7) (s : State) : Host.Outcome State Fault Refusal :=
  actPins (fun d => { d with host := { d.host with i3cAddr := some addr } }) s

end Sys2Proof.Machine
end

