-- ==== Sys2Proof/Machine/Rel.lean ====
section
/-! DEFINITION. Injection, the error log, suspicion, Patrol and the FULL run (spec/16 R407–R422). -/
namespace Sys2Proof.Machine

/-- A discarded write of the reliability block (R408). -/
def relReject (d : Dev) : Dev := raise d (srcRel 255 0) 8

/-! ### Injection (spec/16 R407–R410) -/

/-- Units of a detector's kind; 0: the ID is reserved (Table 16-1). -/
def injUnits (id : Nat) : Nat :=
  match id with
  | 0x01 | 0x02 | 0x03 | 0x04 | 0x05 => 128
  | 0x06 | 0x07 | 0x08 | 0x0A | 0x0D | 0x0E | 0x10 | 0x11 | 0x14 | 0x15 | 0x16 | 0x17 => 16
  | 0x09 | 0x0B => 72
  | 0x0C | 0x1A => 12
  | 0x18 => 8
  | 0x19 => 20
  | 0x1C => 2
  | 0x1E => 4
  | 0x0F | 0x12 | 0x13 | 0x1B | 0x1D | 0x1F | 0x20 | 0x21 | 0x22 => 1
  | _ => 0

/-- ARG lies in the range of the detector. -/
def injArgOk (id arg : Nat) : Bool :=
  match id with
  | 0x03 | 0x0D | 0x0F => true
  | 0x04 => decide (arg < 5)
  | 0x06 | 0x09 | 0x0C => arg == 1 || arg == 2
  | 0x08 => decide (arg < 538)
  | 0x14 | 0x15 => decide (arg < 144)
  | 0x16 => decide (arg < 16)
  | 0x17 => decide (arg < 4)
  | 0x19 | 0x1A => decide (1 ≤ arg) && decide (arg ≤ 63)
  | _ => arg == 0

/-- Store REL_INJ_CTL's ARM and DONE. -/
def injFlags (d : Dev) (armed done : Nat) : Dev := wrf (wrf d .relInjCtl [] 1 1 armed) .relInjCtl [] 2 2 done

/-- ARM is judged against the register as it stands after the write (R408). -/
def injArm (d : Dev) : Dev :=
  let id := rdf d .relInjSel [] 31 24
  let die := rdf d .relInjSel [] 21 20
  let unit := rdf d .relInjSel [] 15 0
  let arg := rdf d .relInjArg [] 15 0
  let mode := rdf d .relInjCtl [] 5 4
  if !rdb d .relInjCtl [] 0 || d.rel.inject.isSome || mode == 3 || decide (injUnits id ≤ unit) || !injArgOk id arg then
    relReject d
  else
    let left := match mode with
      | 0 => some 1
      | 1 => some (natMax 1 (rdf d .relInjArg [] 31 16))
      | _ => none
    injFlags { d with rel := { d.rel with inject := some ⟨id, die, unit, arg, left⟩ } } 1 0

/-- DISARM ends an injection of any mode; DONE is not set (R408). -/
def injDisarm (d : Dev) : Dev :=
  injFlags { d with rel := { d.rel with inject := none } } 0 (rdf d .relInjCtl [] 2 2)

/-- A write of REL_INJ_CTL: EN and MODE as the write leaves them, then DISARM, then ARM. -/
def injCtlWrite (m val : Nat) (d : Dev) : Dev :=
  let old := rd d .relInjCtl []
  let d := wr d .relInjCtl [] (putBits (putBits old 5 4 (bits m 5 4)) 0 0 (bits m 0 0))
  let d := if bit val 3 then injDisarm d else d
  if bit val 1 then injArm d else d

/-- A write of REL_INJ_SEL or REL_INJ_ARG, discarded while armed (R408). -/
def injSetWrite (r : Reg) (m : Nat) (d : Dev) : Dev := if d.rel.inject.isSome then relReject d else wr d r [] m

/-- A bit of a slot of one die's replica flips (Table 16-1, 0x0F). -/
def flipReplica (d : Dev) (die slot : Nat) : Dev :=
  let v := emAtDie d die slot ^^^ 1
  let k := die * 262144 + slot
  let t := if v == emAt d.fwd.em slot then tdel d.fwd.emDiff k else tset d.fwd.emDiff k (BitVec.ofNat 64 v)
  { d with fwd := { d.fwd with emDiff := t } }

/-- What one injection does: a condition is forced at once, a corruption waits ahead of its detector (R407; log
entry 18). -/
def injectEffect (i : Inject) (d : Dev) : Dev :=
  let mark (die unit : Nat) : Dev := { d with rel := { d.rel with marks := d.rel.marks ++ [(i.id, die, unit, i.arg)] } }
  let u := i.unit
  match i.id with
  | 0x04 => cdrLoss (128 * i.die + u) i.arg d
  | 0x08 => chargeWire d i.die u i.arg true
  | 0x0F => flipReplica d i.die i.arg
  | 0x16 => thimbleTrip u i.arg d
  | 0x17 => feedKill u i.arg d
  | 0x1B => ilimAssert i.die d
  | 0x1C => refFail u d
  | 0x1D => brownout (.fab i.die) d
  | 0x22 => deviceFault d 3 i.die u
  | 0x09 | 0x0B => mark (u / 18) u
  | 0x0C | 0x1A => mark (u / 3) u
  | 0x0D | 0x0E | 0x14 | 0x15 => mark (u / 4) u
  | 0x18 => mark (if u < 4 then 1 else 3) u
  | 0x1E | 0x1F | 0x20 | 0x21 => mark 0 u
  | _ => mark i.die u

/-- INJECTION: the armed detector takes its next injection (R408). -/
def injection (d : Dev) : Dev :=
  match d.rel.inject with
  | none => d
  | some i =>
    if !rdb d .relInjCtl [] 0 then d
    else
      let d := cnt1 d (srcRel 255 0) 10
      let d := match i.left with
        | none => d
        | some 0 | some 1 => injFlags { d with rel := { d.rel with inject := none } } 0 1
        | some (n + 1) => { d with rel := { d.rel with inject := some { i with left := some n } } }
      injectEffect i { d with rel := { d.rel with injected := true } }

/-- INJECTION. -/
def execInjection (s : State) : Host.Outcome State Fault Refusal := act injection s

/-- A write of REL_LOG_CTL: POP removes the oldest entry of the error log (R412). -/
def logPop (val : Nat) (d : Dev) : Dev :=
  if bit val 31 then { d with rel := { d.rel with log := d.rel.log.drop 1 } } else d

/-! ### Cores that compute wrongly (spec/16 R417–R419) -/

/-- SUSPICION_DECAY: a count without an addition for WINDOW_H hours returns to 0 (R417). -/
def suspicionDecay (n : Nat) (d : Dev) : Dev :=
  let d := setSusp d n 0
  if n % 9 = 8 then d else { d with rel := { d.rel with suspAt := tdel d.rel.suspAt (8 * (n / 9) + n % 9) } }

/-- SUSPICION_DECAY. -/
def execSuspicionDecay (core : Fin 72) (s : State) : Host.Outcome State Fault Refusal := act (suspicionDecay core) s

/-- A core goes to FAILED: its cluster's spare wakes to take its name, or the name is lost (R418, R419). -/
def failCore (n cause : Nat) (d : Dev) : Dev :=
  let c := n / 9
  let i := n % 9
  let name := nameOf d c i
  let free := spareFree d c
  let d := setPd (setPd (setCoreState d c i 3) n 0) n 3
  let d := { d with pwr := { d.pwr with waking := d.pwr.waking.filter (· != n) } }
  match name with
  | none => d
  | some j =>
    let q := 8 * c + j
    let d := { d with rel := { d.rel with
      suspect := d.rel.suspect.filter (· != q), condemned := d.rel.condemned.filter (fun x => x.1 != q) } }
    if i < 8 ∧ free then
      wakeStart { d with rel := { d.rel with sparing := d.rel.sparing ++ [(c, j, i, cause)] } } (9 * c + 8)
    else coreLost d c j i cause

/-- The unit number of a core in an event: by the name that it holds (spec/14 R460). -/
def coreUnit (d : Dev) (n : Nat) : Nat :=
  match nameOf d (n / 9) (n % 9) with
  | some j => 9 * (n / 9) + j
  | none => n

/-- The core of a name holds the Bobbin of a chunk that is not complete: a chunk that it reduces, until its sum has left or,
in RUB, its update is done (spec/08 R218), or that it repeats as the shadow, until the two are compared. -/
def holdsChunk (c : Ctx) (k : Chunk) (q : Nat) : Bool :=
  (coreOf c k.idx == q && (!k.done || (c.p.op.toNat == opRub && !k.updated)))
    || (k.shadow == some q && k.sampled && !k.compared)

/-- The core of a name holds no operand in receive staging, no Bobbin of an incomplete chunk and no Stitch group
(R420). -/
def patrolReady (d : Dev) (q : Nat) : Bool :=
  (tgetD d.coll.stg (coreNo q) []).isEmpty
    && !d.coll.ctxs.any (fun e => live e.2 && e.2.chunks.any (fun k => holdsChunk e.2 k q))
    && !d.opt.launches.any (fun l => l.groups.any (fun g => g.core == q))

/-- A Patrol unit fails: reported, with the action of Table 16-5 (R421).  A core fails at an eligibility (R418); the test of
a Seam link names the sideband wire, and from 16 on that of the other direction (log entry 68). -/
def patrolFail (u : PatrolUnit) (test : Nat) (d : Dev) : Dev :=
  match u with
  | .core n =>
    let d := raise d (srcRel (n / 18) (coreUnit d n)) 5 [(1, 0), (1, test)]
    match nameOf d (n / 9) (n % 9) with
    | some j =>
      let q := 8 * (n / 9) + j
      if patrolReady d q then failCore n 0 d
      else { d with rel := { d.rel with condemned := d.rel.condemned.filter (fun x => x.1 != q) ++ [(q, 0)] } }
    | none => failCore n 0 d
  | .pre t =>
    let d := raise d (srcRel (t / 16) (t % 16)) 5 [(1, 1), (1, test)]
    wrf (raise d (srcPre t) 0) .preCtl (tix t) 30 30 1
  | .seam die link =>
    let d := raise d (srcRel die link) 5 [(1, 2), (1, test)]
    chargeWire d (if test % 32 < 16 then die else seamFar die link) link (512 + test % 16) d.rel.injected
  | .mesh t =>
    deviceFault (raise d (srcRel (t / 16) (t % 16)) 5 [(1, 3), (1, test)]) 4 (t / 16) (t % 16)

/-- SPARE_IN: the spare, awake and under test, takes the failed core's name, or is itself FAILED and the name lost
(R419; the test that it fails: log entry 68). -/
def spareIn (c : Nat) (pass : Bool) (d : Dev) : Dev :=
  match d.rel.sparing.find? (fun x => x.1 == c) with
  | none => d
  | some (_, j, phys, cause) =>
    if !pdOn d (9 * c + 8) then d
    else
    let d := cnt1 { d with rel := { d.rel with sparing := d.rel.sparing.filter (fun x => x.1 != c) } } (srcRel (c / 2) c) 11
    if pass then spareTakes d c j cause
    else
      let t := (Config.freeByte d.draw).toNat
      let d := raise { d with draw := d.draw + 1 } (srcRel (c / 2) (9 * c + 8)) 5 [(1, 0), (1, t)]
      coreLost (setPd (setCoreState d c 8 3) (9 * c + 8) 3) c j phys cause

/-- SPARE_IN. -/
def execSpareIn (cluster : Fin 8) (pass : Bool) (s : State) : Host.Outcome State Fault Refusal :=
  act (spareIn cluster pass) s

/-! ### Patrol (spec/16 R420–R422) -/

/-- A unit of Table 16-5 that the device has: the unit of a Seam link, in both its directions, is named by its lower die. -/
def patrolUnit (u : PatrolUnit) : Bool :=
  match u with
  | .core n => decide (n < 72)
  | .pre t | .mesh t => decide (t < 64)
  | .seam die link => decide (die < 4) && decide (link < 16) && decide (die < seamFar die link)

/-- A suspect name whose core could be tested now. -/
def suspectReady (d : Dev) : List Nat := d.rel.suspect.filter (fun q => nameUp d q && patrolReady d q)

/-- PATROL_UNIT_START: a suspect core is tested ahead of other units; a condemned one fails at its eligibility
(R417, R418, R420). -/
def patrolUnitStart (u : PatrolUnit) (d : Dev) : Dev :=
  if !patrolUnit u || d.rel.full.isSome || d.rel.patrol.contains u then d
  else
    let en := rdb d .relPatrolCtl [] 0
    let run (d : Dev) : Dev := { d with rel := { d.rel with patrol := d.rel.patrol ++ [u] } }
    match u with
    | .core n =>
      match nameOf d (n / 9) (n % 9) with
      | none => d
      | some j =>
        let q := 8 * (n / 9) + j
        if !nameUp d q || !patrolReady d q then d
        else match d.rel.condemned.find? (fun x => x.1 == q) with
          | some x => failCore n x.2 d
          | none =>
            if !pdOn d n then d
            else if d.rel.suspect.contains q || (en && (suspectReady d).isEmpty) then
              run (setCoreState d (n / 9) (n % 9) 2)
            else d
    | _ => if en && (suspectReady d).isEmpty then run d else d

/-- PATROL_UNIT_START. -/
def execPatrolUnitStart (u : PatrolUnit) (s : State) : Host.Outcome State Fault Refusal := act (patrolUnitStart u) s

/-- PATROL_UNIT_END: a unit completes; a failure acts (R421). -/
def patrolUnitEnd (u : PatrolUnit) (fail : Option (BitVec 8)) (d : Dev) : Dev :=
  if !d.rel.patrol.contains u then d
  else
    let d := cnt1 { d with rel := { d.rel with patrol := d.rel.patrol.filter (· != u) } } (srcRel 255 0) 11
    let d := match u with
      | .core n =>
        let d := setCoreState d (n / 9) (n % 9) 1
        match nameOf d (n / 9) (n % 9) with
        | some j => { d with rel := { d.rel with suspect := d.rel.suspect.filter (· != 8 * (n / 9) + j) } }
        | none => d
      | _ => d
    match fail with
    | none => d
    | some t => patrolFail u t.toNat d

/-- PATROL_UNIT_END. -/
def execPatrolUnitEnd (u : PatrolUnit) (fail : Option (BitVec 8)) (s : State) : Host.Outcome State Fault Refusal :=
  act (patrolUnitEnd u fail) s

/-- PATROL_YIELD: work arrives for a core, and its unit is abandoned (R420). -/
def patrolYield (u : PatrolUnit) (d : Dev) : Dev :=
  match u with
  | .core n => if n < 72 then abandonCore d n else d
  | _ => d

/-- PATROL_YIELD. -/
def execPatrolYield (u : PatrolUnit) (s : State) : Host.Outcome State Fault Refusal := act (patrolYield u) s

/-- Every core that is not FAILED is in PATROL while a FULL run lasts; then back in SERVICE, or a spare without a name
OFF (spec/06 R140, R422). -/
def fullCores (d : Dev) (st : Nat) : Dev :=
  (List.range 72).foldl (fun d n =>
    let c := n / 9
    let i := n % 9
    if coreStateAt d c i = 3 then d
    else setCoreState d c i (if st = 2 then 2 else if i < 8 ∨ spareHolds d c ≠ 15 then 1 else 0)) d

/-- A write of REL_PATROL_CTL: EN, and a FULL run where nothing is in use (R422). -/
def patrolCtlWrite (m val : Nat) (d : Dev) : Dev :=
  let d := wrf d .relPatrolCtl [] 0 0 (bits m 0 0)
  if !bit val 31 || d.rel.full.isSome then d
  else if d.fwd.parts.any (fun e => e.2.st == 1) || !d.coll.ctxs.isEmpty || !d.opt.shards.isEmpty
      || decide (0 < collUsed d) || decide (0 < optUsed d) then relReject d
  else
    let d := fullCores (wr (wrf d .relPatrolCtl [] 30 30 1) .relPatrolStatus [] 1) 2
    { d with rel := { d.rel with full := some 0 }, mem := { d.mem with bytes := [], poison := [] } }

/-- PATROL_DONE: the FULL run ends; its 72 cores, 64 pre-reducers, 32 Seam links and 64 routers have run, and
its failures act under Table 16-5 (R422). -/
def patrolDone (fails : List (PatrolUnit × BitVec 8)) (d : Dev) : Dev :=
  match d.rel.full with
  | none => d
  | some _ =>
    let fs := fails.filter (fun x => patrolUnit x.1)
    let n := natMin 65535 fs.length
    let d := cntN { d with rel := { d.rel with full := none } } (srcRel 255 0) 11 232
    let d := fullCores d 1
    let d := wr (wrf d .relPatrolCtl [] 30 30 0) .relPatrolStatus [] (n * 65536 + (if n = 0 then 2 else 3))
    let d := fs.foldl (fun d x => patrolFail x.1 x.2.toNat d) d
    event d 0x1580 255 0 [(2, n)]

/-- PATROL_DONE. -/
def execPatrolDone (fails : List (PatrolUnit × BitVec 8)) (s : State) : Host.Outcome State Fault Refusal :=
  act (patrolDone fails) s

end Sys2Proof.Machine
end

