-- ==== Sys2Proof/Machine/RegAccess.lean ====
section
/-! DEFINITION. Accesses to BAR0: reserved and unsupported accesses, access types and locks, pairs and their
staging and snapshot, what each register's write sets off, what each register shows, and the commands that are
register writes (spec/00 R4–R11, spec/01 R20–R23). -/
namespace Sys2Proof.Machine

/-! ### Targets -/

/-- The HI register of a LO register of a pair (spec/00 R10). -/
def pairHiOf (r : Reg) : Option Reg :=
  match r with
  | .idSerialLo => some .idSerialHi
  | .fwdScrubBaseLo => some .fwdScrubBaseHi
  | .polCntGLo => some .polCntGHi
  | .polCntYLo => some .polCntYHi
  | .polCntRLo => some .polCntRHi
  | .collMemBaseLo => some .collMemBaseHi
  | .optMemBaseLo => some .optMemBaseHi
  | .memPoisonAddrLo => some .memPoisonAddrHi
  | .memStkSpareLo => some .memStkSpareHi
  | .lnTapsLo => some .lnTapsHi
  | .elsSerialLo => some .elsSerialHi
  | .timeIncLo => some .timeIncHi
  | .timeNowLo => some .timeNowHi
  | .timeSetLo => some .timeSetHi
  | .timePpsCap0Lo => some .timePpsCap0Hi
  | .timePpsCap1Lo => some .timePpsCap1Hi
  | .ringBaseLo => some .ringBaseHi
  | .ringWbLo => some .ringWbHi
  | .tlrBootAddrLo => some .tlrBootAddrHi
  | .mgmtPeerLo => some .mgmtPeerHi
  | _ => none

/-- The LO register of a HI register of a pair. -/
def pairLoOf (r : Reg) : Option Reg :=
  match r with
  | .idSerialHi => some .idSerialLo
  | .fwdScrubBaseHi => some .fwdScrubBaseLo
  | .polCntGHi => some .polCntGLo
  | .polCntYHi => some .polCntYLo
  | .polCntRHi => some .polCntRLo
  | .collMemBaseHi => some .collMemBaseLo
  | .optMemBaseHi => some .optMemBaseLo
  | .memPoisonAddrHi => some .memPoisonAddrLo
  | .memStkSpareHi => some .memStkSpareLo
  | .lnTapsHi => some .lnTapsLo
  | .elsSerialHi => some .elsSerialLo
  | .timeIncHi => some .timeIncLo
  | .timeNowHi => some .timeNowLo
  | .timeSetHi => some .timeSetLo
  | .timePpsCap0Hi => some .timePpsCap0Lo
  | .timePpsCap1Hi => some .timePpsCap1Lo
  | .ringBaseHi => some .ringBaseLo
  | .ringWbHi => some .ringWbLo
  | .tlrBootAddrHi => some .tlrBootAddrLo
  | .mgmtPeerHi => some .mgmtPeerLo
  | _ => none

/-- What lies at an aligned offset of BAR0: nothing (reserved), half of a counter, or a register. -/
inductive Target where
  | rsvd
  | cnt (lo : Nat) (hi : Bool)
  | reg (r : Reg) (ix : List Nat)
deriving DecidableEq, Repr

/-- Decode an aligned offset (spec/01 R22, R23). -/
def target (off : Nat) : Target :=
  if isCnt off then .cnt off false
  else if 4 ≤ off ∧ isCnt (off - 4) then .cnt (off - 4) true
  else match decodeReg off with
    | some (r, ix) => .reg r ix
    | none => .rsvd

/-- A 32-bit access that the device accepts (R4). -/
def aligned32 (off : Nat) : Bool := off % 4 == 0 && decide (off < 0x4000000)

/-- A 64-bit access that the device accepts (R4). -/
def aligned64 (off : Nat) : Bool := off % 8 == 0 && decide (off < 0x4000000)

/-- Nothing lies at an offset. -/
def isRsvd (off : Nat) : Bool := match target off with | .rsvd => true | _ => false

/-- Count and report an access to a reserved offset (R6). -/
def rsvdCount (d : Dev) : Dev := raise d (srcRel 255 0) 0

/-- Count a write access (spec/01 R21). -/
def regwr (d : Dev) : Dev := cnt1 d (srcRel 255 0) 9

/-! ### Merging by access type (R7, R9) -/

/-- Is the block of a register's instance locked? -/
def locked (d : Dev) (r : Reg) (ix : List Nat) : Bool :=
  match (regRow r).lock with
  | none => false
  | some (off, k) =>
    let l := off + dimOff ((regRow r).dims.take k) (ix.take k)
    (match tget? d.regs l with
      | some w => w.getLsbD 31
      | none => false)
    || d.pwr.heldWr.any (fun w => w.off == l && w.val.getLsbD 31)

/-- One field of a write: WO bits as written, so that what acts on them sees them. -/
def mergeFld (lk : Bool) (old val : Nat) (a : Nat) (f : Fld) : Nat :=
  let o := bits old f.msb f.lsb
  let v := bits val f.msb f.lsb
  let n := match f.acc with
    | .rw | .wo => v
    | .ro => o
    | .w1c => o - (o &&& v)
    | .w1s => o ||| v
    | .rwl => if lk then o else v
  putBits a f.msb f.lsb n

/-- A register's value after a write of its fields. -/
def merge (lk : Bool) (r : Reg) (old val : Nat) : Nat := (regRow r).flds.foldl (mergeFld lk old val) 0

/-- A write to a locked block would have changed an RWL field (R9). -/
def lockHit (lk : Bool) (r : Reg) (old val : Nat) : Bool :=
  lk && (regRow r).flds.any (fun f => f.acc == .rwl && bits old f.msb f.lsb != bits val f.msb f.lsb)

/-- A register's value without its WO fields, which read 0. -/
def stripWo (r : Reg) (v : Nat) : Nat :=
  (regRow r).flds.foldl (fun a f => if f.acc = .wo then putBits a f.msb f.lsb 0 else a) v

/-- Every field that a write could set is RWL. -/
def onlyRwl (r : Reg) : Bool := (regRow r).flds.all (fun f => f.acc == .rwl || f.acc == .ro)

/-- Count and report a write that a lock discards (R9); one of COLL_CTL, COLL_SELF and COLL_MEM_* also among the
collective engine's discarded configuration (spec/07 R203), one of OPT_CTL and OPT_MEM_* among the optimizer's (spec/08 R242). -/
def lockReject (die : Nat) (r : Reg) (d : Dev) : Dev :=
  let d := raise d (srcRel 255 0) 1
  match r with
  | .collCtl | .collSelf | .collMemBaseLo | .collMemBaseHi | .collMemSize => raise d (srcColl die 0) 3
  | .optCtl | .optMemBaseLo | .optMemBaseHi | .optMemSize => raise d (srcOpt die 0) 5
  | _ => d

/-! ### What writes set off -/

/-- A write of FWD_EM_SEED0 or FWD_EM_SEED1 (spec/02 R44). -/
def emSeedWrite (die : Nat) (r other : Reg) (val : Nat) (d : Dev) : Dev :=
  if emCount d = 0 ∧ d.fwd.staged = 0 ∧ !d.fwd.settling ∧ val ≠ rd d other then wr d r [] val
  else raise d (srcFwd die) 13

/-- A write of RT_PORT: a port that it makes ACTIVE or RESTORING probes its dark fibres at once (spec/12
R326). -/
def portWrite (p val : Nat) (d : Dev) : Dev :=
  let old := portState d p
  let d := rtPortWrite p val d
  let new := portState d p
  if new ≠ old ∧ (new = 1 ∨ new = 4) then probePort d p else d

/-- What a write of a register does, once its fields are merged: `m` the merged value, `val` the word written,
`die` the die addressed, `img` the host's image for TLR_BOOT_CTL.GO, `low` feed power below target for a bias
write. -/
def writeReg (die : Nat) (r : Reg) (ix : List Nat) (m val : Nat) (img : Option DmaRead) (low : Bool) (d : Dev) : Dev :=
  let i0 := ix.getD 0 0
  let i1 := ix.getD 1 0
  let i2 := ix.getD 2 0
  let t := 16 * i0 + i1
  match r with
  | .fwdEmSeed0 => emSeedWrite die r .fwdEmSeed1 m d
  | .fwdEmSeed1 => emSeedWrite die r .fwdEmSeed0 m d
  | .fwdAgeCtl => fwdAgeCtlWrite m d
  | .fwdEmCtl => emCtlWrite m d
  | .fwdEpochCtl => if bit val 0 then fwdEpochCommit die d else d
  | .swRsv => swRsvWrite (8 * t + i2) (ix.getD 3 0) m d
  | .rtPort => portWrite (8 * t + i2) m d
  | .rtOrdSeed => rtOrdSeedWrite die m d
  | .mirCtl => mirCtlWrite die i0 m d
  | .polCmd => polCmdWrite die val d
  | .shpC0 => shpWrite (8 * t + i2 / 4) (i2 % 4) 0 m d
  | .shpC1 => shpWrite (8 * t + i2 / 4) (i2 % 4) 1 m d
  | .shpC2 => shpWrite (8 * t + i2 / 4) (i2 % 4) 2 m d
  | .clBob => clBobWrite (2 * i0 + i1) m d
  | .collMemSize => collMemWrite die (rd d .collMemBaseLo) (rd d .collMemBaseHi) m d
  | .optMemSize => optMemWrite die (rd d .optMemBaseLo) (rd d .optMemBaseHi) m d
  | .memHashSeed => memHashSeedWrite m d
  | .lnPort => lnPortWrite t m d
  | .oeCtl => oeCtlWrite i0 m d
  | .lnCtl => lnCtlWrite (8 * t + i2) m d
  | .elsBias => biasWrite d i0 i1 (bits m 15 0) low
  | .elsCtl => elsCtlWrite i0 m d
  | .timeCtl =>
    let d := wrf d .timeCtl [] 31 31 (bits m 31 31)
    if bit val 2 then switchGo d else d
  | .timeAdj => timeStep i0 val d
  | .timeTsqCtl => if bit val 31 then tsqPop i0 d else d
  | .ringCtl => ringCtlWrite i0 m d
  | .ringProdCmd => prodWrite i0 m d
  | .ringConsDev => consWrite (i0 + 8) m d
  | .tlrBootCtl =>
    let d := wrf d .tlrBootCtl [] 31 31 (bits m 31 31)
    match img with
    | some x => if bit val 8 && serves d then tlrBootGo x d else d
    | none => d
  | .tblWinCtl => tblWinWrite i0 val d
  | .rstCtl => rstCtlWrite m d
  | .clkRefCtl => clkRefWrite m d
  | .relInjCtl => injCtlWrite m val d
  | .relInjSel => injSetWrite .relInjSel m d
  | .relInjArg => injSetWrite .relInjArg m d
  | .relLogCtl => logPop val d
  | .relPatrolCtl => patrolCtlWrite m val d
  | .pmcSelTile | .pmcSelCore | .pmcSelStack | .pmcSelDie => pmcSelApply r ix m d
  | .pmcCtl => pmcCtlWrite m d
  | .pmcFreeze => pmcFreezeWrite m d
  | .msixCtl => msixCtlWrite i0 m d
  | _ => wr d r ix (stripWo r m)

/-- What a write of a pair does, both halves in the same cycle (R10). -/
def writePair (die : Nat) (lo : Reg) (ix : List Nat) (ml mh : Nat) (d : Dev) : Dev :=
  let i0 := ix.getD 0 0
  match lo with
  | .collMemBaseLo => collMemWrite die ml mh (rd d .collMemSize) d
  | .optMemBaseLo => optMemWrite die ml mh (rd d .optMemSize) d
  | .ringBaseLo | .ringWbLo =>
    if rdb d .ringCtl [i0] 31 then ringReject d i0
    else match pairHiOf lo with
      | some hi => wr (wr d lo ix ml) hi ix mh
      | none => d
  | .timeSetLo =>
    let d := wr (wr d .timeSetLo ix ml) .timeSetHi ix mh
    if d.time.setPend.contains i0 then d else { d with time := { d.time with setPend := d.time.setPend ++ [i0] } }
  | _ =>
    match pairHiOf lo with
    | some hi => wr (wr d lo ix ml) hi ix mh
    | none => d

/-- The power domain that an offset waits for: its block lies in it, and it is not ON (spec/01 R20). -/
def asleepAt (d : Dev) (off : Nat) : Option Nat := (sleepDom off).filter (fun n => !pdOn d n)

/-- A register's value with the writes that its sleeping block holds merged into it. -/
def heldVal (d : Dev) (off : Nat) (r : Reg) (v : Nat) : Nat :=
  d.pwr.heldWr.foldl (fun v w => if w.off = off then stripWo r (merge w.lk r v w.val.toNat) else v) v

/-- Apply a write to one register by its access types; a block that sleeps gets it when it wakes (spec/01 R20). -/
def applyReg (off : Nat) (r : Reg) (ix : List Nat) (val : Nat) (img : Option DmaRead) (low : Bool) (d : Dev) : Dev :=
  let old := if (asleepAt d off).isSome then heldVal d off r (rd d r ix) else rd d r ix
  let lk := locked d r ix
  let d := if lockHit lk r old val then lockReject (offDie off) r d else d
  if lk && onlyRwl r then d
  else match asleepAt d off with
    | some n => { d with pwr := { d.pwr with heldWr := d.pwr.heldWr ++ [⟨n, off, lk, w32 val⟩] } }
    | none => writeReg (offDie off) r ix (merge lk r old val) val img low d

/-- A held write reaches its block. -/
def applyHeld (d : Dev) (w : HeldWr) : Dev :=
  match target w.off with
  | .reg r ix => writeReg (offDie w.off) r ix (merge w.lk r (rd d r ix) w.val.toNat) w.val.toNat none false d
  | _ => d

/-- DOMAIN_WAKE_DONE: a domain is ON; held writes reach it; a cluster's issue fraction begins its ramp; a spare that is to
take a name runs its units in PATROL (R392, R395, R397, spec/01 R20, spec/16 R419, R420). -/
def domainWakeDone (n : Nat) (late : Bool) (d : Dev) : Dev :=
  if d.pwr.waking.contains n then
    let held := d.pwr.heldWr.filter (fun w => w.dom == n)
    let d := setPd { d with pwr := { d.pwr with
      waking := d.pwr.waking.filter (· != n), heldWr := d.pwr.heldWr.filter (fun w => w.dom != n) } } n 0
    let d := cnt1 (held.foldl applyHeld d) (srcSys 0 0) 6
    let d := if pdClass n = 1 then { d with pwr := { d.pwr with frac := lset d.pwr.frac (n - 72) 1 } } else d
    let d := if n < 72 ∧ n % 9 = 8 ∧ spareTested d (n / 9) then setCoreState d (n / 9) 8 2 else d
    if late then raise d (srcSys (pdDie n) 0) 4 [(1, n)] else d
  else d

/-- DOMAIN_WAKE_DONE. -/
def execDomainWakeDone (dom : Fin 128) (late : Bool) (s : State) : Host.Outcome State Fault Refusal :=
  act (domainWakeDone dom late) s

/-- Apply a write to both halves of a pair by their access types. -/
def applyPair (off : Nat) (lo hi : Reg) (ix : List Nat) (vl vh : Nat) (d : Dev) : Dev :=
  let ol := rd d lo ix
  let oh := rd d hi ix
  let lk := locked d lo ix
  let d := if lockHit lk lo ol vl || lockHit lk hi oh vh then lockReject (offDie off) lo d else d
  if (lk && onlyRwl lo && onlyRwl hi) || ((regRow lo).flds.all (fun f => f.acc == .ro)) then d
  else writePair (offDie off) lo ix (merge lk lo ol vl) (merge lk hi oh vh) d

/-! ### Write accesses -/

/-- Drop what is staged for a pair. -/
def unstage (d : Dev) (key : Nat) : Dev := { d with stage := tdel d.stage key }

/-- A 32-bit write of a register: of the LO half of a pair it is held, of the HI half it applies both halves
(R7, R10). -/
def regWrite32 (off : Nat) (r : Reg) (ix : List Nat) (val : Nat) (img : Option DmaRead) (low : Bool) (d : Dev) : Dev :=
  match pairHiOf r, pairLoOf r with
  | some _, _ => { d with stage := tset d.stage (regAddr r ix) (w32 val) }
  | none, some lo =>
    let key := regAddr lo ix
    let l := match tget? d.stage key with
      | some w => w.toNat
      | none => rd d lo ix
    applyPair off lo r ix l val (unstage d key)
  | none, none => applyReg off r ix val img low d

/-- A 32-bit write access (R6, R7, R10). -/
def busWriteX (off val : Nat) (img : Option DmaRead) (low : Bool) (d : Dev) : Dev :=
  if !aligned32 off then d
  else match target off with
    | .rsvd => rsvdCount d
    | .cnt _ _ => regwr d
    | .reg r ix => regWrite32 off r ix val img low (regwr d)

/-- A 32-bit write access that brings no other data. -/
def busWrite (off val : Nat) (d : Dev) : Dev :=
  busWriteX off val none (Config.freeBool d.draw) { d with draw := d.draw + 1 }

/-- One half of a 64-bit write that does not cover a whole pair: what a 32-bit write of it does (log entry 93). -/
def halfWrite (off val : Nat) (d : Dev) : Dev :=
  match target off with
  | .reg r ix => regWrite32 off r ix val none (Config.freeBool d.draw) { d with draw := d.draw + 1 }
  | _ => d

/-- An aligned 64-bit write access: one access, both halves in the same cycle (R4, R6, R10). -/
def busWrite64 (off val : Nat) (d : Dev) : Dev :=
  if !aligned64 off then d
  else
    let vl := val % 2 ^ 32
    let vh := val / 2 ^ 32
    let d := if isRsvd off || isRsvd (off + 4) then rsvdCount d else d
    if isRsvd off && isRsvd (off + 4) then d
    else
      let d := regwr d
      match target off with
      | .reg r ix =>
        match pairHiOf r with
        | some hi => applyPair off r hi ix vl vh (unstage d (regAddr r ix))
        | none => halfWrite (off + 4) vh (halfWrite off vl d)
      | _ => halfWrite (off + 4) vh d

/-! ### What registers show -/

/-- Bytes of the head entry of a transmit timestamp queue (spec/13 Table 13-1). -/
def tsqBytes (e : TsqEntry) : List Byte :=
  leBytes 8 e.d0.ns ++ leBytes 2 (e.d0.fr / 65536) ++ leBytes 2 e.tsid.toNat ++ leBytes 8 e.d1.ns
    ++ leBytes 2 (e.d1.fr / 65536) ++ leBytes 2 (2 ^ 15 + 2 ^ 14 * b2n e.lost + e.port) ++ List.replicate 8 0

/-- A 32-bit word of a byte list; 0 beyond its end. -/
def wordAt (bs : List Byte) (n : Nat) : Nat := leVal (slice bs (4 * n) 4)

/-- The value that a read of a register shows. -/
def regShow (d : Dev) (r : Reg) (ix : List Nat) : Nat :=
  let i0 := ix.getD 0 0
  let v := rd d r ix
  match r with
  | .fwdEmCount => emCount d % 2 ^ 19
  | .fwdEpochCtl => (d.fwd.staged % 2 ^ 15) * 65536 + 2 * b2n d.fwd.settling
  | .swShr => putBits v 14 0 (sharedFree d (16 * i0 + ix.getD 1 0))
  | .rtBundleCtl => putBits v 6 0 ((bundleSlots d i0).filter (fun s => s.getLsbD 15)).length
  | .rtBundleMem =>
    let s (k : Nat) : Nat := ((bundleSlots d i0).getD k 0).toNat
    s (2 * ix.getD 1 0 + 1) * 65536 + s (2 * ix.getD 1 0)
  | .collLive => d.coll.ctxs.length % 2 ^ 15
  | .collMemUsed => collUsed d % 2 ^ 16
  | .optLive => d.opt.shards.length % 2 ^ 14
  | .optMemUsed => optUsed d % 2 ^ 20
  | .boltBands => if !boltUp d then 0 else ((bandsFree d).length % 2 ^ 13) * 65536 + (bandsErased d).length % 2 ^ 13
  | .elsState =>
    putBits v 15 8 ((List.range 8).foldl (fun a o => a + b2n (killOn d (2 * i0 + o / 4) (o % 4)) * 2 ^ o) 0)
  | .memStkQocc => natMin 63 (stkOcc d i0 / 64)
  | .timeNowLo => (dom d i0).ns % 2 ^ 32
  | .timeNowHi => (dom d i0).ns / 2 ^ 32 % 2 ^ 32
  | .timeTsqData =>
    match d.time.tsq.getD i0 [] with
    | e :: _ => wordAt (tsqBytes e) (ix.getD 1 0)
    | [] => 0
  | .timeTsqCtl => (d.time.tsq.getD i0 []).length % 128
  | .relLogCtl => d.rel.log.length % 128
  | .relLogData =>
    match d.rel.log with
    | e :: _ => wordAt (eventBytes e) i0
    | [] => 0
  | .pmcNrec => pmcNrec d % 2 ^ 32
  | _ => v

/-- What a read at an offset shows: of a sleeping block, fields that software writes as the held writes leave them,
and the others as they were when it went to sleep (spec/01 R20). -/
def regSeen (d : Dev) (off : Nat) (r : Reg) (ix : List Nat) : Nat :=
  match sleptAt d off with
  | none => regShow d r ix
  | some x =>
    let was := rd { d with regs := x.regs } r ix
    let now := heldVal d off r (rd d r ix)
    (regRow r).flds.foldl (fun a f =>
      putBits a f.msb f.lsb (bits (if f.acc = .ro ∨ f.acc = .w1c then was else now) f.msb f.lsb)) 0

/-- A 32-bit read access: its value, and the device with the snapshot of R11 taken or used. -/
def busRead (off : Nat) (d : Dev) : Nat × Dev :=
  match target off with
  | .rsvd => (0, rsvdCount d)
  | .cnt lo false =>
    let c := (cntShown d lo).toNat
    (c % 2 ^ 32, { d with snap := tset d.snap (lo + 4) (w32 (c / 2 ^ 32)) })
  | .cnt lo true =>
    match tget? d.snap (lo + 4) with
    | some w => (w.toNat, { d with snap := tdel d.snap (lo + 4) })
    | none => ((cntShown d lo).toNat / 2 ^ 32, d)
  | .reg r ix =>
    match pairHiOf r, pairLoOf r with
    | some hi, _ =>
      (regSeen d off r ix, { d with snap := tset d.snap (regAddr hi ix) (w32 (regSeen d (regAddr hi ix) hi ix)) })
    | none, some _ =>
      match tget? d.snap (regAddr r ix) with
      | some w => (w.toNat, { d with snap := tdel d.snap (regAddr r ix) })
      | none => (regSeen d off r ix, d)
    | none, none => (regSeen d off r ix, d)

/-- What a read of one half of an aligned 64-bit word shows; the snapshots of 32-bit reads stay as they are. -/
def halfSeen (d : Dev) (off : Nat) : Nat :=
  match target off with
  | .rsvd => 0
  | .cnt lo false => (cntShown d lo).toNat % 2 ^ 32
  | .cnt lo true => (cntShown d lo).toNat / 2 ^ 32
  | .reg r ix => regSeen d off r ix

/-- An aligned 64-bit read access: one access, both halves from one instant; a reserved half reads 0 (R4, R6, R11). -/
def busRead64 (off : Nat) (d : Dev) : Nat × Dev :=
  (halfSeen d (off + 4) * 2 ^ 32 + halfSeen d off, if isRsvd off || isRsvd (off + 4) then rsvdCount d else d)

/-- Consecutive 32-bit reads, in ascending offset. -/
def busReads : Nat → Nat → Dev → List Nat × Dev
  | 0, _, d => ([], d)
  | n + 1, off, d =>
    let (v, d) := busRead off d
    let (l, d) := busReads n (off + 4) d
    (v :: l, d)

/-- The answer of an access. -/
def setBar (r : BarResult) (d : Dev) : Dev := { d with bar := r }

/-! ### The accesses of spec/00 -/

/-- REGISTER_WRITE: of two writes in one cycle the host's is applied second (spec/01 R21). -/
def execRegisterWrite (off : Nat) (host tailor : Option Word) (s : State) : Host.Outcome State Fault Refusal :=
  actBar off (fun d =>
    let d := match tailor with
      | some v => busWrite off v.toNat d
      | none => d
    match host with
    | some v => busWrite off v.toNat d
    | none => d) s

/-- Is the register at an offset the lock register of its block? -/
def isLockReg (off : Nat) : Bool :=
  match target off with
  | .reg r ix =>
    match (regRow r).lock with
    | some (l, k) => regAddr r ix == l + dimOff ((regRow r).dims.take k) (ix.take k)
    | none => false
  | _ => false

/-- BLOCK_LOCK: a write of a block's lock register with its lock bit. -/
def execBlockLock (off : Nat) (val : Word) (s : State) : Host.Outcome State Fault Refusal :=
  actBar off (fun d => if isLockReg off && val.getLsbD 31 then busWrite off val.toNat d else d) s

/-- RSVD_ACCESS: a 32-bit or 64-bit access that meets a reserved offset, counted once (R6).  A 64-bit read of which
one half is reserved returns the other half; a 64-bit write of that kind is PAIR_64_WRITE, which carries its data. -/
def rsvdAccess (off : Nat) (write wide : Bool) (d : Dev) : Dev :=
  if wide then
    if aligned64 off && isRsvd off && isRsvd (off + 4) then
      if write then rsvdCount d else setBar (.ok 0) (rsvdCount d)
    else if aligned64 off && (isRsvd off || isRsvd (off + 4)) && !write then
      let x := busRead64 off d
      setBar (.ok (BitVec.ofNat 64 x.1)) x.2
    else d
  else if aligned32 off && isRsvd off then if write then rsvdCount d else setBar (.ok 0) (rsvdCount d)
  else d

/-- RSVD_ACCESS. -/
def execRsvdAccess (off : Nat) (write : Bool) (wide : Bool) (s : State) : Host.Outcome State Fault Refusal :=
  actBar off (rsvdAccess off write wide) s

/-- UNSUPPORTED_ACCESS: a read or a write of another width or alignment (R4). -/
def execUnsupportedAccess (off : Nat) (bytes : Nat) (_write : Bool) (s : State) : Host.Outcome State Fault Refusal :=
  actBar off (fun d =>
    if (bytes = 4 ∧ off % 4 = 0) ∨ (bytes = 8 ∧ off % 8 = 0) then d else setBar .unsupported d) s

/-- Is the register at an offset the LO half of a pair? -/
def isPairLo (off : Nat) : Bool := match target off with | .reg r _ => (pairHiOf r).isSome | _ => false

/-- Is the register at an offset the HI half of a pair? -/
def isPairHi (off : Nat) : Bool := match target off with | .reg r _ => (pairLoOf r).isSome | _ => false

/-- PAIR_LO_WRITE. -/
def execPairLoWrite (off : Nat) (val : Word) (s : State) : Host.Outcome State Fault Refusal :=
  actBar off (fun d => if isPairLo off then busWrite off val.toNat d else d) s

/-- PAIR_HI_WRITE. -/
def execPairHiWrite (off : Nat) (val : Word) (s : State) : Host.Outcome State Fault Refusal :=
  actBar off (fun d => if isPairHi off then busWrite off val.toNat d else d) s

/-- PAIR_64_WRITE: an aligned 64-bit write. -/
def execPair64Write (off : Nat) (val : BitVec 64) (s : State) : Host.Outcome State Fault Refusal :=
  actBar off (busWrite64 off val.toNat) s

/-- PAIR_LO_READ: a 32-bit read; of the LO half of a pair or a counter it takes the snapshot, of the HI half it
returns it.  An aligned 64-bit read (`wide`) returns both halves from one instant (R11). -/
def execPairLoRead (a : BarRead) (s : State) : Host.Outcome State Fault Refusal :=
  actBar a.off (fun d =>
    if a.wide then
      if aligned64 a.off then
        let x := busRead64 a.off d
        setBar (.ok (BitVec.ofNat 64 x.1)) x.2
      else d
    else if aligned32 a.off then
      let x := busRead a.off d
      setBar (.ok (BitVec.ofNat 64 x.1)) x.2
    else d) s

/-- REG_READ (spec/14 R465). -/
def execRegRead (h : CmdHdr) (off : BitVec 32) (count : BitVec 32) (s : State) : Host.Outcome State Fault Refusal :=
  act (fun d => runCmd d h 0x60 .m [some off.toNat, some count.toNat] true (fun d rp =>
    if off.toNat % 4 ≠ 0 ∨ count = 0 ∨ 16 < count.toNat ∨ 0x4000000 < off.toNat + 4 * count.toNat then complete d rp 9 []
    else
      let x := busReads count.toNat off.toNat d
      complete x.2 rp 0 [] (x.1.flatMap (leBytes 4)))) s

/-! ### Commands that are writes of one register -/

/-- Offset of a register that exists once, addressed through a die (spec/02 R64). -/
def viaDie (die : Nat) (r : Reg) (ix : List Nat := []) : Nat := regAddr r ix + die * 0x800000

/-- A register write. -/
def actWrite (off : Nat) (val : Nat) (s : State) : Host.Outcome State Fault Refusal := actBar off (busWrite off val) s

/-- FWD_AGE_CTL_WRITE (spec/02 R51). -/
def execFwdAgeCtlWrite (die : Fin 4) (val : Word) (s : State) : Host.Outcome State Fault Refusal :=
  actWrite (viaDie die .fwdAgeCtl) val.toNat s

/-- FWD_EM_SEED_WRITE (spec/02 R44). -/
def execFwdEmSeedWrite (die : Fin 4) (tbl : Fin 2) (val : Word) (s : State) : Host.Outcome State Fault Refusal :=
  actWrite (viaDie die (if tbl = 0 then .fwdEmSeed0 else .fwdEmSeed1)) val.toNat s

/-- FWD_EPOCH_COMMIT (spec/02 R58). -/
def execFwdEpochCommit (die : Fin 4) (s : State) : Host.Outcome State Fault Refusal :=
  actWrite (viaDie die .fwdEpochCtl) 1 s

/-- SW_RSV_WRITE (spec/03 R70). -/
def execSwRsvWrite (lane : Fin 512) (vc : Fin 8) (val : Word) (s : State) : Host.Outcome State Fault Refusal :=
  actWrite (regAddr .swRsv (lix lane ++ [vc.val])) val.toNat s

/-- A write of RT_PORT that names a state; one that names another state is another command. -/
def portStateWrite (p st : Nat) (val : Word) (d : Dev) : Dev :=
  if bits val.toNat 30 28 = st then busWrite (regAddr .rtPort (lix p)) val.toNat d else d

/-- PORT_ACTIVATE (spec/04 R96). -/
def execPortActivate (p : Fin 512) (val : Word) (s : State) : Host.Outcome State Fault Refusal :=
  actBar (regAddr .rtPort (lix p)) (portStateWrite p 1 val) s

/-- PORT_DRAIN (spec/04 R115). -/
def execPortDrain (p : Fin 512) (val : Word) (s : State) : Host.Outcome State Fault Refusal :=
  actBar (regAddr .rtPort (lix p)) (portStateWrite p 2 val) s

/-- PORT_DISABLE (spec/04 R96). -/
def execPortDisable (p : Fin 512) (val : Word) (s : State) : Host.Outcome State Fault Refusal :=
  actBar (regAddr .rtPort (lix p)) (portStateWrite p 0 val) s

/-- PORT_RESTORE (spec/04 R118). -/
def execPortRestore (p : Fin 512) (val : Word) (s : State) : Host.Outcome State Fault Refusal :=
  actBar (regAddr .rtPort (lix p)) (portStateWrite p 4 val) s

/-- MIR_CTL_WRITE (spec/04 R119). -/
def execMirCtlWrite (die : Fin 4) (session : Fin 16) (val : Word) (s : State) : Host.Outcome State Fault Refusal :=
  actWrite (viaDie die .mirCtl [session.val]) val.toNat s

/-- RT_ORD_SEED_WRITE (spec/04 R123). -/
def execRtOrdSeedWrite (die : Fin 4) (val : Word) (s : State) : Host.Outcome State Fault Refusal :=
  actWrite (viaDie die .rtOrdSeed) val.toNat s

/-- POL_ENTRY_READ (spec/05 R137). -/
def execPolEntryRead (die : Fin 4) (idx : BitVec 14) (clr : Bool) (s : State) : Host.Outcome State Fault Refusal :=
  actWrite (viaDie die .polCmd) (b2n clr * 2 ^ 17 + idx.toNat) s

/-- POL_ENTRY_WRITE (spec/05 R130, R131). -/
def execPolEntryWrite (die : Fin 4) (idx : BitVec 14) (s : State) : Host.Outcome State Fault Refusal :=
  actWrite (viaDie die .polCmd) (2 ^ 16 + idx.toNat) s

/-- SHP_WRITE (spec/05 R135). -/
def execShpWrite (p : Fin 512) (cls : Fin 4) (reg : Fin 3) (val : Word) (s : State) : Host.Outcome State Fault Refusal :=
  actWrite (regAddr (if reg = 0 then .shpC0 else if reg = 1 then .shpC1 else .shpC2) (shpIx p cls)) val.toNat s

/-- CL_BOB_WRITE (spec/06 R145). -/
def execClBobWrite (cluster : Fin 8) (val : Word) (s : State) : Host.Outcome State Fault Refusal :=
  actWrite (regAddr .clBob [cluster.val / 2, cluster.val % 2]) val.toNat s

/-- COLL_MEM_WRITE (spec/07 R202). -/
def execCollMemWrite (die : Fin 4) (reg : Fin 3) (val : Word) (s : State) : Host.Outcome State Fault Refusal :=
  actWrite (viaDie die (if reg = 0 then .collMemBaseLo else if reg = 1 then .collMemBaseHi else .collMemSize)) val.toNat s

/-- OPT_MEM_WRITE (spec/08 R241). -/
def execOptMemWrite (die : Fin 4) (reg : Fin 3) (val : Word) (s : State) : Host.Outcome State Fault Refusal :=
  actWrite (viaDie die (if reg = 0 then .optMemBaseLo else if reg = 1 then .optMemBaseHi else .optMemSize)) val.toNat s

/-- MEM_HASH_SEED_WRITE (spec/09 R246). -/
def execMemHashSeedWrite (val : Word) (s : State) : Host.Outcome State Fault Refusal :=
  actWrite (regAddr .memHashSeed []) val.toNat s

/-- LN_PORT_WRITE (spec/11 R292). -/
def execLnPortWrite (tile : Fin 64) (val : Word) (s : State) : Host.Outcome State Fault Refusal :=
  actWrite (regAddr .lnPort (tix tile)) val.toNat s

/-- LANE_RETRAIN: a write of LN_CTL with RETRAIN = 1 (spec/11 R463). -/
def execLaneRetrain (lane : Fin 512) (val : Word) (s : State) : Host.Outcome State Fault Refusal :=
  actBar (regAddr .lnCtl (lix lane)) (fun d => if val.getLsbD 31 then busWrite (regAddr .lnCtl (lix lane)) val.toNat d else d) s

/-- ELS_BIAS_WRITE (spec/12 R322). -/
def execElsBiasWrite (m : Fin 8) (i : Fin 9) (val : Word) (low : Bool) (s : State) : Host.Outcome State Fault Refusal :=
  actBar (regAddr .elsBias [m.val, i.val]) (busWriteX (regAddr .elsBias [m.val, i.val]) val.toNat none low) s

/-- ELS_CTL_WRITE (spec/12 R331). -/
def execElsCtlWrite (m : Fin 8) (val : Word) (s : State) : Host.Outcome State Fault Refusal :=
  actWrite (regAddr .elsCtl [m.val]) val.toNat s

/-- TIME_INC_WRITE (spec/13 R334). -/
def execTimeIncWrite (dom : Fin 2) (val : BitVec 64) (s : State) : Host.Outcome State Fault Refusal :=
  actBar (regAddr .timeIncLo [dom.val]) (busWrite64 (regAddr .timeIncLo [dom.val]) val.toNat) s

/-- TIME_ADJ (spec/13 R335). -/
def execTimeAdj (dom : Fin 2) (step : BitVec 32) (s : State) : Host.Outcome State Fault Refusal :=
  actWrite (regAddr .timeAdj [dom.val]) step.toNat s

/-- DOMAIN_SWITCH_GO (spec/13 R336). -/
def execDomainSwitchGo (s : State) : Host.Outcome State Fault Refusal := actWrite (regAddr .timeCtl []) 4 s

/-- TSQ_POP (spec/13 R341). -/
def execTsqPop (die : Fin 4) (s : State) : Host.Outcome State Fault Refusal :=
  actWrite (regAddr .timeTsqCtl [die.val]) (2 ^ 31) s

/-- RING_DOORBELL (spec/14 R349). -/
def execRingDoorbell (ring : Fin 8) (val : Word) (s : State) : Host.Outcome State Fault Refusal :=
  actWrite (regAddr .ringProdCmd [ring.val]) val.toNat s

/-- RING_CONS_WRITE (spec/14 R349). -/
def execRingConsWrite (ring : Fin 18) (val : Word) (s : State) : Host.Outcome State Fault Refusal :=
  actWrite (if ring.val < 8 then regAddr .ringConsCmd [ring.val] else regAddr .ringConsDev [ring.val - 8]) val.toNat s

/-- RING_ENABLE: a write of RING_CTL with EN = 1 (spec/14 R350). -/
def execRingEnable (ring : Fin 18) (val : Word) (s : State) : Host.Outcome State Fault Refusal :=
  actWrite (regAddr .ringCtl [ring.val]) (setBit val.toNat 31) s

/-- RING_DISABLE: a write of RING_CTL with EN = 0 (spec/14 R350). -/
def execRingDisable (ring : Fin 18) (val : Word) (s : State) : Host.Outcome State Fault Refusal :=
  actWrite (regAddr .ringCtl [ring.val]) (clrBit val.toNat 31) s

/-- TLR_BOOT_GO (spec/14 R370). -/
def execTlrBootGo (img : DmaRead) (s : State) : Host.Outcome State Fault Refusal :=
  actBar (regAddr .tlrBootCtl []) (busWriteX (regAddr .tlrBootCtl []) 0x100 (some img) false) s

/-- WARM_RESET: a write of RST_CTL with WARM = 1 (spec/15 R383). -/
def execWarmReset (val : Word) (s : State) : Host.Outcome State Fault Refusal :=
  actWrite (regAddr .rstCtl []) (setBit val.toNat 0) s

/-- REF_SELECT (spec/15 R388). -/
def execRefSelect (val : Word) (s : State) : Host.Outcome State Fault Refusal :=
  actWrite (regAddr .clkRefCtl []) val.toNat s

/-- INJECT_ARM: a write of REL_INJ_CTL with ARM = 1 (spec/16 R408). -/
def execInjectArm (val : Word) (s : State) : Host.Outcome State Fault Refusal :=
  actWrite (regAddr .relInjCtl []) (setBit val.toNat 1) s

/-- INJECT_DISARM: a write of REL_INJ_CTL with DISARM = 1 (spec/16 R408). -/
def execInjectDisarm (val : Word) (s : State) : Host.Outcome State Fault Refusal :=
  actWrite (regAddr .relInjCtl []) (setBit val.toNat 3) s

/-- ERROR_LOG_POP (spec/16 R412). -/
def execErrorLogPop (s : State) : Host.Outcome State Fault Refusal := actWrite (regAddr .relLogCtl []) (2 ^ 31) s

/-- PATROL_FULL: EN is written as it stands (spec/16 R422). -/
def execPatrolFull (s : State) : Host.Outcome State Fault Refusal :=
  actBar (regAddr .relPatrolCtl []) (fun d => busWrite (regAddr .relPatrolCtl []) (2 ^ 31 + rdf d .relPatrolCtl [] 0 0) d) s

/-- Is the register at an offset an occupancy selector? -/
def isSel (off : Nat) : Bool := match target off with | .reg r _ => (selKind r).isSome | _ => false

/-- PMC_SEL_WRITE (spec/17 R432). -/
def execPmcSelWrite (off : Nat) (val : Word) (s : State) : Host.Outcome State Fault Refusal :=
  actBar off (fun d => if isSel off then busWrite off val.toNat d else d) s

/-- PMC_MODE_WRITE (spec/17 R434). -/
def execPmcModeWrite (val : Word) (s : State) : Host.Outcome State Fault Refusal :=
  actWrite (regAddr .pmcCtl []) val.toNat s

/-- PMC_FREEZE_GO: a write of PMC_FREEZE with GO = 1 (spec/17 R436). -/
def execPmcFreezeGo (val : Word) (s : State) : Host.Outcome State Fault Refusal :=
  actWrite (regAddr .pmcFreeze []) (setBit val.toNat 31) s

end Sys2Proof.Machine
end

