-- ==== Sys2Proof/Machine/Dispatch.lean ====
section
/-! DEFINITION. The dispatcher: one arm per command. -/
namespace Sys2Proof.Machine

def exec (i : Instr) (s : State) : Host.Outcome State Fault Refusal :=
  match i with
  | .registerWrite off host tailor => Sys2Proof.Machine.execRegisterWrite off host tailor s
  | .blockLock off val => Sys2Proof.Machine.execBlockLock off val s
  | .rsvdAccess off write wide => Sys2Proof.Machine.execRsvdAccess off write wide s
  | .unsupportedAccess off bytes write => Sys2Proof.Machine.execUnsupportedAccess off bytes write s
  | .pairLoWrite off val => Sys2Proof.Machine.execPairLoWrite off val s
  | .pairHiWrite off val => Sys2Proof.Machine.execPairHiWrite off val s
  | .pair64Write off val => Sys2Proof.Machine.execPair64Write off val s
  | .pairLoRead a => Sys2Proof.Machine.execPairLoRead a s
  | .frameReceive p f => Sys2Proof.Machine.execFrameReceive p f s
  | .foreignDequeue die => Sys2Proof.Machine.execForeignDequeue die s
  | .frameTxStart p => Sys2Proof.Machine.execFrameTxStart p s
  | .frameTxEnd p => Sys2Proof.Machine.execFrameTxEnd p s
  | .orderFenceRequest die idx => Sys2Proof.Machine.execOrderFenceRequest die idx s
  | .orderRelease idx => Sys2Proof.Machine.execOrderRelease idx s
  | .lcfReceive p l => Sys2Proof.Machine.execLcfReceive p l s
  | .lcfSend p => Sys2Proof.Machine.execLcfSend p s
  | .learnInsert die => Sys2Proof.Machine.execLearnInsert die s
  | .agingSweep => Sys2Proof.Machine.execAgingSweep s
  | .fwdAgeCtlWrite die val => Sys2Proof.Machine.execFwdAgeCtlWrite die val s
  | .fwdEmSeedWrite die tbl val => Sys2Proof.Machine.execFwdEmSeedWrite die tbl val s
  | .floodRelease id => Sys2Proof.Machine.execFloodRelease id s
  | .partDrained part => Sys2Proof.Machine.execPartDrained part s
  | .tblEmStage h entry => Sys2Proof.Machine.execTblEmStage h entry s
  | .tblEmDelete h part ep => Sys2Proof.Machine.execTblEmDelete h part ep s
  | .tblEmRead h part ep => Sys2Proof.Machine.execTblEmRead h part ep s
  | .tblGrpStage h g valid part mask => Sys2Proof.Machine.execTblGrpStage h g valid part mask s
  | .tblGrpRead h g addr => Sys2Proof.Machine.execTblGrpRead h g addr s
  | .tblPartStage h part learnEn ageMax floodRate mask => Sys2Proof.Machine.execTblPartStage h part learnEn ageMax floodRate mask s
  | .tblPartState h part st => Sys2Proof.Machine.execTblPartState h part st s
  | .tblBundleStage h b n list => Sys2Proof.Machine.execTblBundleStage h b n list s
  | .tblCommit h tick tickv => Sys2Proof.Machine.execTblCommit h tick tickv s
  | .fwdEpochCommit die => Sys2Proof.Machine.execFwdEpochCommit die s
  | .epochFlip => Sys2Proof.Machine.execEpochFlip s
  | .settlingEnd => Sys2Proof.Machine.execSettlingEnd s
  | .scrubSlotRead shadow => Sys2Proof.Machine.execScrubSlotRead shadow s
  | .shadowPass img => Sys2Proof.Machine.execShadowPass img s
  | .swRsvWrite lane vc val => Sys2Proof.Machine.execSwRsvWrite lane vc val s
  | .meshInject tile => Sys2Proof.Machine.execMeshInject tile s
  | .meshFlitRoute fid ecc => Sys2Proof.Machine.execMeshFlitRoute fid ecc s
  | .meshEscape fid => Sys2Proof.Machine.execMeshEscape fid s
  | .seamFlitReceive die link f => Sys2Proof.Machine.execSeamFlitReceive die link f s
  | .seamNakReceive die link ack => Sys2Proof.Machine.execSeamNakReceive die link ack s
  | .seamRepair die link wire => Sys2Proof.Machine.execSeamRepair die link wire s
  | .depthSample tile => Sys2Proof.Machine.execDepthSample tile s
  | .portActivate p val => Sys2Proof.Machine.execPortActivate p val s
  | .portDrain p val => Sys2Proof.Machine.execPortDrain p val s
  | .portDisable p val => Sys2Proof.Machine.execPortDisable p val s
  | .portRestore p val => Sys2Proof.Machine.execPortRestore p val s
  | .portBypass p => Sys2Proof.Machine.execPortBypass p s
  | .portDisabledDrained p => Sys2Proof.Machine.execPortDisabledDrained p s
  | .portDeadRelease p => Sys2Proof.Machine.execPortDeadRelease p s
  | .portRestored p => Sys2Proof.Machine.execPortRestored p s
  | .bcastRequest tile kind unit => Sys2Proof.Machine.execBcastRequest tile kind unit s
  | .mirCtlWrite die session val => Sys2Proof.Machine.execMirCtlWrite die session val s
  | .mirrorCopySend session => Sys2Proof.Machine.execMirrorCopySend session s
  | .rtOrdSeedWrite die val => Sys2Proof.Machine.execRtOrdSeedWrite die val s
  | .polEntryRead die idx clr => Sys2Proof.Machine.execPolEntryRead die idx clr s
  | .polEntryWrite die idx => Sys2Proof.Machine.execPolEntryWrite die idx s
  | .polCmdComplete => Sys2Proof.Machine.execPolCmdComplete s
  | .shpWrite p cls reg val => Sys2Proof.Machine.execShpWrite p cls reg val s
  | .preReduceAdd tile mismatch => Sys2Proof.Machine.execPreReduceAdd tile mismatch s
  | .preWaitExpiry tile idx => Sys2Proof.Machine.execPreWaitExpiry tile idx s
  | .clBobWrite cluster val => Sys2Proof.Machine.execClBobWrite cluster val s
  | .coreAccumulate x => Sys2Proof.Machine.execCoreAccumulate x s
  | .resultSend slot chunk => Sys2Proof.Machine.execResultSend slot chunk s
  | .overlockCompare slot x => Sys2Proof.Machine.execOverlockCompare slot x s
  | .patSet h pat part n list => Sys2Proof.Machine.execPatSet h pat part n list s
  | .patClear h pat => Sys2Proof.Machine.execPatClear h pat s
  | .collCreate h c => Sys2Proof.Machine.execCollCreate h c s
  | .collDestroy h handle graceful => Sys2Proof.Machine.execCollDestroy h handle graceful s
  | .collAbort h handle => Sys2Proof.Machine.execCollAbort h handle s
  | .collQuery h handle => Sys2Proof.Machine.execCollQuery h handle s
  | .contribReceive tile => Sys2Proof.Machine.execContribReceive tile s
  | .creditSend slot => Sys2Proof.Machine.execCreditSend slot s
  | .stragglerTimeout slot chunk => Sys2Proof.Machine.execStragglerTimeout slot chunk s
  | .quarantineExpiry slot => Sys2Proof.Machine.execQuarantineExpiry slot s
  | .collMemWrite die reg val => Sys2Proof.Machine.execCollMemWrite die reg val s
  | .spillCntIssue tile => Sys2Proof.Machine.execSpillCntIssue tile s
  | .shardSet h c => Sys2Proof.Machine.execShardSet h c s
  | .shardClear h sh => Sys2Proof.Machine.execShardClear h sh s
  | .hparamSet h c => Sys2Proof.Machine.execHparamSet h c s
  | .optCommit h part step tick => Sys2Proof.Machine.execOptCommit h part step tick s
  | .optCommitTick part => Sys2Proof.Machine.execOptCommitTick part s
  | .optRollback h part step => Sys2Proof.Machine.execOptRollback h part step s
  | .optCkpt h part scope gen => Sys2Proof.Machine.execOptCkpt h part scope gen s
  | .optCkptEnd part gen rs => Sys2Proof.Machine.execOptCkptEnd part gen rs s
  | .optRestore h part gen => Sys2Proof.Machine.execOptRestore h part gen s
  | .shardRead h sh slot first count addr => Sys2Proof.Machine.execShardRead h sh slot first count addr s
  | .kernelLoad h k regs spad slots len code => Sys2Proof.Machine.execKernelLoad h k regs spad slots len code s
  | .stitchLaunch h c => Sys2Proof.Machine.execStitchLaunch h c s
  | .stitchGridEnd l => Sys2Proof.Machine.execStitchGridEnd l s
  | .stitchWatchdog l => Sys2Proof.Machine.execStitchWatchdog l s
  | .rubUpdate slot chunk => Sys2Proof.Machine.execRubUpdate slot chunk s
  | .rubUpdateDone slot chunk => Sys2Proof.Machine.execRubUpdateDone slot chunk s
  | .orthoBlockUpdate slot seg block => Sys2Proof.Machine.execOrthoBlockUpdate slot seg block s
  | .mirrorReceive tile => Sys2Proof.Machine.execMirrorReceive tile s
  | .mackReceive tile => Sys2Proof.Machine.execMackReceive tile s
  | .mackSend slot => Sys2Proof.Machine.execMackSend slot s
  | .shardSeal sh => Sys2Proof.Machine.execShardSeal sh s
  | .stitchNop l g => Sys2Proof.Machine.execStitchNop l g s
  | .exit l g => Sys2Proof.Machine.execExit l g s
  | .bra l g => Sys2Proof.Machine.execBra l g s
  | .bar l g => Sys2Proof.Machine.execBar l g s
  | .barRelease l core => Sys2Proof.Machine.execBarRelease l core s
  | .fence l g => Sys2Proof.Machine.execFence l g s
  | .sval l g => Sys2Proof.Machine.execSval l g s
  | .iadd l g => Sys2Proof.Machine.execIadd l g s
  | .isub l g => Sys2Proof.Machine.execIsub l g s
  | .imul l g => Sys2Proof.Machine.execImul l g s
  | .and l g => Sys2Proof.Machine.execAnd l g s
  | .or l g => Sys2Proof.Machine.execOr l g s
  | .xor l g => Sys2Proof.Machine.execXor l g s
  | .shl l g => Sys2Proof.Machine.execShl l g s
  | .shr l g => Sys2Proof.Machine.execShr l g s
  | .sar l g => Sys2Proof.Machine.execSar l g s
  | .icmp l g => Sys2Proof.Machine.execIcmp l g s
  | .movi l g => Sys2Proof.Machine.execMovi l g s
  | .sel l g => Sys2Proof.Machine.execSel l g s
  | .iadd64 l g => Sys2Proof.Machine.execIadd64 l g s
  | .fadd l g => Sys2Proof.Machine.execFadd l g s
  | .fmul l g => Sys2Proof.Machine.execFmul l g s
  | .ffma l g => Sys2Proof.Machine.execFfma l g s
  | .fmax l g => Sys2Proof.Machine.execFmax l g s
  | .fmin l g => Sys2Proof.Machine.execFmin l g s
  | .fcmp l g => Sys2Proof.Machine.execFcmp l g s
  | .cvt l g => Sys2Proof.Machine.execCvt l g s
  | .rcp l g => Sys2Proof.Machine.execRcp l g s
  | .rsqrt l g => Sys2Proof.Machine.execRsqrt l g s
  | .sqrt l g => Sys2Proof.Machine.execSqrt l g s
  | .exp2 l g => Sys2Proof.Machine.execExp2 l g s
  | .log2 l g => Sys2Proof.Machine.execLog2 l g s
  | .lds l g ecc => Sys2Proof.Machine.execLds l g ecc s
  | .sts l g => Sys2Proof.Machine.execSts l g s
  | .ldg l g => Sys2Proof.Machine.execLdg l g s
  | .stg l g => Sys2Proof.Machine.execStg l g s
  | .atom l g => Sys2Proof.Machine.execAtom l g s
  | .mma l x => Sys2Proof.Machine.execMma l x s
  | .mmaComplete l g => Sys2Proof.Machine.execMmaComplete l g s
  | .mwait l g => Sys2Proof.Machine.execMwait l g s
  | .optMemWrite die reg val => Sys2Proof.Machine.execOptMemWrite die reg val s
  | .memRead r ecc => Sys2Proof.Machine.execMemRead r ecc s
  | .memWrite w => Sys2Proof.Machine.execMemWrite w s
  | .memResponse n => Sys2Proof.Machine.execMemResponse n s
  | .redF32 r ecc => Sys2Proof.Machine.execRedF32 r ecc s
  | .redBf16 r ecc => Sys2Proof.Machine.execRedBf16 r ecc s
  | .redBf16w r ecc => Sys2Proof.Machine.execRedBf16w r ecc s
  | .redI32 r ecc => Sys2Proof.Machine.execRedI32 r ecc s
  | .redI64 r ecc => Sys2Proof.Machine.execRedI64 r ecc s
  | .addF32 r ecc => Sys2Proof.Machine.execAddF32 r ecc s
  | .addBf16 r ecc => Sys2Proof.Machine.execAddBf16 r ecc s
  | .addI32 r ecc => Sys2Proof.Machine.execAddI32 r ecc s
  | .addI64 r ecc => Sys2Proof.Machine.execAddI64 r ecc s
  | .cnt r ecc => Sys2Proof.Machine.execCnt r ecc s
  | .rdclr r ecc => Sys2Proof.Machine.execRdclr r ecc s
  | .memHashSeedWrite val => Sys2Proof.Machine.execMemHashSeedWrite val s
  | .memScrubRead ecc => Sys2Proof.Machine.execMemScrubRead ecc s
  | .memLanePending stack channel lane => Sys2Proof.Machine.execMemLanePending stack channel lane s
  | .memTempSample stack temp => Sys2Proof.Machine.execMemTempSample stack temp s
  | .memRefresh stack => Sys2Proof.Machine.execMemRefresh stack s
  | .boltList h addr limit => Sys2Proof.Machine.execBoltList h addr limit s
  | .boltDelete h part gen => Sys2Proof.Machine.execBoltDelete h part gen s
  | .boltExport h part gen addr => Sys2Proof.Machine.execBoltExport h part gen addr s
  | .boltHealth h addr => Sys2Proof.Machine.execBoltHealth h addr s
  | .boltProgramFail fdie plane block => Sys2Proof.Machine.execBoltProgramFail fdie plane block s
  | .boltWlMove => Sys2Proof.Machine.execBoltWlMove s
  | .boltBandErase => Sys2Proof.Machine.execBoltBandErase s
  | .boltScrubRead x => Sys2Proof.Machine.execBoltScrubRead x s
  | .boltRelocate band => Sys2Proof.Machine.execBoltRelocate band s
  | .boltRecordWrite w => Sys2Proof.Machine.execBoltRecordWrite w s
  | .lnPortWrite tile val => Sys2Proof.Machine.execLnPortWrite tile val s
  | .fecCodeword lane errs => Sys2Proof.Machine.execFecCodeword lane errs s
  | .ucwLinkDown lane => Sys2Proof.Machine.execUcwLinkDown lane s
  | .cdrLoss lane strand => Sys2Proof.Machine.execCdrLoss lane strand s
  | .fomWindowEnd lane wins signs => Sys2Proof.Machine.execFomWindowEnd lane wins signs s
  | .trainingFrameReceive lane f => Sys2Proof.Machine.execTrainingFrameReceive lane f s
  | .trainTimeout lane => Sys2Proof.Machine.execTrainTimeout lane s
  | .alignDone p skewed => Sys2Proof.Machine.execAlignDone p skewed s
  | .holdExpiry lane => Sys2Proof.Machine.execHoldExpiry lane s
  | .laneRetrain lane val => Sys2Proof.Machine.execLaneRetrain lane val s
  | .txQuietEnter lane => Sys2Proof.Machine.execTxQuietEnter lane s
  | .txWake lane => Sys2Proof.Machine.execTxWake lane s
  | .rxQuietEnter lane => Sys2Proof.Machine.execRxQuietEnter lane s
  | .rxWake lane => Sys2Proof.Machine.execRxWake lane s
  | .ringSweepDone oe tx f c res t => Sys2Proof.Machine.execRingSweepDone oe tx f c res t s
  | .toneWindowEnd oe tx f c tone w => Sys2Proof.Machine.execToneWindowEnd oe tx f c tone w s
  | .oeLaneReady lane => Sys2Proof.Machine.execOeLaneReady lane s
  | .rxpwrSample oe f c pwr => Sys2Proof.Machine.execRxpwrSample oe f c pwr s
  | .elsBusTransaction m cmd reg data replies => Sys2Proof.Machine.execElsBusTransaction m cmd reg data replies s
  | .elsBiasWrite m w val low => Sys2Proof.Machine.execElsBiasWrite m w val low s
  | .elsCtlWrite m val => Sys2Proof.Machine.execElsCtlWrite m val s
  | .elsAlert m alarm => Sys2Proof.Machine.execElsAlert m alarm s
  | .feedKill oe g => Sys2Proof.Machine.execFeedKill oe g s
  | .feedProbe oe g => Sys2Proof.Machine.execFeedProbe oe g s
  | .feedProbeEnd oe g light => Sys2Proof.Machine.execFeedProbeEnd oe g light s
  | .thimbleTrip oe f => Sys2Proof.Machine.execThimbleTrip oe f s
  | .thimbleProbe oe f => Sys2Proof.Machine.execThimbleProbe oe f s
  | .thimbleProbeEnd oe f => Sys2Proof.Machine.execThimbleProbeEnd oe f s
  | .thimbleResp oe f => Sys2Proof.Machine.execThimbleResp oe f s
  | .thimbleLit oe f => Sys2Proof.Machine.execThimbleLit oe f s
  | .timeIncWrite dom val => Sys2Proof.Machine.execTimeIncWrite dom val s
  | .timeAdj dom step => Sys2Proof.Machine.execTimeAdj dom step s
  | .timeSetLoad dom => Sys2Proof.Machine.execTimeSetLoad dom s
  | .domainSwitchGo => Sys2Proof.Machine.execDomainSwitchGo s
  | .timeSwitched => Sys2Proof.Machine.execTimeSwitched s
  | .tsqPop die => Sys2Proof.Machine.execTsqPop die s
  | .timeLaunch h c => Sys2Proof.Machine.execTimeLaunch h c s
  | .launchTarget slot => Sys2Proof.Machine.execLaunchTarget slot s
  | .frameSend h c => Sys2Proof.Machine.execFrameSend h c s
  | .ppsInEdge => Sys2Proof.Machine.execPpsInEdge s
  | .ppsLost => Sys2Proof.Machine.execPpsLost s
  | .ppsOutEdge => Sys2Proof.Machine.execPpsOutEdge s
  | .ppsOutEnd => Sys2Proof.Machine.execPpsOutEnd s
  | .ringDoorbell ring val => Sys2Proof.Machine.execRingDoorbell ring val s
  | .descriptorFetch ring d => Sys2Proof.Machine.execDescriptorFetch ring d s
  | .ringConsWrite ring val => Sys2Proof.Machine.execRingConsWrite ring val s
  | .ringEnable ring val => Sys2Proof.Machine.execRingEnable ring val s
  | .ringDisable ring val => Sys2Proof.Machine.execRingDisable ring val s
  | .ringInterrupt ring => Sys2Proof.Machine.execRingInterrupt ring s
  | .eventRecordWrite => Sys2Proof.Machine.execEventRecordWrite s
  | .coalWindowClose n => Sys2Proof.Machine.execCoalWindowClose n s
  | .coalRateIntervalEnd => Sys2Proof.Machine.execCoalRateIntervalEnd s
  | .nop h => Sys2Proof.Machine.execNop h s
  | .regRead h off count => Sys2Proof.Machine.execRegRead h off count s
  | .fwStage h off total final piece => Sys2Proof.Machine.execFwStage h off total final piece s
  | .fwActivate h => Sys2Proof.Machine.execFwActivate h s
  | .fwCommitSvn h => Sys2Proof.Machine.execFwCommitSvn h s
  | .estop h => Sys2Proof.Machine.execEstop h s
  | .estopClear h => Sys2Proof.Machine.execEstopClear h s
  | .mgmtFrameReceive f => Sys2Proof.Machine.execMgmtFrameReceive f s
  | .bootReqSend => Sys2Proof.Machine.execBootReqSend s
  | .bootImgReceive off total final piece => Sys2Proof.Machine.execBootImgReceive off total final piece s
  | .tlrBootGo img => Sys2Proof.Machine.execTlrBootGo img s
  | .tlrWatchdogExpiry core => Sys2Proof.Machine.execTlrWatchdogExpiry core s
  | .tlrRestartDone => Sys2Proof.Machine.execTlrRestartDone s
  | .porAssert => Sys2Proof.Machine.execPorAssert s
  | .brownout rail => Sys2Proof.Machine.execBrownout rail s
  | .porRelease found => Sys2Proof.Machine.execPorRelease found s
  | .startupComplete => Sys2Proof.Machine.execStartupComplete s
  | .warmReset val => Sys2Proof.Machine.execWarmReset val s
  | .i3cWarm => Sys2Proof.Machine.execI3cWarm s
  | .pcieReset k => Sys2Proof.Machine.execPcieReset k s
  | .refFail input => Sys2Proof.Machine.execRefFail input s
  | .refSwitch => Sys2Proof.Machine.execRefSwitch s
  | .refRevert => Sys2Proof.Machine.execRefRevert s
  | .refSelect val => Sys2Proof.Machine.execRefSelect val s
  | .holdoverRelock input => Sys2Proof.Machine.execHoldoverRelock input s
  | .pwrEval dom link => Sys2Proof.Machine.execPwrEval dom link s
  | .domainWake dom => Sys2Proof.Machine.execDomainWake dom s
  | .domainWakeDone dom late => Sys2Proof.Machine.execDomainWakeDone dom late s
  | .thmSample die temps => Sys2Proof.Machine.execThmSample die temps s
  | .ilimAssert die => Sys2Proof.Machine.execIlimAssert die s
  | .ilimHoldEnd die => Sys2Proof.Machine.execIlimHoldEnd die s
  | .issueRampStep cluster => Sys2Proof.Machine.execIssueRampStep cluster s
  | .injectArm val => Sys2Proof.Machine.execInjectArm val s
  | .injectDisarm val => Sys2Proof.Machine.execInjectDisarm val s
  | .injection => Sys2Proof.Machine.execInjection s
  | .errorLogPop => Sys2Proof.Machine.execErrorLogPop s
  | .suspicionDecay core => Sys2Proof.Machine.execSuspicionDecay core s
  | .patrolUnitStart u => Sys2Proof.Machine.execPatrolUnitStart u s
  | .patrolUnitEnd u fail => Sys2Proof.Machine.execPatrolUnitEnd u fail s
  | .patrolYield u => Sys2Proof.Machine.execPatrolYield u s
  | .patrolFull => Sys2Proof.Machine.execPatrolFull s
  | .patrolDone fails => Sys2Proof.Machine.execPatrolDone fails s
  | .spareIn cluster pass => Sys2Proof.Machine.execSpareIn cluster pass s
  | .pmcSelWrite off val => Sys2Proof.Machine.execPmcSelWrite off val s
  | .pmcModeWrite val => Sys2Proof.Machine.execPmcModeWrite val s
  | .pmcDump => Sys2Proof.Machine.execPmcDump s
  | .pmcDumpEnd => Sys2Proof.Machine.execPmcDumpEnd s
  | .pmcFreezeGo val => Sys2Proof.Machine.execPmcFreezeGo val s
  | .pmcFreezeTick => Sys2Proof.Machine.execPmcFreezeTick s
  | .swatchRecordWrite die => Sys2Proof.Machine.execSwatchRecordWrite die s
  | .thimbleRespDark oe f => Sys2Proof.Machine.execThimbleRespDark oe f s
  | .optRestoreEnd part gen rs => Sys2Proof.Machine.execOptRestoreEnd part gen rs s
  | .boltExportEnd part x => Sys2Proof.Machine.execBoltExportEnd part x s
  | .shardReadEnd sh => Sys2Proof.Machine.execShardReadEnd sh s
  | .ckptSideReadDone part sh => Sys2Proof.Machine.execCkptSideReadDone part sh s
  | .boltDeleteJournalled part gen => Sys2Proof.Machine.execBoltDeleteJournalled part gen s
  | .perstRelease => Sys2Proof.Machine.execPerstRelease s
  | .refGood input => Sys2Proof.Machine.execRefGood input s
  | .ilimRelease die => Sys2Proof.Machine.execIlimRelease die s
  | .tailorFrameSend t => Sys2Proof.Machine.execTailorFrameSend t s
  | .i3cDynamicAddress addr => Sys2Proof.Machine.execI3cDynamicAddress addr s

end Sys2Proof.Machine
end

