-- ==== Sys2Proof/Machine/Tick.lean ====
section
/-! DEFINITION. One TIME cycle: what happens at a tick whatever is commanded (spec/13 R333, R337, spec/16 R416,
spec/17 R431, and the counters of MESH and CORE cycles). -/
namespace Sys2Proof.Machine

/-- The clocks run: the root PLL has locked and the device has not tripped (spec/15 R390, R398, R399). -/
def clocked (d : Dev) : Bool := d.pwr.porHigh && !d.pwr.tripped && decide (2 ≤ d.pwr.step)

/-- CORE cycles in the TIME cycle that ends at a count: 4 in every 3 (spec/01 Table 01-6). -/
def coreCycles (now : Nat) : Nat := 4 * now / 3 - 4 * (now - 1) / 3

/-- The listed instances of a register. -/
def instancesOf (d : Dev) (r : Reg) : List (List Nat) :=
  d.regs.filterMap (fun e => match decodeReg e.1 with
    | some (r', ix) => if r' = r then some ix else none
    | none => none)

/-- Lane of a lane register's instance. -/
def ixLane (ix : List Nat) : Nat := 128 * ix.getD 0 0 + 8 * ix.getD 1 0 + ix.getD 2 0

/-- Does something hold on one of the ingress frames of a die? -/
def anyIng (d : Dev) (die : Nat) (p : Ing → Bool) : Bool := d.sw.ing.any (fun i => i.port / 128 == die && p i)

/-- Does a core of name 8c + j work: an operand, an open chunk or a group? -/
def coreBusy (d : Dev) (q : Nat) : Bool := !patrolReady d q

/-- Add to a counter where a condition holds. -/
def cntIf (b : Bool) (d : Dev) (s : Src) (n k : Nat) : Dev := if b then cntN d s n k else d

/-- Engine counters of a busy core (RC_FEED_STALL, RC_BANK_CONF, RC_MX_BUSY, RC_EXACT_BUSY): the model has no
clocked engines, so how many of the cycles count is free (log entry 70). -/
def engineCounters (k : Nat) (d : Dev) (q : Nat) : Dev :=
  if coreBusy d q then
    (List.range 4).foldl (fun d n =>
      cntN { d with draw := d.draw + 1 } (srcCore (coreNo q)) (7 + n) (natMin k (Config.freeWord d.draw).toNat)) d
  else d

/-- The die on which a mirror copy waits: its ingress die, or that of the port whose frames its session copies. -/
def mirDie (d : Dev) (m : MirHeld) : Nat :=
  match m.ing.bind (findIng d) with
  | some i => i.port / 128
  | none => rdf d .mirCtl [m.session] 8 0 / 128

/-- The Seam transmitters of a die toward an edge in the two MESH cycles of a TIME cycle: those with a flit count for
RT_SEAM_BUSY (spec/04 R124), and each sends two. -/
def seamCycle (d : Dev) (die e : Nat) : Dev :=
  let links := (List.range 8).map (8 * e + ·)
  let n := links.foldl (fun a l => natMax a (seamSt d die l).busy) 0
  if n = 0 then d
  else
    let d := cntN d (srcRt die 0) (14 + e) (natMin 2 n)
    links.foldl (fun d l => let x := seamSt d die l; setSeam d die l { x with busy := x.busy - 2 }) d

/-- The counters of cycles. -/
def cycleCounters (d : Dev) : Dev :=
  let k := 2
  let lvl (die : Nat) : Nat := rdf d .thmDie [die] 2 0
  let dies := [0, 1, 2, 3]
  let stk := List.range 12
  let d := cntIf (dies.any (fun x => 0 < lvl x)) d (srcSys 0 0) 2 k
  let d := cntIf (dies.any (fun x => lvl x == 4)) d (srcSys 0 0) 7 k
  let d := cntIf ((List.range 72).any (fun n => pdState d n == 3)) d (srcSys 0 0) 8 k
  let d := memHigh d
  let d := cntIf d.mem.high d (srcMem 0) 2 k
  let d := cntIf (stk.any (fun s => 0 < rdf d .memStkState [s] 9 8)) d (srcMem 0) 3 k
  let d := cntIf (stk.any (fun s => rdb d .memStkState [s] 4)) d (srcMem 0) 11 k
  let d := dies.foldl (fun d x =>
    let d := cntIf (anyIng d x (·.floodWait)) d (srcFwd x) 7 k
    let d := cntIf (anyIng d x (fun i => i.frame.hdr.order && (i.hold == .orderQ || i.hold == .fence || i.hold == .orderStall)))
      d (srcRt x 0) 9 k
    cntIf (d.rt.mirHeld.any (fun m => mirDie d m == x))
      d (srcRt x 0) 6 k) d
  let d := dies.foldl (fun d x =>
    cntIf (d.coll.ctxs.any (fun e => e.2.p.shard.toNat / 2048 == x && ckptHolds d e.2)) d (srcOpt x 0) 4 k) d
  let d := if d.seams.isEmpty then d else dies.foldl (fun d x => seamCycle (seamCycle d x 0) x 1) d
  let d := (List.range 64).foldl (fun d t => cntIf (sharedFree d t == 0) d (srcSw t) 10 k) d
  let d := ((instancesOf d .lnCtl).map ixLane).foldl (fun d l => cntIf (rdb d .lnCtl (lix l) 30) d (srcLn l) 10 k) d
  let d := ((instancesOf d .lnState).map ixLane).foldl (fun d l => cntIf (rdb d .lnState (lix l) 3) d (srcLn l) 11 k) d
  (List.range 64).foldl (engineCounters (coreCycles d.now)) d

/-- Cells of a tile's ingress pool in use. -/
def poolUsed (d : Dev) (t : Nat) : Nat :=
  d.sw.ing.foldl (fun a i => if i.port / 8 = t then a + i.res + i.shr + i.guard else a) 0

/-- Egress staging of a lane and VC: a port's cells fill its lanes in order, 36 each (log entry 71). -/
def laneEgr (d : Dev) (l v : Nat) : Nat :=
  let p := portOf d l
  natMin 36 (egrCells d p v - 36 * (l - p))

/-- Flits at a router's inputs of a channel on a plane. -/
def routerFlits (d : Dev) (t plane chan : Nat) : Nat :=
  d.sw.flights.foldl (fun a f =>
    if f.tile = t ∧ f.plane = plane ∧ f.chan = chan then a + natMin (chanDepth chan) (loadFlits d f.load) else a) 0

/-- Occupancy of a source of Table 17-1, of SRC 0x20 the 64 queues together; the feeder queues are free (log entry 71). -/
def occupancy (d : Dev) (ix : List Nat) (src u : Nat) : Nat :=
  let t := 16 * ix.getD 0 0 + ix.getD 1 0
  let die := ix.getD 0 0
  let n := 18 * die + 9 * ix.getD 1 0 + ix.getD 2 0
  let q := (nameOf d (n / 9) (n % 9)).map (8 * (n / 9) + ·)
  match src with
  | 0x01 => poolUsed d t
  | 0x02 => (pvSt d (8 * t + u / 8) (u % 8)).claim
  | 0x03 => laneEgr d (8 * t + u / 8) (u % 8)
  | 0x04 => if pdState d (112 + die) = 0 then (tgetD d.coll.pre t []).length else 0
  | 0x05 => if u / 5 = 1 ∧ pdState d (108 + die) ≠ 0 then 0 else routerFlits d (8 * tileY t + tileX t) (u / 5) (u % 5)
  | 0x10 => match q with | some q => if pdState d n = 0 then (tgetD d.coll.stg (coreNo q) []).foldl (fun a p => a + partFlits d p) 0 else 0 | none => 0
  | 0x11 => match q with
    | some q =>
      if pdState d n = 0 then
        d.coll.ctxs.foldl (fun a e => (e.2.cores.zip e.2.bob).foldl (fun a x => if x.1 = q then a + x.2.length else a) a) 0
      else 0
    | none => 0
  | 0x12 => if pdState d n = 0 then natMin 16 (Config.feederDepth d.now n u) else 0
  | 0x13 => match q with
    | some q => if pdState d n = 0 then d.opt.launches.foldl (fun a l => a + (l.groups.filter (fun g => g.core == q)).length) 0 else 0
    | none => 0
  | 0x20 => if pdState d (96 + die) = 0 then stkOcc d die else 0
  | 0x21 => if pdState d (96 + die) = 0 then pchOcc d (64 * die + u) else 0
  | 0x22 => if pdState d (96 + die) = 0 then stkBuf d die else 0
  | 0x30 => orderHeld d die
  | 0x31 => (d.fwd.learnQ.getD die []).length
  | 0x32 => (d.fwd.foreignQ.getD die []).length
  | 0x33 => if u % 2 = 1 ∧ pdState d (108 + die) ≠ 0 then 0 else ((seamSt d die u).txSeq - (seamSt d die u).acked).toNat
  | 0x34 => (d.time.tsq.getD die []).length
  | _ => 0

/-- One selector in one TIME cycle (spec/17 R431): a mean of 64 queues exceeds N where their sum exceeds 64 N. -/
def occCount (d : Dev) (off : Nat) (r : Reg) (ix : List Nat) : Dev :=
  match selKind r with
  | none => d
  | some kind =>
    let v := rd d r ix
    let n := ix.getLastD 0
    let o := occupancy d ix (bits v 29 23) (bits v 22 16)
    let lim := bits v 15 0 * (if bits v 29 23 = 0x20 then 64 else 1)
    let hit := if bit v 30 then decide (o ≤ lim) else decide (lim < o)
    let k := if kind = 1 then coreCycles d.now else 2
    if bit v 31 && hit then cntAdd d (off - 4 * n + 0x20 + 8 * n) k else d

/-- The occupancy counters of every enabled selector. -/
def occCounters (d : Dev) : Dev :=
  d.regs.foldl (fun x e =>
    if e.2.getLsbD 31 then match decodeReg e.1 with
      | some (r, ix) => occCount x e.1 r ix
      | none => x
    else x) d

/-- A domain's count after its cycle: a written TIME_SET replaces it, or what it has crossed gives an edge of the output
(R335, R343). -/
def settleDom (d : Dev) (i old : Nat) : Dev :=
  if loads d i then timeSetLoad i d else timeSetLoad i (ppsCross d i old)

/-- The counters of both domains advance, and what follows from the new counts (spec/13 R333–R338). -/
def timeCycle (d : Dev) : Dev :=
  let a := activeDom d
  let n0 := d.time.d0.ns
  let n1 := d.time.d1.ns
  let na := nsNow d
  let d := applySteps (advanceDom (advanceDom (commitsDue { d with now := d.now + 1 }) 0) 1)
  let d := settleDom (settleDom d 0 n0) 1 n1
  let d := if na / 1000000 < (dom d a).ns / 1000000 then coalRateIntervalEnd d else d
  fireTargets d

/-- One TIME cycle of the device. -/
def tick (d : Dev) : Dev :=
  if clocked d then
    let d := mgmtSend (ringsWake (dmaFlush (countClaims { d with rel := { d.rel with injected := false } })))
    fillAll (dumpStep <| idleStep <| feedMeasure (occCounters (cycleCounters (timeCycle d))))
  else d

end Sys2Proof.Machine
end

