-- ==== Sys2Proof/Safety.lean ====
section
/-! DEFINITION. What a safe run is, and the words that statements about commands are made of: a running
device, what a command does, the conditions under which a host command is carried out. -/
namespace Sys2Proof

/-- A step from this state answers a next state. -/
def Safe (s : Machine.State) : Prop := ∃ t, Machine.step s = .next t

namespace Machine

/-- The clocks run: no thermal trip has latched (spec/15 R398). -/
abbrev Powered (s : State) : Prop := s.dev.pwr.tripped = false

/-- The device serves: its clocks run, and its start-up has found every die sound (spec/01 R18, spec/15 R399). -/
abbrev Running (s : State) : Prop := serves s.dev = true

/-- The device serves, and the host or Tailor firmware reaches BAR0. -/
abbrev Reached (s : State) : Prop := serves s.dev = true ∧ reached s.dev = true

/-- The device as a command finds it: no injected effect is under way. -/
def Dev.fresh (d : Dev) : Dev := { d with rel := { d.rel with injected := false } }

/-- The command answers a next state: the queue as it was, the device changed by `f` and by nothing else. -/
def Does (c : Instr) (s : State) (f : Dev → Dev) : Prop :=
  exec c s = .next { s with dev := f s.dev.fresh }

/-- The command answers a next state: the queue as it was, the device before and after related by `P`. -/
def Gives (c : Instr) (s : State) (P : Dev → Dev → Prop) : Prop :=
  ∃ e : Dev, exec c s = .next { s with dev := e } ∧ P s.dev.fresh e

/-- The command answers a next state in which the device is as it was, no injected effect being under way. -/
def Idles (c : Instr) (s : State) : Prop := Does c s (fun d => d)

/-- A command runs: its descriptor, with its operands, stands first on its path, the path does not wait, and the general
checks of spec/14 R357 that depend on the device and on the path pass (R352, R353). -/
def Passes (d : Dev) (h : CmdHdr) (opc : Nat) (acc : Accept) (ps : List (Option Nat)) : Prop :=
  stands d h opc ps = true ∧ cmdWaits d h.path = false ∧ pathRefusal d h.path acc = none

/-- A command that passes the general checks: the device with the command taken up and its reply go to `f`. -/
def CmdDoes (c : Instr) (h : CmdHdr) (opc : Nat) (s : State) (f : Dev → Reply → Dev) : Prop :=
  Does c s (fun d => f (takeCmd d h) (replyOf d h opc))

/-- A command does `f`, its check code finding `fl` in sectors of stacked memory that it reads (spec/09 R257). -/
def DoesRead (c : Instr) (fl : List (Nat × Ecc)) (s : State) (f : Dev → Dev) : Prop := Does c s (withFlaws fl f)

/-- A host command that passes the general checks does `f`, its check code finding the flaws of its row. -/
def CmdReads (c : Instr) (h : CmdHdr) (opc : Nat) (s : State) (f : Dev → Reply → Dev) : Prop :=
  CmdDoes c h opc s (fun d rp => withFlaws h.flaws (fun d => f d rp) d)

/-- The device as a row reads it whose check code finds `fl`. -/
def Dev.reading (d : Dev) (fl : List (Nat × Ecc)) : Dev := { d.fresh with mem := { d.mem with flaws := fl } }

/-- No injection waits at a detector (spec/16 R407). -/
abbrev Unmarked (d : Dev) (id die unit : Nat) : Prop := (takeMark d id die unit).1 = none

/-- The device once the bus has counted a write access (spec/01 R21) and drawn a free value for it. -/
def Dev.written (d : Dev) : Dev := cnt1 { d with draw := d.draw + 1 } (srcRel 255 0) 9

/-- The device with one more staged operation of the epoch (spec/02 R58). -/
def Dev.staged (d : Dev) (c : Changed) : Dev :=
  { d with fwd := { d.fwd with staged := d.fwd.staged + 1, changed := d.fwd.changed ++ [c] } }

/-- The request that a stacked-memory command applies (spec/09 R247, R251). -/
def memReqOf (c : Instr) : Option MemReq :=
  match c with
  | .memWrite w => some w.r
  | .memRead r _ | .redF32 r _ | .redBf16 r _ | .redBf16w r _ | .redI32 r _ | .redI64 r _
  | .addF32 r _ | .addBf16 r _ | .addI32 r _ | .addI64 r _ | .cnt r _ | .rdclr r _ => some r
  | _ => none

/-- A register whose write has no other effect than to store its fields. -/
def plainReg (r : Reg) : Bool :=
  !([.fwdEmSeed0, .fwdEmSeed1, .fwdAgeCtl, .fwdEmCtl, .fwdEpochCtl, .swRsv, .rtPort, .rtOrdSeed, .mirCtl, .polCmd,
     .shpC0, .shpC1, .shpC2, .clBob, .collMemSize, .optMemSize, .memHashSeed, .lnPort, .lnCtl, .elsBias, .elsCtl,
     .oeCtl, .timeCtl, .timeAdj, .timeTsqCtl, .ringCtl, .ringProdCmd, .ringConsDev, .tlrBootCtl, .tblWinCtl, .rstCtl,
     .clkRefCtl, .relInjCtl, .relInjSel, .relInjArg, .relLogCtl, .relPatrolCtl, .pmcSelTile, .pmcSelCore,
     .pmcSelStack, .pmcSelDie, .pmcCtl, .pmcFreeze, .msixCtl] : List Reg).contains r

/-- A pair, by its LO half, whose write has no other effect than to store both halves. -/
def plainPair (lo : Reg) : Bool :=
  !([.collMemBaseLo, .optMemBaseLo, .ringBaseLo, .ringWbLo, .timeSetLo] : List Reg).contains lo

/-- What a write at an offset leaves: `e`, or the write held where the block there sleeps (spec/01 R20); `lk`: the
block is locked. -/
def writeOrHold (d : Dev) (off : Nat) (lk : Bool) (val : Word) (e : Dev) : Dev :=
  match asleepAt d off with
  | some n => { d.written with pwr := { d.pwr with heldWr := d.pwr.heldWr ++ [⟨n, off, lk, val⟩] } }
  | none => e

/-- RT_PORT of a port with the other fields of a write stored and STATE still the old one (spec/04 R96). -/
def portFields (d : Dev) (p val : Nat) : Dev :=
  wr d .rtPort (lix p) (putBits (putBits (putBits (putBits 0 30 28 (portState d p)) 27 26 (bits val 27 26))
    24 24 (bits val 24 24)) 23 16 (bits val 23 16))

/-- Group `g` of launch `l` stands at an instruction `w` of opcode `op`, waits at no barrier, no register that
`w` names waits for memory, its engine issues from it, and its core is ON (spec/08 R230, R231, spec/15 R392). -/
abbrev AtInstr (d : Dev) (op l g : Nat) (x : Grid) (k : Kernel) (y : Grp) (w : Nat) : Prop :=
  findGrid d l = some x ∧ tget? d.opt.kernels x.kernel = some k ∧ x.groups.find? (fun y => y.g == g) = some y ∧
  (k.code[y.pc]?).map (·.toNat) = some w ∧ iOp w = op ∧ y.bar = false ∧
  (regsUsed w).any (regWaits d l g).contains = false ∧ issues d x y = true ∧ nameOn d y.core = true

/-- D of every lane in which the guard holds, set to `f` of the lane (spec/08 R231, R232). -/
def lanesSet (y : Grp) (w : Nat) (f : Nat → Nat) : Grp := (onLanes y w).foldl (fun z lane => setRg z lane (iD w) (f lane)) y

/-- The free value that a row draws for a lane. -/
def laneFree (d : Dev) (lane : Nat) : Nat := (Config.freeWord (d.draw + lane)).toNat

/-- A row that writes D in the lanes whose guard holds and goes on to the next instruction. -/
def RowDoes (c : Instr) (s : State) (l : Nat) (y : Grp) (w : Nat) (f : Dev → Nat → Nat) : Prop :=
  Does c s (fun d => goto { d with draw := d.draw + 64 } l (lanesSet y w (f d)) (y.pc + 1))

/-- A request that meets existing addresses, has reached its stack and stands there behind no other request to its unit,
at a stack that is ON (spec/09 R244, R248, R249, spec/15 R392). -/
abbrev MemFree (d : Dev) (op : Nat) (r : MemReq) : Prop := r.addr + r.len ≤ memEnd ∧ reqWaits d op r = false

/-- Nothing of a range is poisoned, no row that reads it has found a flaw, and no injection waits at its stack (spec/09
R257, spec/16 R407). -/
abbrev MemClean (d : Dev) (a n : Nat) : Prop :=
  poisoned d a n = false ∧ d.mem.flaws = [] ∧ ∀ k ∈ sectors a n, Unmarked d 0x0C (memStack d (64 * k) / 3) (memStack d (64 * k))

/-- Elements of a request added to elements of memory, as the requester sees them, one after another, by `f` (spec/09 R251,
R252): `rw` and `mw` are the bytes of an element in the request and in memory. -/
def redSum (r : MemReq) (rw mw : Nat) (f : Nat → Nat → Nat) (d : Dev) : Dev :=
  let offs := if r.offs = [] then (List.range (r.len / mw)).map (mw * ·) else r.offs
  (offs.zip (elemsOf rw r.data offs.length)).foldl (fun d x =>
    memStore d r.src (r.addr + x.1) (leBytes mw (f (leVal (memSee d r.src (r.addr + x.1) mw)) x.2))) d

/-- Addition in bf16 with one rounding (spec/06 R150). -/
def bf16Add (m x : Nat) : Nat :=
  match fmtOf 1 with
  | some f => fenc f .rne false (fvAdd (fdec f m) (fdec f x))
  | none => m

end Machine

end Sys2Proof
end

