-- ==== Sys2Proof/Certificates/Slice0/Obligations.lean ====
section
/-! DEFINITION. The statements for the provers: what the commands do and what they leave alone, rule by rule,
and the rules of the whole machine. -/

open Sys2Proof Sys2Proof.Machine

/-! ### The step, whole-machine rules -/

/-- A step with a command at the front of the queue is that command's `exec` on the state with the queue's
rest (the model's form of the in-order queue; log entry 2 says what an empty queue does). -/
def Obligations.StepRunsFront : Prop :=
  ∀ (s : State) (c : Instr) (r : List Instr), s.pending = c :: r → step s = exec c { s with pending := r }

/-- Every step answers a next state whose queue is the rest, and is never refused; the one exception is a
stacked-memory request that reaches beyond the 576 GiB of addresses that exist.  R244 has the requester refuse such a
request before it enters the mesh, so that the device never sees one: that a row which carries one faults is the model's
(DEDUCED, log entry 79). -/
def Obligations.StepAnswersOrFaultsBeyondMemory : Prop :=
  ∀ s : State,
    (∃ t, step s = .next t ∧ t.pending = s.pending.tail) ∨
    (step s = .fault .noSuchAddress ∧
      ∃ c r q, s.pending = c :: r ∧ memReqOf c = some q ∧ memEnd < q.addr + q.len)

/-- After a thermal trip, while no POR_ASSERT and no BROWNOUT waits, a step keeps the tripped device exactly as it is.  R398
stops every clock but the always-on domain's and has the device restart only through a cold reset; that no other command,
and no TIME cycle, changes anything is the model's (DESIGN CHOICE, log entry 81). -/
def Obligations.TripLatches : Prop :=
  ∀ (d : Dev) (s t : State), s.dev = d → d.pwr.tripped = true →
    (∀ c ∈ s.pending, c ≠ .porAssert ∧ ∀ r, c ≠ .brownout r) → step s = .next t →
    t.dev = d ∧ (∀ c ∈ t.pending, c ≠ .porAssert ∧ ∀ r, c ≠ .brownout r)

/-! ### BAR0 (spec/00, spec/01) -/

/-- R7, R9 as a write sees them: in the merged value, every field of every register holds what its access type
lets the write make of it; RWL fields keep their value while the block is locked. -/
def Obligations.WriteMergesByAccessType : Prop :=
  ∀ (r : Reg) (f : Fld) (lk : Bool) (old val : Nat), f ∈ (regRow r).flds → old < 2 ^ 32 → val < 2 ^ 32 →
    bits (merge lk r old val) f.msb f.lsb =
      match f.acc with
      | .rw | .wo => bits val f.msb f.lsb
      | .ro => bits old f.msb f.lsb
      | .w1c => bits old f.msb f.lsb - (bits old f.msb f.lsb &&& bits val f.msb f.lsb)
      | .w1s => bits old f.msb f.lsb ||| bits val f.msb f.lsb
      | .rwl => if lk then bits old f.msb f.lsb else bits val f.msb f.lsb

/-- R8, R9, R18, R20, R21, R26: a write of a register without a row or an effect of its own stores the merged fields, WO
fields reading 0; of a host's and Tailor's write in one cycle the host's comes second. A write of a block's lock bit sets
it. Where the block is locked and every field that could be written is RWL, the write changes nothing, and is reported if it
would have changed one. A write to a block that sleeps is held. Before step 3 of the start-up, and with a failed die beyond
the global region, an access changes nothing. Any other register takes its own effect with the merged value: a register that
mixes RWL fields with others, written under the lock, and a lock register that does more than lock, too. Which words are a
BLOCK_LOCK is the model's choice (DESIGN CHOICE, log entry 6).
Choices of the model that it shows: registers of a sleeping block (log entry 69). -/
def Obligations.RegisterWriteStores : Prop :=
  ∀ (s : State) (off : Nat) (v w : Word) (r : Reg) (ix : List Nat),
    Reached s → aligned32 off = true → target off = .reg r ix → pairHiOf r = none → pairLoOf r = none →
    (plainReg r = true → asleepAt s.dev off = none → locked s.dev r ix = false →
      Does (.registerWrite off (some v) none) s
        (fun d => wr d.written r ix (stripWo r (merge false r (rd d r ix) v.toNat))) ∧
      Does (.registerWrite off none (some w)) s
        (fun d => wr d.written r ix (stripWo r (merge false r (rd d r ix) w.toNat))) ∧
      (locked (wr s.dev r ix (stripWo r (merge false r (rd s.dev r ix) w.toNat))) r ix = false →
        asleepAt (wr s.dev r ix (stripWo r (merge false r (rd s.dev r ix) w.toNat))) off = none →
        Does (.registerWrite off (some v) (some w)) s (fun d =>
          let m := stripWo r (merge false r (rd d r ix) w.toNat)
          wr (wr d.written r ix m).written r ix (stripWo r (merge false r (rd (wr d r ix m) r ix) v.toNat)))) ∧
      (isLockReg off = true → v.getLsbD 31 = true →
        Gives (.blockLock off v) s (fun d e =>
          rdb e r ix 31 = true ∧ e = wr d.written r ix (stripWo r (merge false r (rd d r ix) v.toNat))))) ∧
    (∀ n, asleepAt s.dev off = some n → locked s.dev r ix = false →
      let hold := fun d : Dev => { d.written with pwr := { d.pwr with heldWr := d.pwr.heldWr ++ [⟨n, off, false, v⟩] } }
      Does (.registerWrite off (some v) none) s hold ∧
      (isLockReg off = true → v.getLsbD 31 = true → Does (.blockLock off v) s hold)) ∧
    (locked s.dev r ix = true → onlyRwl r = true → asleepAt s.dev off = none →
      Does (.registerWrite off (some v) none) s
        (fun d => if lockHit true r (rd d r ix) v.toNat then lockReject (offDie off) r d.written else d.written)) ∧
    (asleepAt s.dev off = none → (locked s.dev r ix && onlyRwl r) = false →
      let lk := locked s.dev r ix
      let e := fun d : Dev => if lockHit lk r (rd d r ix) v.toNat then lockReject (offDie off) r d.written else d.written
      (plainReg r = true → Does (.registerWrite off (some v) none) s
        (fun d => wr (e d) r ix (stripWo r (merge lk r (rd d r ix) v.toNat)))) ∧
      Does (.registerWrite off (some v) none) s
        (fun d => writeReg (offDie off) r ix (merge lk r (rd d r ix) v.toNat) v.toNat none (Config.freeBool d.draw) (e d)) ∧
      (isLockReg off = true → v.getLsbD 31 = true → Does (.blockLock off v) s
        (fun d => writeReg (offDie off) r ix (merge lk r (rd d r ix) v.toNat) v.toNat none (Config.freeBool d.draw) (e d)))) ∧
    Idles (.registerWrite off none none) s ∧
    (∀ (t : State) (h w : Option Word) (wide : Bool), t.dev.pwr.step < 3 ∨ (t.dev.pwr.step = 3 ∧ 0x800000 ≤ off) →
      exec (.registerWrite off h w) t = .next t ∧ exec (.pairLoRead ⟨off, wide⟩) t = .next t)

/-- R6: an access to a reserved offset changes nothing but the count, the event and the status bit that report
it; a read returns 0, and a 64-bit read whose upper half alone is reserved returns the lower half beside 0, counted once.
Choices of the model that it shows: counts of a half-reserved access (log entry 14), DIE and UNIT of the events (log entry
31). -/
def Obligations.ReservedOffsetReadsZero : Prop :=
  ∀ (s : State) (off : Nat) (write wide : Bool), Reached s →
    ((if wide then aligned64 off && isRsvd off && isRsvd (off + 4) else aligned32 off && isRsvd off) = true →
      Does (.rsvdAccess off write wide) s (fun d =>
      if write then raise d (srcRel 255 0) 0 else { raise d (srcRel 255 0) 0 with bar := .ok 0 })) ∧
    (aligned64 off = true → isRsvd off = false → isRsvd (off + 4) = true →
      Does (.rsvdAccess off false true) s (fun d =>
        { raise d (srcRel 255 0) 0 with bar := .ok (BitVec.ofNat 64 (halfSeen d off)) }))

/-- R4: an access of another width or alignment, read or write, completes as unsupported and has no effect; an
aligned 32-bit or 64-bit read is accepted and answered, and an aligned 32-bit or 64-bit write is accepted, as one access (shown
at a counter, whose value no write changes).
Choices of the model that it shows: counts of a half-reserved access (log entry 14), what an unsupported access leaves (log
entry 17), 64-bit writes of two single registers (log entry 93). -/
def Obligations.UnsupportedAccessHasNoEffect : Prop :=
  ∀ (s : State) (off bytes : Nat) (write : Bool) (v : Word) (u : BitVec 64), Reached s →
    (¬((bytes = 4 ∧ off % 4 = 0) ∨ (bytes = 8 ∧ off % 8 = 0)) →
      Does (.unsupportedAccess off bytes write) s (fun d => { d with bar := .unsupported })) ∧
    (aligned32 off = true → Gives (.pairLoRead ⟨off, false⟩) s (fun _ e => ∃ x, e.bar = .ok x)) ∧
    (aligned64 off = true → Gives (.pairLoRead ⟨off, true⟩) s (fun _ e => ∃ x, e.bar = .ok x)) ∧
    (aligned32 off = true → target off = .cnt off false →
      Does (.registerWrite off (some v) none) s Dev.written) ∧
    (aligned64 off = true → target off = .cnt off false → target (off + 4) = .cnt off true →
      Does (.pair64Write off u) s (fun d => cnt1 d (srcRel 255 0) 9))

/-- R10: a 32-bit write of the LO half is held; the write of the HI half applies both halves, with what is held or
else the LO half as it stands, and nothing stays held; an aligned 64-bit write applies both at once.  A pair of a locked
block keeps its RWL fields, and one whose write does more takes its effect with both merged halves.
R11: a read of a LO half returns it and takes the snapshot of the HI half; the read of the HI half then returns
the snapshot, once.  An aligned 64-bit read returns both halves from one instant and leaves the snapshots alone.
Choices of the model that it shows: rows that name a kind of write (log entry 6), counts of a half-reserved access (log entry
14), 64-bit writes of two single registers (log entry 93). -/
def Obligations.PairAccesses : Prop :=
  (
    ∀ (s : State) (off : Nat) (v : Word) (u : BitVec 64) (lo hi : Reg) (ix : List Nat),
      Reached s → aligned32 off = true → target off = .reg lo ix → pairHiOf lo = some hi →
      Does (.pairLoWrite off v) s (fun d => { d.written with stage := tset d.stage (regAddr lo ix) v }) ∧
      (pairLoOf hi = some lo → pairHiOf hi = none → target (off + 4) = .reg hi ix → aligned32 (off + 4) = true →
        plainPair lo = true → locked s.dev lo ix = false →
        (regRow lo).flds.all (fun f => f.acc == .ro) = false →
        Does (.pairHiWrite (off + 4) v) s (fun d =>
          let l := match tget? d.stage (regAddr lo ix) with
            | some w => w.toNat
            | none => rd d lo ix
          wr (wr { d.written with stage := tdel d.stage (regAddr lo ix) } lo ix (merge false lo (rd d lo ix) l)) hi ix
            (merge false hi (rd d hi ix) v.toNat)) ∧
        (aligned64 off = true →
          Does (.pair64Write off u) s (fun d =>
            wr (wr { cnt1 d (srcRel 255 0) 9 with stage := tdel d.stage (regAddr lo ix) } lo ix
                (merge false lo (rd d lo ix) (u.toNat % 2 ^ 32))) hi ix
              (merge false hi (rd d hi ix) (u.toNat / 2 ^ 32))))) ∧
      (pairLoOf hi = some lo → pairHiOf hi = none → target (off + 4) = .reg hi ix → aligned32 (off + 4) = true →
        let lk := locked s.dev lo ix
        let both := fun (l h o : Nat) (d e : Dev) =>
          let e := if lockHit lk lo (rd d lo ix) l || lockHit lk hi (rd d hi ix) h then lockReject (offDie o) lo e else e
          if (lk && onlyRwl lo && onlyRwl hi) || (regRow lo).flds.all (fun f => f.acc == .ro) then e
          else writePair (offDie o) lo ix (merge lk lo (rd d lo ix) l) (merge lk hi (rd d hi ix) h) e
        Does (.pairHiWrite (off + 4) v) s (fun d =>
          both (((tget? d.stage (regAddr lo ix)).map (·.toNat)).getD (rd d lo ix)) v.toNat (off + 4) d
            { d.written with stage := tdel d.stage (regAddr lo ix) }) ∧
        (aligned64 off = true → Does (.pair64Write off u) s (fun d =>
          both (u.toNat % 2 ^ 32) (u.toNat / 2 ^ 32) off d
            { cnt1 d (srcRel 255 0) 9 with stage := tdel d.stage (regAddr lo ix) })))) ∧
  (
    ∀ (s : State) (off : Nat) (lo hi : Reg) (ix : List Nat),
      Reached s → aligned32 off = true → target off = .reg lo ix → pairHiOf lo = some hi →
      Gives (.pairLoRead ⟨off, false⟩) s (fun d e =>
        e = { d with bar := .ok (BitVec.ofNat 64 (regSeen d off lo ix)),
                     snap := tset d.snap (regAddr hi ix) (w32 (regSeen d (regAddr hi ix) hi ix)) }) ∧
      (∀ w, pairHiOf hi = none → (pairLoOf hi).isSome → target (off + 4) = .reg hi ix → aligned32 (off + 4) = true →
        tget? s.dev.snap (regAddr hi ix) = some w →
        Does (.pairLoRead ⟨(off + 4), false⟩) s (fun d =>
          { d with bar := .ok (BitVec.ofNat 64 w.toNat), snap := tdel d.snap (regAddr hi ix) })) ∧
      (aligned64 off = true → target (off + 4) = .reg hi ix →
        Does (.pairLoRead ⟨off, true⟩) s (fun d =>
          { d with bar := .ok (BitVec.ofNat 64 (regSeen d (off + 4) hi ix * 2 ^ 32 + regSeen d off lo ix)) })))

/-! ### Writes that a rule judges (spec/02 to spec/09) -/

/-- R44, R51: a hash seed is written only while the tables are empty and nothing is staged or settling, and never
to the value of the other seed, and never under the lock; a write of the aging period restarts the sweep timer.
R70, R119, R123, R135: reserve, mirror session, flow hash seed and shaper writes are stored where their rules
allow them, and else discarded, counted and reported; a shaper's token counts are kept and clamped to the new sizes.
R145, R202, R241, R246, R292, R298: Bobbin slots, the two memory regions, the interleave seed and the port widths of
a tile are written only where nothing in use depends on them, and else the write is discarded and reported; a new seed
moves every address; the lanes of a new port that may train leave DOWN.
Choices of the model that it shows: buckets of an unused shaper (log entry 30), DIE and UNIT of the events (log entry 31),
registers of a sleeping block (log entry 69). -/
def Obligations.JudgedRegisterWrites : Prop :=
  (
    ∀ (s : State) (die : Fin 4) (val : Word), Reached s →
      Does (.fwdAgeCtlWrite die val) s (fun d =>
        { wr d.written .fwdAgeCtl [] (bits val.toNat 23 0) with fwd := { d.fwd with sweepAt := d.now } }) ∧
      (∀ tbl : Fin 2, locked s.dev .fwdEmSeed0 [] = false →
        Does (.fwdEmSeedWrite die tbl val) s (fun d =>
          let me : Reg := if tbl = 0 then .fwdEmSeed0 else .fwdEmSeed1
          let other : Reg := if tbl = 0 then .fwdEmSeed1 else .fwdEmSeed0
          if emCount d = 0 ∧ d.fwd.staged = 0 ∧ d.fwd.settling = false ∧ val.toNat ≠ rd d other then
            wr d.written me [] val.toNat
          else raise d.written (srcFwd die) 13)) ∧
      (∀ tbl : Fin 2, locked s.dev .fwdEmSeed0 [] = true →
        Gives (.fwdEmSeedWrite die tbl val) s (fun d e =>
          rd e .fwdEmSeed0 = rd d .fwdEmSeed0 ∧ rd e .fwdEmSeed1 = rd d .fwdEmSeed1)) ∧
      Does (.fwdEpochCommit die) s (fun d =>
        if d.fwd.commit.isSome ∨ d.fwd.settling then
          { d.written with fwd := { d.fwd with held := d.fwd.held ++ [⟨.commit none, none, die, some (commitTick d none,
            activeDom d)⟩] } }
        else { d.written with fwd := { d.fwd with commit := some ⟨commitTick d none, activeDom d, none⟩ } })) ∧
  (
    ∀ (s : State) (die : Fin 4) (val : Word), Reached s →
      (∀ (lane : Fin 512) (vc : Fin 8), locked s.dev .swRsv (lix lane ++ [vc.val]) = false →
        Does (.swRsvWrite lane vc val) s (fun d =>
          let p := portOf d lane
          let d1 := wr d.written .swRsv (lix lane ++ [vc.val]) (bits val.toNat 11 0)
          let r := reserveOf d1 p vc
          if (0 < r ∧ r < 33) ∨ 22008 < tileReserve d1 (lane / 8) ∨ linkUp d p then
            raise d.written (srcSw (lane / 8)) 6
          else d1)) ∧
      (∀ ses : Fin 16,
        Does (.mirCtlWrite die ses val) s (fun d =>
          if bits val.toNat 27 25 < 3 then raise d.written (srcRt die 0) 0
          else wr d.written .mirCtl [ses.val] (putBits val.toNat 24 18 0))) ∧
      (locked s.dev .rtOrdSeed [] = false →
        Does (.rtOrdSeedWrite die val) s (fun d =>
          if (List.range 512).any (inService d) = true then raise d.written (srcRt die 0) 0
          else wr d.written .rtOrdSeed [] val.toNat)) ∧
      (∀ (p : Fin 512) (cls : Fin 4) (reg : Fin 3),
        Does (.shpWrite p cls reg val) s (fun d =>
          let ix := shpIx p cls
          let r : Reg := if reg = 0 then .shpC0 else if reg = 1 then .shpC1 else .shpC2
          let d1 := wr d.written r ix (merge false r (rd d r ix) val.toNat)
          let pir := rdf d1 .shpC2 ix 31 16
          if rdb d1 .shpC0 ix 31 = true ∧ (rateOf pir = 0 ∨ rateOf pir < rateOf (rdf d1 .shpC2 ix 15 0)
              ∨ rdf d1 .shpC0 ix 23 0 < 8329 ∨ rdf d1 .shpC1 ix 23 0 < 8329) then
            raise d.written (srcShp (p / 8)) 0
          else
            let b := shpNow d.written p cls
            let z := shpSize d1 p cls
            setShp d1 p cls { b with sc := intMin b.sc z.1, sp := intMin b.sp z.2 }))) ∧
  (
    ∀ (s : State) (val : Word), Reached s →
      (∀ cl : Fin 8, locked s.dev .clBob [cl.val / 2, cl.val % 2] = false →
        Does (.clBobWrite cl val) s (fun d =>
          writeOrHold d (regAddr .clBob [cl.val / 2, cl.val % 2]) false val
            (if clusterBusy d cl then raise d.written (srcCl cl) 0
             else wrf d.written .clBob [cl.val / 2, cl.val % 2] 8 0 (bits val.toNat 8 0)))) ∧
      (∀ tile : Fin 64, locked s.dev .lnPort (tix tile) = false →
        Does (.lnPortWrite tile val) s (fun d =>
          let new := tilePorts (bits val.toNat 15 0)
          let gone := (tilePorts (rdf d .lnPort (tix tile) 15 0)).filter (fun p => !new.contains p)
          writeOrHold d (regAddr .lnPort (tix tile)) false val
            (if lnPortOk (bits val.toNat 15 0) = true ∧
                ∀ p ∈ gone, ∀ j < p.2, laneState d (8 * tile + p.1 + j) = 0 then
              (new.filter (fun p => !(tilePorts (rdf d .lnPort (tix tile) 15 0)).contains p)).foldl
                (fun d p => if mayTrain d (8 * tile + p.1) then startTraining d (8 * tile + p.1) else d)
                (wr d.written .lnPort (tix tile)
                  (bits val.toNat 15 0 + 2 ^ 31 * (bits (rd d .lnPort (tix tile)) 31 31 ||| bits val.toNat 31 31)))
             else raise d.written (srcLnTile tile) 0))) ∧
      (∀ die : Fin 4, locked s.dev .collMemSize [] = false →
        Does (.collMemWrite die 2 val) s (fun d =>
          if d.coll.ctxs = [] ∧ d.coll.pats.all (fun e => !e.2.valid) ∧ collBase d + bits val.toNat 15 0 * 2 ^ 20 ≤ memEnd then
            wrf (wr (wrf d.written .collMemBaseLo [] 31 20 (rd d .collMemBaseLo / 2 ^ 20)) .collMemBaseHi [] (rd d .collMemBaseHi))
              .collMemSize [] 15 0 (bits val.toNat 15 0)
          else raise d.written (srcColl die 0) 3)) ∧
      (∀ die : Fin 4, locked s.dev .optMemSize [] = false →
        Does (.optMemWrite die 2 val) s (fun d =>
          let d1 := wrf (wr (wrf d.written .optMemBaseLo [] 31 30 (rd d .optMemBaseLo / 2 ^ 30)) .optMemBaseHi [] (rd d .optMemBaseHi))
            .optMemSize [] 9 0 (bits val.toNat 9 0)
          if d.opt.shards = [] ∧ d.opt.kernels = [] ∧ overlaps (optBase d1) (optTop d1) (collBase d1) (collTop d1) = false
              ∧ optTop d1 ≤ memEnd then d1
          else raise d.written (srcOpt die 0) 5)) ∧
      (locked s.dev .memHashSeed [] = false →
        Does (.memHashSeedWrite val) s (fun d =>
          if collUsed d = 0 ∧ optUsed d = 0 then
            let m := movedAddr (rd d .memHashSeed) val.toNat
            wr { d.written with mem := { d.mem with
                bytes := d.mem.bytes.foldl (fun t e => tput 0 t (m e.1) e.2) []
                poison := d.mem.poison.map (fun k => m (64 * k) / 64) } } .memHashSeed [] val.toNat
          else raise d.written (srcMem 0) 5)) ∧
      (locked s.dev .memHashSeed [] = true →
        Gives (.memHashSeedWrite val) s (fun d e => rd e .memHashSeed = rd d .memHashSeed)))

/-! ### Policers, ports (spec/04, spec/05, spec/11) -/

/-- R130, R131, R136, R137: POL_CMD with OP 1 writes the entry on all four dies, or discards it; with OP 0 it reads
the entry when the command completes; BUSY holds from the write to the completion.
Choices of the model that it shows: DIE and UNIT of the events (log entry 31), when the policer command acts (log entry 54). -/
def Obligations.PolicerCommands : Prop :=
  ∀ (s : State) (die : Fin 4) (k : BitVec 14), Reached s →
    Does (.polEntryWrite die k) s (fun d =>
      let new := polData d
      let busy := rdb d .polCmd [] 31
      if new.en = true ∧ (busy = true ∨ rateOf new.pir.toNat < rateOf new.cir.toNat ∨ new.cbs.toNat < 8329
          ∨ new.pbs.toNat < 8329) then raise d.written (srcPol die) 0
      else
        let w := polWrite d.written k.toNat new
        if busy then w
        else wrf { w with pol := { w.pol with cmd := some (die.val, true, false, k.toNat) } } .polCmd [] 31 31 1) ∧
    (∀ clr : Bool, rdb s.dev .polCmd [] 31 = false →
      Does (.polEntryRead die k clr) s (fun d =>
        wrf { d.written with pol := { d.pol with cmd := some (die.val, false, clr, k.toNat) } } .polCmd [] 31 31 1)) ∧
    (∀ clr : Bool, s.dev.pol.cmd = some (die.val, false, clr, k.toNat) →
      Gives .polCmdComplete s (fun d e =>
        rdb e .polCmd [] 31 = false ∧ e.pol.cmd = none ∧ polData e = polOf d k.toNat ∧
        polOf e k.toNat = polOf d k.toNat ∧
        (clr = true → (polDie e die k.toNat).green = 0 ∧ (polDie e die k.toNat).yellow = 0
          ∧ (polDie e die k.toNat).red = 0) ∧
        (clr = false → e.pol.dies = d.pol.dies) ∧
        e = { d with regs := e.regs, pol := { d.pol with cmd := none, dies := e.pol.dies } }))

/-- R95, R96: a change of RT_PORT.STATE that Table 04-2 does not list, or a change of ROLE in service, is
discarded and reported; one that it allows is stored.
R96, R115, R116, R118: what a port does when software may make it ACTIVE, DRAINING, DISABLED or RESTORING: the fields of
RT_PORT are stored, an ACTIVE or RESTORING port trains and probes its fibres, lanes of a RESTORING port that are still UP
going DOWN first (R304), a DRAINING port leaves service and gives up its direct frames, a DISABLED port takes its lanes
down.
Choices of the model that it shows: rows that name a kind of write (log entry 6), draining, and retrain delays (log entry
21), frames cut in transmission (log entry 22), causes of one cycle (log entry 120). -/
def Obligations.PortStateWrites : Prop :=
  (
    ∀ (s : State) (p : Fin 512) (val : Word), Reached s →
      (bits val.toNat 27 26 = 3 ∨ (bits val.toNat 27 26 ≠ portRole s.dev p ∧ portState s.dev p ≠ 0 ∧ portState s.dev p ≠ 3) →
        (bits val.toNat 30 28 = 1 → Does (.portActivate p val) s (fun d => raise d.written (srcRt (p / 128) 0) 0)) ∧
        (bits val.toNat 30 28 = 2 → Does (.portDrain p val) s (fun d => raise d.written (srcRt (p / 128) 0) 0)) ∧
        (bits val.toNat 30 28 = 0 → Does (.portDisable p val) s (fun d => raise d.written (srcRt (p / 128) 0) 0)) ∧
        (bits val.toNat 30 28 = 4 → Does (.portRestore p val) s (fun d => raise d.written (srcRt (p / 128) 0) 0))) ∧
      (bits val.toNat 30 28 = 1 → portState s.dev p = 3 →
        Does (.portActivate p val) s (fun d => raise d.written (srcRt (p / 128) 0) 0)) ∧
      (bits val.toNat 30 28 = 2 → portState s.dev p ≠ 1 → portState s.dev p ≠ 2 →
        Does (.portDrain p val) s (fun d => raise d.written (srcRt (p / 128) 0) 0)) ∧
      (bits val.toNat 30 28 = 4 → portState s.dev p ≠ 3 → portState s.dev p ≠ 4 →
        Does (.portRestore p val) s (fun d => raise d.written (srcRt (p / 128) 0) 0))) ∧
  (
    ∀ (s : State) (p : Fin 512) (val : Word), Reached s → bits val.toNat 27 26 = portRole s.dev p →
      portRole s.dev p ≠ 3 →
      (bits val.toNat 30 28 = 1 → portState s.dev p = 0 ∨ portState s.dev p = 2 →
        Gives (.portActivate p val) s (fun d e =>
          let d1 := portFields d.written p val.toNat
          portState (setPortState d1 p 1) p = 1 ∧
          e = probePort (startTraining (setPortState { d1 with rt := { d1.rt with
                toDisable := d1.rt.toDisable.filter (· != p.val) } } p 1) p) p)) ∧
      (bits val.toNat 30 28 = 2 → portState s.dev p = 1 →
        Does (.portDrain p val) s (fun d =>
          let d1 := setPortState (portFields d.written p val.toNat) p 2
          giveUp (if inService d p then leaveService d1 p else d1) p)) ∧
      (bits val.toNat 30 28 = 0 → portState s.dev p = 3 →
        Does (.portDisable p val) s (fun d => setDisabled (portFields d.written p val.toNat) p)) ∧
      (bits val.toNat 30 28 = 4 → portState s.dev p = 3 →
        Does (.portRestore p val) s (fun d =>
          let d1 := portFields d.written p val.toNat
          let d2 := (portLanes d1 p).foldl (fun d l => laneLeave d p l 6) d1
          probePort (startTraining (setPortState (if linkUp d1 p then dropLink d2 p else d2) p 4) p) p)))

/-- R115, R116, R118: a drained port moves to BYPASS with event PORT_BYPASS, one written DISABLED reaches DISABLED,
one with a dead link releases what waits for it, a RESTORING port in service becomes ACTIVE with event
PORT_RESTORED; where the condition does not hold nothing changes.
Choices of the model that it shows: draining, and retrain delays (log entry 21). -/
def Obligations.PortStateMoves : Prop :=
  ∀ (s : State) (p : Fin 512), Running s →
    (portState s.dev p = 2 → s.dev.rt.toDisable.contains p.val = false → egressEmpty s.dev p = true →
      waitsFor s.dev p = false →
      Does (.portBypass p) s (fun d =>
        stopTraining (event (setPortState d p 3) 0x0480 (p / 128) (p % 128) [(2, p.val)] [p.val]) p)) ∧
    (portState s.dev p ≠ 2 → Idles (.portBypass p) s) ∧
    (s.dev.rt.toDisable.contains p.val = true → egressEmpty s.dev p = true → waitsFor s.dev p = false →
      Does (.portDisabledDrained p) s (fun d => setDisabled d p)) ∧
    (s.dev.rt.toDisable.contains p.val = false → Idles (.portDisabledDrained p) s) ∧
    (portState s.dev p = 2 → linkUp s.dev p = false → Does (.portDeadRelease p) s (fun d => releasePort d p)) ∧
    (portState s.dev p ≠ 2 → Idles (.portDeadRelease p) s) ∧
    (portState s.dev p = 4 → linkUp s.dev p = true → (linkSt s.dev p).lcfRcvd = true →
      Does (.portRestored p) s (fun d =>
        event (setPortState d p 1) 0x0481 (p / 128) (p % 128) [(2, p.val)] [p.val])) ∧
    (portState s.dev p ≠ 4 → Idles (.portRestored p) s)

/-! ### Tables (spec/02) -/

/-- R56, R57, R358: with no commit under way and room in the epoch, a staging command changes the copy of the next
parity only, counts one staged operation and completes OK.  (An endpoint entry is shown for a key that stands
nowhere and a free way in table 0.)
Choices of the model that it shows: bringing in and acceptance of a command (log entry 11). -/
def Obligations.TableStaging : Prop :=
  ∀ (s : State) (h : CmdHdr), Running s → holding s.dev = false → s.dev.fwd.staged < 16384 →
    (∀ (entry : BitVec 64) (w : Nat), Passes s.dev h 0x10 .h [some entry.toNat] → emEntryOk entry.toNat = true →
      (∀ x ∈ emSlots s.dev (emKey entry.toNat).1 (emKey entry.toNat).2,
        emKey (emAt s.dev.fwd.em x) ≠ emKey entry.toNat) →
      freeWay s.dev.fwd.em (emBucket s.dev 0 (emKey entry.toNat).1 (emKey entry.toNat).2) = some w →
      CmdDoes (.tblEmStage h entry) h 0x10 s (fun d rp =>
        let x := entry.toNat
        let e := emMake (emStatic x) false (emTarget x).1 (emKey x).1 (emKey x).2 (emTarget x).2 + 2 ^ (63 - (1 - parity d))
        complete ((setEm d (emPut d.fwd.em w e)).staged
          (.em (BitVec.ofNat 12 (emKey x).1) (BitVec.ofNat 24 (emKey x).2))) rp 0 [])) ∧
    (∀ (part : BitVec 12) (ep : BitVec 24) (w : Nat), Passes s.dev h 0x11 .h [some part.toNat, some ep.toNat] →
      emFind s.dev s.dev.fwd.em part.toNat ep.toNat (1 - parity s.dev) = some w →
      CmdDoes (.tblEmDelete h part ep) h 0x11 s (fun d rp =>
        complete ((setEm d (emClear d.fwd.em w (1 - parity d))).staged (.em part ep)) rp 0 [])) ∧
    (∀ (g : BitVec 16) (valid : Bool) (part : BitVec 12) (m : List Byte), Passes s.dev h 0x13 .h [some g.toNat,
      some (b2n valid), some part.toNat, none] → Unmarked s.dev 0x20 0 0 →
      CmdDoes (.tblGrpStage h g valid part (.ok m)) h 0x13 s (fun d rp =>
        let x := grpOf d g.toNat
        let x := if parity d = 0 then { x with odd := ⟨valid, part, maskOf m⟩ } else { x with even := ⟨valid, part, maskOf m⟩ }
        complete (Dev.staged { d with fwd := { d.fwd with
          grps := tput ⟨⟨false, 0, 0⟩, ⟨false, 0, 0⟩⟩ d.fwd.grps g.toNat x } } (.grp g)) rp 0 [])) ∧
    (∀ (part : BitVec 12) (learnEn : Bool) (ageMax : BitVec 3) (rate : BitVec 10) (m : List Byte),
      Passes s.dev h 0x15 .h [some part.toNat, some (b2n learnEn), some ageMax.toNat, some rate.toNat, none] →
        Unmarked s.dev 0x20 0 0 →
      CmdDoes (.tblPartStage h part learnEn ageMax rate (.ok m)) h 0x15 s (fun d rp =>
        let x := partOf d part.toNat
        let c : PartCfg := ⟨maskOf m, learnEn, ageMax, rate⟩
        complete (Dev.staged (setPart d part.toNat (if parity d = 0 then { x with odd := c } else { x with even := c }))
          (.part part)) rp 0 [])) ∧
    (∀ (b : BitVec 8) (n : BitVec 32) (l : List Byte), Passes s.dev h 0x17 .h [some b.toNat, some n.toNat, none] →
      Unmarked s.dev 0x20 0 0 → n.toNat ≤ 64 →
      CmdDoes (.tblBundleStage h b n (.ok l)) h 0x17 s (fun d rp =>
        let x := bundleOf d b.toNat
        let x := if parity d = 0 then { x with odd := bundleList l n.toNat } else { x with even := bundleList l n.toNat }
        complete (Dev.staged { d with fwd := { d.fwd with bundles := tput ⟨[], []⟩ d.fwd.bundles b.toNat x } }
          (.bundle b)) rp 0 []))

/-- R58, R358: a table read answers from the active parity; a commit is armed at its tick, or held while one is
under way; the flip advances FWD_EPOCH, and settling copies what changed and ends.
Choices of the model that it shows: bringing in and acceptance of a command (log entry 11), bundles emptied by a flip (log
entry 91), a commit during a scrub pass (log entry 94). -/
def Obligations.TableReadsAndCommits : Prop :=
  ∀ (s : State) (h : CmdHdr), Running s →
    (∀ (part : BitVec 12) (ep : BitVec 24), Passes s.dev h 0x12 .h [some part.toNat, some ep.toNat] →
      CmdDoes (.tblEmRead h part ep) h 0x12 s (fun d rp =>
        match emLookup d (cmdDie rp) part.toNat ep.toNat with
        | some e => complete d rp 0 (packFields [(64, e)])
        | none => complete d rp 0x0D [])) ∧
    (∀ (g : BitVec 16) (addr : BitVec 64), Passes s.dev h 0x14 .h [some g.toNat, some addr.toNat] →
      CmdDoes (.tblGrpRead h g addr) h 0x14 s (fun d rp =>
        let c := if parity d = 0 then (grpOf d g.toNat).even else (grpOf d g.toNat).odd
        complete (dmaWrite d addr.toNat (leBytes 64 c.mask.toNat)) rp 0 (packFields [(1, b2n c.valid), (12, c.part.toNat)]))) ∧
    (∀ (tick : BitVec 32) (tickv : Bool), Passes s.dev h 0x18 .h [some tick.toNat, some (b2n tickv)] →
      CmdDoes (.tblCommit h tick tickv) h 0x18 s (fun d rp =>
        let t := if tickv then some tick else none
        if d.fwd.commit.isSome || d.fwd.settling then
          { d with fwd := { d.fwd with held := d.fwd.held ++
            [⟨.commit t, some rp, cmdDie rp, some (commitTick d t, activeDom d)⟩] } }
        else { d with fwd := { d.fwd with commit := some ⟨commitTick d t, activeDom d, some rp⟩ } })) ∧
    (∀ c, s.dev.fwd.commit = some c → Does .epochFlip s (fun d => bundleAborts (epochFlip d))) ∧
    (∀ c, s.dev.fwd.commit = some c → c.reply = none → (∀ x ∈ s.dev.coll.ctxs, live x.2 = false) →
      Gives .epochFlip s (fun d e =>
        rd e .fwdEpoch = (rd d .fwdEpoch + 1) % 2 ^ 32 ∧ e.fwd.commit = none ∧ e.fwd.settling = true ∧ e.fwd.staged = 0 ∧
        e.fwd.em = d.fwd.em ∧ e.fwd.grps = d.fwd.grps ∧ e.fwd.parts = d.fwd.parts ∧ e.fwd.bundles = d.fwd.bundles ∧
        (∀ a, a ≠ regAddr .fwdEpoch [] → tget? e.regs a = tget? d.regs a) ∧
        e = { d with regs := e.regs, fwd := e.fwd })) ∧
    (s.dev.fwd.commit = none → Idles .epochFlip s) ∧
    (s.dev.fwd.settling = true → s.dev.fwd.held = [] →
      Does .settlingEnd s (fun d =>
        let d1 := d.fwd.changed.foldl settleOne d
        { d1 with fwd := { d1.fwd with settling := false, changed := [] } })) ∧
    (s.dev.fwd.settling = false → Idles .settlingEnd s)

/-- R49, R51, R60, R62: a learn request inserts an unknown endpoint or refreshes a known one, the sweep ages every
learned entry, the slot scrub steps on where the replicas agree, and a shadow pass of another epoch is skipped.
Choices of the model that it shows: slots and records of a scrub (log entry 95), HIT of a static entry, and bundles learned
(log entry 96). -/
def Obligations.TableUpkeep : Prop :=
  ∀ (s : State), Running s →
    (∀ (die : Fin 4) (q : LearnReq) (r : List LearnReq) (w : Nat), s.dev.fwd.learnQ.getD die [] = q :: r →
      (∀ a, emFind s.dev s.dev.fwd.em q.part.toNat q.src.toNat a = none) →
      freeWay s.dev.fwd.em (emBucket s.dev 0 q.part.toNat q.src.toNat) = some w →
      Does (.learnInsert die) s (fun d =>
        let d1 := { d with fwd := { d.fwd with learnQ := lset d.fwd.learnQ die r } }
        setEm d1 (emPut d.fwd.em w (emMake false true (learnTarget d q.port).1 q.part.toNat q.src.toNat
          (learnTarget d q.port).2 + 2 ^ (63 - parity d) + 2 ^ (63 - (1 - parity d)))))) ∧
    (∀ (die : Fin 4) (q : LearnReq) (r : List LearnReq) (w : Nat), s.dev.fwd.learnQ.getD die [] = q :: r →
      emFind s.dev s.dev.fwd.em q.part.toNat q.src.toNat (parity s.dev) = some w →
      emTarget (emAt s.dev.fwd.em w) = learnTarget s.dev q.port →
      Does (.learnInsert die) s (fun d =>
        setEm { d with fwd := { d.fwd with learnQ := lset d.fwd.learnQ die r } }
          (emPut d.fwd.em w (setBit (emAt d.fwd.em w) 60)))) ∧
    (rdb s.dev .fwdEmCtl [] 1 = true →
      Does .agingSweep s (fun d =>
        setEm d ((d.fwd.em.map (fun x => (x.1, BitVec.ofNat 64 (ageEntry d x.2.toNat)))).filter (·.2 != 0)))) ∧
    (rdb s.dev .fwdEmCtl [] 1 = false → Idles .agingSweep s) ∧
    (∀ shadow, rdb s.dev .fwdScrubCtl [] 0 = true → s.dev.fwd.emDiff = [] →
      Does (.scrubSlotRead shadow) s (fun d => { d with fwd := { d.fwd with scrubPos := (d.fwd.scrubPos + 1) % 262144 } })) ∧
    (∀ b, rdb s.dev .fwdScrubCtl [] 0 = true → rdb s.dev .fwdScrubCtl [] 2 = true → Unmarked s.dev 0x20 0 0 →
      leAt b 0 4 ≠ rd s.dev .fwdEpoch → Does (.shadowPass (.ok b)) s (fun d => cnt1 d (srcFwd 0) 18)) ∧
    (∀ b, rdb s.dev .fwdScrubCtl [] 0 = true → rdb s.dev .fwdScrubCtl [] 2 = true → Unmarked s.dev 0x20 0 0 →
      leAt b 0 4 = rd s.dev .fwdEpoch →
      leAt b 4 4 = (s.dev.fwd.em.filter (fun e => emValid e.2.toNat (parity s.dev) && emStatic e.2.toNat)).length →
      (∀ r ∈ shadowRecords b (natMin (leAt b 4 4) ((b.length - 64) / 16)), ∀ die : Fin 4,
        ∃ e, emLookup s.dev die (emKey r).1 (emKey r).2 = some e ∧ shadowSame e r = true) →
      Idles (.shadowPass (.ok b)) s)

/-- R33, R38, R40, R53: a partition's STATE is set on all four dies at once; a drained DRAIN partition moves to OFF;
a frame held by its flood limiter goes on once its bucket holds its cost; Tailor takes the oldest foreign frame.
Choices of the model that it shows: bringing in and acceptance of a command (log entry 11), credit of a discarded frame, one
charge for a flood (log entry 24), release of held floods (log entry 97). -/
def Obligations.PartitionsAndHeldFrames : Prop :=
  ∀ (s : State), Running s →
    (∀ (h : CmdHdr) (part : BitVec 12) (st : BitVec 2), Passes s.dev h 0x16 .h [some part.toNat, some st.toNat] → st ≠ 3 →
      (partOf s.dev part.toNat).st ≠ 1 ∨ st = 1 ∨ s.dev.coll.ctxs = [] →
      CmdDoes (.tblPartState h part st) h 0x16 s (fun d rp =>
        complete (setPart d part.toNat { partOf d part.toNat with st := st }) rp 0 [])) ∧
    (∀ part : BitVec 12, (partOf s.dev part.toNat).st = 2 → (∀ die : Fin 4, partOcc s.dev part.toNat die = 0) →
      Does (.partDrained part) s (fun d =>
        event (setPart d part.toNat { partOf d part.toNat with st := 0 }) 0x0180 255 0 [(2, part.toNat)])) ∧
    (∀ part : BitVec 12, (partOf s.dev part.toNat).st ≠ 2 → Idles (.partDrained part) s) ∧
    (∀ (id : Nat) (i : Ing), findIng s.dev id = some i → i.floodWait = true →
      floodCost s.dev i.frame ≤ floodTok s.dev (i.port / 128) i.frame.hdr.part.toNat →
      Does (.floodRelease id) s (fun d =>
        setIng (setFlood d (i.port / 128) i.frame.hdr.part.toNat
          (floodTok d (i.port / 128) i.frame.hdr.part.toNat - floodCost d i.frame)) { i with floodWait := false })) ∧
    (∀ die : Fin 4, (∀ i ∈ s.dev.sw.ing, i.hold = .foreign → i.port / 128 ≠ die) →
      Does (.foreignDequeue die) s (fun d =>
        { d with fwd := { d.fwd with foreignQ := lset d.fwd.foreignQ die ((d.fwd.foreignQ.getD die []).drop 1) } }))

/-! ### Frames (spec/02 to spec/05) -/

/-- R31, R37, R76, R90: a frame that arrives whole with credit on a port whose link is up is charged to its
reserve, then to claimed shared cells, and enters the pipeline; a frame whose HCRC fails, or whose partition is
not LIVE on the port, is discarded there, its cells freed.
Choices of the model that it shows: credit of a discarded frame, one charge for a flood (log entry 24), the order of the
ingress checks (log entry 26), DIE and UNIT of the events (log entry 31), when shared cells are claimed (log entry 88). -/
def Obligations.FramesReceived : Prop :=
  ∀ (s : State) (p : Fin 512) (f : Frame), Running s → linkUp s.dev p = true → s.dev.rel.marks = [] →
    (∀ i ∈ s.dev.sw.ing, inStall i = false) → frameLen s.dev f ≤ 8266 →
    (f.etype.toNat = rdf s.dev .swLcf (tix (p / 8)) 31 16 → Does (.frameReceive p f) s (lcfReceive p (lcfOf f))) ∧
    (f.etype.toNat ≠ rdf s.dev .swLcf (tix (p / 8)) 31 16 →
    (pvSt s.dev p (vcOf s.dev f)).rcvd + frameCells s.dev f ≤ (pvSt s.dev p (vcOf s.dev f)).adv →
    Does (.frameReceive p f) s (fun d =>
      let x := takeIn d p (vcOf d f) f (frameCells d f)
      pipeline x.2 x.1) ∧
    (isForeign s.dev f = false → f.hdr.hcrc ≠ hcrcOf f.hdr →
      Does (.frameReceive p f) s (fun d =>
        let x := takeIn d p (vcOf d f) f (frameCells d f)
        discardIng (raise (stSet (cnt1 x.2 (srcFwd (p / 128)) 0) (srcFwd (p / 128)) 0) (srcSw (p / 8)) 0) x.1)) ∧
    (isForeign s.dev f = false → f.hdr.hcrc = hcrcOf f.hdr → portState s.dev p ≠ 3 →
      (partOf s.dev f.hdr.part.toNat).st ≠ 1 →
      Does (.frameReceive p f) s (fun d =>
        let x := takeIn d p (vcOf d f) f (frameCells d f)
        discardIng (raise x.2 (srcSw (p / 8)) 2) x.1)) ∧
    (isForeign s.dev f = true → f.fcs = .good → (s.dev.fwd.foreignQ.getD (p / 128) []).length < 64 →
      Does (.frameReceive p f) s (fun d =>
        let x := takeIn d p 0 f (frameCells d f)
        foreignPush (cnt1 x.2 (srcFwd (p / 128)) 2) x.1)))

/-- R74, R75: a good link-control frame gives the sender its credit on each VC and the link its first frame; one with
a bad check sequence is counted; the first of a link, one for BATCH cells of new grants and one at the end of INT
advertises every grant (VC0's not while a foreign frame waits), after the frame in transmission if there is one.  A frame
with INIT, or the first of the link, also has the demoted copies that wait at the port take VC7 where it grants VC7 cells,
and only there (R129; that they do so then is the model's, DESIGN CHOICE, log entry 140); a grant waits for its LANE
domain (spec/15 R392).
Choices of the model that it shows: VER, and when a link-control frame is due (log entry 23), bytes of a link-control frame
(log entry 110). -/
def Obligations.LinkControlFrames : Prop :=
  ∀ (s : State) (p : Fin 512) (l : Lcf), Running s → linkUp s.dev p = true →
    (l.fcs = .good → l.ver = 1 →
      Gives (.lcfReceive p l) s (fun d e =>
        (∀ v < 8, (pvSt e p v).cg = l.cg.getD v 0 ∧ (pvSt e p v).sent = (pvSt d p v).sent ∧
          (pvSt e p v).grant = (pvSt d p v).grant ∧ (pvSt e p v).rcvd = (pvSt d p v).rcvd) ∧
        (linkSt e p).lcfRcvd = true ∧ (linkSt e p).initSent = (linkSt d p).initSent ∧
        ((linkSt e p).vc7 = if l.init = true ∨ (linkSt d p).lcfRcvd = false then l.cg.getD 7 0 != 0 else (linkSt d p).vc7) ∧
        (∀ k, k / 8 ≠ p.val → tget? e.sw.pv k = tget? d.sw.pv k) ∧
        (∀ q, q ≠ p.val → tget? e.sw.link q = tget? d.sw.link q) ∧
        (l.init = false ∧ (linkSt d p).lcfRcvd = true → e.sw.egr = d.sw.egr) ∧
        (l.init = true ∨ (linkSt d p).lcfRcvd = false → (∀ i ∈ d.sw.ing, i.vcIn < 8) →
          (∀ v < 8, ∀ x ∈ egrQ e p v, ∀ i, x.ing.bind (findIng d) = some i → demoted i = true → (∀ ses, x.via ≠ .mirror ses) →
            v = if l.cg.getD 7 0 ≠ 0 then 7 else i.vcIn) ∧
          (∀ k, k / 8 ≠ p.val → tget? e.sw.egr k = tget? d.sw.egr k)) ∧
        e = { d with sw := { d.sw with pv := e.sw.pv, link := e.sw.link, egr := e.sw.egr } })) ∧
    (l.fcs = .good → l.ver ≠ 1 → Idles (.lcfReceive p l) s) ∧
    (l.fcs = .bad → Does (.lcfReceive p l) s (fun d => raise d (srcSw (p / 8)) 0)) ∧
    (l.fcs = .stomped → Does (.lcfReceive p l) s (fun d => raise (cnt1 d (srcSw (p / 8)) 8) (srcSw (p / 8)) 0)) ∧
    (portState s.dev p ≠ 3 → (∀ x ∈ portLanes s.dev p, rdb s.dev .lnCtl (lix x) 30 = false) → pdOn s.dev (80 + p / 32) = true →
      (linkSt s.dev p).initSent = false ∨ natMax 1 (rdf s.dev .swLcf (tix (p / 8)) 15 8) ≤ unadvertised s.dev p ∨
        12 * natMax 1 (rdf s.dev .swLcf (tix (p / 8)) 7 0) ≤ s.dev.now - (linkSt s.dev p).lcfAt →
      (tget? s.dev.sw.tx p = none → Gives (.lcfSend p) s (fun d e =>
        (∀ v < 8, (pvSt e p v).adv = (if v = 0 ∧ vc0Held d p = true then (pvSt d p v).adv else (pvSt d p v).grant) ∧
          (pvSt e p v).grant = (pvSt d p v).grant ∧ (pvSt e p v).cg = (pvSt d p v).cg) ∧
        (linkSt e p).initSent = true ∧ (linkSt e p).lcfAt = d.now ∧ (linkSt e p).lcfRcvd = (linkSt d p).lcfRcvd ∧
        (∃ x, tget? e.sw.tx p = some x ∧ x.shaped = false ∧ x.frame = lcfFrame d p
          ⟨1, !(linkSt d p).initSent, (List.range 8).map (fun v => BitVec.ofNat 16 (pvSt e p v).adv), .good⟩) ∧
        (∀ k, k / 8 ≠ p.val → tget? e.sw.pv k = tget? d.sw.pv k) ∧
        (∀ q, q ≠ p.val → tget? e.sw.link q = tget? d.sw.link q ∧ tget? e.sw.tx q = tget? d.sw.tx q) ∧
        e = { d with sw := { d.sw with pv := e.sw.pv, link := e.sw.link, tx := e.sw.tx } })) ∧
      (tget? s.dev.sw.tx p ≠ none → Does (.lcfSend p) s (fun d =>
        { d with sw := { d.sw with link := tset d.sw.link p { linkSt d p with lcfDue := true } } })))

/-- R110, R120, R134: a port that may start sends the head of VC0 first; the last bit of a frame ends its
transmission; a held mirror copy joins its session's queue once there is room, on a port and a VC that spec/03 R86 allows.
Choices of the model that it shows: which sessions copy (log entry 19), own frames and their staging (log entry 89). -/
def Obligations.FramesSent : Prop :=
  ∀ (s : State) (p : Fin 512), Running s →
    (∀ x, canStart s.dev p = true → headOf s.dev p 0 = some x →
      Does (.frameTxStart p) s (fun d => startVc d p 0)) ∧
    (canStart s.dev p = false → Idles (.frameTxStart p) s) ∧
    (∀ e : Egr, tget? s.dev.sw.tx p = some e → e.swatch = none → e.ing = none → e.launch = none →
      Does (.frameTxEnd p) s (fun d =>
        let d1 := completeOpt { d with sw := { d.sw with tx := tdel d.sw.tx p } } e.reply 0 []
        let d2 := if isLcf d1 p e.frame then d1
          else { d1 with sw := { d1.sw with link := tset d1.sw.link p { linkSt d1 p with idleAt := d1.now } } }
        if (linkSt d2 p).lcfDue = true ∧ linkUp d2 p = true ∧ pdOn d2 (80 + p / 32) = true then lcfStart d2 p else d2)) ∧
    (tget? s.dev.sw.tx p = none → Idles (.frameTxEnd p) s) ∧
    (∀ (ses : Fin 16) (x : MirHeld) (i : Ing), s.dev.rt.mirHeld.find? (fun h => h.session == ses.val) = some x →
      mirWay s.dev ses = true → mirCells s.dev ses + frameCells s.dev x.frame ≤ rdf s.dev .mirMaxcells [ses.val] 15 0 →
      ∀ id, x.ing = some id → findIng s.dev id = some i →
      Does (.mirrorCopySend ses) s (fun d =>
        let d1 := { d with rt := { d.rt with mirHeld := removeFirst (fun h => h.session == ses.val) d.rt.mirHeld } }
        mirTake (setIng d1 (addCopy { i with out := i.out - 1 } [mirPort d ses] (mirVc d ses) (.mirror ses)))
          ses (i.port / 8) (frameCells d x.frame)))

/-- R110, R111: a die that has not flipped for an open fence flips CUR on the request; a fence whose old halves are
empty on all four dies closes and releases its frame, and one that is not stays.
R102, R114: a tile's sample gives every tile the depth of each (port, VC) of its ports; a broadcast is accepted
outside SERVICE mode, where it starts on channel M at its tile (that of a core's Patrol unit at the core's router, R466)
toward its row, its column or every tile, and refused in it unless a Patrol unit that runs asks for it.
Choices of the model that it shows: planes of requests, data of empty flits (log entry 98), when an ORDER frame counts (log
entry 104). -/
def Obligations.FencesSamplesBroadcasts : Prop :=
  (
    ∀ (s : State) (idx : BitVec 16), Running s →
      (∀ (die : Fin 4) (id : Nat) (ds : List Nat), fenceAt s.dev idx.toNat = some (idx.toNat, id, ds) → die.val ∉ ds →
        Gives (.orderFenceRequest die idx) s (fun d e =>
          curOf e die idx.toNat = 1 - curOf d die idx.toNat ∧
          (∀ k, k ≠ die.val * 65536 + idx.toNat → tget? e.rt.cur k = tget? d.rt.cur k) ∧
          e.rt.fences = d.rt.fences.map (fun f => if f.1 = idx.toNat then (idx.toNat, id, ds ++ [die.val]) else f) ∧
          e = { d with rt := { d.rt with cur := e.rt.cur, fences := e.rt.fences } })) ∧
      (∀ die : Fin 4, fenceAt s.dev idx.toNat = none → Idles (.orderFenceRequest die idx) s) ∧
      (∀ (id : Nat) (ds : List Nat), fenceAt s.dev idx.toNat = some (idx.toNat, id, ds) →
        (∀ i ∈ s.dev.sw.ing, inStall i = false ∧ i.hold ≠ .orderQ) →
        (fenceClear s.dev idx.toNat ds = true →
          Gives (.orderRelease idx) s (fun d e =>
            fenceAt e idx.toNat = none ∧ e.rt.fences = d.rt.fences.filter (fun f => f.1 != idx.toNat) ∧
            (∀ i, findIng d id = some i → findIng e id = some { i with hold := .ready }) ∧
            (∀ j, j ≠ id → findIng e j = findIng d j) ∧
            e = { d with rt := { d.rt with fences := e.rt.fences }, sw := { d.sw with ing := e.sw.ing } })) ∧
        (fenceClear s.dev idx.toNat ds = false → Idles (.orderRelease idx) s))) ∧
  (
    ∀ (s : State) (t : Fin 64), Running s →
      Gives (.depthSample t) s (fun d e =>
        (∀ k < 8, ∀ v < 8, 0 < portW d (8 * t + k) →
          tgetD e.rt.depth (8 * (8 * t + k) + v) 0 = depthNow d (8 * t + k) v) ∧
        (∀ k, k / 64 ≠ t.val → tget? e.rt.depth k = tget? d.rt.depth k) ∧
        (∀ q, q / 8 ≠ t.val → tget? e.rt.warm q = tget? d.rt.warm q) ∧
        e = { d with rt := { d.rt with depth := e.rt.depth, warm := e.rt.warm, warmB := e.rt.warmB, sent := e.rt.sent } }) ∧
      (∀ (k : BcastKind) (u : Option PatrolUnit),
        (rdf s.dev .meshBcastCtl [bcastTile s.dev t u / 16] 1 0 ≠ 0 ∨ unitRuns s.dev u = true →
          Does (.bcastRequest t k u) s (fun d =>
            let a := bcastTile d t u
            let x := freePlane d a
            launchFlight x.2 a 2 x.1 0 (.bcast a k u) (bcastDests a k))) ∧
        (rdf s.dev .meshBcastCtl [bcastTile s.dev t u / 16] 1 0 = 0 → unitRuns s.dev u = false →
          Does (.bcastRequest t k u) s (fun d => raise d (srcRt (bcastTile d t u / 16) 0) 4)) ∧
        ((∀ n, u ≠ some (.core n)) → bcastTile s.dev t u = t) ∧
        (∀ n, u = some (.core n) → bcastTile s.dev t u = coreRouter s.dev n)))

/-! ### Mesh and Seam (spec/03) -/

/-- R79, R80, R81, R89, R107: the oldest candidate of a tile enters the mesh unless an older one elsewhere asks the same
staging; an older flight goes first through a router's output; an operand at its core's tile is staged there; one under way
goes to the neighbour that R107 chooses while a credit is free, and else waits; an uncorrectable error at a router is a
device fault; a head flit of channel A that has waited ESC_WAIT at its router moves to channel E.
R82, R83, R84: a Seam flit that passes its CRC is acknowledged and returns its credits, one that fails is kept, its SEQ
counted and a NAK sent, one that follows it is dropped until a replay start, and the sixteenth failure of one SEQ fails the
link; a NAK replays the flits after the one it names; a wire whose errors reach THRESH is mapped onto a spare and the
traffic resumes; a forwarded clock wire, or a ninth wire, fails the link. What only injected errors bring carries INJECTED
and lasts until the next training (spec/16 R409).
Choices of the model that it shows: numbers of Seam links, and the order of credits (log entry 25), the order of a device
fault (log entry 27), mesh credit at the grain of frames (log entry 28), DIE and UNIT of the events (log entry 31), places of
bits in a Seam flit (log entry 53), ties of age (log entry 73), planes of requests, data of empty flits (log entry 98),
AGE_SHIFT (log entry 103), ties between planes (log entry 130). -/
def Obligations.MeshAndSeam : Prop :=
  (
    ∀ (s : State), Running s →
      (∀ (t : Fin 64) (o : OutOp) (c : Ctx), oldest s.dev t (cands s.dev t) = some (.oper o) → ctxOf s.dev o.p.slot = some c →
        (∀ k, findChunk c o.p.chunk = some k → k.spilled = false) → outGranted s.dev t (.oper o) = false →
        Does (.meshInject t) s (fun d =>
          let d0 := tookTurn d t 8
          let d1 := { d0 with coll := { d0.coll with outq := removeFirst (fun x => x == o) d0.coll.outq } }
          (operCores c o.p).foldl (fun d q =>
            let x := pickPlane d t (meshNo (coreTile q))
            launchFlight x.2 t 0 x.1 (ageOf x.2 t o.at_) (.partial_ o.p (coreNo q)) [meshNo (coreTile q)]) d1)) ∧
      (∀ (t : Fin 64) (i : Ing) (c : Copy), oldest s.dev t (cands s.dev t) = some (.copy i c) →
        (outGranted s.dev t (.copy i c) = false →
          Does (.meshInject t) s (fun d => injectCopy (tookGrant (tookTurn d t (i.port % 8)) t (copyPvs d i c)) t i c)) ∧
        (outGranted s.dev t (.copy i c) = true → Idles (.meshInject t) s)) ∧
      (∀ t : Fin 64, cands s.dev t = [] → Idles (.meshInject t) s) ∧
      (∀ (id : Nat) (fl : Flight) (p : Partial) (core : Nat), findFlight s.dev id = some fl → fl.load = .partial_ p core →
        Unmarked s.dev 6 (tileOfN fl.tile / 16) (tileOfN fl.tile % 16) →
        (asleep s.dev fl = true ∨ outbid s.dev fl = true → Idles (.meshFlitRoute id .clean) s) ∧
        (asleep s.dev fl = false → outbid s.dev fl = false → goal fl = fl.tile →
          Does (.meshFlitRoute id .clean) s (fun d => stageOperand (leave (tookOutputs d fl) fl) core p)) ∧
        (∀ b, asleep s.dev fl = false → outbid s.dev fl = false → goal fl ≠ fl.tile → fl.chan = 0 →
          adaptive s.dev fl.plane fl.tile (goal fl) = some b →
          (mayGo s.dev fl.plane 0 fl.tile b (partFlits s.dev p) = true →
            Does (.meshFlitRoute id .clean) s (fun d => moveTo (leave (tookOutputs d fl) fl) fl b fl.dests none 0)) ∧
          (mayGo s.dev fl.plane 0 fl.tile b (partFlits s.dev p) = false → Idles (.meshFlitRoute id .clean) s)) ∧
        Does (.meshFlitRoute id .ue) s (fun d =>
          let t := tileOfN fl.tile
          deviceFault (raise d (srcMesh (t / 16) (t % 16)) 1) 1 (t / 16) (t % 16))) ∧
      (∀ (id : Nat) (fl : Flight), findFlight s.dev id = some fl →
        (fl.chan = 0 → natMax 1 (rdf s.dev .meshCtl [dieOfN fl.tile] 7 0) ≤ 2 * (s.dev.now - fl.since) →
          Does (.meshEscape id) s (fun d =>
            cnt1 { d with sw := { d.sw with flights := d.sw.flights.map (fun f => if f.id = id then { f with chan := 1 } else f) } }
              (srcMesh (dieOfN fl.tile) 0) 6)) ∧
        (fl.chan ≠ 0 ∨ 2 * (s.dev.now - fl.since) < natMax 1 (rdf s.dev .meshCtl [dieOfN fl.tile] 7 0) →
          Idles (.meshEscape id) s))) ∧
  (
    ∀ (s : State) (die : Fin 4) (link : Fin 16), Running s →
      (∀ f : SeamFlit, Unmarked s.dev 7 die link →
        let off := fun d : Dev => setSeam d (seamFar die link) link
          { seamSt d (seamFar die link) link with wires := (seamSt d (seamFar die link) link).wires.drop 1 }
        let x := seamSt (off s.dev.fresh) die link
        (seamCrc f = f.side.toNat % 2 ^ 32 → x.waiting = false ∨ seamType f = 2 → x.failed = none → seamType f ≠ 3 →
          Does (.seamFlitReceive die link f) s (fun d =>
            let y := seamAcked (seamSt (off d) die link) (seamAck f)
            let c := bits f.side.toNat 45 43
            setSeam (off d) die link { y with
              used := tput 0 y.used c (tgetD y.used c 0 - bits f.side.toNat 42 38), waiting := false,
              rxSeq := if seamType f = 0 ∨ seamType f = 2 then seamSeq f else y.rxSeq })) ∧
        (seamCrc f = f.side.toNat % 2 ^ 32 → x.waiting = true → seamType f ≠ 2 →
          Does (.seamFlitReceive die link f) s off) ∧
        (seamCrc f ≠ f.side.toNat % 2 ^ 32 →
          (x.waiting = true → x.failed.map seamSeq = some (seamSeq f)) →
          Does (.seamFlitReceive die link f) s (fun d =>
            let x := seamSt (off d) die link
            let n := match x.failed with
              | some b => if seamSeq b = seamSeq f then x.fails + 1 else 1
              | none => 1
            let d1 := setSeam (trace (binError (cnt1 (off d) (srcMesh die link) 4) 0 die) 7 die link) die link
              { x with waiting := true, failed := some f, fails := n }
            let d2 := seamPut d1 die link [mkFlit (fillData d1) x.txSeq x.rxSeq 3 0 0]
            if n = 16 then seamFail d2 die link else d2))) ∧
      (∀ ack : BitVec 8,
        Does (.seamNakReceive die link ack) s (fun d =>
          let x := seamSt d die link
          let n := if x.naks ≠ 0 ∧ x.nakSeq = ack then x.naks + 1 else 1
          let d1 := setSeam (cnt1 (retrace d 7 (seamFar die link) link) (srcMesh die link) 5) die link { seamAcked x ack with nakSeq := ack, naks := n }
          let d2 := seamPut d1 die link (mkFlit (fillData d1) ack x.rxSeq 2 0 0 :: flitsAfter x ack)
          if n = 16 ∧ (seamSt d2 (seamFar die link) link).fails < 16 then seamFail d2 die link else d2)) ∧
      (∀ wire : BitVec 10,
        let w := wire.toNat
        let counts := fun d : Dev => wireDue d die link w &&
          decide (((wireErrs d die link w).filter (fun e => !e.2)).length < natMax 1 (rdf d .seamRepairCtl [die] 7 0))
        let marked := fun d : Dev => { d with rel := { d.rel with injected := counts d } }
        (536 ≤ w → Does (.seamRepair die link wire) s (fun d => seamFail (marked d) die link)) ∧
        (w < 536 → wireDue s.dev die link w = false → Idles (.seamRepair die link wire) s) ∧
        (w < 536 → wireDue s.dev die link w = true → (seamSt s.dev die link).mapped.length < 8 →
          Does (.seamRepair die link wire) s (fun d =>
            let x := seamSt d die link
            let tm := if (marked d).rel.injected then x.tempMap ++ [w] else x.tempMap
            let y := { x with wireErr := tdel x.wireErr w, mapped := x.mapped ++ [w], tempMap := tm }
            let d1 := setSeam (marked d) die link y
            seamResume (raise (wrf d1 .seamState [die.val, link.val] 3 0 (x.mapped.length + 1)) (srcMesh die link) 2
              [(1, link.val), (2, w)]) die link)) ∧
        (w < 536 → wireDue s.dev die link w = true → 8 ≤ (seamSt s.dev die link).mapped.length →
          Does (.seamRepair die link wire) s (fun d => seamFail (marked d) die link))))

/-! ### Lanes (spec/11) -/

/-- R291, R294, R303, R304: a codeword is counted by its symbol errors, 16 or more of them making it uncorrectable; too many
uncorrectable codewords take the port down with cause UCW, but those of a lane in Rx-quiet; loss of lock takes it down with
cause CDR, or fails the training; at the end of the retrain delay a lane waits for its optics.
R290, R295, R296, R300–R302, R318: in training, two good windows and a good partner FOM align the lane, a frame
of the partner sets its FOM and mapping and counts a warm or cold start, a width mismatch or a time-out fails the
training, and the end of alignment brings every lane of the port UP with event LINK_UP.
Choices of the model that it shows: claims of SX and causes of training failures (log entry 20), DIE and UNIT of the events
(log entry 31), frames of an earlier link (log entry 50), adaptation (log entry 118), causes of one cycle (log entry 120),
the CRC of a training frame (log entry 123). -/
def Obligations.Lanes : Prop :=
  (
    ∀ (s : State) (l : Fin 512), Running s →
      (∀ errs : Nat, laneState s.dev l = 5 → rdb s.dev .lnState (lix l) 3 = false → Unmarked s.dev 3 (l / 128) (l % 128) →
        Gives (.fecCodeword l errs) s (fun d e =>
          let x := laneSt d l
          let age := ((x.ucwAge.map (· + 1)).filter (· < 8192)).take 256
          (errs = 0 → e = setLane (cnt1 d (srcLn l) 4) l { x with ucwRun := 0, ucwAge := age }) ∧
          (0 < errs → errs < 16 →
            e = setLane (binError (cntN (cnt1 (cnt1 d (srcLn l) 4) (srcLn l) 5) (srcLn l) 6 errs) 3 (l / 128)) l
              { x with ucwRun := 0, ucwAge := age }) ∧
          (16 ≤ errs →
            e = setLane (cnt1 (cnt1 d (srcLn l) 4) (srcLn l) 7) l { x with ucwRun := x.ucwRun + 1, ucwAge := 0 :: age }))) ∧
      (∀ errs : Nat, laneState s.dev l ≠ 5 → Idles (.fecCodeword l errs) s) ∧
      (rdb s.dev .lnState (lix l) 3 = false →
        8 ≤ (laneSt s.dev l).ucwRun ∨ natMax 1 (rdf s.dev .lnThresh (tix (l / 8)) 7 0) ≤ (laneSt s.dev l).ucwAge.length →
        Does (.ucwLinkDown l) s (fun d => portDown d (portOf d l) 2)) ∧
      (rdb s.dev .lnState (lix l) 3 = true ∨ ((laneSt s.dev l).ucwRun < 8 ∧
        (laneSt s.dev l).ucwAge.length < natMax 1 (rdf s.dev .lnThresh (tix (l / 8)) 7 0)) → Idles (.ucwLinkDown l) s) ∧
      (∀ strand : Fin 5, (if strand = 4 then (laneSt s.dev l).claim ≠ none else (laneSt s.dev l).claim ≠ some strand.val) →
        (laneState s.dev l = 5 → Does (.cdrLoss l strand) s (fun d => portDown d (portOf d l) 1)) ∧
        (1 < laneState s.dev l → laneState s.dev l ≤ 4 →
          Does (.cdrLoss l strand) s (fun d => toHold (raise (setCause d l 1) (srcLn l) 1 [(1, 1)] [l.val]) l))) ∧
      (laneState s.dev l = 6 →
        Does (.holdExpiry l) s (fun d => if mayTrain d (portOf d l) then toWait d l else toDown d l)) ∧
      (laneState s.dev l ≠ 6 → Idles (.holdExpiry l) s)) ∧
  (
    ∀ (s : State) (l : Fin 512), Running s →
      (∀ wins signs, laneState s.dev l < 2 ∨ rdb s.dev .lnState (lix l) 3 = true → Idles (.fomWindowEnd l wins signs) s) ∧
      (∀ wins signs, rdb s.dev .lnState (lix l) 3 = false → laneState s.dev l = 4 ∨ laneState s.dev l = 5 →
        Does (.fomWindowEnd l wins signs) s (fun d =>
          let foms := (List.range 5).map (fun k => if rxFailed d l k then 0
            else winFom (rdf d .lnCtl (lix l) 7 0) (wins.getD k default))
          let d1 := sendTraining (latchFom d l foms signs) l
          if laneState d l = 5 then weakCheck d1 l foms else d1)) ∧
      (∀ f : TrainFrame, goodTraining f = true → 2 ≤ laneState s.dev l → laneState s.dev l ≤ 4 →
        f.width.toNat = lnW s.dev (portOf s.dev l) →
        Does (.trainingFrameReceive l f) s (fun d =>
          let x := laneSt d l
          let cold := cnt1 (setTaps d l []) (srcLn l) 9
          let d1 := if x.checked then d else if x.key = some (f.serial, f.lane) then cnt1 d (srcLn l) 8
            else { setLane cold l { laneSt cold l with freq := Config.freeWord cold.draw } with draw := cold.draw + 1 }
          wrf (setLane d1 l { laneSt d1 l with checked := true, partnerFom := f.minfom.toNat, partner := some (f.serial, f.lane) })
            .lnSpare (lix l) 7 4 f.rxmap.toNat)) ∧
      (∀ f : TrainFrame, goodTraining f = true → 2 ≤ laneState s.dev l → laneState s.dev l ≤ 4 →
        f.width.toNat ≠ lnW s.dev (portOf s.dev l) →
        Does (.trainingFrameReceive l f) s (fun d => toHold (raise (setCause d l 7) (srcLn l) 1 [(1, 7)] [l.val]) l)) ∧
      (∀ f : TrainFrame, f.marker ≠ trainMarker ∨ f.crc.toNat ≠ trainCrc f → Idles (.trainingFrameReceive l f) s) ∧
      (laneState s.dev l = 3 ∨ (laneState s.dev l = 2 ∧ (failing s.dev l).length ≠ 1) →
        Does (.trainTimeout l) s (fun d => toHold (raise (setCause d l 10) (srcLn l) 1 [(1, 10)] [l.val]) l)) ∧
      (∀ k, laneState s.dev l = 2 → failing s.dev l = [k] → Does (.trainTimeout l) s (fun d => mapSpare d l k)) ∧
      (portLanes s.dev l ≠ [] → (∀ j ∈ portLanes s.dev l, laneState s.dev j = 4) →
        Does (.alignDone l true) s (fun d => (portLanes d l).foldl (fun d j => trainFail d j 8) d) ∧
        Does (.alignDone l false) s (fun d =>
          let d1 := (portLanes d l).foldl (fun d j => setLnState (setLane d j { laneSt d j with
            upAt := some d.now, ucwRun := 0, ucwAge := [], weak := [] }) j 5) d
          event (startCredits d1 l) 0x0E80 (l / 128) (l % 128) [(2, l.val)] [l.val])) ∧
      ((∃ j ∈ portLanes s.dev l, laneState s.dev j ≠ 4) → ∀ k, Idles (.alignDone l k) s))

/-- R305, R306, R463: a lane enters Tx-quiet only when it has been idle for IDLE_NS and is enabled, and Rx-quiet only with
RX_EN while UP; waking clears the state; a write of LN_CTL stores its fields, and with RETRAIN restarts the port's training.
Choices of the model that it shows: rows that name a kind of write (log entry 6), draining, and retrain delays (log entry
21), registers of a sleeping block (log entry 69), idle time of a port (log entry 124). -/
def Obligations.QuietAndRetrain : Prop :=
  ∀ (s : State) (l : Fin 512), Running s →
    Gives (.txQuietEnter l) s (fun d e =>
      (rdb d .lnQuiet (lix l) 31 = true ∧ laneState d l = 5 ∧ egressEmpty d (portOf d l) = true ∧
        6 * natMax 1 (rdf d .lnQuiet (lix l) 19 0) ≤ 5 * (d.now - (linkSt d (portOf d l)).idleAt) ∧
        unadvertised d (portOf d l) = 0 → rdb e .lnCtl (lix l) 30 = true ∧ e = wrf d .lnCtl (lix l) 30 30 1) ∧
      (¬(rdb d .lnQuiet (lix l) 31 = true ∧ laneState d l = 5 ∧ egressEmpty d (portOf d l) = true ∧
        6 * natMax 1 (rdf d .lnQuiet (lix l) 19 0) ≤ 5 * (d.now - (linkSt d (portOf d l)).idleAt) ∧
        unadvertised d (portOf d l) = 0) → e = d)) ∧
    Gives (.txWake l) s (fun d e =>
      (egressEmpty d (portOf d l) = false ∨
        natMax 1 (rdf d .swLcf (tix (portOf d l / 8)) 15 8) ≤ unadvertised d (portOf d l) ∨
        (∃ x ∈ d.time.launches, x.port = portOf d l) →
        rdb e .lnCtl (lix l) 30 = false ∧ e = wrf d .lnCtl (lix l) 30 30 0) ∧
      (egressEmpty d (portOf d l) = true → unadvertised d (portOf d l) = 0 → d.time.launches = [] → e = d)) ∧
    Gives (.rxQuietEnter l) s (fun d e =>
      (rdb d .lnQuiet (lix l) 30 = true → laneState d l = 5 →
        rdb e .lnState (lix l) 3 = true ∧ laneState e l = 5 ∧ e = wrf d .lnState (lix l) 3 3 1) ∧
      (rdb d .lnQuiet (lix l) 30 = false ∨ laneState d l ≠ 5 → e = d)) ∧
    Gives (.rxWake l) s (fun d e =>
      rdb e .lnState (lix l) 3 = false ∧ laneState e l = laneState d l ∧ e = wrf d .lnState (lix l) 3 3 0) ∧
    (∀ val : Word, Reached s →
      Does (.laneRetrain l val) s (fun d =>
        if val.getLsbD 31 then
          writeOrHold d (regAddr .lnCtl (lix l)) (locked d .lnCtl (lix l)) val
            (retrainPort (portOf d l) (wrf d.written .lnCtl (lix l) 15 0 (bits val.toNat 15 0)))
        else d))

/-! ### Pre-reducers, cores, contexts (spec/06, spec/07) -/

/-- R162, R163, R191: a contribution that passed its checks leaves the ingress pool and goes on alone where its tile
may not combine; a FAST one begins a partial of its chunk, and the last of the tile's members completes it; an
expired wait sends what has combined; a spilled operand's CNT follows its acknowledgements.
Choices of the model that it shows: planes of requests, data of empty flits (log entry 98), what Overlock repeats (log entry
112). -/
def Obligations.PreReduction : Prop :=
  ∀ (s : State) (tile : Fin 64), Running s →
    (∀ mm : Bool, tgetD s.dev.coll.preQ tile [] = [] → Idles (.preReduceAdd tile mm) s) ∧
    (∀ (mm : Bool) (id : Nat) (rest : List Nat) (i : Ing) (c : Ctx),
      let d := freeIng { s.dev.fresh with coll := { s.dev.coll with preQ := tput [] s.dev.coll.preQ tile rest } } id
      let ch := i.frame.chdr
      let slot := ch.handle.toNat % 16384
      let vals := elemsOf (typeBytes c.p.itype.toNat) i.frame.payload ch.elems.toNat
      let one := singleOf slot ch.chunk.toNat ch.rank.toNat c.p.itype.toNat vals
      let off := rdb d .preCtl (tix tile) 31 || rdb d .preCtl (tix tile) 30 || !pdOn d (112 + tile / 16)
      let v := vals.map (accInput c.p.op.toNat c.p.mode.toNat c.p.itype.toNat)
      let n := membersOn d c tile
      tgetD s.dev.coll.preQ tile [] = id :: rest → findIng s.dev id = some i → ctxOf d slot = some c →
      (live c = false ∨ c.gen ≠ ch.gen → Does (.preReduceAdd tile mm) s (fun _ => d)) ∧
      (live c = true → c.gen = ch.gen → off = true ∨ c.p.op.toNat = opBcast ∨ c.p.op.toNat = opBarrier →
        Does (.preReduceAdd tile mm) s (fun _ => pushOut d tile one)) ∧
      (live c = true → c.gen = ch.gen → off = false → c.p.op.toNat ≠ opBcast → c.p.op.toNat ≠ opBarrier →
        effMode c.p = 0 → 4 ≤ n * typeBytes c.p.itype.toNat →
        (preOf d tile = [] → Unmarked d 0x0A (tile / 16) (tile % 16) →
          Does (.preReduceAdd tile true) s (fun _ => preMismatch d tile slot ch.chunk.toNat)) ∧
        (preOf d tile = [] → Unmarked d 0x0A (tile / 16) (tile % 16) → 2 ≤ n →
          Does (.preReduceAdd tile false) s (fun _ =>
            setPre d tile [⟨slot, ch.chunk.toNat, 0, 1, d.now, [ch.rank.toNat], v, []⟩])) ∧
        (∀ x : PreSlot, preOf d tile = [x] → x.slot = slot → x.chunk = ch.chunk.toNat → x.pos = 0 → x.size = 1 →
          Unmarked d 0x0A (tile / 16) (tile % 16) → x.ranks.length + 1 = n →
          Does (.preReduceAdd tile false) s (fun _ =>
            cnt1 (pushOut (setPre d tile []) tile
              (partialOf c.p { x with ranks := x.ranks ++ [ch.rank.toNat], sum := vecAdd c.p x.sum v }))
              (srcPre tile) 1)))) ∧
    (∀ (idx : Nat) (x : PreSlot) (rest : List PreSlot) (c : Ctx), takeAt (preOf s.dev tile) idx = some (x, rest) →
      ctxOf s.dev x.slot = some c →
      Does (.preWaitExpiry tile idx) s (fun d =>
        let d1 := cnt1 (setPre d tile rest) (srcPre tile) 3
        if effMode c.p = 1 then
          x.items.foldl (fun d it =>
            pushOut d tile (singleOf x.slot x.chunk it.1 c.p.itype.toNat it.2)) d1
        else cnt1 (pushOut d1 tile (partialOf c.p x)) (srcPre tile) 1)) ∧
    (∀ idx : Nat, takeAt (preOf s.dev tile) idx = none → Idles (.preWaitExpiry tile idx) s) ∧
    (∀ (x : SpillOp) (c : Ctx), s.dev.coll.spills.find? (fun x => x.tile == tile.val && x.wait == 0) = some x →
      ctxOf s.dev x.slot = some c →
      Does (.spillCntIssue tile) s (fun d =>
        let rest := removeFirst (fun y : SpillOp => y.tile == tile.val && y.wait == 0) d.coll.spills
        let y := freePlane { d with coll := { d.coll with spills := rest } } tile
        launchFlight y.2 tile 3 y.1 0 (.memQ ⟨25, ⟨.tile tile x.slot x.chunk x.id, spillAddr c x.chunk, 4,
          leBytes 4 x.count ++ [BitVec.ofNat 8 (coreOf c x.chunk)], []⟩⟩) [meshNo (stackTile d (spillAddr c x.chunk))])) ∧
    ((∀ x ∈ s.dev.coll.spills, x.tile ≠ tile.val ∨ x.wait ≠ 0) → Idles (.spillCntIssue tile) s)

/-- R155, R158, R159, R168, R190: a core takes the oldest operand and adds it in the accumulation format (BCAST and
BARRIER keep it); an agreeing shadow marks a sampled chunk compared, a differing one aborts the context with reason
REDUCER; a complete result is converted, checked and sent, and its chunk forgotten.
Choices of the model that it shows: marks of injections (log entry 18), segments before an ABORT frame (log entry 90),
accesses within a command (log entry 100), what Overlock repeats (log entry 112). -/
def Obligations.CoreWork : Prop :=
  ∀ (s : State), Running s →
    (∀ (core : Fin 72) (x : Partial) (c : Ctx) (k : Chunk) (fl : List (Nat × Ecc)),
      let q := 8 * (core.val / 9) + core.val % 9
      nextOperand s.dev core (tgetD s.dev.coll.stg core []) = some x → nameUp s.dev q = true → nameOn s.dev q = true →
      ctxOf s.dev x.slot = some c → findChunk c x.chunk = some k → live c = true → shadowChunk s.dev core x = none →
      Unmarked s.dev 9 (q / 16) (coreNo q) →
      let off := fun d : Dev => { d with coll := { d.coll with
        stg := tput [] d.coll.stg core (removeFirst (fun y => y == x) (tgetD d.coll.stg core [])) } }
      let n := if c.p.op.toNat = opBcast then 1 else c.members.length
      let v := operandVals c.p x
      let sum := match k.acc with
        | none => v
        | some a => if c.p.op.toNat = opBcast ∨ c.p.op.toNat = opBarrier then v else vecAdd c.p a v
      let k1 := { k with acc := some sum, count := k.count + x.count, log := k.log ++ [x.ranks] }
      (k.done = false → effMode c.p ≠ 1 → k.count + x.count + k.memCount < n →
        DoesRead (.coreAccumulate ⟨core, .clean, fl⟩) fl s (fun d => setCtx (off d) x.slot (setChunk c k1))) ∧
      (k.done = false → effMode c.p ≠ 1 → n ≤ k.count + x.count → k.memCount = 0 →
        DoesRead (.coreAccumulate ⟨core, .clean, fl⟩) fl s (fun d =>
          finishChunk (setCtx (off d) x.slot (setChunk c k1)) x.slot (setChunk c k1) k1)) ∧
      (c.p.op.toNat ≠ opBarrier →
        DoesRead (.coreAccumulate ⟨core, .ue, fl⟩) fl s (fun d =>
          abortCtx (off (addSusp (raise d (srcCore (coreNo q)) 1) q (ovlLimit d))) x.slot 9
            noRank x.chunk))) ∧
    (∀ (core : Fin 72) (ecc : Ecc) (fl : List (Nat × Ecc)),
      tgetD s.dev.coll.stg core [] = [] ∨ nameOn s.dev (8 * (core / 9) + core % 9) = false →
      DoesRead (.coreAccumulate ⟨core, ecc, fl⟩) fl s (fun d => d)) ∧
    (∀ (slot : BitVec 14) (chunk : BitVec 32) (c : Ctx) (k : Chunk), ctxOf s.dev slot.toNat = some c →
      findChunk c chunk.toNat = some k →
      let q := coreOf c chunk.toNat
      (comparable s.dev c k = true →
        (∀ fl, Unmarked s.dev 0x0B (q / 16) (coreNo q) → c.p.op.toNat ≠ opRub → k.res = shadowRes c k →
          DoesRead (.overlockCompare slot ⟨chunk, false, fl⟩) fl s (fun d =>
            cnt1 (setCtx d slot.toNat (setChunk c { k with compared := true })) (srcCore (coreNo q)) 5)) ∧
        (∀ (differ : Bool) (fl : List (Nat × Ecc)),
          differ = true ∨ ¬ Unmarked s.dev 0x0B (q / 16) (coreNo q) ∨ k.res ≠ shadowRes c k →
          DoesRead (.overlockCompare slot ⟨chunk, differ, fl⟩) fl s (fun d =>
            let sh := k.shadow.getD q
            let d0 := (takeMark d 0x0B (q / 16) (coreNo q)).2
            let d1 := match (if c.p.op.toNat = opRub then placeOf d0 c chunk.toNat else none) with
              | some x => (placeGet d0 x x.shard.side).2
              | none => d0
            let d2 := raise d1 (srcCore (coreNo q)) 3
              [(1, coreNo q), (1, coreNo sh), (3, c.p.handle.toNat), (4, k.idx)]
            abortCtx (addSusp (addSusp (binError (stSet d2 (srcCore (coreNo sh)) 3) 4 (q / 16)) q 1) sh 1)
              slot.toNat 8 noRank k.idx))) ∧
      (∀ (differ : Bool) (fl : List (Nat × Ecc)), comparable s.dev c k = false →
        DoesRead (.overlockCompare slot ⟨chunk, differ, fl⟩) fl s (fun d => d)) ∧
      (k.done = false ∨ k.sampled = false ∨ k.compared = true ∨ shadowDone c k = false → comparable s.dev c k = false) ∧
      (k.done = true → k.sampled = false ∨ k.compared = true → c.p.op.toNat ≠ opRub →
        Does (.resultSend slot chunk) s (fun d =>
          let ot := c.p.otype.toNat
          let out := k.res.map (accOutput c.p.op.toNat c.p.mode.toNat c.p.itype.toNat ot)
          let bar := c.p.op.toNat = opBarrier
          let d1 := setCtx (if bar then d else nanCheck d c chunk.toNat ot out) slot.toNat
            { c with chunks := c.chunks.filter (fun x => x.idx != chunk.toNat) }
          let r := sendSegs d1 slot.toNat c 1 chunk.toNat ot (typeBytes ot) (if bar then [] else out)
          cntN r.2 (srcColl (coreOf c chunk.toNat / 16) slot.toNat) 5 r.1)) ∧
      (k.done = false ∨ (k.sampled = true ∧ k.compared = false) ∨ c.p.op.toNat = opRub →
        Idles (.resultSend slot chunk) s))

/-- R175, R176, R198, R358: PAT_SET stores the member list at the lowest place in the region and counts PGEN;
PAT_CLEAR makes the pattern invalid; a context that uses it refuses both; N of 0 or above 131,072 is a bad parameter.
Choices of the model that it shows: bringing in and acceptance of a command (log entry 11), accesses within a command (log
entry 100). -/
def Obligations.PatternCommands : Prop :=
  ∀ (s : State) (h : CmdHdr) (pat : BitVec 14), Running s →
    (patBusy s.dev pat.toNat = true →
      ∀ (part : BitVec 12) (n : BitVec 32) (l : DmaRead),
        Passes s.dev h 0x20 .h [some pat.toNat, some part.toNat, some n.toNat, none] → 1 ≤ n.toNat → n.toNat ≤ 131072 →
        CmdReads (.patSet h pat part n l) h 0x20 s (fun d rp =>
          complete (raise d (srcColl 0 pat.toNat) 2) rp 0x20 [])) ∧
    (∀ (part : BitVec 12) (n : BitVec 32) (l : DmaRead),
        Passes s.dev h 0x20 .h [some pat.toNat, some part.toNat, some n.toNat, none] → n.toNat = 0 ∨ 131072 < n.toNat →
        CmdDoes (.patSet h pat part n l) h 0x20 s (fun d rp => refuseGen d rp 0x09)) ∧
    (patBusy s.dev pat.toNat = true → Passes s.dev h 0x21 .h [some pat.toNat] →
      CmdDoes (.patClear h pat) h 0x21 s (fun d rp => complete (raise d (srcColl 0 pat.toNat) 2) rp 0x20 [])) ∧
    (patBusy s.dev pat.toNat = false → Unmarked s.dev 0x20 0 0 →
      ∀ (part : BitVec 12) (n : BitVec 32) (b : List Byte),
        Passes s.dev h 0x20 .h [some pat.toNat, some part.toNat, some n.toNat, none] → 1 ≤ n.toNat → n.toNat ≤ 131072 →
        CmdReads (.patSet h pat part n (.ok b)) h 0x20 s (fun d rp =>
          let ms := (elemsOf 8 b n.toNat).map (BitVec.ofNat 64)
          let d0 := { d with coll := { d.coll with pats := tdel d.coll.pats pat.toNat } }
          match badMember d part.toNat ms, fitAt (collBase d) (collTop d) (alignUp (8 * ms.length) 256) (collExtents d0) with
          | some r, _ => complete (raise d (srcColl 0 pat.toNat) 2) rp 0x21 (packFields [(20, r)])
          | none, none => complete (raise d (srcColl 0 pat.toNat) 2) rp 0x22 []
          | none, some a =>
            let g := ((tget? d.coll.pats pat.toNat).elim 0 (·.pgen)) + 1
            let pats := tset d.coll.pats pat.toNat ⟨true, part, g, ms, a⟩
            complete (memPut { d with coll := { d.coll with pats := pats } } a (bytesOf 8 (ms.map (·.toNat)))) rp 0
              (packFields [(16, g.toNat)]))) ∧
    (patBusy s.dev pat.toNat = false → Passes s.dev h 0x21 .h [some pat.toNat] → ∀ p, tget? s.dev.coll.pats pat.toNat = some p →
      CmdDoes (.patClear h pat) h 0x21 s (fun d rp =>
        let pats := tset d.coll.pats pat.toNat { p with valid := false }
        complete { d with coll := { d.coll with pats := pats } } rp 0 []))

/-- R177, R178, R186, R198, R203, R358: COLL_CREATE refuses a parameter block with a nonzero reserved or padding bit (R357)
and a slot that is not FREE, and builds the context of parameters that pass every check; DESTROY closes, drains or
quarantines; ABORT aborts with reason HOST; QUERY answers the slot's record; a handle that names no context is refused.
Choices of the model that it shows: bringing in and acceptance of a command (log entry 11), handles that name no context, and
HWM (log entry 33), what RUB leaves in memory (log entry 36), limits of CHUNK_ELEMS and SCOPE (log entry 38), placement past
cores under test (log entry 67), segments before an ABORT frame (log entry 90). -/
def Obligations.ContextCommands : Prop :=
  ∀ (s : State) (h : CmdHdr), Running s →
    (∀ b : List Byte, Passes s.dev h 0x22 .h [] → Unmarked s.dev 0x20 0 0 → collBlock b = none →
      CmdDoes (.collCreate h (.ok b)) h 0x22 s (fun d rp => refuseGen d rp 0x09)) ∧
    (∀ (b : List Byte) (p : CollParams), Passes s.dev h 0x22 .h [] → Unmarked s.dev 0x20 0 0 → collBlock b = some p →
      let slot := p.handle.toNat % 16384
      ((ctxOf s.dev slot).isSome = true →
        CmdReads (.collCreate h (.ok b)) h 0x22 s (fun d rp => collReject d rp slot 0x23)) ∧
      (∀ pat : Pattern, ctxOf s.dev slot = none → (partOf s.dev p.part.toNat).st = 1 →
        tget? s.dev.coll.pats p.pattern.toNat = some pat → pat.valid = true → pat.part = p.part →
        pairOk p.op.toNat p.mode.toNat p.itype.toNat p.otype.toNat = true → p.op.toNat ≠ opRub →
        CmdReads (.collCreate h (.ok b)) h 0x22 s (fun d rp =>
          let cores := placeCores d p.place.toNat
          let bobs := cores.map (fun q => bobTake d q (bobNeed p cores.length false))
          let nb := alignUp (4 * pat.members.length) 256
          if createBad p pat.members.length (cores.filter (nameUp d)) false = true then collReject d rp slot 0x09
          else if bobs.any (·.isNone) = true then collReject d rp slot 0x27
          else match fitAt (collBase d) (collTop d) (nb + spillSize d p pat.members) (collExtents d) with
            | none => collReject d rp slot 0x22
            | some a =>
              let e := buildCtx d p pat cores (bobs.map (·.getD [])) a (nb + spillSize d p pat.members) nb
              complete e rp 0 (packFields [(8, (ctxOf e slot).elim 0 (·.gen.toNat)),
                (32, (ctxOf e slot).elim 0 (·.sig.toNat))])))) ∧
    (∀ hd : BitVec 20,
      let slot := hd.toNat % 16384
      (named s.dev hd = none →
        (∀ g, Passes s.dev h 0x23 .h [some hd.toNat, some (b2n g)] →
          CmdDoes (.collDestroy h hd g) h 0x23 s (fun d rp => collReject d rp slot 0x09)) ∧
        (Passes s.dev h 0x24 .h [some hd.toNat] → CmdDoes (.collAbort h hd) h 0x24 s (fun d rp => collReject d rp slot 0x09))) ∧
      (∀ c, named s.dev hd = some c →
        (Passes s.dev h 0x24 .h [some hd.toNat] →
          CmdDoes (.collAbort h hd) h 0x24 s (fun d rp => complete (abortCtx d slot 0x0D noRank noChunk) rp 0 [])) ∧
        (Passes s.dev h 0x23 .h [some hd.toNat, some (b2n false)] → live c = true →
          CmdDoes (.collDestroy h hd false) h 0x23 s (fun d rp =>
            complete (quiesce (abortCtx d slot 0x0D noRank noChunk) slot) rp 0 [])) ∧
        (Passes s.dev h 0x23 .h [some hd.toNat, some (b2n true)] → c.st = 1 →
          CmdDoes (.collDestroy h hd true) h 0x23 s (fun d rp =>
            complete (maybeClosed (setCtx d slot { c with st := 2, hwm := c.taken }) slot) rp 0 [])) ∧
        (∀ g, Passes s.dev h 0x23 .h [some hd.toNat, some (b2n g)] → c.st = 3 →
          CmdDoes (.collDestroy h hd g) h 0x23 s (fun d rp => complete (quiesce d slot) rp 0 []))) ∧
      (Passes s.dev h 0x25 .h [some hd.toNat] → ∀ c, ctxOf s.dev slot = some c →
        CmdDoes (.collQuery h hd) h 0x25 s (fun d rp =>
          let a := c.abort.getD ⟨0, 0, 0⟩
          complete d rp 0 (packFields [(3, c.st), (8, c.gen.toNat), (8, a.reason), (20, a.rank), (32, a.chunk),
            (32, c.granted), (32, if c.st = 1 then c.taken else c.hwm)]))))

/-- R183, R184, R195, R197, R198: a contribution that passes every check advances NEXT and goes on to the pre-reducer, the
first check that fails aborts the context with its reason, a marked entry or counter with MEMORY; CREDIT follows an advance
of GRANTED by BATCH, or any advance after INT; a chunk's timeout aborts with STRAGGLER; a QUIESCE slot with nothing on its
way becomes FREE.
Choices of the model that it shows: what RUB leaves in memory (log entry 36), frames of a mirror context (log entry 37),
segments before an ABORT frame (log entry 90), accesses within a command (log entry 100). -/
def Obligations.ContextTimers : Prop :=
  ∀ (s : State), Running s →
    (∀ (tile : Fin 64) (fl : List (Nat × Ecc)), takenContrib s.dev tile = none →
      DoesRead (.contribReceive ⟨tile, fl⟩) fl s (fun d => d)) ∧
    (∀ (tile : Fin 64) (fl : List (Nat × Ecc)) (i : Ing) (c : Ctx), takenContrib s.dev tile = some i → i.vcIn = 1 →
      let r := takenFrame (untake (s.dev.reading fl) tile i.id) tile true i.frame
      r.1.chdr.kind = 0 → firstCheck r.2 r.1 = some c →
      let slot := r.1.chdr.handle.toNat % 16384
      let v := contribVerdict r.2 c i.port r.1
      (v.1 = none → DoesRead (.contribReceive ⟨tile, fl⟩) fl s (fun _ => contribPass v.2 tile slot c i)) ∧
      (∀ a, v.1 = some (.abort a) → DoesRead (.contribReceive ⟨tile, fl⟩) fl s (fun _ =>
        abortCtx (freeIng v.2 i.id) slot a r.1.chdr.rank.toNat r.1.chdr.chunk.toNat)) ∧
      (∀ a, v.1 = some (.poison a) → DoesRead (.contribReceive ⟨tile, fl⟩) fl s (fun _ =>
        abortCtx (consumePoison (freeIng v.2 i.id) a) slot 9 noRank r.1.chdr.chunk.toNat)) ∧
      (v.1 = some .stale → DoesRead (.contribReceive ⟨tile, fl⟩) fl s (fun _ => staleFrame v.2 tile i.id))) ∧
    (∀ (slot : BitVec 14) (c : Ctx), ctxOf s.dev slot.toNat = some c →
      (live c = true → c.p.root.toNat ≠ noRank → rubRole s.dev c 1 = false →
        c.lastCred + natMax 1 (rdf s.dev .collCred [] 15 8) ≤ c.granted ∨
          (c.lastCred < c.granted ∧ c.credAt + 120 * natMax 1 (rdf s.dev .collCred [] 7 0) ≤ s.dev.now) →
        Does (.creditSend slot) s (fun d =>
          let d0 := setCtx d slot.toNat { c with lastCred := c.granted, credAt := d.now }
          let d1 := cntN d0 (srcColl (homeDie slot.toNat) slot.toNat) 6
            ((downSet c).filter (targetUp d0 c.p.part.toNat)).length
          sendDown d1 slot.toNat (16 * homeDie slot.toNat) c (downSet c)
            (collFrame d1 c 2 0 c.p.root.toNat 0 0 c.p.otype.toNat c.granted 0 true 0 [] c.p.handle c.gen c.sig))) ∧
      (c.granted ≤ c.lastCred → Idles (.creditSend slot) s) ∧
      (∀ (chunk : BitVec 32) (k : Chunk), findChunk c chunk.toNat = some k →
        (live c = true → k.timer.isSome = true → c.p.stragUs ≠ 0 →
          Does (.stragglerTimeout slot chunk) s (fun d =>
            let late := if k.done then none
              else (List.range c.members.length).find? (fun r => decide (tgetD c.next r 0 ≤ chunk.toNat))
            abortCtx (raise d (srcColl (homeDie slot.toNat) slot.toNat) 1) slot.toNat 7 (late.getD noRank) chunk.toNat)) ∧
        (k.timer = none → Idles (.stragglerTimeout slot chunk) s)) ∧
      (c.st = 4 → slotBusy s.dev slot.toNat = false → areaBusy s.dev c = false → c.chunks = [] →
        Does (.quarantineExpiry slot) s (fun d =>
          { d with coll := { d.coll with ctxs := tdel d.coll.ctxs slot.toNat } })) ∧
      (c.st ≠ 4 → Idles (.quarantineExpiry slot) s))

/-! ### Shards and RUB (spec/08) -/

/-- R204, R208, R213, R228, R357, R358: SHARD_SET refuses ELEMS outside 1 to 2^40 by a general check (that the range
belongs to it is the model's, DESIGN CHOICE, log entry 133), then what R228 names, in its order, and else places a shard
whose list passes, its committed side zero or as read; SHARD_CLEAR frees an unbound shard; HPARAM_SET leaves values
pending for a step.
Choices of the model that it shows: bringing in and acceptance of a command (log entry 11), accesses within a command (log
entry 100). -/
def Obligations.ShardCommands : Prop :=
  ∀ (s : State) (h : CmdHdr), Running s → Unmarked s.dev 0x20 0 0 →
    (∀ p : ShardParams, Passes s.dev h 0x30 .h [some p.sh.toNat, some p.part.toNat, some p.role.toNat, some p.elems.toNat,
      some p.step.toNat,
      some p.segAddr.toNat, some p.segCount.toNat, some p.initAddr.toNat] →
      (p.elems = 0 ∨ 2 ^ 40 < p.elems.toNat →
        CmdDoes (.shardSet h p) h 0x30 s (fun d rp => refuseGen d rp 0x09)) ∧
      (p.elems ≠ 0 → p.elems.toNat ≤ 2 ^ 40 →
        ((shardOf s.dev p.sh.toNat).isSome = true →
          CmdReads (.shardSet h p) h 0x30 s (fun d rp => shardReject d rp p.sh.toNat 0x34 [])) ∧
        (shardOf s.dev p.sh.toNat = none → (partOf s.dev p.part.toNat).st ≠ 1 →
          CmdReads (.shardSet h p) h 0x30 s (fun d rp => shardReject d rp p.sh.toNat 0x24 [])) ∧
        (shardOf s.dev p.sh.toNat = none → (partOf s.dev p.part.toNat).st = 1 →
          (p.segCount = 0 → CmdReads (.shardSet h p) h 0x30 s (fun d rp =>
            shardReject d rp p.sh.toNat 0x33 (packFields [(6, 0)]))) ∧
          (64 < p.segCount.toNat → CmdReads (.shardSet h p) h 0x30 s (fun d rp =>
            shardReject d rp p.sh.toNat 0x33 (packFields [(7, 64)]))) ∧
          (p.segCount ≠ 0 → p.segCount.toNat ≤ 64 → p.segData = .err →
            CmdReads (.shardSet h p) h 0x30 s (fun d rp => refuseDma (dmaFail d) rp)) ∧
          (∀ b i, p.segCount ≠ 0 → p.segCount.toNat ≤ 64 → p.segData = .ok b → p.initData = .ok i →
            let ws := elemsOf 16 b p.segCount.toNat
            let segs := ws.map (parseSeg s.dev.opt.kernels)
            (∀ k, scanSegs s.dev.opt.kernels p.elems.toNat 0 0 ws = some k →
              CmdReads (.shardSet h p) h 0x30 s (fun d rp =>
                shardReject d rp p.sh.toNat 0x33 (packFields [(6, k)]))) ∧
            (scanSegs s.dev.opt.kernels p.elems.toNat 0 0 ws = none →
              segs.any (fun g => g.prog == 15 && (tget? s.dev.opt.kernels g.kernel).isNone) = true →
              CmdReads (.shardSet h p) h 0x30 s (fun d rp => shardReject d rp p.sh.toNat 0x35 [])) ∧
            (scanSegs s.dev.opt.kernels p.elems.toNat 0 0 ws = none →
              segs.any (fun g => g.prog == 15 && (tget? s.dev.opt.kernels g.kernel).isNone) = false →
              let z := sideBytes segs
              (optFit s.dev (2 * z) = none →
                CmdReads (.shardSet h p) h 0x30 s (fun d rp => shardReject d rp p.sh.toNat 0x22 [])) ∧
              (∀ a, optFit s.dev (2 * z) = some a →
                CmdReads (.shardSet h p) h 0x30 s (fun d rp =>
                  let m := if p.initAddr = 0 then memClear d a z else memPut d a (slice i 0 z)
                  complete (setShard m p.sh.toNat (newShard p segs a z)) rp 0 []))))))) ∧
    (∀ sh : BitVec 13, Passes s.dev h 0x31 .h [some sh.toNat] →
      (shardOf s.dev sh.toNat = none → CmdDoes (.shardClear h sh) h 0x31 s (fun d rp => complete d rp 0 [])) ∧
      (∀ x, shardOf s.dev sh.toNat = some x →
        (x.bound.isSome = true →
          CmdDoes (.shardClear h sh) h 0x31 s (fun d rp => shardReject d rp sh.toNat 0x34 [])) ∧
        (x.bound = none →
          CmdDoes (.shardClear h sh) h 0x31 s (fun d rp =>
            complete { d with opt := { d.opt with shards := tdel d.opt.shards sh.toNat } } rp 0 [])))) ∧
    (∀ b : List Byte, Passes s.dev h 0x32 .h [] → hparamBlock b = none →
      CmdDoes (.hparamSet h (.ok b)) h 0x32 s (fun d rp => refuseGen d rp 0x09)) ∧
    (∀ (b : List Byte) (p : HparamParams), Passes s.dev h 0x32 .h [] → hparamBlock b = some p →
      (shardOf s.dev p.sh.toNat = none →
        CmdDoes (.hparamSet h (.ok b)) h 0x32 s (fun d rp => shardReject d rp p.sh.toNat 0x30 [])) ∧
      (∀ x, shardOf s.dev p.sh.toNat = some x →
        (2 ≤ x.st → p.step.toNat ≤ (x.step + 1).toNat →
          CmdDoes (.hparamSet h (.ok b)) h 0x32 s (fun d rp => shardReject d rp p.sh.toNat 0x36 [])) ∧
        (x.st < 2 ∨ (x.step + 1).toNat < p.step.toNat →
          CmdDoes (.hparamSet h (.ok b)) h 0x32 s (fun d rp =>
            let y := x.hs.getD p.set.toNat ⟨[], none⟩
            let ws := (p.words ++ List.replicate 16 0).take 16
            complete (setShard d p.sh.toNat { x with hs := lset x.hs p.set.toNat ⟨y.cur, some (p.step, ws)⟩ }) rp 0 []))))

/-- R223, R224, R225: a commit is armed unless one waits or its tick is too near; at the end of the CTRL cycle of its tick
(DEDUCED, log entry 132) it commits all the bound shards of the partition, or none; a rollback takes all shards at the step
back, or none.
Choices of the model that it shows: bringing in and acceptance of a command (log entry 11). -/
def Obligations.CommitIsAtomic : Prop :=
  ∀ (s : State) (part : BitVec 12), Running s →
    (∀ (h : CmdHdr) (step tick : BitVec 32), Passes s.dev h 0x33 .h [some part.toNat, some step.toNat, some tick.toNat] →
      CmdDoes (.optCommit h part step tick) h 0x33 s (fun d rp =>
        if d.opt.commits.any (fun c => c.part == part && c.at_.isNone) then optReject d rp 0x37 []
        else if tickReached (nsNow d) tick ∨ (tick - tickNow d).toNat < 20000 then optReject d rp 0x38 []
        else { d with opt := { d.opt with commits := d.opt.commits ++ [⟨part, step, tick, activeDom d, rp, none⟩] } })) ∧
    (∀ c : OptCommit, s.dev.opt.commits.find? (fun c => c.part == part) = some c →
      let bad (e : Nat × Shard) : Bool :=
        e.2.lost || (e.2.bound.isSome && !(e.2.st == 3 && e.2.step + 1 == c.step))
      (∀ e, (partShards s.dev part).find? bad = some e →
        Does (.optCommitTick part) s (fun d =>
          let d1 := { d with opt := { d.opt with commits := removeFirst (fun c => c.part == part) d.opt.commits } }
          complete (raise d1 (srcOpt 0 0) 0) c.reply 2 (packFields [(13, e.1)]))) ∧
      ((partShards s.dev part).find? bad = none →
        Does (.optCommitTick part) s (fun d =>
          let d1 := { d with opt := { d.opt with commits := removeFirst (fun c => c.part == part) d.opt.commits } }
          let up := ((partShards d part).filter (fun e => e.2.bound.isSome)).map (·.1)
          let d2 := up.foldl (fun d sh => (shardOf d sh).elim d (fun x => setShard d sh (flipShard c.step x))) d1
          complete (up.foldl afterFlip (event (cnt1 d2 (srcOpt 0 0) 6) 0x0B81 0 0 [])) c.reply 1 []))) ∧
    (s.dev.opt.commits.find? (fun c => c.part == part) = none → Idles (.optCommitTick part) s) ∧
    (∀ (h : CmdHdr) (step : BitVec 32), Passes s.dev h 0x34 .h [some part.toNat, some step.toNat] →
      let at_ := (partShards s.dev part).filter (fun e => e.2.step == step)
      (at_.any (fun e => e.2.bound.isSome) = true →
        CmdDoes (.optRollback h part step) h 0x34 s (fun d rp => optReject d rp 0x34 [])) ∧
      (at_.any (fun e => e.2.bound.isSome) = false → at_.any (fun e => !e.2.rb) = true →
        CmdDoes (.optRollback h part step) h 0x34 s (fun d rp => optReject d rp 0x39 [])) ∧
      (at_.any (fun e => e.2.bound.isSome) = false → at_.any (fun e => !e.2.rb) = false →
        CmdDoes (.optRollback h part step) h 0x34 s (fun d rp =>
          complete ((partShards d part).foldl (fun d e =>
            setShard d e.1 (if e.2.step = step
              then { e.2 with step := step - 1, side := 1 - e.2.side, rb := false, lost := false }
              else { e.2 with lost := false })) d) rp 0 [])))

/-- R168, R210, R211, R218, R258: an update of a chunk runs its segment's program on the committed side and writes the
basting side (shown for an element-wise program with no partner), a sampled Stitch chunk's twice; marked data aborts with
reason 9; the end of an update multicasts the new parameters and records the digest; an ORTHO block updates its parameters
once all its chunks have their momentum.  A chunk's NaN check, here of values that are all finite, is of gr in fp32
(DESIGN CHOICE, log entry 131).
Choices of the model that it shows: what RUB leaves in memory (log entry 36), segments before an ABORT frame (log entry 90),
accesses within a command (log entry 100), what Overlock repeats (log entry 112), the work area of ORTHO (log entry 114). -/
def Obligations.RubUpdates : Prop :=
  ∀ (s : State) (slot : BitVec 14) (chunk : BitVec 32) (c : Ctx), Running s → ctxOf s.dev slot.toNat = some c →
    (∀ (k : Chunk) (x : Place), findChunk c chunk.toNat = some k → placeOf s.dev c chunk.toNat = some x →
      (updateDue s.dev slot.toNat c k x = true ↔
        live c = true ∧ c.p.op.toNat = opRub ∧ k.done = true ∧ k.updated = false ∧ k.writes = [] ∧
        segRunning s.dev slot.toNat chunk.toNat = false ∧ x.shard.st = 2 ∧ inOpenRound c x.shard chunk.toNat = true ∧
        slotsQueued s.dev x = false ∧
        (k.sampled = false ∨ (x.seg.prog ≠ 15 ∧ k.compared = true) ∨
          (x.seg.prog = 15 ∧ shadowDone c k = true ∧ k.compared = false))) ∧
      (∀ fl, updateDue s.dev slot.toNat c k x = true → k.sampled = true → x.seg.prog = 15 →
        DoesRead (.rubUpdate slot ⟨chunk, fl⟩) fl s (fun d => stitchTwice d slot.toNat c k x)) ∧
      (∀ fl, updateDue s.dev slot.toNat c k x = true → k.sampled = false ∨ x.seg.prog ≠ 15 → x.shard.role = 1 →
        DoesRead (.rubUpdate slot ⟨chunk, fl⟩) fl s (fun d => runProgram d slot.toNat chunk.toNat c x (grOf d c k))) ∧
      (∀ fl, updateDue s.dev slot.toNat c k x = true → x.shard.role = 0 → c.p.mirrorEn = false →
        (∀ f : Fmt, fmtOf 0 = some f → (grOf s.dev c k).all (fun v => match fdec f v with
          | .num _ _ _ => true
          | _ => false) = true) →
        x.seg.prog ∈ [1, 2, 3] →
        let got := fun d : Dev => slotGet d x.shard x.shard.side x.k x.seg x.first x.count
        let bad := slotPoison (got (s.dev.reading fl)) x.shard x.shard.side x.k x.seg x.first x.count
        (bad = none → DoesRead (.rubUpdate slot ⟨chunk, fl⟩) fl s (fun d =>
          let hp := (x.shard.hs.getD x.seg.hset ⟨[], none⟩).cur
          let old := (List.range x.seg.slots).map (fun j =>
            readSlot (got d) x.shard x.shard.side x.k x.seg j x.first x.count)
          let cols := rangeUpdate x.seg.prog hp old (grOf d c k)
          markUpdated ((List.range cols.length).foldl (fun d j =>
            basteSlot d x.sh x.shard x.k x.seg j x.first (cols.getD j [])) (got d)) slot.toNat chunk.toNat x)) ∧
        (∀ a, bad = some a → DoesRead (.rubUpdate slot ⟨chunk, fl⟩) fl s (fun d =>
          abortCtx (consumePoison (got d) a) slot.toNat 9 noRank chunk.toNat))) ∧
      (∀ fl, updateDue s.dev slot.toNat c k x = false → DoesRead (.rubUpdate slot ⟨chunk, fl⟩) fl s (fun d => d)) ∧
      (∀ fl, live c = true → k.updated = true → x.shard.role = 0 → x.seg.prog ≠ 4 ∨ k.blk = true → c.p.gradOut = false →
        let got := fun d : Dev => slotGet d x.shard (1 - x.shard.side) x.k x.seg x.first x.count
        let bad := slotPoison (got (s.dev.reading fl)) x.shard (1 - x.shard.side) x.k x.seg x.first x.count
        (bad = none → DoesRead (.rubUpdateDone slot ⟨chunk, fl⟩) fl s (fun d =>
          let r := sendSegs (got d) slot.toNat c 4 chunk.toNat x.seg.ptype (typeBytes x.seg.ptype)
            (paramsOf (got d) x (1 - x.shard.side))
          let d1 := cntN r.2 (srcShard x.sh) 8 r.1
          if stillLive d1 slot.toNat then
            let d2 := dropChunk (recordDigest d1 slot.toNat chunk.toNat x).2 slot.toNat chunk.toNat
            if c.p.mirrorEn then compareMack d2 slot.toNat chunk.toNat x.sh else sealChunk d2 slot.toNat chunk.toNat
          else d1)) ∧
        (∀ a, bad = some a → DoesRead (.rubUpdateDone slot ⟨chunk, fl⟩) fl s (fun d =>
          abortCtx (consumePoison (got d) a) slot.toNat 9 noRank chunk.toNat))) ∧
      (∀ fl, k.updated = false → DoesRead (.rubUpdateDone slot ⟨chunk, fl⟩) fl s (fun d => d))) ∧
    (∀ (seg : BitVec 6) (b : Nat) (fl : List (Nat × Ecc)) (sd : Shard) (g : Seg), shardOf s.dev c.p.shard.toNat = some sd →
      sd.segs[seg.toNat]? = some g → g.prog = 4 → (b + 1) * 2 ^ (2 * g.bshift) ≤ g.count →
      live c = true → c.p.op.toNat = opRub → sd.role = 0 →
      let cs := blockChunks c sd g b
      cs ≠ [] → (∀ i ∈ cs, ∃ k, findChunk c i = some k ∧ k.updated = true ∧ k.blk = false ∧ k.sampled = false) →
      let n := 2 ^ (2 * g.bshift)
      let e0 := g.start + b * n
      let got := fun d : Dev => (memGet (memGet d (slotAddr sd sd.side seg.toNat g 0 e0) (4 * n)).2
        (slotAddr sd (1 - sd.side) seg.toNat g 1 e0) (4 * n)).2
      (∀ x ∈ [slotAddr sd sd.side seg.toNat g 0 e0, slotAddr sd (1 - sd.side) seg.toNat g 1 e0,
        slotAddr sd (1 - sd.side) seg.toNat g 0 e0], unitsQueued s.dev x (4 * n) = false) →
      poisonIn (got (s.dev.reading fl)) (slotAddr sd sd.side seg.toNat g 0 e0) (4 * n) = none →
      poisonIn (got (s.dev.reading fl)) (slotAddr sd (1 - sd.side) seg.toNat g 1 e0) (4 * n) = none →
      DoesRead (.orthoBlockUpdate slot seg ⟨b, fl⟩) fl s (fun d =>
        let hp := (sd.hs.getD g.hset ⟨[], none⟩).cur
        let m1 := readSlot (got d) sd (1 - sd.side) seg.toNat g 1 e0 n
        let p := readSlot (got d) sd sd.side seg.toNat g 0 e0 n
        let d1 := stageWork (got d) (coreOf c (cs.headD 0)) (2 ^ g.bshift) (orthoWork (2 ^ g.bshift) hp m1)
        setCtx (basteSlot d1 c.p.shard.toNat sd seg.toNat g 0 e0 (orthoBlock (2 ^ g.bshift) hp m1 p)) slot.toNat
          { c with chunks := c.chunks.map (fun k => if cs.contains k.idx then { k with blk := true } else k) }))

/-- R216, R217, R220, R222: a MIRROR or MACK frame that fails the first check is stale, one that passes every check is
taken; a mirror context acknowledges its chunks in the order they finished; a shard whose chunks all meet the seal
conditions, and whose frames have reached egress staging, seals and reports its digest.
Choices of the model that it shows: frames of a mirror context (log entry 37), own frames and their staging (log entry 89),
segments before an ABORT frame (log entry 90), accesses within a command (log entry 100), the acknowledgement table (log
entry 115). -/
def Obligations.MirrorAndSeal : Prop :=
  ∀ (s : State), Running s →
    (∀ (tile : Fin 64), (∀ fl, takenKind s.dev tile 6 = none → DoesRead (.mirrorReceive ⟨tile, fl⟩) fl s (fun d => d)) ∧
      (takenKind s.dev tile 7 = none → Idles (.mackReceive tile) s)) ∧
    (∀ (tile : Fin 64) (fl : List (Nat × Ecc)) (i : Ing), takenKind s.dev tile 6 = some i →
      let r := takenFrame (untake (s.dev.reading fl) tile i.id) tile false i.frame
      let slot := r.1.chdr.handle.toNat % 16384
      (firstCheck r.2 r.1 = none → DoesRead (.mirrorReceive ⟨tile, fl⟩) fl s (fun _ => staleFrame r.2 tile i.id)) ∧
      (∀ c, firstCheck r.2 r.1 = some c →
        (rubVerdict r.2 c i.port r.1 6 = .take →
          DoesRead (.mirrorReceive ⟨tile, fl⟩) fl s (fun _ => takeMirror (freeIng r.2 i.id) slot r.1)) ∧
        (∀ v, rubVerdict r.2 c i.port r.1 6 = .abort v →
          DoesRead (.mirrorReceive ⟨tile, fl⟩) fl s (fun _ => abortCtx (freeIng r.2 i.id) slot v
            (if v = 0x0E then noRank else r.1.chdr.rank.toNat) r.1.chdr.chunk.toNat)) ∧
        (rubVerdict r.2 c i.port r.1 6 = .hold →
          DoesRead (.mirrorReceive ⟨tile, fl⟩) fl s (fun _ =>
            setCtx r.2 slot { c with heldFr := c.heldFr ++ [(tile.val, i.id)] })))) ∧
    (∀ (tile : Fin 64) (i : Ing), takenKind s.dev tile 7 = some i →
      let r := takenFrame (untake s.dev.fresh tile i.id) tile false i.frame
      let slot := r.1.chdr.handle.toNat % 16384
      let chunk := r.1.chdr.chunk.toNat
      (firstCheck r.2 r.1 = none → Does (.mackReceive tile) s (fun _ => staleFrame r.2 tile i.id)) ∧
      (∀ c, firstCheck r.2 r.1 = some c → rubVerdict r.2 c i.port r.1 7 = .take →
        Does (.mackReceive tile) s (fun _ =>
          let d1 := cnt1 (freeIng r.2 i.id) (srcShard c.p.shard.toNat) 10
          let d2 := setCtx d1 slot { c with seen := c.seen ++ [(7, chunk, 0)],
                                            macks := c.macks ++ [(chunk, r.1.chdr.credit)] }
          compareMack d2 slot chunk c.p.shard.toNat))) ∧
    (∀ (slot : BitVec 14) (c : Ctx), ctxOf s.dev slot.toNat = some c → live c = true → rubRole s.dev c 1 = true →
      (∀ fl, c.macks = [] → DoesRead (.mackSend ⟨slot, fl⟩) fl s (fun d => d)) ∧
      (∀ fl chunk v r, c.macks = (chunk, v) :: r →
        DoesRead (.mackSend ⟨slot, fl⟩) fl s (fun d =>
          let d0 := (memGet d (ackAddr c chunk) 4).2
          let f := collFrame d0 c 7 chunk 0 0 0 0 (mem32 d0 (ackAddr c chunk)) 0 false c.p.partnerEp.toNat [] c.p.partnerHandle
            c.p.partnerGen c.p.partnerSig
          let d1 := sendTo (setCtx d0 slot.toNat { c with macks := r }) (homeDie slot.toNat) (16 * homeDie slot.toNat)
            (partnerTarget c.p) f
          if targetUp d c.p.part.toNat (partnerTarget c.p) then sealChunk d1 slot.toNat chunk
          else abortCtx d1 slot.toNat 0x0B 0 noChunk))) ∧
    (∀ (sh : BitVec 13) (x : Shard) (slot : Nat) (c : Ctx), shardOf s.dev sh.toNat = some x → x.bound = some slot →
      ctxOf s.dev slot = some c → live c = true →
      let cs := (List.range (roundN c.p)).map (fun q => openRoundNo c x * roundN c.p + q)
      (x.st = 2 → (∀ i ∈ cs, i ∈ c.sealed) → segsOnWay s.dev c = false →
        Does (.shardSeal sh) s (fun d =>
          let dig := crc32c (cs.map (fun i => leBytes 4 (tgetD c.digests i 0).toNat)).flatten
          event (cnt1 (setShard d sh.toNat { x with st := 3 }) (srcShard sh.toNat) 7) 0x0B80 (shDie sh.toNat) sh.toNat
            [(2, sh.toNat), (4, (x.step + 1).toNat), (4, dig)])) ∧
      (x.st ≠ 2 ∨ (∃ i ∈ cs, i ∉ c.sealed) ∨ segsOnWay s.dev c = true → Idles (.shardSeal sh) s))

/-! ### The Bolt store (spec/08 R226, R227; spec/10; spec/14 R376) -/

/-- R219, R226, R275, R277: a checkpoint that nothing refuses captures every shard in scope at one step, pins its
committed side and takes bands; as each side has been read its bytes are kept and the pin goes.
R226, R278: a checkpoint whose sides have all been read ends: a poisoned side frees its bands and fails with
CKPT_POISON, an uncorrectable page leaves the image BAD, and else the image is COMPLETE with a CRC over the shards.
Choices of the model that it shows: bringing in and acceptance of a command (log entry 11), DIE and UNIT of the events (log
entry 31), bands, and answers of SHARD_READ (log entry 39), what a decoder corrects (log entry 44), accesses within a command
(log entry 100), journal and records (log entry 117). -/
def Obligations.Checkpoints : Prop :=
  (
    ∀ (s : State) (part : BitVec 12), Running s →
      (∀ (h : CmdHdr) (scope : BitVec 2) (gen : BitVec 32), Passes s.dev h 0x35 .h [some part.toNat, some scope.toNat,
        some gen.toNat] → scope ≠ 3 →
        (s.dev.opt.ckpts.any (fun c => c.part == part) = true →
          CmdDoes (.optCkpt h part scope gen) h 0x35 s (fun d rp => optReject d rp 0x3A [])) ∧
        (let ss := (partShards s.dev part).filter (fun e => inScopeOf scope.toNat e.2)
         let step := (ss.head?.map (·.2.step)).getD 0
         let size := imageSize (ss.map (fun e => sideZ e.2.segs))
         s.dev.opt.ckpts.any (fun c => c.part == part) = false → ss.all (fun e => e.2.step == step) = true →
          CmdDoes (.optCkpt h part scope gen) h 0x35 s (fun d rp =>
            match ckptRefusal d part gen (imageBands size) with
            | some st => optReject d rp st []
            | none =>
              let t := takeBands (imageBands size) d []
              let img : BoltImg := { part := part, gen := gen, scope := scope.toNat, st := 1, step := step,
                                     count := ss.length, size := size, time := 0, crc := 0, shards := [], bands := t.1,
                                     seq := t.2.bolt.nextSeq, key := t.2.draw, lost := [] }
              let d1 := journalled (setBolt { t.2 with draw := t.2.draw + 20000 } (fun b => { b with
                imgs := insertImg img b.imgs, nextSeq := b.nextSeq + 1 }))
              let d2 := ss.foldl (fun d e => setShard d e.1 { e.2 with pins := e.2.pins ++ [e.2.side] }) d1
              let job : Ckpt := ⟨part, gen, scope.toNat, step, ss.map (fun e => ⟨e.1, e.2, none, false⟩), rp⟩
              { d2 with opt := { d2.opt with ckpts := d2.opt.ckpts ++ [job] } }))) ∧
      (∀ (sh : BitVec 13) (c : Ckpt) (x : CkptShard), s.dev.opt.ckpts.find? (fun c => c.part == part) = some c →
        c.shards.find? (fun x => x.sh == sh.toNat && x.data.isNone) = some x →
        (∀ fl, DoesRead (.ckptSideReadDone part ⟨sh, fl⟩) fl s (fun d =>
            let e := sideGet d (snapAddr x) x.snap.segs
            let y := { x with data := some (sidePack e (snapAddr x) x.snap.segs), bad := poisoned e (snapAddr x) x.snap.z }
            let c1 := { c with shards := c.shards.map (fun z => if z.sh = sh.toNat then y else z) }
            let cs := e.opt.ckpts.map (fun k => if k.part = part then c1 else k)
            unpin { e with opt := { e.opt with ckpts := cs } } sh.toNat x.snap.side))) ∧
      (∀ (sh : BitVec 13) (fl : List (Nat × Ecc)), s.dev.opt.ckpts.find? (fun c => c.part == part) = none →
        DoesRead (.ckptSideReadDone part ⟨sh, fl⟩) fl s (fun d => d))) ∧
  (
    ∀ (s : State) (part : BitVec 12) (gen : BitVec 32) (rs : List CwRead) (c : Ckpt) (i : BoltImg), Running s →
      s.dev.opt.ckpts.find? (fun c => c.part == part && c.gen == gen) = some c → findImg s.dev part gen = some i →
      (c.shards.any (fun x => x.data.isNone) = true ∨ flashOn s.dev = false → Idles (.optCkptEnd part gen rs) s) ∧
      (flashOn s.dev = true → c.shards.any (fun x => x.data.isNone) = false → ∀ x, c.shards.find? (·.bad) = some x →
        Does (.optCkptEnd part gen rs) s (fun d =>
          let d1 := { d with opt := { d.opt with ckpts := d.opt.ckpts.filter (fun k => k.part != part) } }
          let d2 := consumePoison d1 ((poisonIn d1 (snapAddr x) x.snap.z).getD (snapAddr x))
          let d3 := journalled (freeBands (setImg d2 { i with st := 3, bands := [] }) i.bands)
          complete (raise d3 (srcBolt 0) 2) c.reply 0x05 [])) ∧
      (flashOn s.dev = true → c.shards.any (fun x => x.data.isNone) = false → c.shards.find? (·.bad) = none →
        Does (.optCkptEnd part gen rs) s (fun d =>
          let d1 := { d with opt := { d.opt with ckpts := d.opt.ckpts.filter (fun k => k.part != part) } }
          let shards := c.shards.map (fun x => (⟨x.sh, x.snap, x.data.getD [], w32 (crc32c (x.data.getD []))⟩ : ImgShard))
          let crc := crc32c (shards.map (fun x => leBytes 4 x.crc.toNat)).flatten
          let j := { i with shards := shards, crc := w32 crc }
          let d2 := setBolt (cntN d1 (srcBolt 0) 10 (imagePages i.size)) (fun b => { b with
            wseq := i.bands.foldl (fun t x => tset t x i.seq) b.wseq })
          let r := readImage (setImg d2 j) j rs
          if badAt r.2 j r.1 ≠ [] then complete (raise (journalled (setImg r.2 { j with st := 3 })) (srcBolt 0) 2) c.reply 0x06 []
          else
            let d3 := journalled (setImg r.2 { j with st := 2, time := nsNow r.2 % 2 ^ 64 })
            complete (event d3 0x0B82 0 0 [(2, part.toNat), (4, c.step.toNat)]) c.reply 0
              (packFields [(32, c.step.toNat), (32, i.bands.length)]))))

/-- R227, R279, R376: a restore of a sound image writes every shard's committed side back at its step or, where a page
is uncorrectable or the CRC of a side differs, none; SHARD_READ pins a side and copies it to host memory.
Choices of the model that it shows: bringing in and acceptance of a command (log entry 11), bands, and answers of SHARD_READ
(log entry 39), what a decoder corrects (log entry 44), accesses within a command (log entry 100), journal and records (log
entry 117). -/
def Obligations.RestoresAndReads : Prop :=
  ∀ (s : State) (part : BitVec 12) (gen : BitVec 32), Running s →
    (∀ h : CmdHdr, Passes s.dev h 0x36 .h [some part.toNat, some gen.toNat] →
      CmdDoes (.optRestore h part gen) h 0x36 s (fun d rp =>
        if boltUp d && (findImg d part gen).any (restoreBusy d) then optReject d rp 0x34 []
        else match imgRefusal d part gen true with
          | some st => optReject d rp st []
          | none => { d with opt := { d.opt with restores := d.opt.restores ++ [⟨part, gen, rp⟩] } })) ∧
    (∀ (c : Restore) (i : BoltImg), s.dev.opt.restores.find? (fun c => c.part == part && c.gen == gen) = some c →
      findImg s.dev part gen = some i →
      (flashOn s.dev = false → ∀ rs, Idles (.optRestoreEnd part gen rs) s) ∧
      (∀ rs : List CwRead,
        let ks := removeFirst (fun k : Restore => k.part == part && k.gen == gen) s.dev.opt.restores
        let r := readImage { s.dev.fresh with opt := { s.dev.opt with restores := ks } } i rs
        flashOn s.dev = true →
        let bad := badAt r.2 i r.1
        let ss := shardsRead bad r.1 65536 i.shards
        (bad ≠ [] ∨ (∃ x ∈ ss, x.2 = true) →
          Does (.optRestoreEnd part gen rs) s (fun _ =>
            complete (journalled (setImg r.2 { i with st := 3 })) c.reply 0x06
              (packFields [(13, ((ss.find? (·.2)).map (·.1.sh)).getD 0)]))) ∧
        (∀ e, bad = [] → (∀ x ∈ ss, x.2 = false) → restoreAll i.step (ss.map (·.1)) r.2 = some e →
          Does (.optRestoreEnd part gen rs) s (fun _ => complete e c.reply 0 (packFields [(32, i.step.toNat)]))) ∧
        (bad = [] → (∀ x ∈ ss, x.2 = false) → restoreAll i.step (ss.map (·.1)) r.2 = none →
          Does (.optRestoreEnd part gen rs) s (fun _ => optReject r.2 c.reply 0x22 [])))) ∧
    (∀ (h : CmdHdr) (sh : BitVec 13) (slot : BitVec 2) (first count : BitVec 40) (addr : BitVec 64),
      Passes s.dev h 0x37 .h [some sh.toNat, some slot.toNat, some first.toNat, some count.toNat, some addr.toNat] →
      (shardOf s.dev sh.toNat = none →
        CmdReads (.shardRead h sh slot first count addr) h 0x37 s (fun d rp => shardReject d rp sh.toNat 0x30 [])) ∧
      (∀ x, shardOf s.dev sh.toNat = some x →
        CmdReads (.shardRead h sh slot first count addr) h 0x37 s (fun d rp =>
          match slotPieces x slot.toNat (x.segs.length + 1) first.toNat count.toNat with
          | none => refuseGen d rp 0x09
          | some ps =>
            let d0 := ps.foldl (fun d a => (memGet d a.1 a.2).2) d
            let bs := ps.flatMap (fun a => memRd d0 a.1 a.2)
            let d1 := setShard d0 sh.toNat { x with pins := x.pins ++ [x.side] }
            { d1 with opt := { d1.opt with reads := d1.opt.reads ++ [⟨sh.toNat, x.side, addr.toNat, bs, x.step, rp⟩] } }))) ∧
    (∀ (sh : BitVec 13) (r : ShardRd), s.dev.opt.reads.find? (fun r => r.sh == sh.toNat) = some r →
      Does (.shardReadEnd sh) s (fun d =>
        let rs := removeFirst (fun r : ShardRd => r.sh == sh.toNat) d.opt.reads
        complete (cmdOutput (unpin { d with opt := { d.opt with reads := rs } } sh.toNat r.side) r.reply r.addr r.bytes)
          r.reply 0 (packFields [(32, r.step.toNat)])))

/-- R277, R280, R358: the catalogue in ascending order, a delete that takes effect when journalled, an export, and the
health record; a command that the store or the image does not allow is refused with the first status that applies. That a
delete takes effect after the reads of its image that were accepted before it is the model's (DESIGN CHOICE, log entry 135).
Choices of the model that it shows: bringing in and acceptance of a command (log entry 11), bands, and answers of SHARD_READ
(log entry 39), what a decoder corrects (log entry 44), journal and records (log entry 117). -/
def Obligations.BoltCommands : Prop :=
  ∀ (s : State) (h : CmdHdr) (part : BitVec 12) (gen : BitVec 32), Running s →
    (∀ (addr : BitVec 64) (limit : BitVec 32), Passes s.dev h 0x40 .h [some addr.toNat, some limit.toNat] →
      CmdDoes (.boltList h addr limit) h 0x40 s (fun d rp =>
        if boltUp d then
          let l := d.bolt.imgs.take limit.toNat
          complete (cmdOutput d rp addr.toNat (l.map catEntry).flatten) rp 0 (packFields [(32, l.length)])
        else boltReject d rp 0x40)) ∧
    (Passes s.dev h 0x41 .h [some part.toNat, some gen.toNat] →
      CmdDoes (.boltDelete h part gen) h 0x41 s (fun d rp =>
        match imgRefusal d part gen false with
        | some st => boltReject d rp st
        | none => { d with bolt := { d.bolt with deletes := d.bolt.deletes ++ [⟨part, gen, 0, rp⟩] } })) ∧
    (∀ (j : BoltJob) (i : BoltImg), s.dev.bolt.deletes.find? (fun j => j.part == part && j.gen == gen) = some j →
      findImg s.dev part gen = some i → flashOn s.dev = true →
      (∀ c ∈ s.dev.opt.restores, ¬(c.part = part ∧ c.gen = gen)) → (∀ c ∈ s.dev.bolt.exports, ¬(c.part = part ∧ c.gen = gen)) →
      Does (.boltDeleteJournalled part gen) s (fun d =>
        let b := { d.bolt with
          deletes := removeFirst (fun j : BoltJob => j.part == part && j.gen == gen) d.bolt.deletes,
          imgs := d.bolt.imgs.filter (fun x => !(x.part == part && x.gen == gen)) }
        complete (journalled (freeBands { d with bolt := b } i.bands)) j.reply 0 [])) ∧
    (s.dev.bolt.deletes.find? (fun j => j.part == part && j.gen == gen) = none ∨ flashOn s.dev = false ∨
      (∃ c ∈ s.dev.opt.restores, c.part = part ∧ c.gen = gen) ∨ (∃ c ∈ s.dev.bolt.exports, c.part = part ∧ c.gen = gen) →
      Idles (.boltDeleteJournalled part gen) s) ∧
    (∀ addr : BitVec 64, Passes s.dev h 0x42 .h [some part.toNat, some gen.toNat, some addr.toNat] →
      CmdDoes (.boltExport h part gen addr) h 0x42 s (fun d rp =>
        match imgRefusal d part gen true with
        | some st => boltReject d rp st
        | none => { d with bolt := { d.bolt with exports := d.bolt.exports ++ [⟨part, gen, addr.toNat, rp⟩] } })) ∧
    (∀ (j : BoltJob) (i : BoltImg), s.dev.bolt.exports.find? (fun j => j.part == part && j.gen == gen) = some j →
      findImg s.dev part gen = some i → flashOn s.dev = true →
      ∀ rs : List CwRead, Does (.boltExportEnd part ⟨gen, rs⟩) s (fun d =>
        let ex := removeFirst (fun j : BoltJob => j.part == part && j.gen == gen) d.bolt.exports
        let r := readImage { d with bolt := { d.bolt with exports := ex } } i rs
        if badAt r.2 i r.1 ≠ [] then complete r.2 j.reply 0x06 []
        else complete (cmdOutput r.2 j.reply j.addr (asRead r.1 0 (imageData i))) j.reply 0 (packFields [(64, i.size)]))) ∧
    (∀ addr : BitVec 64, Passes s.dev h 0x43 .both [some addr.toNat] →
      CmdDoes (.boltHealth h addr) h 0x43 s (fun d rp =>
        if boltUp d then complete (cmdOutput d rp addr.toNat (healthRecord d)) rp 0 [] (healthRecord d)
        else boltReject d rp 0x40))

/-! ### Stitch (spec/08 R228 to R238) -/

/-- R231, R232: an instruction writes a register only in lanes that are active and whose guard holds (SEL, in every active
lane); every other lane keeps its registers and its predicates, whatever the group then does next: so for every row of
Table 08-8 that writes registers or predicates, which goes on to the next instruction.  (Lanes are 0 to 63, registers 0 to
63 and predicates 0 to 7; a pair lies within the registers.)
Choices of the model that it shows: conversions out of range (log entry 34), shifts of 32 or more (log entry 47), MX
conversions (log entry 48). -/
def Obligations.LaneWritesAreGuarded : Prop :=
  (∀ (y : Grp) (w : Nat) (f : Nat → Nat) (lane r : Nat), lane < 64 → r < 64 →
    rg (lanesSet y w f) lane r = (if lane ∈ onLanes y w ∧ r = iD w then f lane % 2 ^ 32 else rg y lane r) ∧
    (lanesSet y w f).preds = y.preds ∧ (lanesSet y w f).mask = y.mask ∧ (lanesSet y w f).pc = y.pc) ∧
  (∀ (n : Nat) (y : Grp), (settle n y).regs = y.regs ∧ (settle n y).preds = y.preds) ∧
  (∀ (s : State) (l g : Nat) (x : Grid) (k : Kernel) (y : Grp) (w : Nat), Running s →
    let keeps := fun (c : Instr) (out : Nat → Prop) => Gives c s (fun _ e => ∃ d z, e = goto d l z (y.pc + 1) ∧ z.g = y.g ∧
      ∀ lane < 64, out lane → (∀ r < 64, rg z lane r = rg y lane r) ∧
        ∀ p < 8, tgetD z.preds (lane * 8 + p) false = tgetD y.preds (lane * 8 + p) false)
    let off := fun lane => lane ∉ active y ∨ guardOf y w lane = false
    let ls := onLanes y w
    let i := segInfo s.dev x
    (∀ r ∈ ([(0x06, .sval l g), (0x10, .iadd l g), (0x11, .isub l g), (0x12, .imul l g), (0x13, .and l g), (0x14, .or l g),
        (0x15, .xor l g), (0x16, .shl l g), (0x17, .shr l g), (0x18, .sar l g), (0x19, .icmp l g), (0x1A, .movi l g),
        (0x1C, .iadd64 l g), (0x20, .fadd l g), (0x21, .fmul l g), (0x22, .ffma l g), (0x23, .fmax l g), (0x24, .fmin l g),
        (0x25, .fcmp l g), (0x26, .cvt l g), (0x27, .rcp l g), (0x28, .rsqrt l g), (0x29, .sqrt l g), (0x2A, .exp2 l g),
        (0x2B, .log2 l g)] : List (Nat × Instr)),
      AtInstr s.dev r.1 l g x k y w → (r.1 = 0x1C ∨ (r.1 = 0x26 ∧ iTO w = 6) → iD w < 63) → keeps r.2 off) ∧
    (AtInstr s.dev 0x1B l g x k y w → keeps (.sel l g) (fun lane => lane ∉ active y)) ∧
    (∀ e : Ecc, AtInstr s.dev 0x30 l g x k y w → (szBytes w = 8 → iD w < 63) →
      (∀ j ∈ ls, spadAt k y i false (ldsAddr y w j) (szBytes w) ≠ none) →
      ls = [] ∨ (e ≠ .ue ∧ Unmarked s.dev 0x09 (y.core / 16) (coreNo y.core)) → keeps (.lds l g e) off) ∧
    (AtInstr s.dev 0x32 l g x k y w → (szBytes w = 8 → iD w < 63) → (∀ j ∈ ls, ldgAddr x i false y w j ≠ none) →
      keeps (.ldg l g) off))

/-- R229, R230, R238: KERNEL_LOAD stores code that passes its checks; STITCH_LAUNCH starts the groups of a grid and
completes when the last group has ended and its stores are answered; a standalone launch that exceeds its limit faults
with cause 4.
Choices of the model that it shows: bringing in and acceptance of a command (log entry 11), placement past cores under test
(log entry 67), BRA's offset, the argument address (log entry 77), accesses within a command (log entry 100). -/
def Obligations.KernelsAndLaunches : Prop :=
  ∀ (s : State) (h : CmdHdr), Running s → Unmarked s.dev 0x20 0 0 →
    (∀ (k regs : BitVec 8) (spad : BitVec 32) (slots : BitVec 2) (len : BitVec 32) (b : List Byte),
      Passes s.dev h 0x38 .h [some k.toNat, none, some len.toNat, some regs.toNat, some spad.toNat, some slots.toNat] →
      (kernelBusy s.dev k.toNat = true →
        CmdReads (.kernelLoad h k regs spad slots len (.ok b)) h 0x38 s (fun d rp => optReject d rp 0x3C [])) ∧
      (let n := len.toNat / 8
       let ws := elemsOf 8 b n
       kernelBusy s.dev k.toNat = false → len.toNat % 8 = 0 → 1 ≤ n → n ≤ 8192 → 8 ≤ regs.toNat → regs.toNat ≤ 64 →
        regs.toNat % 8 = 0 → spad.toNat % 256 = 0 → firstBad regs.toNat n 0 ws = none →
        CmdReads (.kernelLoad h k regs spad slots len (.ok b)) h 0x38 s (fun d rp =>
          match optFit { d with opt := { d.opt with kernels := tdel d.opt.kernels k.toNat } } (alignUp (8 * n) 256) with
          | none => optReject d rp 0x22 []
          | some a =>
            let e : Kernel := ⟨regs.toNat, spad.toNat, slots.toNat, ws.map (BitVec.ofNat 64), a⟩
            let ks := tset d.opt.kernels k.toNat e
            complete (memPut { d with opt := { d.opt with kernels := ks } } a (bytesOf 8 ws)) rp 0 []))) ∧
    (∀ b : List Byte, Passes s.dev h 0x39 .h [] → launchBlock b = none →
      CmdDoes (.stitchLaunch h (.ok b)) h 0x39 s (fun d rp => refuseGen d rp 0x09)) ∧
    (∀ (b : List Byte) (p : LaunchParams), Passes s.dev h 0x39 .h [] → launchBlock b = some p →
      (tget? s.dev.opt.kernels p.k.toNat = none →
        CmdDoes (.stitchLaunch h (.ok b)) h 0x39 s (fun d rp =>
          complete (raise d (srcOpt (placeDie p.place.toNat) 0) 3) rp 0x3D [])) ∧
      (∀ k, tget? s.dev.opt.kernels p.k.toNat = some k → 1 ≤ p.g.toNat → p.g.toNat ≤ 2 ^ 26 → usesBar k = false →
        CmdDoes (.stitchLaunch h (.ok b)) h 0x39 s (fun d rp =>
          let die := placeDie p.place.toNat
          let cs := placed d p.place.toNat
          if cs = [] then complete (raise d (srcOpt die 0) 3) rp 0x09 []
          else if cs.any (fun q => residency d q k == 0) = true then complete (raise d (srcOpt die 0) 3) rp 0x3E []
          else
            let limit := if p.limitUs = 0 then natMax 1 (rdf d .optCtl [] 19 0) else p.limitUs.toNat
            cnt1 (launchGrid d p.k.toNat p.g.toNat cs p.srSeed p.wins limit (.host rp) die) (srcOpt die 0) 11))) ∧
    (∀ (l : Nat) (x : Grid) (rp : Reply), findGrid s.dev l = some x → x.why = .host rp →
      (gridGroups x ≤ x.done → allReqs s.dev = [] → allResps s.dev = [] →
        Does (.stitchGridEnd l) s (fun d =>
          complete { d with opt := { d.opt with launches := d.opt.launches.filter (fun y => y.id != l) } } rp 0 [])) ∧
      (x.done < gridGroups x → Idles (.stitchGridEnd l) s) ∧
      Does (.stitchWatchdog l) s (fun d =>
        let gs := x.groups.head?
        let d1 := { d with opt := { d.opt with launches := d.opt.launches.filter (fun y => y.id != l) } }
        complete (fillAll (raise d1 (srcOpt x.die 0) 2)) rp 3
          (packFields [(8, 4), (32, (gs.map (·.g)).getD 0), (13, (gs.map (·.pc)).getD 0)]))) ∧
    (∀ (l : Nat), findGrid s.dev l = none → Idles (.stitchGridEnd l) s ∧ Idles (.stitchWatchdog l) s)

/-- R234, R237, Table 08-8, the integer rows: each writes its function of A and B, or of an immediate or special value,
in the lanes whose guard holds (SEL in every active lane).  A shift by 32 or more writes a free value (log entry 47).
Choices of the model that it shows: registers start at 0 (log entry 40). -/
def Obligations.StitchInteger : Prop :=
  ∀ (s : State) (l g : Nat) (x : Grid) (k : Kernel) (y : Grp) (w : Nat), Running s →
    let a := fun lane => rg y lane (iA w)
    let b := fun lane => rg y lane (iB w)
    (AtInstr s.dev 0x10 l g x k y w → RowDoes (.iadd l g) s l y w (fun _ i => (a i + b i) % 2 ^ 32)) ∧
    (AtInstr s.dev 0x11 l g x k y w → RowDoes (.isub l g) s l y w (fun _ i => (a i + 2 ^ 32 - b i) % 2 ^ 32)) ∧
    (AtInstr s.dev 0x12 l g x k y w → RowDoes (.imul l g) s l y w (fun _ i => a i * b i % 2 ^ 32)) ∧
    (AtInstr s.dev 0x13 l g x k y w → RowDoes (.and l g) s l y w (fun _ i => a i &&& b i)) ∧
    (AtInstr s.dev 0x14 l g x k y w → RowDoes (.or l g) s l y w (fun _ i => a i ||| b i)) ∧
    (AtInstr s.dev 0x15 l g x k y w → RowDoes (.xor l g) s l y w (fun _ i => a i ^^^ b i)) ∧
    (AtInstr s.dev 0x16 l g x k y w → RowDoes (.shl l g) s l y w (fun d i =>
      if b i < 32 then a i * 2 ^ b i % 2 ^ 32 else laneFree d i)) ∧
    (AtInstr s.dev 0x17 l g x k y w → RowDoes (.shr l g) s l y w (fun d i =>
      if b i < 32 then a i / 2 ^ b i else laneFree d i)) ∧
    (AtInstr s.dev 0x18 l g x k y w → RowDoes (.sar l g) s l y w (fun d i =>
      if b i < 32 then ofInt 32 (sx 32 (a i) / (2 ^ b i : Nat)) else laneFree d i)) ∧
    (AtInstr s.dev 0x1A l g x k y w → RowDoes (.movi l g) s l y w (fun _ _ => bits w 31 0)) ∧
    (AtInstr s.dev 0x06 l g x k y w → RowDoes (.sval l g) s l y w (fun d i => sval x y (segInfo d x) i (bits w 7 0))) ∧
    (AtInstr s.dev 0x1B l g x k y w → Does (.sel l g) s (fun d =>
      goto d l ((active y).foldl (fun z i => setRg z i (iD w) (if guardOf y w i then a i else b i)) y) (y.pc + 1))) ∧
    (AtInstr s.dev 0x1C l g x k y w → Does (.iadd64 l g) s (fun d =>
      goto d l ((onLanes y w).foldl (fun z i =>
        setRg2 z i (iD w) ((rg2 y i (iA w) + rg2 y i (iB w)) % 2 ^ 64)) y) (y.pc + 1)))

/-- R148, R149, R235, R237, Table 08-8, the floating rows: FADD, FMUL and FFMA round the exact result once in the direction
of RM; the quarter-rate functions write their functions; a compare writes a predicate, and nothing for p7; CVT converts from
every type to every type, rounding to nearest, toward zero or, with RM 2, by the bits that the lane's counter draws, which it
then advances.
Choices of the model that it shows: conversions out of range (log entry 34), registers start at 0 (log entry 40), MX
conversions (log entry 48). -/
def Obligations.StitchFloating : Prop :=
  ∀ (s : State) (l g : Nat) (x : Grid) (k : Kernel) (y : Grp) (w : Nat), Running s →
    let a := fun lane => rg y lane (iA w)
    let b := fun lane => rg y lane (iB w)
    let rnd := fenc f32 (if iRM w = 1 then .rtz else .rne) false
    let cmp := fun (f : Nat → Nat → Bool) => fun (d : Dev) =>
      let t := (onLanes y w).foldl (fun t i => tput false t (i * 8 + iD w % 8) (f (a i) (b i))) y.preds
      goto d l (if iD w % 8 = 7 then y else { y with preds := t }) (y.pc + 1)
    (AtInstr s.dev 0x20 l g x k y w → RowDoes (.fadd l g) s l y w (fun _ i => rnd (fvAdd (d32 (a i)) (d32 (b i))))) ∧
    (AtInstr s.dev 0x21 l g x k y w → RowDoes (.fmul l g) s l y w (fun _ i => rnd (fvMul (d32 (a i)) (d32 (b i))))) ∧
    (AtInstr s.dev 0x22 l g x k y w → RowDoes (.ffma l g) s l y w (fun _ i =>
      rnd (fvAdd (fvMul (d32 (a i)) (d32 (b i))) (d32 (rg y i (iC w)))))) ∧
    (AtInstr s.dev 0x23 l g x k y w → RowDoes (.fmax l g) s l y w (fun _ i => fmaxmin f32 true (a i) (b i))) ∧
    (AtInstr s.dev 0x24 l g x k y w → RowDoes (.fmin l g) s l y w (fun _ i => fmaxmin f32 false (a i) (b i))) ∧
    (AtInstr s.dev 0x27 l g x k y w → RowDoes (.rcp l g) s l y w (fun _ i => frcp (a i))) ∧
    (AtInstr s.dev 0x28 l g x k y w → RowDoes (.rsqrt l g) s l y w (fun _ i => frsqrt (a i))) ∧
    (AtInstr s.dev 0x29 l g x k y w → RowDoes (.sqrt l g) s l y w (fun _ i => fsqrt (a i))) ∧
    (AtInstr s.dev 0x2A l g x k y w → RowDoes (.exp2 l g) s l y w (fun _ i => fexp2 (a i))) ∧
    (AtInstr s.dev 0x2B l g x k y w → RowDoes (.log2 l g) s l y w (fun _ i => flog2 (a i))) ∧
    (AtInstr s.dev 0x19 l g x k y w → Does (.icmp l g) s (cmp (fun p q =>
      ccHolds (iCC w) (decide (sx 32 p < sx 32 q)) (p == q) false))) ∧
    (AtInstr s.dev 0x25 l g x k y w → Does (.fcmp l g) s (cmp (fun p q =>
      let un := d32 p == .nan || d32 q == .nan
      ccHolds (iCC w) (!un && decide (fvCmp (d32 p) (d32 q) < 0)) (!un && decide (fvCmp (d32 p) (d32 q) = 0)) un))) ∧
    (AtInstr s.dev 0x26 l g x k y w →
      let src := fun i => cvtIn (iTI w) (if iTI w = 6 then rg2 y i (iA w) else a i)
      let seed := match segInfo s.dev x with
        | some z => (((z.shard.hs.getD z.seg.hset ⟨[], none⟩).cur.getD 15 0).toNat, (z.shard.step + 1).toNat, z.first)
        | none => (x.srSeed.toNat, 0, 0)
      let dir := fun i => if iRM w = 1 then Rm.rtz else if iRM w = 2
        then .sr (srBits seed.1 seed.2.1 (seed.2.2 + 64 * y.g + i) (tgetD y.srCnt i 0)) else .rne
      let count := fun z : Grp => if iRM w = 2 then { z with
        srCnt := (onLanes y w).foldl (fun t i => tput 0 t i ((tgetD t i 0 + 1) % 2 ^ 24)) z.srCnt } else z
      let free := fun (d : Dev) (i : Nat) => laneFree d i + 2 ^ 32 * (Config.freeWord (d.draw + 64 + i)).toNat
      let next := fun (d : Dev) (z : Grp) => goto { d with draw := d.draw + 128 } l (count z) (y.pc + 1)
      -- to a format of R147
      (∀ f, fmtOf (iTO w) = some f → isMx (iTO w) = false → iTO w ≠ 5 → iTO w ≠ 6 → Does (.cvt l g) s (fun d =>
        next d (lanesSet y w (fun i => fenc f (dir i) (bit w 23 && (iTO w == 3 || iTO w == 4)) (src i))))) ∧
      -- to an integer
      (iTO w = 5 → Does (.cvt l g) s (fun d =>
        next d (lanesSet y w (fun i => toInt 32 (dir i) (free d i % 2 ^ 32) (src i))))) ∧
      (iTO w = 6 → Does (.cvt l g) s (fun d =>
        next d ((onLanes y w).foldl (fun z i => setRg2 z i (iD w) (toInt 64 (dir i) (free d i) (src i))) y))) ∧
      -- to an MX element, under the scale of its block of 32 lanes
      (isMx (iTO w) = true → iTO w ≠ 5 → iTO w ≠ 6 → Does (.cvt l g) s (fun d =>
        next d (lanesSet y w (fun i => mxOut (iTO w)
          (mxScale (iTO w) (((onLanes y w).filter (fun j => j / 32 == i / 32)).map src)) (dir i) (free d i) (src i))))))

/-- R231, R233, R248: BRA sends the threads whose guard holds to TGT, runs the others first where they differ and
reconverges at JOIN; EXIT ends threads; BAR waits until every group of the launch on the core waits; FENCE and MWAIT
go on once nothing is outstanding.
Choices of the model that it shows: BRA's offset, the argument address (log entry 77), when MMA is checked (log entry 121). -/
def Obligations.StitchControl : Prop :=
  ∀ (s : State) (l g : Nat) (x : Grid) (k : Kernel) (y : Grp) (w : Nat), Running s →
    let t := laneMask (onLanes y w)
    let tgt := ((y.pc : Int) + iTGT w).toNat
    let join := ((y.pc : Int) + iJOIN w).toNat
    (AtInstr s.dev 0x00 l g x k y w → Does (.stitchNop l g) s (fun d => goto d l y (y.pc + 1))) ∧
    (AtInstr s.dev 0x01 l g x k y w → Does (.exit l g) s (fun d =>
      goto d l { y with mask := y.mask &&& ~~~t, ended := y.ended ||| t } (y.pc + 1))) ∧
    (AtInstr s.dev 0x02 l g x k y w →
      (t = 0 → Does (.bra l g) s (fun d => goto d l y (y.pc + 1))) ∧
      (t ≠ 0 → y.mask &&& ~~~t = 0 → Does (.bra l g) s (fun d => goto d l y tgt)) ∧
      (t ≠ 0 → y.mask &&& ~~~t ≠ 0 → Does (.bra l g) s (fun d =>
        goto d l { y with mask := y.mask &&& ~~~t,
                          stack := ⟨t, tgt, some join⟩ :: ⟨y.mask, join, none⟩ :: y.stack } (y.pc + 1)))) ∧
    (AtInstr s.dev 0x03 l g x k y w →
      (onLanes y w = [] → Does (.bar l g) s (fun d => goto d l y (y.pc + 1))) ∧
      (onLanes y w ≠ [] → Does (.bar l g) s (fun d => setGrp d l { y with bar := true }))) ∧
    (∀ core : Fin 72, findGrid s.dev l = some x →
      let mine := x.groups.filter (fun y => coreNo y.core == core.val)
      let i := x.cores.findIdx (fun q => coreNo q == core.val)
      (mine ≠ [] → (∀ y ∈ mine, y.bar = true) → groupsOn (gridGroups x) x.cores.length i ≤ x.started.getD i 0 →
        Does (.barRelease l core) s (fun d => mine.foldl (fun d y => goto d l { y with bar := false } (y.pc + 1)) d)) ∧
      (mine = [] ∨ (∃ y ∈ mine, y.bar = false) → Idles (.barRelease l core) s)) ∧
    (AtInstr s.dev 0x04 l g x k y w → (y.memWait = 0 → Does (.fence l g) s (fun d => goto d l y (y.pc + 1))) ∧
      (y.memWait ≠ 0 → Idles (.fence l g) s)) ∧
    (AtInstr s.dev 0x41 l g x k y w → (y.mma = [] → Does (.mwait l g) s (fun d => goto d l y (y.pc + 1))) ∧
      (y.mma ≠ [] → Idles (.mwait l g) s))

/-- R235, R236, R238, R253, R254: scratchpad and stacked-memory accesses of the lanes whose guard holds; an access outside
its window faults with cause 1, an uncorrectable operand of a matrix instruction with cause 2; a matrix instruction is
queued and its oldest completes; a response reaches its requester.
Choices of the model that it shows: scratchpad starts at 0 (log entry 41), the layout of MMA operands (log entry 49), where a
request stands (log entry 72), when MMA is checked (log entry 121). -/
def Obligations.StitchMemory : Prop :=
  ∀ (s : State) (l g : Nat) (x : Grid) (k : Kernel) (y : Grp) (w : Nat), Running s →
    let i := segInfo s.dev x
    let ls := onLanes y w
    let n := szBytes w
    (AtInstr s.dev 0x30 l g x k y w →
      ((∃ j ∈ ls, spadAt k y i false (ldsAddr y w j) n = none) → ∀ e,
        Does (.lds l g e) s (fun d => stitchFault d l 1 y.g y.pc)) ∧
      (∀ e, (∀ j ∈ ls, spadAt k y i false (ldsAddr y w j) n ≠ none) →
        ls = [] ∨ (e = .clean ∧ Unmarked s.dev 0x09 (y.core / 16) (coreNo y.core)) →
        Does (.lds l g e) s (fun d =>
          let v := fun j => leVal (spadRd d y.core ((spadAt k y i false (ldsAddr y w j) n).getD 0) n)
          goto { d with draw := d.draw + 64 } l
            (ls.foldl (fun z j => setLoaded z w j (v j) (laneFree d j)) y) (y.pc + 1)))) ∧
    (AtInstr s.dev 0x31 l g x k y w →
      ((∃ j ∈ ls, spadAt k y i true (ldsAddr y w j) n = none) →
        Does (.sts l g) s (fun d => stitchFault d l 1 y.g y.pc)) ∧
      ((∀ j ∈ ls, spadAt k y i true (ldsAddr y w j) n ≠ none) →
        Does (.sts l g) s (fun d => goto (ls.foldl (fun d j =>
          spadWr d y.core ((spadAt k y i true (ldsAddr y w j) n).getD 0) (storeData y w j)) d) l y (y.pc + 1)))) ∧
    (AtInstr s.dev 0x32 l g x k y w →
      ((∃ j ∈ ls, ldgAddr x i false y w j = none) → Does (.ldg l g) s (fun d => stitchFault d l 1 y.g y.pc)) ∧
      ((∀ j ∈ ls, ldgAddr x i false y w j ≠ none) → Does (.ldg l g) s (fun d =>
        let reqs := ls.flatMap (fun j => reqParts ((ldgAddr x i false y w j).getD 0) n
          (fun pos m => .thread l y.g j (iD w) pos m y.pc) [])
        let d1 := reqs.foldl (fun d r => issue d 0 r) d
        let z := ls.foldl (fun z j => setLoaded z w j 0 (laneFree d1 j)) y
        goto { d1 with draw := d1.draw + 64 } l { z with memWait := z.memWait + reqs.length } (y.pc + 1)))) ∧
    (AtInstr s.dev 0x33 l g x k y w →
      ((∃ j ∈ ls, ldgAddr x i true y w j = none) → Does (.stg l g) s (fun d => stitchFault d l 1 y.g y.pc)) ∧
      ((∀ j ∈ ls, ldgAddr x i true y w j ≠ none) → Does (.stg l g) s (fun d =>
        let reqs := ls.flatMap (fun j => reqParts ((ldgAddr x i true y w j).getD 0) n
          (fun _ _ => .store l y.g y.pc) (storeData y w j))
        goto (reqs.foldl (fun d r => issue d 1 r) (if ls = [] then d else clearRb d i)) l
          { y with memWait := y.memWait + reqs.length } (y.pc + 1)))) ∧
    (AtInstr s.dev 0x34 l g x k y w →
      ((∃ j ∈ ls, (atomOf x i y w j).isNone = true) → Does (.atom l g) s (fun d => stitchFault d l 1 y.g y.pc)) ∧
      (∀ j z, ls = [j] → atomOf x i y w j = some z → 5 ≤ z.code → Does (.atom l g) s (fun d =>
        let r : MemReq := ⟨.thread l y.g z.lane (iD w) 0 n y.pc, z.addr, (redOp z.code).2.1, z.data, []⟩
        let d1 := issue (clearRb d i) (16 + z.code) r
        let v := setLoaded y w z.lane 0 (laneFree d1 z.lane)
        goto { d1 with draw := d1.draw + 64 } l { v with memWait := v.memWait + 1 } (y.pc + 1))) ∧
      (∀ j z, ls = [j] → atomOf x i y w j = some z → z.code < 5 → Does (.atom l g) s (fun d =>
        let r : MemReq := ⟨.store l y.g y.pc, z.addr / 256 * 256, 256, z.data, [z.addr % 256]⟩
        let d1 := issue (clearRb d i) (16 + z.code) r
        goto { d1 with draw := d1.draw + 64 } l { y with memWait := y.memWait + 1 } (y.pc + 1)))) ∧
    (AtInstr s.dev 0x40 l g x k y w →
      (∀ e, ls = [] → Does (.mma l ⟨g, e⟩) s (fun d => goto d l y (y.pc + 1))) ∧
      (ls ≠ [] →
        let v := [rg y 0 (iA w), rg y 0 (iB w), rg y 0 (iC w), rg y 0 (iD w), rg y 0 (iD w + 1)].map w32
        (∀ r ∈ (mmaRanges w v).zip [false, false, true, false, false], r.1.2 ≠ 0 →
          spadAt k y i r.2 r.1.1 r.1.2 ≠ none) →
        Unmarked s.dev 0x09 (y.core / 16) (coreNo y.core) →
        Does (.mma l ⟨g, .clean⟩) s (fun d => goto d l { y with mma := y.mma ++ [(BitVec.ofNat 64 w, v)] } (y.pc + 1)) ∧
        Does (.mma l ⟨g, .ue⟩) s (fun d =>
          let d1 := raise d (srcCore (coreNo y.core)) 1
          stitchFault (addSusp d1 y.core (ovlLimit d)) l 2 y.g y.pc))) ∧
    (∀ v q r, findGrid s.dev l = some x → tget? s.dev.opt.kernels x.kernel = some k →
      x.groups.find? (fun y => y.g == g) = some y → y.mma = (q, v) :: r →
      Does (.mmaComplete l g) s (fun d => setGrp (mmaFinal d k y (segInfo d x) q.toNat v) l { y with mma := r })) ∧
    (∀ (m : Nat) (e : MemResp) (rest : List MemResp), takeAt s.dev.mem.resps m = some (e, rest) → e.bad = false →
      (∀ lane r pos cnt idx, e.r.src = .thread l g lane r pos cnt idx → findGrid s.dev l = some x →
        x.groups.find? (fun y => y.g == g) = some y →
        Does (.memResponse m) s (fun d =>
          let z := putBytes y lane r pos (slice e.data (e.r.offs.headD 0) cnt)
          setGrp { d with mem := { d.mem with resps := rest } } l { z with memWait := z.memWait - 1 })) ∧
      (∀ idx, e.r.src = .store l g idx → findGrid s.dev l = some x → x.groups.find? (fun y => y.g == g) = some y →
        Does (.memResponse m) s (fun d =>
          setGrp { d with mem := { d.mem with resps := rest } } l { y with memWait := y.memWait - 1 })) ∧
      (∀ t slot chunk op, e.r.src = .tile t slot chunk op → e.op ≠ 25 →
        Does (.memResponse m) s (fun d => { d with
          mem := { d.mem with resps := rest }, coll := { d.coll with spills := d.coll.spills.map (fun y =>
            if y.id = op then { y with wait := y.wait - 1 } else y) } })) ∧
      (e.r.src = .scrub → Does (.memResponse m) s (fun d => { d with mem := { d.mem with resps := rest } }))) ∧
    (∀ m, takeAt s.dev.mem.resps m = none → Idles (.memResponse m) s)

/-! ### Stacked memory (spec/09) -/

/-- R244, R247, R251, R257: MEM_READ answers the bytes, MEM_WRITE stores them, RDCLR answers and zeroes them; CNT adds to
COUNT and sends the count to the core; a request that still has to wait does nothing; an address that does not exist
stops; every byte outside the request stays as it was.  A kernel that runs for a chunk with a shadow sees and stores behind
the writes that are held until both have been compared (spec/06 R169), in memory nothing.
Choices of the model that it shows: bytes never written read 0 (log entry 5), where a request stands (log entry 72),
addresses that do not exist (log entry 79), partial sectors (log entry 101). -/
def Obligations.MemoryAccesses : Prop :=
  ∀ (s : State) (r : MemReq) (es : List Ecc), Running s →
    (∀ c q, memReqOf c = some q → memEnd < q.addr + q.len → exec c s = .fault .noSuchAddress) ∧
    (MemFree s.dev 0 r → MemClean s.dev r.addr r.len → (∀ e ∈ es, e = .clean) → r.src ≠ .scrub →
      Does (.memRead r es) s (fun d =>
        respond (cnt1 (memTake d 0 r) (srcMem 0) 7) 0 r (memSee d r.src r.addr r.len) false)) ∧
    (r.addr + r.len ≤ memEnd → (reqWaits s.dev 0 r = true → Idles (.memRead r es) s) ∧
      (reqWaits s.dev 1 r = true → Idles (.memWrite ⟨r, es⟩) s) ∧ (reqWaits s.dev 25 r = true → Idles (.cnt r es) s) ∧
      (reqWaits s.dev 26 r = true → Idles (.rdclr r es) s)) ∧
    (let at_ := r.addr + r.offs.headD 0
     MemFree s.dev 1 r → r.data.length ≤ r.len - r.offs.headD 0 → (r.offs = [] → r.data.length = r.len) →
      (∀ e ∈ es, e = .clean) →
      (∀ k ∈ partSectors at_ r.data.length, poisoned s.dev (64 * k) 1 = false ∧
        Unmarked s.dev 0x0C (memStack s.dev (64 * k) / 3) (memStack s.dev (64 * k))) → s.dev.mem.flaws = [] →
      Gives (.memWrite ⟨r, es⟩) s (fun d e =>
        (overOf d r.src = none → ∀ a, tgetD e.mem.bytes a 0 =
          if at_ ≤ a ∧ a < at_ + r.data.length then r.data.getD (a - at_) 0 else tgetD d.mem.bytes a 0) ∧
        ((overOf d r.src).isSome = true → e.mem.bytes = d.mem.bytes) ∧
        e = respond (memStore (cnt1 (memTake d 1 r) (srcMem 0) 8) r.src at_ r.data) 1 r [] false)) ∧
    (MemFree s.dev 26 r → MemClean s.dev r.addr r.len → (∀ e ∈ es, e = .clean) →
      Gives (.rdclr r es) s (fun d e =>
        (∀ a, tgetD e.mem.bytes a 0 = if r.addr ≤ a ∧ a < r.addr + r.len then 0 else tgetD d.mem.bytes a 0) ∧
        e = memZero (respond (cnt1 (memTake d 26 r) (srcMem 0) 7) 26 r (memRd d r.addr r.len) false) r.addr r.len)) ∧
    (MemFree s.dev 25 r → MemClean s.dev r.addr r.len → (∀ e ∈ es, e = .clean) →
      ∀ t slot chunk op, r.src = .tile t slot chunk op →
      Does (.cnt r es) s (fun d =>
        let n := leAt r.data 0 4
        let d1 := respond (memWr (memTake d 25 r) r.addr (leBytes 4 (mem32 d r.addr + n))) 25 r [] false
        answer d1 ⟨25, { r with src := .core (leAt r.data 4 1) slot chunk }, [], false, n, none⟩))

/-- R251, R252, R255, R257: a RED or an ADD adds its elements to memory in the element's format, ADD answers the old values.
Each of the nine commands completes on every request that has reached the front of its queue and whose sectors are sound.
With an uncorrectable error in a sector each of the nine changes no byte of memory; the sector is poisoned from then on, as
are those that were; the error is counted, once for each such sector, and MEM_STATUS.UE is set; and the answer carries it.
Choices of the model that it shows: bytes never written read 0 (log entry 5), where a request stands (log entry 72). -/
def Obligations.MemoryReductions : Prop :=
  ∀ (s : State) (r : MemReq) (es : List Ecc), Running s →
   (MemClean s.dev r.addr r.len → (∀ e ∈ es, e = .clean) →
    (MemFree s.dev 16 r → Does (.redF32 r es) s (fun d =>
      respond (redSum r 4 4 fadd (cnt1 (memTake d 16 r) (srcMem 0) 9)) 16 r [] false)) ∧
    (MemFree s.dev 17 r → Does (.redBf16 r es) s (fun d =>
      respond (redSum r 2 2 bf16Add (cnt1 (memTake d 17 r) (srcMem 0) 9)) 17 r [] false)) ∧
    (MemFree s.dev 18 r → Does (.redBf16w r es) s (fun d =>
      respond (redSum r 2 4 (fun m x => fadd m (fconv 1 0 x)) (cnt1 (memTake d 18 r) (srcMem 0) 9)) 18 r [] false)) ∧
    (MemFree s.dev 19 r → Does (.redI32 r es) s (fun d =>
      respond (redSum r 4 4 (fun m x => (m + x) % 2 ^ 32) (cnt1 (memTake d 19 r) (srcMem 0) 9)) 19 r [] false)) ∧
    (MemFree s.dev 20 r → Does (.redI64 r es) s (fun d =>
      respond (redSum r 8 8 (fun m x => (m + x) % 2 ^ 64) (cnt1 (memTake d 20 r) (srcMem 0) 9)) 20 r [] false)) ∧
    (MemFree s.dev 21 r → Does (.addF32 r es) s (fun d =>
      respond (redSum r 4 4 fadd (cnt1 (memTake d 21 r) (srcMem 0) 10)) 21 r (memSee d r.src r.addr r.len) false)) ∧
    (MemFree s.dev 22 r → Does (.addBf16 r es) s (fun d =>
      respond (redSum r 2 2 bf16Add (cnt1 (memTake d 22 r) (srcMem 0) 10)) 22 r (memSee d r.src r.addr r.len) false)) ∧
    (MemFree s.dev 23 r → Does (.addI32 r es) s (fun d =>
      respond (redSum r 4 4 (fun m x => (m + x) % 2 ^ 32) (cnt1 (memTake d 23 r) (srcMem 0) 10)) 23 r
        (memSee d r.src r.addr r.len) false)) ∧
    (MemFree s.dev 24 r → Does (.addI64 r es) s (fun d =>
      respond (redSum r 8 8 (fun m x => (m + x) % 2 ^ 64) (cnt1 (memTake d 24 r) (srcMem 0) 10)) 24 r
        (memSee d r.src r.addr r.len) false))) ∧
   (s.dev.mem.flaws = [] →
    let ks := sectors r.addr r.len
    let bad := fun i => poisoned s.dev (64 * ks.getD i 0) 1 || es.getD i .clean == .ue
    (∀ k ∈ ks, Unmarked s.dev 0x0C (memStack s.dev (64 * k) / 3) (memStack s.dev (64 * k))) →
    (∃ i < ks.length, bad i = true) →
    ∀ x ∈ ([(16, .redF32 r es), (17, .redBf16 r es), (18, .redBf16w r es), (19, .redI32 r es), (20, .redI64 r es),
        (21, .addF32 r es), (22, .addBf16 r es), (23, .addI32 r es), (24, .addI64 r es)] : List (Nat × Instr)),
      MemFree s.dev x.1 r →
      Gives x.2 s (fun d e =>
        e.mem.bytes = d.mem.bytes ∧
        (∀ i < ks.length, bad i = true → poisoned e (64 * ks.getD i 0) 1 = true) ∧
        cntAt e ((srcMem 0).cnt + 8) =
          cntAt d ((srcMem 0).cnt + 8) + BitVec.ofNat 48 ((List.range ks.length).filter bad).length ∧
        rdb e .memStatus [] 1 = true ∧
        (∀ t, reqTile d r.src = some t → ∃ f ∈ e.sw.flights, ∃ m : MemResp,
          f.load = .memP m ∧ m.op = x.1 ∧ m.r = r ∧ m.bad = true)))

/-- The canonical form of memory (addresses ascending, no listed byte equal to what an unlisted one reads as) holds at
reset, and every step keeps it, from every state: every command, and the TIME cycle of an empty queue; as do every
stacked-memory command for itself and every store and clearing of a range.  (The form is the model's: log entry 5.) -/
def Obligations.MemoryKeepsItsForm : Prop :=
  tabWf 0 State.reset.dev.mem.bytes = true ∧
  (∀ s t : State, tabWf 0 s.dev.mem.bytes = true → step s = .next t → tabWf 0 t.dev.mem.bytes = true) ∧
  (∀ (c : Instr) (q : MemReq) (s t : State), memReqOf c = some q → tabWf 0 s.dev.mem.bytes = true →
    exec c s = .next t → tabWf 0 t.dev.mem.bytes = true) ∧
  (∀ (d : Dev) (a : Nat) (b : List Byte), tabWf 0 d.mem.bytes = true → tabWf 0 (memWr d a b).mem.bytes = true) ∧
  (∀ (d : Dev) (a n : Nat), tabWf 0 d.mem.bytes = true → tabWf 0 (memZero d a n).mem.bytes = true)

/-! ### Optics and laser sources (spec/12) -/

/-- R312, R313, R315, R316, R318, R319: a sweep locks its ring where a resonance holds, or counts a failed sweep; a window
of a locked ring samples its sensor, moves its heater code and re-sweeps it on a wrong tone twice over, and in the dark
holds it; received power is recorded and judged against LOS; a lane whose optics are ready leaves WAIT_OPTICS for TRAIN.
Each of the four commands completes.
Choices of the model that it shows: causes of a re-sweep, and OUT_EN (log entry 29), heater codes, and moments of measurement
(log entry 119), a restart of Tailor (log entry 128). -/
def Obligations.RingLocks : Prop :=
  ∀ (s : State) (n f : Fin 16) (c : Fin 9) (tx rx : Bool), Running s →
    (∀ (res : List Resonance) (t : BitVec 8),
      (sweeping s.dev n tx f c rx = false ∨ pdOn s.dev (80 + n) = false →
        Idles (.ringSweepDone n tx f c res ⟨t, rx⟩) s) ∧
      (∀ h k, sweeping s.dev n tx f c rx = true → pdOn s.dev (80 + n) = true →
        sweepLock (cnt1 (sensorSample s.dev.fresh n (f / 4) t.toNat) (srcOe n n) 4) n c (ascending res) t.toNat = some (h, k) →
        Does (.ringSweepDone n tx f c res ⟨t, rx⟩) s (fun d =>
          wr (setRingLock (cnt1 (sensorSample d n (f / 4) t.toNat) (srcOe n n) 4) n tx f c ⟨h, t.toNat, k, 0, 0, 0⟩)
            (ringReg tx) [n.val, 9 * f + c] (2 * 2 ^ 29 + h))) ∧
      (sweeping s.dev n tx f c rx = true → pdOn s.dev (80 + n) = true →
        sweepLock (cnt1 (sensorSample s.dev.fresh n (f / 4) t.toNat) (srcOe n n) 4) n c (ascending res) t.toNat = none →
        Does (.ringSweepDone n tx f c res ⟨t, rx⟩) s (fun d =>
          let d1 := cnt1 (sensorSample d n (f / 4) t.toNat) (srcOe n n) 4
          let x := ringLock d n tx f c
          if x.fails + 1 = 3 then
            raise (setRingState (setRingLock d1 n tx f c { x with fails := 0 }) n tx f c 4)
              (srcOe n (64 + 16 * n + f)) 1 [] (fibreLanes n f)
          else setRingState (setRingLock d1 n tx f c { x with fails := x.fails + 1 }) n tx f c 1))) ∧
    (∀ (tone : Option (Fin 9)) (heater : BitVec 16) (t : BitVec 8),
      let e := sensorSample s.dev.fresh n (f / 4) t.toNat
      let x := ringLock s.dev n tx f c
      let y := { x with wrong := 0, corr := (heater.toNat : Int) - ffTerm x (groupTemp e n (f / 4)) }
      (ringState e n tx f c ≠ 2 → ringState e n tx f c ≠ 3 →
        Does (.toneWindowEnd n tx f c tone ⟨heater, t, rx⟩) s (fun d => sensorSample d n (f / 4) t.toNat)) ∧
      (ringState e n tx f c = 2 ∨ ringState e n tx f c = 3 → fibreLit e n tx f rx = false →
        Does (.toneWindowEnd n tx f c tone ⟨heater, t, rx⟩) s (fun d =>
          holdRing (sensorSample d n (f / 4) t.toNat) n tx f c)) ∧
      (ringState e n tx f c = 2 ∨ ringState e n tx f c = 3 → fibreLit e n tx f rx = true → tlrHolds s.dev = true →
        Does (.toneWindowEnd n tx f c tone ⟨heater, t, rx⟩) s (fun d => ffAlone (sensorSample d n (f / 4) t.toNat) n tx f c)) ∧
      (ringState e n tx f c = 2 → fibreLit e n tx f rx = true → tlrHolds s.dev = false → pdOn s.dev (80 + n) = true →
        tone = some c → heater ≠ 0 → heater ≠ 65535 →
        s.dev.rel.marks.contains (0x14, n / 4, n.val, 9 * f + c) = false → outOfOrder e n f heater.toNat x = false →
        Does (.toneWindowEnd n tx f c tone ⟨heater, t, rx⟩) s (fun d =>
          setRingLock (wrf (sensorSample d n (f / 4) t.toNat) (ringReg tx) [n.val, 9 * f + c] 15 0 heater.toNat) n tx f c y)) ∧
      (ringState e n tx f c = 2 ∨ ringState e n tx f c = 3 → fibreLit e n tx f rx = true → tlrHolds s.dev = false →
        pdOn s.dev (80 + n) = true → (∃ t, tone = some t ∧ t ≠ c) → 1 ≤ x.wrong →
        s.dev.rel.marks.contains (0x14, n / 4, n.val, 9 * f + c) = false →
        Does (.toneWindowEnd n tx f c tone ⟨heater, t, rx⟩) s (fun d =>
          resweep (setRingLock (wrf (sensorSample d n (f / 4) t.toNat) (ringReg tx) [n.val, 9 * f + c] 15 0 heater.toNat)
            n tx f c { y with wrong := x.wrong + 1 }) n tx f c 0))) ∧
    (∀ pwr : BitVec 16, s.dev.rel.marks.contains (0x15, n / 4, n.val, 9 * f + c) = false →
      (ringState s.dev n false f c ≠ 2 →
        Does (.rxpwrSample n f c pwr) s (fun d =>
          setLos (wr d .oeRxpwr [n.val, 9 * f + c] pwr.toNat) n f c { losOf d n f c with below := 0 })) ∧
      (ringState s.dev n false f c = 2 → losLevel s.dev n + (rdf s.dev .oeLos [n.val] 23 16 : Nat) ≤ sx 16 pwr.toNat →
        losLevel s.dev n ≤ sx 16 pwr.toNat →
        Does (.rxpwrSample n f c pwr) s (fun d =>
          let x := losOf d n f c
          setLos (wr d .oeRxpwr [n.val, 9 * f + c] pwr.toNat) n f c
            ⟨0, x.above + 1, x.lost && decide (x.above + 1 < 2)⟩)) ∧
      (ringState s.dev n false f c = 2 → sx 16 pwr.toNat < losLevel s.dev n → (losOf s.dev n f c).below = 0 →
        Does (.rxpwrSample n f c pwr) s (fun d =>
          setLos (wr d .oeRxpwr [n.val, 9 * f + c] pwr.toNat) n f c ⟨1, 0, (losOf d n f c).lost⟩))) ∧
    (∀ l : Fin 512,
      (laneState s.dev l = 1 → opticsReady s.dev l = true → pdOn s.dev (80 + l / 32) = true →
        Does (.oeLaneReady l) s (fun d => toTrain d l)) ∧
      (laneState s.dev l ≠ 1 ∨ opticsReady s.dev l = false ∨ pdOn s.dev (80 + l / 32) = false → Idles (.oeLaneReady l) s)) ∧
    (∀ (res : List Resonance) (t : BitVec 8) (tone : Option (Fin 9)) (heater pwr : BitVec 16) (l : Fin 512),
      ∀ i ∈ [Instr.ringSweepDone n tx f c res ⟨t, rx⟩, .toneWindowEnd n tx f c tone ⟨heater, t, rx⟩, .rxpwrSample n f c pwr,
        .oeLaneReady l], ∃ e, exec i s = .next { s with dev := e })

/-- R325, R326: these commands complete: `exec` answers `.next` for every state. The Thimble of a fibre opens only through
SHUT, PROBE or RESP, and LIT, and closes where Table 12-6 says: each move sets the state alone, a trip also reports, holds
the drop filters and gives the lanes their cause.
R320, R322, R324, R331: these commands complete: `exec` answers `.next` for every state and operands. A bias write is
clamped to CAP; a write of OUT_EN lights and darkens outputs; the first attempt that answers ends a transaction and four
failures count one, the sixteenth in a row failing the bus of a source that is present; nothing goes out while the bus is
not driven (spec/18 R450; from step 6 on, log entry 138); an alert is reported; a dark feed is killed until a probe finds
light.
Choices of the model that it shows: causes of a re-sweep, and OUT_EN (log entry 29), DIE and UNIT of the events (log entry
31), feed power (log entry 136). -/
def Obligations.LightSafety : Prop :=
  (
    ∀ (s : State) (n f : Fin 16), Running s →
      let may := (fibreLanes n f).any (fun l => mayTrain s.dev (portOf s.dev l))
      (thim s.dev n f = 0 → feedLit s.dev n (f / 4) = true → noProbe s.dev = false → may = true →
        Does (.thimbleProbe n f) s (fun d => cnt1 (setThim d n f 1) (srcOe n n) 5)) ∧
      (feedLit s.dev n (f / 4) = false ∨ noProbe s.dev = true ∨ may = false ∨ thim s.dev n f ≠ 0 →
        Idles (.thimbleProbe n f) s) ∧
      (thim s.dev n f = 1 → Does (.thimbleProbeEnd n f) s (fun d => setThim d n f 0)) ∧
      (thim s.dev n f ≠ 1 → Idles (.thimbleProbeEnd n f) s) ∧
      (thim s.dev n f = 0 → may = true → Does (.thimbleResp n f) s (fun d => setThim d n f 2)) ∧
      (thim s.dev n f ≠ 0 ∨ may = false → Idles (.thimbleResp n f) s) ∧
      (thim s.dev n f = 2 → Does (.thimbleRespDark n f) s (fun d => setThim d n f 0)) ∧
      (thim s.dev n f ≠ 2 → Idles (.thimbleRespDark n f) s) ∧
      (thim s.dev n f = 1 ∨ thim s.dev n f = 2 → Does (.thimbleLit n f) s (fun d => setThim d n f 3)) ∧
      (thim s.dev n f = 0 ∨ thim s.dev n f = 3 → Idles (.thimbleLit n f) s) ∧
      (thim s.dev n f = 3 → Does (.thimbleTrip n f) s (fun d =>
        let d1 := raise (setThim d n f 0) (srcOe n (64 + 16 * n + f)) 2 [(1, f.val)] (fibreLanes n f)
        let d2 := (List.range 9).foldl (fun d c => if ringState d n false f c = 2 then holdRing d n false f c else d) d1
        (fibreLanes n f).foldl (fun d l => opticsCause d l 4) d2)) ∧
      (thim s.dev n f ≠ 3 → Idles (.thimbleTrip n f) s) ∧
      (∀ i ∈ [Instr.thimbleProbe n f, .thimbleProbeEnd n f, .thimbleResp n f, .thimbleRespDark n f, .thimbleLit n f,
        .thimbleTrip n f], ∃ e, exec i s = .next { s with dev := e })) ∧
  (
    ∀ (s : State) (m : Fin 8), Running s →
      (∀ (i : Fin 9) (val : Word) (low : Bool),
        let cap := elsCap s.dev m i
        let v := bits val.toNat 15 0
        let pct := natMin 100 (rdf s.dev .elsCtl [m.val] 15 8)
        let k := 9 * m.val + i.val
        (Reached s → v ≤ cap → 100 * v < pct * cap → v < cap ∨ low = false →
          Does (.elsBiasWrite m i val low) s (fun d =>
            wrf { cnt1 d (srcRel 255 0) 9 with oe := { d.oe with capped := d.oe.capped.filter (· != k) } }
              .elsBias [m.val, i.val] 15 0 v)) ∧
        (Reached s → cap < v → 0 < cap → s.dev.oe.aged.contains k = true →
          Does (.elsBiasWrite m i val false) s (fun d =>
            let d1 := wrf (raise (cnt1 d (srcRel 255 0) 9) (srcEls m) 1) .elsBias [m.val, i.val] 15 0 cap
            { d1 with oe := { d1.oe with capped := d1.oe.capped.filter (· != k) } }))) ∧
      (∀ val : Word, Reached s →
        Does (.elsCtlWrite m val) s (fun d =>
          let v := merge false .elsCtl (rd d .elsCtl [m.val]) val.toNat
          outEn (wr d.written .elsCtl [m.val] v) m (rdf d .elsCtl [m.val] 7 0) (bits v 7 0))) ∧
      (∀ (cmd reg : BitVec 8) (data : BitVec 16) (rs : List (Option (BitVec 16))),
        drives s.dev .laserBus = false ∨ reg.toNat ≠ cmd.toNat % 128 → Idles (.elsBusTransaction m cmd reg data rs) s) ∧
      (∀ (cmd reg : BitVec 8) (data : BitVec 16) (rs : List (Option (BitVec 16))),
        drives s.dev .laserBus = true → reg.toNat = cmd.toNat % 128 →
        Unmarked s.dev 0x18 (if m.val < 4 then 1 else 3) m →
        (∀ v, cmd.getLsbD 7 = true → (rs.take 4).find? (·.isSome) = some (some v) →
          Does (.elsBusTransaction m cmd reg data rs) s (fun d =>
            { d with oe := { d.oe with busFails := tdel d.oe.busFails m, busData := tput 0 d.oe.busData m v } })) ∧
        ((rs.take 4).find? (·.isSome) = none →
          Does (.elsBusTransaction m cmd reg data rs) s (fun d =>
            let k := tgetD d.oe.busFails m 0 + 1
            let d1 := raise { d with oe := { d.oe with busFails := tput 0 d.oe.busFails m k } } (srcEls m) 0
            if 16 ≤ k ∧ rdf d .elsState [m.val] 1 0 ≠ 0 then wrf d1 .elsState [m.val] 1 0 3 else d1))) ∧
      (∀ alarm : BitVec 16, Does (.elsAlert m alarm) s (fun d => raise d (srcEls m) 4 [(2, alarm.toNat)])) ∧
      (∀ (n : Fin 16) (g : Fin 4),
        ((feedOf s.dev n g).killed = false → rdb s.dev .elsCtl [n / 2] (4 * (n % 2) + g) = true →
          Does (.feedKill n g) s (fun d =>
            raise (holdRings (setFeed d n g ⟨false, false, true⟩) (fun n' g' => n' == n.val && g' == g.val))
              (srcOe n (4 * n + g)) 3)) ∧
        ((feedOf s.dev n g).killed = true → Idles (.feedKill n g) s) ∧
        ((feedOf s.dev n g).killed = true → (feedOf s.dev n g).probing = false → noProbe s.dev = false →
          Does (.feedProbe n g) s (fun d => cnt1 (setFeed d n g { feedOf d n g with probing := true }) (srcOe n n) 6)) ∧
        (noProbe s.dev = true → Idles (.feedProbe n g) s) ∧
        ((feedOf s.dev n g).probing = true →
          Does (.feedProbeEnd n g true) s (fun d =>
            (List.range 4).foldl (fun d k => startProbe d n (4 * g + k)) (setFeed d n g ⟨true, false, false⟩)) ∧
          Does (.feedProbeEnd n g false) s (fun d => setFeed d n g { feedOf d n g with probing := false })) ∧
        ((feedOf s.dev n g).probing = false → ∀ light, Idles (.feedProbeEnd n g light) s)) ∧
      (∀ (j : Fin 9) (val : Word) (low light : Bool) (cmd reg : BitVec 8) (data : BitVec 16) (rs : List (Option (BitVec 16)))
        (n : Fin 16) (g : Fin 4),
        ∀ i ∈ [Instr.elsBiasWrite m j val low, .elsCtlWrite m val, .elsBusTransaction m cmd reg data rs, .elsAlert m data,
          .feedKill n g, .feedProbe n g, .feedProbeEnd n g light], ∃ e, exec i s = .next { s with dev := e }))

/-! ### Time (spec/13) -/

/-- R333 to R336, R341: these six commands complete: `exec` answers `.next` for every state and operands. An increment is
written whole; a step waits for the next TIME cycle, which adds it to NS; a load goes to a domain that is not active and has
no target bound, and else is discarded, counted and reported; one that sets OUT_DOM to a whole second gives an edge of the
output (R343); a switch is armed at a tick to come and takes place once;
a pop removes the head of the timestamp queue.
Choices of the model that it shows: counts of a half-reserved access (log entry 14), DIE and UNIT of the events (log entry
31), 64-bit writes of two single registers (log entry 93). -/
def Obligations.TimeDomains : Prop :=
  ∀ (s : State) (i : Fin 2), Running s →
    (∀ val : BitVec 64, Reached s → Gives (.timeIncWrite i val) s (fun d e =>
      rd e .timeIncLo [i.val] = val.toNat % 2 ^ 32 ∧ rdf e .timeIncHi [i.val] 3 0 = val.toNat / 2 ^ 32 % 16 ∧
      e.time = d.time ∧ e = { d with regs := e.regs, cnt := e.cnt, stage := e.stage })) ∧
    (∀ st : BitVec 32, Reached s → Does (.timeAdj i st) s (fun d =>
      { d.written with time := { d.time with adj := d.time.adj ++ [(i.val, sx 32 st.toNat)] } })) ∧
    (∀ (d : Dev) (st : Int), d.time.adj = [(i.val, st)] →
      applySteps d = setDom { d with time := { d.time with adj := [] } } i
        { dom d i with ns := ofInt 64 (((dom d i).ns : Int) + st) }) ∧
    (s.dev.time.setPend.contains i.val = true → i.val ≠ activeDom s.dev → boundTo s.dev i = false →
      Does (.timeSetLoad i) s (fun d =>
        let ns := rd d .timeSetHi [i.val] * 2 ^ 32 + rd d .timeSetLo [i.val]
        let d1 := setDom { d with time := { d.time with setPend := d.time.setPend.filter (· != i.val) } } i ⟨ns, 0⟩
        if rdf d .timePpsCtl [] 30 30 = i.val ∧ ns % 10 ^ 9 = 0 then ppsOutEdge d1 else d1)) ∧
    (s.dev.time.setPend.contains i.val = true → i.val = activeDom s.dev ∨ boundTo s.dev i = true →
      Does (.timeSetLoad i) s (fun d =>
        raiseAt { d with time := { d.time with setPend := d.time.setPend.filter (· != i.val) } } (srcTime 255 0) 7 4 [] [])) ∧
    (s.dev.time.setPend.contains i.val = false → Idles (.timeSetLoad i) s) ∧
    (let t := BitVec.ofNat 32 (rd s.dev .timeSwitchAt)
     (Reached s → s.dev.time.pend = none → tickReached (nsNow s.dev) t = false →
       Gives .domainSwitchGo s (fun d e =>
         e.time = { d.time with pend := some (t, activeDom d) } ∧ rdb e .timeCtl [] 1 = true ∧
         activeDom e = activeDom d ∧ e = { d with time := e.time, regs := e.regs, cnt := e.cnt, draw := d.draw + 1 })) ∧
     (s.dev.time.pend.isSome = true ∨ tickReached (nsNow s.dev) t = true →
       Gives .domainSwitchGo s (fun d e => e.time = d.time ∧ activeDom e = activeDom d))) ∧
    (∀ p, s.dev.time.pend = some p → Does .timeSwitched s (fun d =>
      let d1 := coalRateIntervalEnd d
      let d2 := wrf { d1 with time := { d1.time with pend := none } } .timeCtl [] 1 0 (1 - activeDom d)
      event (cnt1 d2 (srcTime 255 0) 8) 0x1280 255 0 [(1, 1 - activeDom d), (4, p.1.toNat)])) ∧
    (s.dev.time.pend = none → Idles .timeSwitched s) ∧
    (∀ die : Fin 4, Reached s → Does (.tsqPop die) s (fun d =>
      { d.written with time := { d.time with tsq := lset d.time.tsq die ((d.time.tsq.getD die []).drop 1) } })) ∧
    (∀ (val : BitVec 64) (st : BitVec 32) (die : Fin 4),
      ∀ c ∈ [Instr.timeIncWrite i val, .timeAdj i st, .timeSetLoad i, .domainSwitchGo, .timeSwitched, .tsqPop die],
        ∃ e, exec c s = .next { s with dev := e })

/-- R339, R341, R342, R343, R465: a launch is armed in its slot, and at its tick its frame goes to the head of its queue or
fails; a frame send joins the tail, both unshaped; Tailor's frames likewise while it runs, shaped by their class (R133;
DESIGN CHOICE, log entry 57); 1PPS edges capture both domains or move the
output.
Choices of the model that it shows: DIE and UNIT of the events (log entry 31), order of targets of one cycle (log entry 56),
own frames and their staging (log entry 89). -/
def Obligations.LaunchesAndPps : Prop :=
  ∀ (s : State), Running s →
    (∀ (h : CmdHdr) (c : SendParams), Passes s.dev h 0x50 .h [some c.slot.toNat, some c.tick.toNat, some c.port.toNat,
      some c.vc.toNat, some (b2n c.tsv), some c.tsid.toNat, some c.flen.toNat, none] → Unmarked s.dev 0x20 0 0 →
      CmdDoes (.timeLaunch h c) h 0x50 s (fun d rp =>
        if d.time.launches.any (fun l => l.slot == c.slot.toNat) then complete d rp 0x50 []
        else if tickReached (nsNow d) c.tick then complete d rp 0x38 []
        else if 8266 < c.flen.toNat ∨ c.slot.toNat / 16 ≠ c.port.toNat / 128 then complete d rp 0x09 []
        else if c.dmaOk then
          let l : Launch := ⟨c.slot.toNat, c.tick, activeDom d, c.port.toNat, c.vc.toNat, tsidOf c, c.frame, rp, false, 0⟩
          { d with time := { d.time with launches := d.time.launches ++ [l] } }
        else refuseDma (dmaFail d) rp)) ∧
    (∀ (slot : Fin 64) (l : Launch), s.dev.time.launches.find? (fun l => l.slot == slot.val && !l.fired) = some l →
      (inService s.dev l.port = true → Does (.launchTarget slot) s (fun d =>
        let e := sendEgr d l.frame false l.tsid (some l.reply) (some (slot.val, l.tick, l.dom))
        let same := (d.time.launches.filter (fun x => x.fired && x.firedAt == d.now)).map (·.slot)
        let ls := d.time.launches.map (fun x => if x.slot = slot.val then { x with fired := true, firedAt := d.now } else x)
        let d1 := { d with time := { d.time with launches := ls } }
        setEgrQ d1 l.port l.vc (launchInto e slot same (egrQ d1 l.port l.vc)))) ∧
      (inService s.dev l.port = false → Does (.launchTarget slot) s (fun d =>
        complete (freeLaunch (raiseAt (lostStamp d l.port l.tsid) (srcTime (l.port / 128) slot) 5 2 [] []) slot)
          l.reply 4 []))) ∧
    (∀ slot : Fin 64, s.dev.time.launches.find? (fun l => l.slot == slot.val && !l.fired) = none →
      Idles (.launchTarget slot) s) ∧
    (∀ (h : CmdHdr) (c : SendParams), Passes s.dev h 0x51 .h [some c.port.toNat, some c.vc.toNat, some (b2n c.tsv),
      some c.tsid.toNat, some c.flen.toNat, none] → Unmarked s.dev 0x20 0 0 → c.dmaOk = true →
      CmdDoes (.frameSend h c) h 0x51 s (fun d rp =>
        if inService d c.port.toNat then
          egrPush d c.port.toNat c.vc.toNat (sendEgr d c.frame false (tsidOf c) (some rp) none)
        else complete (lostStamp d c.port.toNat (tsidOf c)) rp 4 [])) ∧
    (∀ t : TailorFrame,
      let id := if t.tsv then some t.tsid else none
      (s.dev.host.tlr = .running → inService s.dev t.port = true →
        Does (.tailorFrameSend t) s (fun d => egrPush d t.port (t.vc % 8) (sendEgr d t.frame (t.vc % 8 != 0) id none none))) ∧
      (s.dev.host.tlr = .running → inService s.dev t.port = false →
        Does (.tailorFrameSend t) s (fun d => lostStamp d t.port id)) ∧
      (s.dev.host.tlr ≠ .running → Idles (.tailorFrameSend t) s)) ∧
    (rdb s.dev .timePpsCtl [] 29 = true → Unmarked s.dev 0x21 0 0 → Does .ppsInEdge s (fun d =>
      let d1 := wr (wr (untrace d 0x21 0 0) .timePpsCap0Lo [] d.time.d0.ns) .timePpsCap0Hi [] (d.time.d0.ns / 2 ^ 32)
      cnt1 (wr (wr d1 .timePpsCap1Lo [] d.time.d1.ns) .timePpsCap1Hi [] (d.time.d1.ns / 2 ^ 32)) (srcTime 0 0) 10)) ∧
    (rdb s.dev .timePpsCtl [] 29 = false → Idles .ppsInEdge s ∧ Idles .ppsLost s) ∧
    (rdb s.dev .timePpsCtl [] 29 = true → Does .ppsLost s (fun d => raiseAt (traced d 0x21 0 0) (srcTime 0 0) 6 3 [] [])) ∧
    (rdb s.dev .timePpsCtl [] 31 = true →
      Does .ppsOutEdge s (fun d => { d with time := { d.time with ppsOut := true } })) ∧
    (rdb s.dev .timePpsCtl [] 31 = false → Idles .ppsOutEdge s) ∧
    Does .ppsOutEnd s (fun d => { d with time := { d.time with ppsOut := false } })

/-! ### The host interface (spec/14, spec/16 R412 to R416) -/

/-- R349 to R352: a doorbell or consumer index beyond what the ring holds is a ring error; one within it is stored; a
ring is enabled with its indices cleared and disabled by a write of EN 0; the ring whose turn it is gives up its next
descriptor, which joins the commands that stand on its path or is refused under the general checks; a moderated interrupt is
raised once for the entries since the last, on the COUNT-th of them or USEC after the first.  (R353, R357, R364, R371; spec/15
R392.)
Choices of the model that it shows: rows that name a kind of write (log entry 6), bringing in and acceptance of a command
(log entry 11), DIE and UNIT of the events (log entry 31), MSI-X masks (log entry 61), a restart of Tailor (log entry 128). -/
def Obligations.HostRings : Prop :=
  ∀ (s : State), Running s →
    (∀ (r : Fin 8) (val : Word), Reached s →
      let v := merge false .ringProdCmd (rd s.dev .ringProdCmd [r.val]) val.toNat
      let far := ringSize s.dev r < (v % 65536 + 65536 - ringCons s.dev r) % 65536
      (¬far → Does (.ringDoorbell r val) s (fun d => setProd d.written r v)) ∧
      (far → Does (.ringDoorbell r val) s (fun d =>
        raise (wrf d.written .ringCtl [r.val] 30 30 1) (srcHif r) 2 [(1, r.val)]))) ∧
    (∀ (r : Fin 10) (val : Word), Reached s →
      let n := r.val + 8
      let v := merge false .ringConsDev (rd s.dev .ringConsDev [r.val]) val.toNat
      let far := ringHeld s.dev n < (ringProd s.dev n + 65536 - v % 65536) % 65536
      (¬far → Does (.ringConsWrite ⟨n, by omega⟩ val) s (fun d => ringDrain (setCons d.written n v) n)) ∧
      (far → Does (.ringConsWrite ⟨n, by omega⟩ val) s (fun d =>
        raise (wrf d.written .ringCtl [n] 30 30 1) (srcHif n) 2 [(1, n)]))) ∧
    (∀ (r : Fin 18) (val : Word), Reached s → rdb s.dev .ringCtl [r.val] 31 = false →
      Gives (.ringEnable r val) s (fun d e =>
        rdb e .ringCtl [r.val] 31 = true ∧
        (let v := merge false .ringCtl (rd d .ringCtl [r.val]) (setBit val.toNat 31)
         let d1 := wr d.written .ringCtl [r.val] (clrBit (putBits (v % 2 ^ 32) 30 30 (rdf d .ringCtl [r.val] 30 30)) 30)
         let d2 := setCons (setProd d1 r 0) r 0
         e = ringDrain (setRing d2 r { ringSt d2 r with total := 0, since := 0 }) r))) ∧
    (∀ (r : Fin 18) (val : Word), Reached s → Gives (.ringDisable r val) s (fun d e =>
      rdb e .ringCtl [r.val] 31 = false ∧
      e = wr d.written .ringCtl [r.val] (putBits (merge false .ringCtl (rd d .ringCtl [r.val]) (clrBit val.toNat 31)
        % 2 ^ 32) 30 30 (rdf d .ringCtl [r.val] 30 30)))) ∧
    (∀ (i : Fin 8) (b : List Byte), ringTurn s.dev = some i.val → tlrHolds s.dev = false → pcieUp s.dev = true →
      Unmarked s.dev 0x20 0 0 →
      let fence := bit (leAt (slice b 0 64) 2 1) 0 = true ∧ 0 < (ringSt s.dev i).open_
      (fence → Does (.descriptorFetch i (.ok b)) s (fun d => { d with host := { d.host with turn := (i + 1) % 8 } })) ∧
      (¬fence → Does (.descriptorFetch i (.ok b)) s (fun d =>
        let d1 := { d with host := { d.host with turn := (i + 1) % 8 } }
        let c := ringCons d1 i + 1
        acceptDesc (reserveCpl (writeBack (setCons d1 i c) i c) (.ring i)) (.ring i) (slice b 0 64) []))) ∧
    (∀ (i : Fin 8) (b : DmaRead), ringTurn s.dev ≠ some i.val ∨ tlrHolds s.dev = true ∨ pcieUp s.dev = false →
      Idles (.descriptorFetch i b) s) ∧
    (∀ (d : Dev) (p : Path) (bs data : List Byte),
      (generalCheck d p bs data = none → acceptDesc d p bs data = { d with host := { d.host with
        fetched := d.host.fetched ++
          [⟨pathNo p, BitVec.ofNat 32 (leAt bs 4 4), leAt bs 0 2, slice bs 8 56, data, d.host.epoch⟩] } }) ∧
      (∀ st, generalCheck d p bs data = some st → acceptDesc d p bs data =
        refuseGen (cnt1 d (srcHif 0) 11) ⟨p, BitVec.ofNat 32 (leAt bs 4 4), leAt bs 0 2, d.host.epoch⟩ st)) ∧
    (∀ r : Fin 18,
      let due := 8 ≤ r.val ∧ (ringSt s.dev r).since ≠ 0 ∧ rdf s.dev .ringMod [r.val] 31 16 ≠ 0 ∧
        (ringSt s.dev r).first + 1200 * rdf s.dev .ringMod [r.val] 15 0 ≤ s.dev.now
      (due → Does (.ringInterrupt r) s (fun d =>
        raiseVec (setRing d r { ringSt d r with since := 0 }) (rdf d .ringCtl [r.val] 20 16))) ∧
      (¬due → Idles (.ringInterrupt r) s) ∧
      (∀ (d : Dev) (e : List Byte), 0 < rdf d .ringMod [r.val] 31 16 →
        (rdf d .ringMod [r.val] 31 16 ≤ (ringSt d r).since + 1 → ∃ d1,
          ringWrite d r e = raiseVec d1 (rdf d .ringCtl [r.val] 20 16) ∧
          (ringSt d1 r).since = 0) ∧
        ((ringSt d r).since + 1 < rdf d .ringMod [r.val] 31 16 → (ringSt (ringWrite d r e) r).since = (ringSt d r).since + 1)))

/-- R404, R413, R414 as every unit uses them: `raise` adds 1 to the row's counter, sets its status bit and raises the event
that the row names; nothing else of the unit's registers changes.
Choices of the model that it shows: DIE and UNIT of the events (log entry 31). -/
def Obligations.ReportCountsAndMarks : Prop :=
  ∀ (d : Dev) (src : Src) (n b : Nat) (args : List (Nat × Nat)) (lanes : List Nat), b < 32 →
    let d1 := stSet (cnt1 d src n) src b
    raiseAt d src n b args lanes = event d1 (src.blk * 256 + n) src.die src.unit args lanes ∧
    rdb d1 src.st src.ix b = true ∧
    (∀ k, k ≠ b → rdb d1 src.st src.ix k = rdb d src.st src.ix k) ∧
    (cntAt d (src.cnt + 8 * n) < 2 ^ 48 - 1 → cntAt d1 (src.cnt + 8 * n) = cntAt d (src.cnt + 8 * n) + 1) ∧
    (∀ a, a ≠ src.cnt + 8 * n → cntAt d1 a = cntAt d a) ∧
    (∀ a, a ≠ regAddr src.st src.ix → tget? d1.regs a = tget? d.regs a) ∧
    d1 = { d with regs := d1.regs, cnt := d1.cnt }

/-- R361, R362, R412, R415, R416: with room in the event ring the count of lost events goes first, then the oldest record
held; a window or a rate interval that closes writes its SUMMARY records; a pop removes the oldest entry of the error
log.
Choices of the model that it shows: LOAD and TEMP (log entry 9), DIE and UNIT of the events (log entry 31). -/
def Obligations.EventRecords : Prop :=
  ∀ (s : State), Running s →
    (eventRoom s.dev = false → Idles .eventRecordWrite s) ∧
    (eventRoom s.dev = true → s.dev.rel.lost = 0 → ∀ e q, s.dev.rel.store = e :: q →
      Does .eventRecordWrite s (fun d => eventPut { d with rel := { d.rel with store := q } } e)) ∧
    (eventRoom s.dev = true → 0 < s.dev.rel.lost →
      Does .eventRecordWrite s (fun d =>
        let e := { mkEvent d 0x1304 0 0 [] [] with count := natMin 0xFFFF d.rel.lost }
        eventPut (recordOut { d with draw := d.draw + 1, rel := { d.rel with lost := 0 } } e) e)) ∧
    (∀ i w r, takeAt s.dev.rel.wins i = some (w, r) →
      Does (.coalWindowClose i) s (fun d =>
        w.folds.foldl (fun d f => writeSummary d w.root.code w.root.die w.root.unit f)
          { d with rel := { d.rel with wins := r } })) ∧
    (∀ i, takeAt s.dev.rel.wins i = none → Idles (.coalWindowClose i) s) ∧
    Does .coalRateIntervalEnd s (fun d =>
      (d.rel.rates.filterMap (·.fold)).foldl (fun d f => writeSummary d f.code f.die f.unit f)
        { d with rel := { d.rel with rates := [] } }) ∧
    (Reached s → Does .errorLogPop s (fun d => { d.written with rel := { d.rel with log := d.rel.log.drop 1 } }))

/-- R357, R358, R368, R371 to R373, R465: NOP completes; REG_READ answers up to 16 registers; FW_STAGE collects an image
and checks it; FW_ACTIVATE restarts Tailor on a checked one; FW_COMMIT_SVN raises the fuses; ESTOP stops the device with
reason HOST and ESTOP_CLEAR releases it; a command on a path that does not take it is refused, and so is one of a ring of a
stopped device.  A row whose descriptor does not stand first on its path, or whose path waits, has no effect (R352, R371; the
row is the acceptance, DESIGN CHOICE, log entry 11).
Choices of the model that it shows: the FIPS algorithms (log entry 13), DIE and UNIT of the events (log entry 31), ABORT
frames at a stop (log entry 52), numbers in an image (log entry 60). -/
def Obligations.HostCommands : Prop :=
  ∀ (s : State) (h : CmdHdr), Running s →
    (Passes s.dev h 0x01 .both [] → CmdDoes (.nop h) h 0x01 s (fun d rp => complete d rp 0 [])) ∧
    (∀ c ∈ ([(0x01, .nop h), (0x62, .fwActivate h), (0x63, .fwCommitSvn h), (0x64, .estop h), (0x65, .estopClear h)]
        : List (Nat × Instr)),
      stands s.dev h c.1 [] = false ∨ cmdWaits s.dev h.path = true → Idles c.2 s) ∧
    (∀ i, h.path = .ring i → cmdWaits s.dev h.path = false →
      (∀ c ∈ ([(0x62, .fwActivate h), (0x63, .fwCommitSvn h), (0x64, .estop h), (0x65, .estopClear h)] : List (Nat × Instr)),
        stands s.dev h c.1 [] = true → CmdDoes c.2 h c.1 s (fun d rp => refuseGen d rp 0x0A)) ∧
      (stands s.dev h 0x01 [] = true → s.dev.host.estop = true ∨ s.dev.host.fault = true →
        CmdDoes (.nop h) h 0x01 s (fun d rp => refuseGen d rp 0x0C))) ∧
    (h.path = .mgmt →
      (∀ off count : BitVec 32, Passes s.dev h 0x60 .m [some off.toNat, some count.toNat] →
        (off.toNat % 4 = 0 → 1 ≤ count.toNat → count.toNat ≤ 16 → off.toNat + 4 * count.toNat ≤ 0x4000000 →
          CmdDoes (.regRead h off count) h 0x60 s (fun d rp =>
            let x := busReads count.toNat off.toNat d
            complete x.2 rp 0 [] (x.1.flatMap (leBytes 4)))) ∧
        (off.toNat % 4 ≠ 0 ∨ count = 0 ∨ 16 < count.toNat ∨ 0x4000000 < off.toNat + 4 * count.toNat →
          CmdDoes (.regRead h off count) h 0x60 s (fun d rp => complete d rp 9 []))) ∧
      (∀ (off total : BitVec 32) (piece : List Byte), (∀ a, fetchedNext s.dev h.path = some a → a.data = piece) →
        (Passes s.dev h 0x61 .m [some off.toNat, some total.toNat, some 0] →
        CmdDoes (.fwStage h off total false piece) h 0x61 s (fun d rp =>
          let old := if off = 0 then [] else d.host.stage
          complete { d with host := { d.host with stage := twrite 0 old off.toNat piece, stageLen := total.toNat } }
            rp 0 [])) ∧
        (Passes s.dev h 0x61 .m [some off.toNat, some total.toNat, some 1] →
        CmdDoes (.fwStage h off total true piece) h 0x61 s (fun d rp =>
          let old := if off = 0 then [] else d.host.stage
          let d1 := { d with host := { d.host with stage := twrite 0 old off.toNat piece, stageLen := total.toNat } }
          let d2 := { d1 with host := { d1.host with stage := [], stageLen := 0 } }
          match imageCheck d1 (stagedImage d1) with
          | .inl x => complete { d2 with host := { d2.host with checked := some x } } rp 0 []
          | .inr st => complete (fwReject { d2 with host := { d2.host with checked := none } }) rp st []))) ∧
      (∀ x, s.dev.host.checked = some x → s.dev.host.tlr = .running → Passes s.dev h 0x62 .m [] →
        CmdDoes (.fwActivate h) h 0x62 s (fun d rp =>
          wr { d with host := { d.host with image := some x, checked := none, tlr := .restarting (some rp) } }
            .tlrState [] 0)) ∧
      (s.dev.host.checked = none → Passes s.dev h 0x62 .m [] →
        CmdDoes (.fwActivate h) h 0x62 s (fun d rp => complete (fwReject d) rp 0x0E [])) ∧
      (∀ x, s.dev.host.image = some x → Passes s.dev h 0x63 .m [] →
        CmdDoes (.fwCommitSvn h) h 0x63 s (fun d rp =>
          if x.svn.toNat ≤ rdf d .tlrSvn [] 15 0 then complete d rp 9 []
          else complete (wr { d with host := { d.host with fuseSvn := some x.svn } } .tlrSvn [] x.svn.toNat) rp 0
            (packFields [(16, x.svn.toNat)]))) ∧
      (Passes s.dev h 0x64 .m [] → CmdDoes (.estop h) h 0x64 s (fun d rp =>
        let d1 := raise d (srcHif 0) 8
        complete (stopAll { d1 with host := { d1.host with estop := true } } 0x0D) rp 0 [])) ∧
      (Passes s.dev h 0x65 .m [] →
        CmdDoes (.estopClear h) h 0x65 s (fun d rp => complete { d with host := { d.host with estop := false } } rp 0 [])))

/-- R365, R366, R370 to R372: a management frame whose tag fails is counted and dropped, a stale one is answered, a good
one is accepted; the boot ROM asks for an image, takes it and runs it if it passes every check; a watchdog expiry
restarts Tailor, or stops it on the second within 60 s.
Choices of the model that it shows: the FIPS algorithms (log entry 13), GO and bias in a plain write (log entry 16), DIE and
UNIT of the events (log entry 31), management frames that are no command (log entry 62), the pace of the management port (log
entry 134). -/
def Obligations.TailorAndBoot : Prop :=
  ∀ (s : State), Running s →
    (∀ f : MgmtFrame, f.etype.toNat = rdf s.dev .mgmtCtl [] 15 0 → f.ver = 1 → f.typ = 0 → f.len.toNat = f.body.length →
      4 ≤ s.dev.pwr.step → Unmarked s.dev 0x1F 0 0 →
      let good := beVal ((hmacSha256 Config.mgmtKey (mgmtBytes f)).take 16) = f.tag.toNat
      let bs := slice f.body 0 64
      (¬good → Does (.mgmtFrameReceive f) s (fun d => raise d (srcHif 0) 6)) ∧
      (good → f.seq.toNat ≤ s.dev.host.last → Does (.mgmtFrameReceive f) s (fun d =>
        let d1 := raise d (srcHif 0) 6
        complete d1 ⟨.mgmt, BitVec.ofNat 32 (leAt bs 4 4), leAt bs 0 2, d1.host.epoch⟩ 9 (leBytes 8 d1.host.last))) ∧
      (good → s.dev.host.last < f.seq.toNat → Does (.mgmtFrameReceive f) s (fun d =>
        acceptDesc { d with host := { d.host with last := f.seq.toNat } } .mgmt bs (f.body.drop 64)))) ∧
    (∀ f : MgmtFrame, f.etype.toNat ≠ rdf s.dev .mgmtCtl [] 15 0 ∨ f.len.toNat ≠ f.body.length ∨ f.ver ≠ 1 ∨ f.typ ≠ 0 ∨
      s.dev.pwr.step < 4 → Idles (.mgmtFrameReceive f) s) ∧
    (bootWaits s.dev = true →
      Does .bootReqSend s (fun d => (mgmtPush d 4 []).2) ∧
      (∀ (off total : BitVec 32) (piece : List Byte),
        Does (.bootImgReceive off total false piece) s (fun d =>
          { d with host := { d.host with bootBuf := slice d.host.bootBuf 0 off.toNat ++ piece } }) ∧
        Does (.bootImgReceive off total true piece) s (fun d =>
          let buf := slice d.host.bootBuf 0 off.toNat ++ piece
          let d1 := { d with host := { d.host with bootBuf := [] } }
          match imageCheck d (slice buf 0 total.toNat) with
          | .inl x =>
            let d2 := { d1 with host := { d1.host with image := some x, tlr := .running } }
            wrf (wr (wr d2 .tlrState [] 1) .idFw [] x.version.toNat) .tlrBootCtl [] 7 0 0
          | .inr st => wrf (fwReject d1) .tlrBootCtl [] 7 0 st)) ∧
      (∀ b : List Byte, Reached s → Unmarked s.dev 0x20 0 0 →
        Gives (.tlrBootGo (.ok b)) s (fun d e =>
          let d1 := wrf (cnt1 d (srcRel 255 0) 9) .tlrBootCtl [] 31 31 (rdf d .tlrBootCtl [] 31 31)
          e = bootImage d1 (slice b 0 (rdf d1 .tlrBootLen [] 23 0))))) ∧
    (bootWaits s.dev = false → Idles .bootReqSend s ∧ ∀ off total fin piece, Idles (.bootImgReceive off total fin piece) s) ∧
    (∀ c : Fin 4, s.dev.host.tlr = .running → Unmarked s.dev 0x1E 0 c →
      let again := s.dev.host.tlrAt.any (fun t => decide (s.dev.now - t < 60 * 1200000000))
      (again = true → Does (.tlrWatchdogExpiry c) s (fun d =>
        let d1 := raise d { srcHif c with die := c.val } 10 [(1, c.val)]
        wr { d1 with host := { d1.host with tlr := .stopped } } .tlrState [] 0)) ∧
      (again = false → Does (.tlrWatchdogExpiry c) s (fun d =>
        let d1 := raise d { srcHif c with die := c.val } 10 [(1, c.val)]
        wr { d1 with host := { d1.host with tlrAt := some d1.now, tlr := .restarting none } } .tlrState [] 0))) ∧
    (∀ c : Fin 4, s.dev.host.tlr ≠ .running → Idles (.tlrWatchdogExpiry c) s) ∧
    (∀ rp x, s.dev.host.tlr = .restarting rp → s.dev.host.image = some x →
      Does .tlrRestartDone s (fun d =>
        let d1 := wr (wr { d with host := { d.host with tlr := .running } } .tlrState [] 0xF) .idFw [] x.version.toNat
        completeOpt d1 rp 0 (packFields [(32, x.version.toNat)]))) ∧
    (s.dev.host.tlr = .running → Idles .tlrRestartDone s)

/-! ### Power, clocks and resets (spec/15) -/

/-- R382 to R386, R398, R399, R449: POR_N low and a brown-out are cold resets that keep the fuses, the store and the pins,
and THM_TRIP while VDD_AON stays; POR_N high runs the start-up; a WARM reset by RST_CTL needs KEY 0xA5, and a write with
another key is discarded whole; a PCIe reset takes the rings and the host-ring region alone; the last steps of the start-up
need a running image; the I3C target answers at its straps' address until one is assigned, and then at that (DEDUCED, log
entry 137).
Choices of the model that it shows: DIE and UNIT of the events (log entry 31), a store never written (log entry 45), what a
WARM reset finds (log entry 55), RST_CAUSE of a brown-out (log entry 66), what each reset keeps (log entry 74), outputs and
BAR0 during start-up (log entry 138). -/
def Obligations.Resets : Prop :=
  ∀ (s : State),
    (∃ t, exec .porAssert s = .next t ∧ t.pending = s.pending ∧ t.dev = coldDev s.dev.fresh ∧
      t.dev.host.fuseSvn = s.dev.host.fuseSvn ∧ t.dev.bolt.imgs = s.dev.bolt.imgs ∧ (∀ a, a ≠ regAddr .thmTrip [] →
        tget? t.dev.regs a = tget? State.reset.dev.regs a) ∧ rd t.dev .thmTrip = rd s.dev .thmTrip ∧
      t.dev.mem = State.reset.dev.mem ∧ t.dev.pwr.tripped = false) ∧
    exec (.brownout .aon) s = .next { s with dev := wr (coldDev s.dev.fresh) .thmTrip [] 0 } ∧
    (∀ r, exec (.brownout (.fab r)) s = .next { s with dev := wr (coldDev s.dev.fresh) .rstCause [] 3 }) ∧
    (Running s →
      (s.dev.pwr.step = 6 → s.dev.host.tlr = .running → s.dev.host.fault = false →
        Does .startupComplete s (fun d =>
          let d1 := wrf (wr { d with pwr := { d.pwr with step := 8 } } .tlrState [] 0xF) .idStatus [] 4 4 1
          let d2 := (List.range 4).foldl (fun d k => wrf d .meshBcastCtl [k] 1 0 0) d1
          event d2 0x1480 0 0 [(1, rd d2 .idSpare)])) ∧
      (s.dev.pwr.step ≠ 6 → Idles .startupComplete s) ∧
      (∀ val : Word, Reached s → bits val.toNat 15 8 = 0xA5 →
        Gives (.warmReset val) s (fun d e =>
          e = warm 2 (wr d.written .rstCtl [] (2 ^ 31 * (rdf d .rstCtl [] 31 31 ||| bits val.toNat 31 31))))) ∧
      (∀ val : Word, Reached s → bits val.toNat 15 8 ≠ 0xA5 →
        Gives (.warmReset val) s (fun d e => e = raise d.written (srcSys 0 0) 5))) ∧
    (Powered s →
      (∀ i : StartupIn, s.dev.pwr.porHigh = false →
        Does (.porRelease i) s (fun d =>
          startup { d with
            host := { d.host with i3cStrap := i.i3cAddr }
            pwr := { d.pwr with porHigh := true, perstHigh := i.perstHigh, found := some i } } i)) ∧
      (∀ i : StartupIn, s.dev.pwr.porHigh = true → Idles (.porRelease i) s) ∧
      Does .i3cWarm s (warm 3) ∧
      (∀ k : PcieResetKind, Gives (.pcieReset k) s (fun d e =>
        e.host.rings = [] ∧ e.host.fetched = d.host.fetched ∧ e.host.epoch = d.host.epoch + 1 ∧ e.coll = d.coll ∧
          e.opt = d.opt ∧ e.mem = d.mem ∧
        e.time = d.time ∧ e.fwd = d.fwd ∧ e.sw = d.sw ∧
        (∀ a, inHostRing a = true → tget? e.regs a = none) ∧
        (∀ a, inHostRing a = false → a ≠ regAddr .rstCause [] → tget? e.regs a = tget? d.regs a))) ∧
      Does .perstRelease s (fun d => { d with pwr := { d.pwr with perstHigh := true } }) ∧
      (∀ a : BitVec 7, Does (.i3cDynamicAddress a) s (fun d => { d with host := { d.host with i3cAddr := some a } })) ∧
      (∀ (d : Dev) (i2c : Bool) (a : BitVec 7),
        (d.host.i3cAddr = none → (i3cAnswers d i2c a = true ↔ a.toNat = 0x50 + d.host.i3cStrap.toNat)) ∧
        (∀ x, d.host.i3cAddr = some x → (i3cAnswers d i2c a = true ↔ i2c = false ∧ a = x))))

/-- R387 to R390: once the PLL has locked, a bad input in use hands over to the other one or, where that is bad too, the PLL
goes into holdover; a switch under way completes, counted and reported; a selection of a bad input is discarded, and of a
good one the last stands, ending a switch away from it; a good input ends holdover, or begins a waiting start-up.
Choices of the model that it shows: DIE and UNIT of the events (log entry 31), ROOT_LOCK without a lock (log entry 64),
selection of a bad input (log entry 75). -/
def Obligations.ReferenceClocks : Prop :=
  ∀ (s : State) (k : Fin 2), Powered s →
    (s.dev.pwr.step < 2 → Does (.refFail k) s (fun d => wrf d .clkRefStatus [] (1 + k) (1 + k) 0)) ∧
    (2 ≤ s.dev.pwr.step → inHoldover s.dev = false → refActive s.dev = k.val → refOk s.dev (1 - k.val) = true →
      Does (.refFail k) s (fun d =>
        let d1 := wrf (wrf d .clkRefStatus [] (1 + k) (1 + k) 0) .clkRefStatus [] 4 4 0
        trace { d1 with pwr := { d1.pwr with refSwitch := some (1 - k.val) } } 0x1C 0 0)) ∧
    (2 ≤ s.dev.pwr.step → inHoldover s.dev = false → refActive s.dev = k.val → refOk s.dev (1 - k.val) = false →
      Does (.refFail k) s (fun d =>
        let d1 := wrf (wrf (wrf d .clkRefStatus [] (1 + k) (1 + k) 0) .clkRefStatus [] 3 3 1) .clkRefStatus [] 4 4 0
        raise { d1 with pwr := { d1.pwr with refSwitch := none } } (srcSys 0 0) 1)) ∧
    (∀ j, s.dev.pwr.refSwitch = some j → refOk s.dev j = true → Does .refSwitch s (fun d => switchTo (traced d 0x1C 0 0) j)) ∧
    (s.dev.pwr.refSwitch = none → Idles .refSwitch s) ∧
    (rdb s.dev .clkRefCtl [] 2 = true → refActive s.dev = 1 → refOk s.dev 0 = true → inHoldover s.dev = false →
      Does .refRevert s (fun d => switchTo d 0)) ∧
    (rdb s.dev .clkRefCtl [] 2 = false ∨ refActive s.dev ≠ 1 ∨ refOk s.dev 0 = false → Idles .refRevert s) ∧
    (∀ val : Word, Reached s → refOk s.dev (bits val.toNat 1 1) = false →
      Does (.refSelect val) s (fun d =>
        let hit := lockHit (locked d .clkRefCtl []) .clkRefCtl (rd d .clkRefCtl) val.toNat
        raise (if hit then lockReject (offDie (regAddr .clkRefCtl [])) .clkRefCtl d.written else d.written)
          (srcSys 0 0) 5)) ∧
    (∀ val : Word, Reached s → refOk s.dev (bits val.toNat 1 1) = true → locked s.dev .clkRefCtl [] = false →
      Does (.refSelect val) s (fun d =>
        let d1 := wr d.written .clkRefCtl [] (merge false .clkRefCtl (rd d .clkRefCtl) val.toNat)
        let stays := refActive d = bits val.toNat 1 1 ∧ (rdb d .clkRefStatus [] 4 = true ∨ inHoldover d = true)
        { untrace d1 0x1C 0 0 with pwr := { d1.pwr with
          refSwitch := if stays then none else some (bits val.toNat 1 1) } })) ∧
    (inHoldover s.dev = true → refOk s.dev k = true → Does (.holdoverRelock k) s (fun d => lockTo d k)) ∧
    (inHoldover s.dev = false ∨ refOk s.dev k = false → Idles (.holdoverRelock k) s) ∧
    (s.dev.pwr.step ≠ 1 → Does (.refGood k) s (fun d => wrf d .clkRefStatus [] (1 + k) (1 + k) 1)) ∧
    (∀ i, s.dev.pwr.found = some i → s.dev.pwr.porHigh = true → s.dev.pwr.step = 1 → rdb s.dev .clkRefStatus [] 4 = false →
      Does (.refGood k) s (fun d => startSteps (lockTo (wrf d .clkRefStatus [] (1 + k) (1 + k) 1) k) i false))

/-- R262 to R264, R391 to R398, R420: a domain takes the deepest state allowed, wakes and is written to when it is ON, a
spare that is to be tested then standing in PATROL; a sample
moves the throttle level of a die or a stack, its second sample in a row at the trip temperature latches the trip;
ILIM_Nd forces the level; a fraction that may rise does so a quarter at a time.
Choices of the model that it shows: bytes never written read 0 (log entry 5), DIE and UNIT of the events (log entry 31), idle
conditions (log entry 65), registers of a sleeping block (log entry 69), throttle events, waking clusters (log entry 76), a
restart of Tailor (log entry 128). -/
def Obligations.PowerAndThermal : Prop :=
  ∀ (s : State), Powered s → (Running s →
    (∀ (n : Fin 128) (k : PcieLow), n.val < 121 → s.dev.pwr.waking.contains n.val = false →
      (72 ≤ n.val ∨ coreDown s.dev (n / 9) (n % 9) = false) →
      let note := fun d : Dev => if n.val = 120 then { d with pwr := { d.pwr with aspm := k } } else d
      let t := ([3, 2, 1].find? (pdAllowed (note s.dev) n)).getD 0
      (t = pdState s.dev n → Does (.pwrEval n k) s note) ∧
      (tlrHolds s.dev = true → Does (.pwrEval n k) s note) ∧
      (tlrHolds s.dev = false → t ≠ pdState s.dev n → t ≠ 0 →
        Does (.pwrEval n k) s (fun d => loseState (setPd (note d) n t) n t)) ∧
      (tlrHolds s.dev = false → t ≠ pdState s.dev n → t = 0 →
        Does (.pwrEval n k) s (fun d => { note d with pwr := { (note d).pwr with waking := d.pwr.waking ++ [n.val] } })) ∧
      (∀ (d : Dev) (x : Nat), pdAllowed d n x = true → pdMay d n x = true ∧
        x ≤ rdf d .pwrDepth [] (2 * pdClass n + 1) (2 * pdClass n))) ∧
    (∀ n : Fin 128,
      (pdState s.dev n ≠ 0 → s.dev.pwr.waking.contains n.val = false → (72 ≤ n.val ∨ coreDown s.dev (n / 9) (n % 9) = false) →
        Does (.domainWake n) s (fun d => { d with pwr := { d.pwr with waking := d.pwr.waking ++ [n.val] } })) ∧
      (pdState s.dev n = 0 → Idles (.domainWake n) s) ∧
      (∀ late : Bool, s.dev.pwr.waking.contains n.val = true →
        Does (.domainWakeDone n late) s (fun d =>
          let p := { d.pwr with waking := d.pwr.waking.filter (· != n.val),
                                heldWr := d.pwr.heldWr.filter (fun w => w.dom != n.val) }
          let held := d.pwr.heldWr.filter (fun w => w.dom == n.val)
          let d1 := cnt1 (held.foldl applyHeld (setPd { d with pwr := p } n 0)) (srcSys 0 0) 6
          let d2 := if pdClass n = 1 then { d1 with pwr := { d1.pwr with frac := lset d1.pwr.frac (n - 72) 1 } } else d1
          let d2 := if n.val < 72 ∧ n.val % 9 = 8 ∧ spareTested d2 (n / 9) = true then setCoreState d2 (n / 9) 8 2 else d2
          if late then raise d2 (srcSys (pdDie n) 0) 4 [(1, n.val)] else d2)) ∧
      (∀ late : Bool, s.dev.pwr.waking.contains n.val = false → Idles (.domainWakeDone n late) s)) ∧
    (∀ c : Fin 8,
      (s.dev.pwr.frac.getD c 4 < targetFrac s.dev c →
        Does (.issueRampStep c) s (fun d =>
          { d with pwr := { d.pwr with frac := lset d.pwr.frac c (d.pwr.frac.getD c 4 + 1) } })) ∧
      (targetFrac s.dev c ≤ s.dev.pwr.frac.getD c 4 → Idles (.issueRampStep c) s)) ∧
    (∀ (k : Fin 12) (t : BitVec 8), Unmarked s.dev 0x1A (k / 3) k → rdf s.dev .memStkState [k.val] 9 8 = 0 →
      sx 8 t.toNat ≤ memThrot s.dev → sx 8 t.toNat ≤ 96 →
      Does (.memTempSample k t) s (fun d =>
        let x2 := if 85 < sx 8 t.toNat then 1 else if sx 8 t.toNat ≤ 82 then 0 else rdf d .memStkState [k.val] 4 4
        let d1 := wrf (wrf (wrf d .memStkState [k.val] 23 16 (ofInt 8 (sx 8 t.toNat))) .memStkState [k.val] 9 8 0)
          .memStkState [k.val] 4 4 x2
        tripCheck (settleFrac d1) (16 + k) 2 k false))) ∧
    (∀ (die : Fin 4) (temps : List (BitVec 8)),
      let r := thmInject s.dev.fresh die 0 (temps.take 20)
      let high := intMin 127 (intMax (-128) r.1)
      let temp := intMin 127 (high + (natMin 15 (rdf r.2 .thmCtl [] 7 0) : Nat))
      Does (.thmSample die temps) s (fun _ =>
        let d1 := wrf (wrf r.2 .thmDie [die.val] 23 16 (ofInt 8 temp)) .thmDie [die.val] 15 8 (ofInt 8 high)
        let lvl := thmNext d1 (d1.pwr.thmNat.getD die 0) temp
        let d2 := applyThrottle { d1 with pwr := { d1.pwr with thmNat := lset d1.pwr.thmNat die lvl } } die
        tripCheck d2 die 1 die (decide (115 ≤ temp)))) ∧
    (∀ die : Fin 4,
      (s.dev.pwr.ilimLow.contains die.val = false → Does (.ilimAssert die) s (fun d =>
        let d1 := { d with pwr := { d.pwr with ilimLow := d.pwr.ilimLow ++ [die.val],
                                               ilimHold := d.pwr.ilimHold.filter (· != die.val) } }
        applyThrottle (raise d1 (srcSys die 0) 3) die)) ∧
      (s.dev.pwr.ilimLow.contains die.val = true → Idles (.ilimAssert die) s ∧
        Does (.ilimRelease die) s (fun d => { d with pwr := { d.pwr with
          ilimLow := d.pwr.ilimLow.filter (· != die.val), ilimHold := d.pwr.ilimHold ++ [die.val] } })) ∧
      (s.dev.pwr.ilimLow.contains die.val = false → Idles (.ilimRelease die) s) ∧
      (s.dev.pwr.ilimHold.contains die.val = true → Does (.ilimHoldEnd die) s (fun d =>
        applyThrottle { d with pwr := { d.pwr with ilimHold := d.pwr.ilimHold.filter (· != die.val) } } die)) ∧
      (s.dev.pwr.ilimHold.contains die.val = false → Idles (.ilimHoldEnd die) s))

/-! ### Reliability and monitoring (spec/09 R259, R261; spec/16; spec/17) -/

/-- R249, R259, R261, R262: a scrub read waits in the queues like any other, or for room in its stack's input buffer, reads
the next sector in ascending order and starts again at the end; a lane with 64 corrected errors within an hour is recorded
for repair; a refresh completes and changes nothing that software sees.
R271, R272, R273, R283: a failed block is retired to a spare, a freed band is erased, a band due for it is moved,
scrub reads the next written page and bins its corrected bits, a record is written from the state as a new version, the
older one standing until it is whole (the boot count is written at start-up alone); none of it happens while the store is
out of service.
Choices of the model that it shows: DIE and UNIT of the events (log entry 31), what a decoder corrects (log entry 44), where
a request stands (log entry 72), spare blocks (log entry 116), journal and records (log entry 117), deletes, and codewords
lost (log entry 135). -/
def Obligations.StoreUpkeep : Prop :=
  (
    ∀ (s : State), Running s →
      (rdb s.dev .memCtl [] 0 = false → ∀ e, Idles (.memScrubRead e) s) ∧
      (rdb s.dev .memCtl [] 0 = true → reqWaits s.dev 0 (scrubReq s.dev) = true → ∀ e,
        (⟨0, scrubReq s.dev⟩ ∉ s.dev.mem.reqs → stkBuf s.dev (memStack s.dev s.dev.mem.scrubPos) < 256 →
          Does (.memScrubRead e) s (fun d => issue d 0 (scrubReq d))) ∧
        (⟨0, scrubReq s.dev⟩ ∈ s.dev.mem.reqs ∨ 256 ≤ stkBuf s.dev (memStack s.dev s.dev.mem.scrubPos) →
          Idles (.memScrubRead e) s)) ∧
      (rdb s.dev .memCtl [] 0 = true → MemFree s.dev 0 (scrubReq s.dev) → MemClean s.dev s.dev.mem.scrubPos 64 →
        Does (.memScrubRead .clean) s (fun d =>
          let d1 := cnt1 (memTake d 0 (scrubReq d)) (srcMem 0) 7
          { d1 with mem := { d1.mem with
            scrubPos := if d.mem.scrubPos + 64 < memEnd then d.mem.scrubPos + 64 else 0 } })) ∧
      (∀ (k : Fin 12) (ch : BitVec 6) (lane : BitVec 7),
        let key := k.val * 8192 + ch.toNat % 32 * 128 + lane.toNat
        (lanePendDue s.dev key = true → s.dev.mem.lanePend.contains key = false →
          Does (.memLanePending k ch lane) s (fun d =>
            let d1 := wr d .memStkPend [k.val] (setBit (rd d .memStkPend [k.val]) (ch.toNat % 32))
            let m := { d.mem with lanePend := d.mem.lanePend ++ [key], laneErr := tdel d.mem.laneErr key }
            raise (saveRepair { d1 with mem := m }) (srcMem k) 4)) ∧
        (lanePendDue s.dev key = false ∨ s.dev.mem.lanePend.contains key = true → Idles (.memLanePending k ch lane) s)) ∧
      (∀ k : Fin 12, exec (.memRefresh k) s = .next { s with dev := s.dev.fresh })) ∧
  (
    ∀ (s : State), Running s →
      (boltUp s.dev = false →
        (∀ (fd : BitVec 7) (pl : BitVec 2) (bl : BitVec 13), Idles (.boltProgramFail fd pl bl) s)) ∧
      (boltUp s.dev = false ∨ flashOn s.dev = false → Idles .boltWlMove s ∧
        Idles .boltBandErase s ∧ (∀ rs, Idles (.boltScrubRead ⟨rs⟩) s) ∧ (∀ b rs, Idles (.boltRelocate ⟨b, rs⟩) s) ∧
        (∀ r w, Idles (.boltRecordWrite ⟨r, w⟩) s)) ∧
      (boltUp s.dev = true → flashOn s.dev = true →
        (∀ (fd : BitVec 7) (pl : BitVec 2) (bl : BitVec 13),
          let p := 4 * fd.toNat + pl.toNat
          (bl.toNat < 5462 → s.dev.bolt.bad.contains (p, bl.toNat) = false →
            Does (.boltProgramFail fd pl bl) s (fun d =>
              retire (if (bandOfBlock d p bl.toNat).any (bandsUsed d).contains then cntN d (srcBolt 0) 10 128 else d) p
                bl.toNat)) ∧
          (5462 ≤ bl.toNat ∨ s.dev.bolt.bad.contains (p, bl.toNat) = true → Idles (.boltProgramFail fd pl bl) s)) ∧
        (let most := (List.range bandCount).foldl (fun a b => natMax a (bandWear s.dev b)) 0
         let least := (List.range bandCount).foldl (fun a b => natMin a (bandWear s.dev b)) most
         let spread := planeCount * natMax 1 (rdf s.dev .boltWl [] 15 0)
         (most - least ≤ spread → Idles .boltWlMove s) ∧
         (spread < most - least → ∀ b i e,
            coldest s.dev ((bandsUsed s.dev).filter (fun b => decide (0 < bandPages s.dev b))) = some b →
            imgOfBand s.dev b = some i →
            moveBand { s.dev.fresh with draw := s.dev.draw + 1 } i b (Config.freeReads s.dev.draw) = some e →
            Does .boltWlMove s (fun _ => e))) ∧
        (∀ b r, s.dev.bolt.dirty = b :: r → Does .boltBandErase s (fun d => eraseBand d b)) ∧
        (s.dev.bolt.dirty = [] → Idles .boltBandErase s) ∧
        (rdb s.dev .boltCtl [] 0 = false → ∀ rs, Idles (.boltScrubRead ⟨rs⟩) s) ∧
        (rdb s.dev .boltCtl [] 0 = true → ∀ b pg i, nextPage s.dev s.dev.bolt.scrubPos = some (b, pg) →
          imgOfBand s.dev b = some i →
          let idx := 65536 * i.bands.findIdx (· == b) + pg
          let passed := fun d : Dev => setBolt (countReads d b (pg % planeCount) 1) (fun x => { x with
            scrubPos := b * 65536 + pg + 1, pageAt := tset x.pageAt (b * 65536 + pg) d.now })
          (∀ rs, Does (.boltScrubRead ⟨rs⟩) s (fun d =>
            (readPages (passed d) i idx (idx + 1) (rs.map (fun r => { r with idx := idx }))).2)) ∧
          (∀ r : CwRead, lostReads s.dev i = [] → Unmarked s.dev 0x0D (idx % planeCount / 32 / 4) (idx % planeCount / 32) →
            Unmarked s.dev 0x0E (idx % planeCount / 32 / 4) (idx % planeCount / 32) →
            Does (.boltScrubRead ⟨[r]⟩) s (fun d =>
              readWord (countWords (cnt1 (passed d) (srcBolt 0) 11) 4) i { r with idx := idx })) ∧
          (∀ (r : CwRead) (d : Dev), intact d i r.idx = true → i.lost.contains (r.idx, r.cw.toNat) = false → r.word = none →
            r.bits ≤ 48 → (r.bits ≠ 0 → Config.ldpcCorrects r.bits = true) →
            readWord d i r = cntN (if r.bits = 0 then d else moveWord d (bitBin r.bits)) (srcBolt 0) 8 r.bits)) ∧
        (∀ b i rs, s.dev.bolt.reloc.contains b = true → imgOfBand s.dev b = some i → imageRead s.dev i = false → i.st ≠ 1 →
          ∀ e, moveBand s.dev.fresh i b rs = some e → Does (.boltRelocate ⟨b, rs⟩) s (fun _ => cnt1 e (srcBolt 0) 9)) ∧
        (∀ b, s.dev.bolt.reloc.contains b = false → ∀ rs, Idles (.boltRelocate ⟨b, rs⟩) s) ∧
        (∀ r : BoltRec, Idles (.boltRecordWrite ⟨r, false⟩) s) ∧
        (∀ w, Idles (.boltRecordWrite ⟨.boots, w⟩) s) ∧
        (let new := fun (d : Dev) (k : Nat) => { d.bolt with
           recVer := tset d.bolt.recVer k (tgetD d.bolt.recVer k 0 + 1), recBad := d.bolt.recBad.filter (fun x => recNo x != k) }
         let maps := fun (d : Dev) => d.seams.filterMap (fun e =>
           let m := e.2.mapped.filter (fun w => !e.2.tempMap.contains w)
           if m = [] then none else some (e.1, m))
         (∀ l c, laneRecord s.dev l = some c →
          Does (.boltRecordWrite ⟨(.laneCache l), true⟩) s (fun d =>
            { d with bolt := { new d (16 + l % 512) with lane := tset d.bolt.lane (l % 512) c } })) ∧
         (∀ l, laneRecord s.dev l = none → Does (.boltRecordWrite ⟨(.laneCache l), true⟩) s (fun d =>
          { d with bolt := new d (16 + l % 512) })) ∧
         Does (.boltRecordWrite ⟨.seamMap, true⟩) s (fun d => { d with bolt := { new d 2 with seamMap := maps d } }) ∧
         Does (.boltRecordWrite ⟨.memTrain, true⟩) s (fun d => { d with bolt := { new d 1 with memTrain := d.mem.settings } }) ∧
         Does (.boltRecordWrite ⟨.repair, true⟩) s (fun d => { d with bolt := { new d 4 with
          repair := some ⟨rd d .idSpare, rd d .relSpareMap, d.mem.lanePend⟩ } }) ∧
         (∀ r : BoltRec, recNo r ≠ 5 → Gives (.boltRecordWrite ⟨r, true⟩) s (fun d e =>
          tgetD e.bolt.recVer (recNo r) 0 = tgetD d.bolt.recVer (recNo r) 0 + 1 ∧ (∀ x ∈ e.bolt.recBad, recNo x ≠ recNo r) ∧
          (∀ k, k ≠ recNo r → tget? e.bolt.recVer k = tget? d.bolt.recVer k))))))

/-- R407 to R409, R417, R419: ARM takes a detector with its arguments in range, DISARM ends an injection, an injection acts
or marks its detector and disarms a single one; a suspicion count decays; a tested spare takes the name of the core it
replaces.
Choices of the model that it shows: marks of injections (log entry 18), DIE and UNIT of the events (log entry 31), the test
of a spare (log entry 68), injection and Patrol controls (log entry 78). -/
def Obligations.InjectionAndSuspicion : Prop :=
  ∀ (s : State), Running s →
    (∀ val : Word, Reached s → locked s.dev .relInjCtl [] = false → val.getLsbD 3 = false →
      let c := putBits (putBits (rd s.dev .relInjCtl) 5 4 (bits val.toNat 5 4)) 0 0 (bits val.toNat 0 0)
      let id := rdf s.dev .relInjSel [] 31 24
      let unit := rdf s.dev .relInjSel [] 15 0
      let arg := rdf s.dev .relInjArg [] 15 0
      (val.getLsbD 0 = true → bits val.toNat 5 4 = 0 → s.dev.rel.inject = none → unit < injUnits id →
        injArgOk id arg = true →
        Does (.injectArm val) s (fun d =>
          let i : Inject := ⟨id, rdf d .relInjSel [] 21 20, unit, arg, some 1⟩
          let d1 := wr d.written .relInjCtl [] c
          injFlags { d1 with rel := { d1.rel with inject := some i } } 1 0)) ∧
      (val.getLsbD 0 = false ∨ s.dev.rel.inject.isSome = true ∨ injUnits id ≤ unit →
        Does (.injectArm val) s (fun d => raise (wr d.written .relInjCtl [] c) (srcRel 255 0) 8))) ∧
    (∀ val : Word, Reached s → locked s.dev .relInjCtl [] = false → val.getLsbD 1 = false →
      Does (.injectDisarm val) s (fun d =>
        let c := putBits (putBits (rd d .relInjCtl) 5 4 (bits val.toNat 5 4)) 0 0 (bits val.toNat 0 0)
        let d1 := wr d.written .relInjCtl [] c
        injFlags { d1 with rel := { d1.rel with inject := none } } 0 (rdf d1 .relInjCtl [] 2 2))) ∧
    (s.dev.rel.inject = none → Idles .injection s) ∧
    (∀ i, s.dev.rel.inject = some i → rdb s.dev .relInjCtl [] 0 = true → i.left = some 1 →
      Does .injection s (fun d =>
        let d1 := cnt1 d (srcRel 255 0) 10
        let d2 := injFlags { d1 with rel := { d1.rel with inject := none } } 0 1
        injectEffect i { d2 with rel := { d2.rel with injected := true } })) ∧
    (∀ n : Fin 72, n.val % 9 ≠ 8 → Does (.suspicionDecay n) s (fun d =>
      let d1 := setSusp d n 0
      { d1 with rel := { d1.rel with suspAt := tdel d1.rel.suspAt (8 * (n / 9) + n % 9) } })) ∧
    (∀ n : Fin 72, n.val % 9 = 8 → Does (.suspicionDecay n) s (fun d => setSusp d n 0)) ∧
    (∀ (c : Fin 8) (j phys cause : Nat), s.dev.rel.sparing.find? (fun x => x.1 == c.val) = some (c.val, j, phys, cause) →
      pdOn s.dev (9 * c + 8) = true → Does (.spareIn c true) s (fun d =>
        let d1 := cnt1 { d with rel := { d.rel with sparing := d.rel.sparing.filter (fun x => x.1 != c.val) } }
          (srcRel (c / 2) c) 11
        spareTakes d1 c j cause)) ∧
    (∀ (c : Fin 8) (pass : Bool), s.dev.rel.sparing.find? (fun x => x.1 == c.val) = none ∨ pdOn s.dev (9 * c + 8) = false →
      Idles (.spareIn c pass) s)

/-- R418, R420 to R422: a unit starts where it may, a core in PATROL meanwhile; it ends passed, or failed with the action
of Table 16-5, a core that holds work once it has given it up; a core whose work arrives abandons its unit; a FULL run needs
an unused device and ends with its 232 units counted (72 cores, 64 pre-reducers, 64 mesh tiles and 32 Seam links).
Choices of the model that it shows: GO and bias in a plain write (log entry 16), DIE and UNIT of the events (log entry 31),
the test of a spare (log entry 68), injection and Patrol controls (log entry 78). -/
def Obligations.Patrol : Prop :=
  ∀ (s : State), Running s →
    (∀ u, patrolUnit u = false ∨ s.dev.rel.full.isSome = true ∨ s.dev.rel.patrol.contains u = true →
      Idles (.patrolUnitStart u) s) ∧
    (∀ (n j : Nat), n < 72 → s.dev.rel.full = none → s.dev.rel.patrol.contains (.core n) = false →
      nameOf s.dev (n / 9) (n % 9) = some j → nameUp s.dev (8 * (n / 9) + j) = true →
      patrolReady s.dev (8 * (n / 9) + j) = true → s.dev.rel.condemned = [] → rdb s.dev .relPatrolCtl [] 0 = true →
      s.dev.rel.suspect = [] → pdOn s.dev n = true →
      Does (.patrolUnitStart (.core n)) s (fun d =>
        let d1 := setCoreState d (n / 9) (n % 9) 2
        { d1 with rel := { d1.rel with patrol := d1.rel.patrol ++ [.core n] } })) ∧
    (∀ t, t < 64 → s.dev.rel.full = none → s.dev.rel.patrol.contains (.pre t) = false → s.dev.rel.suspect = [] →
      rdb s.dev .relPatrolCtl [] 0 = true →
      Does (.patrolUnitStart (.pre t)) s (fun d => { d with rel := { d.rel with patrol := d.rel.patrol ++ [.pre t] } })) ∧
    (∀ t, s.dev.rel.patrol.contains (.pre t) = true →
      let ended := fun d : Dev =>
        cnt1 { d with rel := { d.rel with patrol := d.rel.patrol.filter (· != .pre t) } } (srcRel 255 0) 11
      Does (.patrolUnitEnd (.pre t) none) s ended ∧
      (∀ x : BitVec 8, Does (.patrolUnitEnd (.pre t) (some x)) s (fun d =>
        let d1 := raise (ended d) (srcRel (t / 16) (t % 16)) 5 [(1, 1), (1, x.toNat)]
        wrf (raise d1 (srcPre t) 0) .preCtl (tix t) 30 30 1))) ∧
    (∀ u f, s.dev.rel.patrol.contains u = false → Idles (.patrolUnitEnd u f) s) ∧
    (∀ (d : Dev) (n test : Nat),
      let d1 := raise d (srcRel (n / 18) (coreUnit d n)) 5 [(1, 0), (1, test)]
      (nameOf d1 (n / 9) (n % 9) = none → patrolFail (.core n) test d = failCore n 0 d1) ∧
      (∀ j, nameOf d1 (n / 9) (n % 9) = some j →
        (patrolReady d1 (8 * (n / 9) + j) = true → patrolFail (.core n) test d = failCore n 0 d1) ∧
        (patrolReady d1 (8 * (n / 9) + j) = false → patrolFail (.core n) test d =
          let others := d1.rel.condemned.filter (fun x => x.1 != 8 * (n / 9) + j)
          { d1 with rel := { d1.rel with condemned := others ++ [(8 * (n / 9) + j, 0)] } }))) ∧
    (∀ n, n < 72 → Does (.patrolYield (.core n)) s (fun d => abandonCore d n)) ∧
    (∀ t, Idles (.patrolYield (.pre t)) s) ∧
    (let used := s.dev.fwd.parts.any (fun e => e.2.st == 1) || !s.dev.coll.ctxs.isEmpty || !s.dev.opt.shards.isEmpty
       || decide (0 < collUsed s.dev) || decide (0 < optUsed s.dev)
     (Reached s → s.dev.rel.full = none → used = true → Gives .patrolFull s (fun d e =>
       e = raise (wrf d.written .relPatrolCtl [] 0 0 (rdf d .relPatrolCtl [] 0 0)) (srcRel 255 0) 8)) ∧
     (Reached s → s.dev.rel.full = none → used = false → Gives .patrolFull s (fun d e =>
       e.rel = { d.rel with full := some 0 } ∧ e.mem = { d.mem with bytes := [], poison := [] } ∧
       rdb e .relPatrolCtl [] 30 = true ∧ rd e .relPatrolStatus = 1 ∧
       e = { d with rel := e.rel, mem := e.mem, regs := e.regs, cnt := e.cnt, draw := d.draw + 1 }))) ∧
    (s.dev.rel.full.isSome = true → Does (.patrolDone []) s (fun d =>
      let d1 := cntN { d with rel := { d.rel with full := none } } (srcRel 255 0) 11 232
      event (wr (wrf (fullCores d1 1) .relPatrolCtl [] 30 30 0) .relPatrolStatus [] 2) 0x1580 255 0 [(2, 0)])) ∧
    (s.dev.rel.full = none → ∀ fs, Idles (.patrolDone fs) s)

/-- R432, R434 to R437: a selector write clears its counter or is discarded; MODE waits for the end of a dump, and what
waits stays under the lock; a dump or a freeze starts where its mode says and is skipped while the last is being written,
each counter record with the count and the time of its own edge (one record on each CTRL edge, DESIGN CHOICE, log entry 59);
the oldest Swatch record of a die enters the ring between dumps.
Choices of the model that it shows: DIE and UNIT of the events (log entry 31), edges of PMC_FREEZE (log entry 58), registers
of a sleeping block (log entry 69). -/
def Obligations.Monitoring : Prop :=
  ∀ (s : State), Running s →
    (∀ (off : Nat) (val : Word) (r : Reg) (ix : List Nat) (k : Nat), aligned32 off = true → target off = .reg r ix →
      Reached s → selKind r = some k → locked s.dev r ix = false → asleepAt s.dev off = none →
      let v := merge false r (rd s.dev r ix) val.toNat
      let n := ix.getLastD 0
      (srcOk k (bits v 29 23) (bits v 22 16) = true →
        Does (.pmcSelWrite off val) s (fun d =>
          { wr d.written r ix v with cnt := tdel d.written.cnt (regAddr r ix - 4 * n + 0x20 + 8 * n) })) ∧
      (srcOk k (bits v 29 23) (bits v 22 16) = false →
        Does (.pmcSelWrite off val) s (fun d => raise d.written srcPmc 0))) ∧
    (∀ off val, Reached s → isSel off = false → Idles (.pmcSelWrite off val) s) ∧
    (∀ val : Word, Reached s → locked s.dev .pmcCtl [] = true → s.dev.pmc.dump.isSome = true →
      Gives (.pmcModeWrite val) s (fun d e => e.pmc = d.pmc)) ∧
    (∀ val : Word, Reached s → locked s.dev .pmcCtl [] = false →
      let v := fun d => merge false .pmcCtl (rd d .pmcCtl) val.toNat
      (s.dev.pmc.dump = none → Does (.pmcModeWrite val) s (fun d => wr d.written .pmcCtl [] (v d))) ∧
      (s.dev.pmc.dump.isSome = true → Does (.pmcModeWrite val) s (fun d =>
        wr { d.written with pmc := { d.pmc with mode := some (bits (v d) 1 0) } } .pmcCtl []
          (putBits (v d) 1 0 (rdf d .pmcCtl [] 1 0))))) ∧
    (pmcMode s.dev ≠ 1 → Idles .pmcDump s) ∧
    (pmcMode s.dev = 1 → s.dev.pmc.dump.isSome = true → Does .pmcDump s (fun d => raise d srcPmc 1)) ∧
    (pmcMode s.dev = 1 → s.dev.pmc.dump = none → Does .pmcDump s (fun d => writeDump d false)) ∧
    (∀ (d : Dev) (frozen : Bool), telRoom d (pmcNrec d + 1) = true → ∃ e, writeDump d frozen = e ∧
      ∃ l, e.pmc.dump = some ⟨frozen, nsNow d, l⟩ ∧ rd e .pmcSeq = (rdf d .pmcSeq [] 15 0 + 1) % 65536) ∧
    (∀ (d : Dev) (frozen : Bool) (ns k i : Nat) (q : List (Nat × Nat)) (r : DumpRow),
      d.pmc.dump = some ⟨frozen, ns, (k, i) :: q⟩ → dumpRows[k]? = some r →
      dumpNext d =
        let c := if frozen then d.pmc.snap.getD ([], []) else (cntSeen d, d.loadBins)
        telRecord { d with pmc := { d.pmc with dump := some ⟨frozen, ns, q⟩ } }
          (counterRecord c frozen (rdf d .pmcSeq [] 15 0) (if frozen then ns else nsNow d) r i)) ∧
    (s.dev.pmc.dump = none → Idles .pmcDumpEnd s) ∧
    (∀ x, s.dev.pmc.dump = some x → s.dev.pmc.mode = none → Does .pmcDumpEnd s (fun d =>
      let d0 := dumpMany x.left.length d
      let d1 := cnt1 { d0 with pmc := { d0.pmc with dump := none } } srcPmc 4
      if x.frozen then wrf d1 .pmcFreeze [] 29 29 0 else d1)) ∧
    (∀ val : Word, Reached s → val.getLsbD 30 = false →
      Does (.pmcFreezeGo val) s (fun d => freeze (wrf d.written .pmcFreeze [] 30 30 0))) ∧
    (rdb s.dev .pmcFreeze [] 30 = true → Does .pmcFreezeTick s (fun d => freeze (wrf d .pmcFreeze [] 30 30 0))) ∧
    (rdb s.dev .pmcFreeze [] 30 = false → Idles .pmcFreezeTick s) ∧
    (∀ (die : Fin 4) (r : List Byte) (q : List (List Byte)), tgetD s.dev.pmc.swq die [] = r :: q →
      s.dev.pmc.dump = none → telRoom s.dev 1 = true →
      Does (.swatchRecordWrite die) s (fun d =>
        cnt1 (telRecord { d with pmc := { d.pmc with swq := tput [] d.pmc.swq die q } } r) srcPmc 6)) ∧
    (∀ die : Fin 4, telRoom s.dev 1 = false → Idles (.swatchRecordWrite die) s)
end

