-- ==== Sys2Proof/Laws/Cmd.lean ====
section
/-! SUPPORT. What the shared steps of commands do: the outcome of `act`, the general checks of `runCmd`,
register writes through the bus, counting and reporting. -/
namespace Sys2Proof.Machine

/-! ### Outcomes -/

/-- A guarded change answers a next state: the queue as it was, the device changed or kept. -/
theorem actWhen_next (p : Dev → Bool) (f : Dev → Dev) (s : State) :
    ∃ e : Dev, actWhen p f s = .next { s with dev := e } := by
  unfold actWhen; split
  · exact ⟨_, rfl⟩
  · exact ⟨s.dev, rfl⟩

theorem actWhen_eq {p : Dev → Bool} {s : State} (h : p s.dev = true) (f : Dev → Dev) :
    actWhen p f s = .next { s with dev := f s.dev.fresh } := by
  simp [actWhen, h, Dev.fresh]

theorem actWhen_off {p : Dev → Bool} {s : State} (h : p s.dev = false) (f : Dev → Dev) : actWhen p f s = .next s := by
  simp [actWhen, h]

theorem barOn_of_reached {d : Dev} (h : serves d = true ∧ reached d = true) (off : Nat) : barOn off d = true := by
  simp only [serves, Bool.and_eq_true] at h; simp [barOn, h.1.1, h.1.2, h.2]

theorem powered_of_serves {d : Dev} (h : serves d = true) : powered d = true := by
  simp only [serves, Bool.and_eq_true] at h; exact h.1

/-- A tripped device serves nothing, answers no access and takes nothing from its pins. -/
theorem serves_of_tripped {d : Dev} (h : d.pwr.tripped = true) : serves d = false := by simp [serves, powered, h]
theorem barOn_of_tripped {d : Dev} (h : d.pwr.tripped = true) (off : Nat) : barOn off d = false := by
  simp [barOn, powered, h]
theorem powered_of_tripped {d : Dev} (h : d.pwr.tripped = true) : powered d = false := by simp [powered, h]

theorem act_eq_of_running {s : State} (h : Running s) (f : Dev → Dev) :
    act f s = .next { s with dev := f s.dev.fresh } := actWhen_eq h f

theorem actBar_eq_of_reached {s : State} (h : Reached s) (off : Nat) (f : Dev → Dev) :
    actBar off f s = .next { s with dev := f s.dev.fresh } := actWhen_eq (barOn_of_reached h off) f

theorem actPins_eq_of_powered {s : State} (h : Powered s) (f : Dev → Dev) :
    actPins f s = .next { s with dev := f s.dev.fresh } := actWhen_eq (by simp [powered, h]) f

theorem act_next (f : Dev → Dev) (s : State) : ∃ e : Dev, act f s = .next { s with dev := e } := actWhen_next _ f s

theorem actAlways_eq (f : Dev → Dev) (s : State) : actAlways f s = .next { s with dev := f s.dev.fresh } := rfl

/-! ### Host commands -/

/-- Accepting a command changes only the waiting descriptors and one count. -/
theorem takeCmd_frame (d : Dev) (h : CmdHdr) :
    takeCmd d h = { d with cnt := (takeCmd d h).cnt, host := { d.host with fetched := (takeCmd d h).host.fetched } } := rfl

@[simp] theorem takeCmd_estop (d : Dev) (h : CmdHdr) : (takeCmd d h).host.estop = d.host.estop := rfl
@[simp] theorem takeCmd_fault (d : Dev) (h : CmdHdr) : (takeCmd d h).host.fault = d.host.fault := rfl
@[simp] theorem pathRefusal_takeCmd (d : Dev) (h : CmdHdr) (p : Path) (acc : Accept) :
    pathRefusal (takeCmd d h) p acc = pathRefusal d p acc := rfl
@[simp] theorem stands_fresh (d : Dev) (h : CmdHdr) (opc : Nat) (ps : List (Option Nat)) :
    stands d.fresh h opc ps = stands d h opc ps := rfl
theorem Passes.fresh {d : Dev} {h : CmdHdr} {opc : Nat} {acc : Accept} {ps : List (Option Nat)}
    (hp : Passes d h opc acc ps) : Passes d.fresh h opc acc ps := hp

theorem runCmd_passes {d : Dev} {h : CmdHdr} {opc : Nat} {acc : Accept} {ps : List (Option Nat)}
    (hp : Passes d h opc acc ps) (f : Dev → Reply → Dev) :
    runCmd d h opc acc ps true f = f (takeCmd d h) (replyOf d h opc) := by
  obtain ⟨h1, h2, h3⟩ := hp
  simp [runCmd, h1, h2, h3]

/-- A command whose descriptor does not stand first on its path, or whose path waits, changes nothing. -/
theorem runCmd_waits {d : Dev} {h : CmdHdr} {opc : Nat} {acc : Accept} {ps : List (Option Nat)} {ok : Bool}
    (hs : stands d h opc ps = false ∨ cmdWaits d h.path = true) (f : Dev → Reply → Dev) :
    runCmd d h opc acc ps ok f = d := by
  rcases hs with hs | hs <;> simp [runCmd, hs]

/-! ### Register writes -/

@[simp] theorem written_regs (d : Dev) : d.written.regs = d.regs := rfl
@[simp] theorem rd_written (d : Dev) (r : Reg) (ix : List Nat) : rd d.written r ix = rd d r ix := rfl
@[simp] theorem rdf_written (d : Dev) (r : Reg) (ix : List Nat) (m l : Nat) : rdf d.written r ix m l = rdf d r ix m l := rfl
@[simp] theorem rdb_written (d : Dev) (r : Reg) (ix : List Nat) (n : Nat) : rdb d.written r ix n = rdb d r ix n := rfl
@[simp] theorem locked_written (d : Dev) (r : Reg) (ix : List Nat) : locked d.written r ix = locked d r ix := rfl
@[simp] theorem fresh_regs (d : Dev) : d.fresh.regs = d.regs := rfl
@[simp] theorem rd_fresh (d : Dev) (r : Reg) (ix : List Nat) : rd d.fresh r ix = rd d r ix := rfl
@[simp] theorem rdf_fresh (d : Dev) (r : Reg) (ix : List Nat) (m l : Nat) : rdf d.fresh r ix m l = rdf d r ix m l := rfl
@[simp] theorem rdb_fresh (d : Dev) (r : Reg) (ix : List Nat) (n : Nat) : rdb d.fresh r ix n = rdb d r ix n := rfl
@[simp] theorem locked_fresh (d : Dev) (r : Reg) (ix : List Nat) : locked d.fresh r ix = locked d r ix := rfl

/-- A 32-bit write that meets a register outside the pairs. -/
theorem busWriteX_reg {off val : Nat} {img : Option DmaRead} {low : Bool} {d : Dev} {r : Reg} {ix : List Nat}
    (ha : aligned32 off = true) (ht : target off = .reg r ix) (h1 : pairHiOf r = none) (h2 : pairLoOf r = none) :
    busWriteX off val img low d = applyReg off r ix val img low (regwr d) := by
  simp [busWriteX, regWrite32, ha, ht, h1, h2]

theorem busWrite_reg {off val : Nat} {d : Dev} {r : Reg} {ix : List Nat} (ha : aligned32 off = true)
    (ht : target off = .reg r ix) (h1 : pairHiOf r = none) (h2 : pairLoOf r = none) :
    busWrite off val d = applyReg off r ix val none (Config.freeBool d.draw) d.written :=
  busWriteX_reg ha ht h1 h2

@[simp] theorem asleepAt_written (d : Dev) (off : Nat) : asleepAt d.written off = asleepAt d off := rfl
@[simp] theorem asleepAt_fresh (d : Dev) (off : Nat) : asleepAt d.fresh off = asleepAt d off := rfl

/-- A write of a register whose block is neither locked nor asleep: its fields merged, then what the register sets
off. -/
theorem applyReg_unlocked {off val : Nat} {img : Option DmaRead} {low : Bool} {d : Dev} {r : Reg} {ix : List Nat}
    (hl : locked d r ix = false) (ha : asleepAt d off = none) :
    applyReg off r ix val img low d =
      writeReg (offDie off) r ix (merge false r (rd d r ix) val) val img low d := by
  simp [applyReg, hl, lockHit, ha]

/-- A write of a register whose block sleeps is held. -/
theorem applyReg_held {off val n : Nat} {img : Option DmaRead} {low : Bool} {d : Dev} {r : Reg} {ix : List Nat}
    (hl : locked d r ix = false) (ha : asleepAt d off = some n) :
    applyReg off r ix val img low d =
      { d with pwr := { d.pwr with heldWr := d.pwr.heldWr ++ [⟨n, off, false, w32 val⟩] } } := by
  simp [applyReg, hl, lockHit, ha]

/-- A write through the bus of a register outside the pairs whose block is neither locked nor asleep. -/
theorem busWrite_plain {off val : Nat} {d : Dev} {r : Reg} {ix : List Nat} (ha : aligned32 off = true)
    (ht : target off = .reg r ix) (h1 : pairHiOf r = none) (h2 : pairLoOf r = none)
    (hl : locked d r ix = false) (hs : asleepAt d off = none) :
    busWrite off val d =
      writeReg (offDie off) r ix (merge false r (rd d r ix) val) val none (Config.freeBool d.draw) d.written := by
  rw [busWrite_reg ha ht h1 h2, applyReg_unlocked (by simpa using hl) (by simpa using hs)]; simp

end Sys2Proof.Machine
end

