-- ==== Sys2Proof/Laws/Tab.lean ====
section
/-! SUPPORT. What looking up, storing and removing do to a sparse table, and that the canonical form is kept. -/
namespace Sys2Proof.Machine

variable {α : Type}

/-! ### Looking up after a change -/

@[simp] theorem tget?_nil (k : Nat) : tget? ([] : Tab α) k = none := rfl

@[simp] theorem tget?_tset (t : Tab α) (k j : Nat) (v : α) :
    tget? (tset t k v) j = if k = j then some v else tget? t j := by
  induction t with
  | nil => simp [tset, tget?]
  | cons e r ih =>
    obtain ⟨k', v'⟩ := e
    unfold tset
    split
    · simp [tget?]
    · split
      · subst_vars; simp only [tget?]; split <;> rfl
      · simp only [tget?, ih]; split <;> split <;> first | rfl | omega

@[simp] theorem tget?_tdel (t : Tab α) (k j : Nat) : tget? (tdel t k) j = if k = j then none else tget? t j := by
  induction t with
  | nil => simp [tdel, tget?]
  | cons e r ih =>
    obtain ⟨k', v'⟩ := e
    unfold tdel
    split
    · rw [ih]; simp only [tget?]; split <;> (try split) <;> first | rfl | omega
    · simp only [tget?, ih]; split <;> split <;> first | rfl | omega

theorem tget?_tput [DecidableEq α] (dflt : α) (t : Tab α) (k j : Nat) (v : α) :
    tget? (tput dflt t k v) j = if k = j then (if v = dflt then none else some v) else tget? t j := by
  unfold tput; split <;> simp

/-- Reading the key just stored gives the value stored; every other key reads as before. -/
@[simp] theorem tgetD_tput [DecidableEq α] (dflt : α) (t : Tab α) (k j : Nat) (v : α) :
    tgetD (tput dflt t k v) j dflt = if k = j then v else tgetD t j dflt := by
  simp only [tgetD, tget?_tput]; split
  · split
    · subst_vars; rfl
    · rfl
  · rfl

@[simp] theorem tgetD_tset (dflt : α) (t : Tab α) (k j : Nat) (v : α) :
    tgetD (tset t k v) j dflt = if k = j then v else tgetD t j dflt := by
  simp only [tgetD, tget?_tset]; split <;> rfl

theorem tgetD_tdel (dflt : α) (t : Tab α) (k j : Nat) :
    tgetD (tdel t k) j dflt = if k = j then dflt else tgetD t j dflt := by
  simp only [tgetD, tget?_tdel]; split <;> rfl

/-! ### Runs of keys -/

@[simp] theorem tread_length (t : Tab α) (dflt : α) (k n : Nat) : (tread t dflt k n).length = n := by
  induction n generalizing k with
  | zero => rfl
  | succ n ih => simp [tread, ih]

/-- After a run of values has been stored from `k` on, a key of the run reads its value and every other key
reads as before. -/
theorem tgetD_twrite [DecidableEq α] (dflt : α) (vs : List α) (t : Tab α) (k j : Nat) :
    tgetD (twrite dflt t k vs) j dflt =
      if k ≤ j ∧ j < k + vs.length then vs.getD (j - k) dflt else tgetD t j dflt := by
  induction vs generalizing t k with
  | nil => simp only [twrite, List.length_nil, Nat.add_zero]; rw [if_neg (by omega)]
  | cons v vs ih =>
    simp only [twrite, ih, List.length_cons, tgetD_tput]
    by_cases h : k = j
    · subst h
      rw [if_neg (by omega), if_pos rfl, if_pos (by omega)]; simp
    · by_cases h2 : k + 1 ≤ j ∧ j < k + 1 + vs.length
      · rw [if_pos h2, if_pos (by omega)]
        obtain ⟨m, hm⟩ : ∃ m, j - k = m + 1 := ⟨j - k - 1, by omega⟩
        rw [hm, List.getD_cons_succ]; congr 1; omega
      · rw [if_neg h2, if_neg h, if_neg (by omega)]

/-- Reading back the run just stored gives the values stored. -/
theorem tread_twrite [DecidableEq α] (dflt : α) (vs : List α) (t : Tab α) (k : Nat) :
    tread (twrite dflt t k vs) dflt k vs.length = vs := by
  have key : ∀ (ws : List α) (u : Tab α) (k : Nat),
      (∀ i, i < ws.length → tgetD u (k + i) dflt = ws.getD i dflt) → tread u dflt k ws.length = ws := by
    intro ws
    induction ws with
    | nil => intros; rfl
    | cons w ws ih =>
      intro u k h
      simp only [List.length_cons, tread]
      have h0 := h 0 (by simp)
      simp only [Nat.add_zero, List.getD_cons_zero] at h0
      rw [h0, ih u (k + 1) (fun i hi => by
        have := h (i + 1) (by simp; omega)
        rw [List.getD_cons_succ] at this
        rw [← this]; congr 1; omega)]
  refine key vs _ k (fun i hi => ?_)
  rw [tgetD_twrite, if_pos (by omega)]; congr 1; omega

/-! ### The canonical form -/

/-- The canonical form as a proposition: keys strictly ascending above a bound, no value the default. -/
def TabOk (dflt : α) : Option Nat → Tab α → Prop
  | _, [] => True
  | lo, (k, v) :: r => (∀ b ∈ lo, b < k) ∧ v ≠ dflt ∧ TabOk dflt (some k) r

theorem tabWf_iff [DecidableEq α] (dflt : α) (t : Tab α) : tabWf dflt t = true ↔ TabOk dflt none t := by
  suffices h : ∀ lo, (tabSorted lo t && t.all (fun e => decide (e.2 ≠ dflt))) = true ↔ TabOk dflt lo t from h none
  induction t with
  | nil => intro lo; simp [tabSorted, TabOk]
  | cons e r ih =>
    intro lo
    obtain ⟨k, v⟩ := e
    have h := ih (some k)
    simp only [Bool.and_eq_true] at h
    cases lo <;> simp only [tabSorted, List.all_cons, Bool.and_eq_true, decide_eq_true_eq, TabOk, ← h] <;> simp <;> tauto

theorem TabOk.weaken {dflt : α} {lo : Option Nat} {k : Nat} {t : Tab α} (h : TabOk dflt (some k) t)
    (hlo : ∀ b ∈ lo, b ≤ k) : TabOk dflt lo t := by
  cases t with
  | nil => trivial
  | cons e r =>
    obtain ⟨k', v'⟩ := e
    exact ⟨fun b hb => lt_of_le_of_lt (hlo b hb) (h.1 k rfl), h.2⟩

theorem TabOk.tset {dflt : α} {v : α} (hv : v ≠ dflt) {k : Nat} {t : Tab α} {lo : Option Nat} (h : TabOk dflt lo t)
    (hlo : ∀ b ∈ lo, b < k) : TabOk dflt lo (tset t k v) := by
  induction t generalizing lo with
  | nil => exact ⟨hlo, hv, trivial⟩
  | cons e r ih =>
    obtain ⟨k', v'⟩ := e
    unfold Machine.tset
    obtain ⟨h1, h2, h3⟩ := h
    split
    · exact ⟨hlo, hv, fun b hb => by simp at hb; omega, h2, h3⟩
    · split
      · subst_vars; exact ⟨hlo, hv, h3⟩
      · exact ⟨h1, h2, ih h3 (fun b hb => by simp at hb; omega)⟩

theorem TabOk.filter {dflt : α} (p : Nat × α → Bool) {t : Tab α} {lo : Option Nat} (h : TabOk dflt lo t) :
    TabOk dflt lo (t.filter p) := by
  induction t generalizing lo with
  | nil => trivial
  | cons e r ih =>
    obtain ⟨k', v'⟩ := e
    obtain ⟨h1, h2, h3⟩ := h
    rw [List.filter_cons]; split
    · exact ⟨h1, h2, ih h3⟩
    · exact (ih h3).weaken (fun b hb => (h1 b hb).le)

theorem tdel_eq_filter (t : Tab α) (k : Nat) : tdel t k = t.filter (fun e => decide (e.1 ≠ k)) := by
  induction t with
  | nil => rfl
  | cons e r ih =>
    obtain ⟨k', v'⟩ := e
    unfold tdel; split
    · rw [List.filter_cons_of_neg (by simpa), ih]
    · rw [List.filter_cons_of_pos (by simpa), ih]

@[simp] theorem tabWf_nil [DecidableEq α] (dflt : α) : tabWf dflt ([] : Tab α) = true := rfl

theorem tabWf_tset [DecidableEq α] {dflt v : α} (hv : v ≠ dflt) {t : Tab α} (h : tabWf dflt t = true) (k : Nat) :
    tabWf dflt (tset t k v) = true := by
  rw [tabWf_iff] at *; exact h.tset hv (by simp)

theorem tabWf_filter [DecidableEq α] {dflt : α} (p : Nat × α → Bool) {t : Tab α} (h : tabWf dflt t = true) :
    tabWf dflt (t.filter p) = true := by
  rw [tabWf_iff] at *; exact h.filter p

theorem tabWf_tdel [DecidableEq α] {dflt : α} {t : Tab α} (h : tabWf dflt t = true) (k : Nat) :
    tabWf dflt (tdel t k) = true := by
  rw [tdel_eq_filter]; exact tabWf_filter _ h

theorem tabWf_tput [DecidableEq α] {dflt : α} {t : Tab α} (h : tabWf dflt t = true) (k : Nat) (v : α) :
    tabWf dflt (tput dflt t k v) = true := by
  unfold tput; split
  · exact tabWf_tdel h k
  · exact tabWf_tset ‹_› h k

/-- Storing a run of values keeps the canonical form. -/
theorem tabWf_twrite [DecidableEq α] {dflt : α} (vs : List α) {t : Tab α} (h : tabWf dflt t = true) (k : Nat) :
    tabWf dflt (twrite dflt t k vs) = true := by
  induction vs generalizing t k with
  | nil => exact h
  | cons v vs ih => exact ih (tabWf_tput h k v) (k + 1)

end Sys2Proof.Machine
end

