-- ==== Sys2Proof/Laws/State.lean ====
section
/-! SUPPORT. What the shared updates of the device leave alone, one lemma per field and update, and what the
field that each changes reads afterwards. -/
namespace Sys2Proof.Machine

/-! ### Fields left alone -/

@[simp] theorem wr_cnt (d : Dev) (r : Reg) (ix : List Nat) (v : Nat) : (wr d r ix v).cnt = d.cnt := rfl
@[simp] theorem wr_loadBins (d : Dev) (r : Reg) (ix : List Nat) (v : Nat) : (wr d r ix v).loadBins = d.loadBins := rfl
@[simp] theorem wr_stage (d : Dev) (r : Reg) (ix : List Nat) (v : Nat) : (wr d r ix v).stage = d.stage := rfl
@[simp] theorem wr_snap (d : Dev) (r : Reg) (ix : List Nat) (v : Nat) : (wr d r ix v).snap = d.snap := rfl
@[simp] theorem wr_bar (d : Dev) (r : Reg) (ix : List Nat) (v : Nat) : (wr d r ix v).bar = d.bar := rfl
@[simp] theorem wr_now (d : Dev) (r : Reg) (ix : List Nat) (v : Nat) : (wr d r ix v).now = d.now := rfl
@[simp] theorem wr_draw (d : Dev) (r : Reg) (ix : List Nat) (v : Nat) : (wr d r ix v).draw = d.draw := rfl
@[simp] theorem wr_dmaOut (d : Dev) (r : Reg) (ix : List Nat) (v : Nat) : (wr d r ix v).dmaOut = d.dmaOut := rfl
@[simp] theorem wr_time (d : Dev) (r : Reg) (ix : List Nat) (v : Nat) : (wr d r ix v).time = d.time := rfl
@[simp] theorem wr_rel (d : Dev) (r : Reg) (ix : List Nat) (v : Nat) : (wr d r ix v).rel = d.rel := rfl
@[simp] theorem wr_host (d : Dev) (r : Reg) (ix : List Nat) (v : Nat) : (wr d r ix v).host = d.host := rfl
@[simp] theorem wr_pwr (d : Dev) (r : Reg) (ix : List Nat) (v : Nat) : (wr d r ix v).pwr = d.pwr := rfl
@[simp] theorem wr_fwd (d : Dev) (r : Reg) (ix : List Nat) (v : Nat) : (wr d r ix v).fwd = d.fwd := rfl
@[simp] theorem wr_sw (d : Dev) (r : Reg) (ix : List Nat) (v : Nat) : (wr d r ix v).sw = d.sw := rfl
@[simp] theorem wr_seams (d : Dev) (r : Reg) (ix : List Nat) (v : Nat) : (wr d r ix v).seams = d.seams := rfl
@[simp] theorem wr_rt (d : Dev) (r : Reg) (ix : List Nat) (v : Nat) : (wr d r ix v).rt = d.rt := rfl
@[simp] theorem wr_pol (d : Dev) (r : Reg) (ix : List Nat) (v : Nat) : (wr d r ix v).pol = d.pol := rfl
@[simp] theorem wr_lanes (d : Dev) (r : Reg) (ix : List Nat) (v : Nat) : (wr d r ix v).lanes = d.lanes := rfl
@[simp] theorem wr_mem (d : Dev) (r : Reg) (ix : List Nat) (v : Nat) : (wr d r ix v).mem = d.mem := rfl
@[simp] theorem wr_coll (d : Dev) (r : Reg) (ix : List Nat) (v : Nat) : (wr d r ix v).coll = d.coll := rfl
@[simp] theorem wr_opt (d : Dev) (r : Reg) (ix : List Nat) (v : Nat) : (wr d r ix v).opt = d.opt := rfl
@[simp] theorem wr_bolt (d : Dev) (r : Reg) (ix : List Nat) (v : Nat) : (wr d r ix v).bolt = d.bolt := rfl
@[simp] theorem wr_oe (d : Dev) (r : Reg) (ix : List Nat) (v : Nat) : (wr d r ix v).oe = d.oe := rfl
@[simp] theorem wr_pmc (d : Dev) (r : Reg) (ix : List Nat) (v : Nat) : (wr d r ix v).pmc = d.pmc := rfl

@[simp] theorem wrf_cnt (d : Dev) (r : Reg) (ix : List Nat) (m l v : Nat) : (wrf d r ix m l v).cnt = d.cnt := rfl
@[simp] theorem wrf_loadBins (d : Dev) (r : Reg) (ix : List Nat) (m l v : Nat) : (wrf d r ix m l v).loadBins = d.loadBins := rfl
@[simp] theorem wrf_stage (d : Dev) (r : Reg) (ix : List Nat) (m l v : Nat) : (wrf d r ix m l v).stage = d.stage := rfl
@[simp] theorem wrf_snap (d : Dev) (r : Reg) (ix : List Nat) (m l v : Nat) : (wrf d r ix m l v).snap = d.snap := rfl
@[simp] theorem wrf_bar (d : Dev) (r : Reg) (ix : List Nat) (m l v : Nat) : (wrf d r ix m l v).bar = d.bar := rfl
@[simp] theorem wrf_now (d : Dev) (r : Reg) (ix : List Nat) (m l v : Nat) : (wrf d r ix m l v).now = d.now := rfl
@[simp] theorem wrf_draw (d : Dev) (r : Reg) (ix : List Nat) (m l v : Nat) : (wrf d r ix m l v).draw = d.draw := rfl
@[simp] theorem wrf_dmaOut (d : Dev) (r : Reg) (ix : List Nat) (m l v : Nat) : (wrf d r ix m l v).dmaOut = d.dmaOut := rfl
@[simp] theorem wrf_time (d : Dev) (r : Reg) (ix : List Nat) (m l v : Nat) : (wrf d r ix m l v).time = d.time := rfl
@[simp] theorem wrf_rel (d : Dev) (r : Reg) (ix : List Nat) (m l v : Nat) : (wrf d r ix m l v).rel = d.rel := rfl
@[simp] theorem wrf_host (d : Dev) (r : Reg) (ix : List Nat) (m l v : Nat) : (wrf d r ix m l v).host = d.host := rfl
@[simp] theorem wrf_pwr (d : Dev) (r : Reg) (ix : List Nat) (m l v : Nat) : (wrf d r ix m l v).pwr = d.pwr := rfl
@[simp] theorem wrf_fwd (d : Dev) (r : Reg) (ix : List Nat) (m l v : Nat) : (wrf d r ix m l v).fwd = d.fwd := rfl
@[simp] theorem wrf_sw (d : Dev) (r : Reg) (ix : List Nat) (m l v : Nat) : (wrf d r ix m l v).sw = d.sw := rfl
@[simp] theorem wrf_seams (d : Dev) (r : Reg) (ix : List Nat) (m l v : Nat) : (wrf d r ix m l v).seams = d.seams := rfl
@[simp] theorem wrf_rt (d : Dev) (r : Reg) (ix : List Nat) (m l v : Nat) : (wrf d r ix m l v).rt = d.rt := rfl
@[simp] theorem wrf_pol (d : Dev) (r : Reg) (ix : List Nat) (m l v : Nat) : (wrf d r ix m l v).pol = d.pol := rfl
@[simp] theorem wrf_lanes (d : Dev) (r : Reg) (ix : List Nat) (m l v : Nat) : (wrf d r ix m l v).lanes = d.lanes := rfl
@[simp] theorem wrf_mem (d : Dev) (r : Reg) (ix : List Nat) (m l v : Nat) : (wrf d r ix m l v).mem = d.mem := rfl
@[simp] theorem wrf_coll (d : Dev) (r : Reg) (ix : List Nat) (m l v : Nat) : (wrf d r ix m l v).coll = d.coll := rfl
@[simp] theorem wrf_opt (d : Dev) (r : Reg) (ix : List Nat) (m l v : Nat) : (wrf d r ix m l v).opt = d.opt := rfl
@[simp] theorem wrf_bolt (d : Dev) (r : Reg) (ix : List Nat) (m l v : Nat) : (wrf d r ix m l v).bolt = d.bolt := rfl
@[simp] theorem wrf_oe (d : Dev) (r : Reg) (ix : List Nat) (m l v : Nat) : (wrf d r ix m l v).oe = d.oe := rfl
@[simp] theorem wrf_pmc (d : Dev) (r : Reg) (ix : List Nat) (m l v : Nat) : (wrf d r ix m l v).pmc = d.pmc := rfl

@[simp] theorem stSet_cnt (d : Dev) (x : Src) (b : Nat) : (stSet d x b).cnt = d.cnt := rfl
@[simp] theorem stSet_loadBins (d : Dev) (x : Src) (b : Nat) : (stSet d x b).loadBins = d.loadBins := rfl
@[simp] theorem stSet_stage (d : Dev) (x : Src) (b : Nat) : (stSet d x b).stage = d.stage := rfl
@[simp] theorem stSet_snap (d : Dev) (x : Src) (b : Nat) : (stSet d x b).snap = d.snap := rfl
@[simp] theorem stSet_bar (d : Dev) (x : Src) (b : Nat) : (stSet d x b).bar = d.bar := rfl
@[simp] theorem stSet_now (d : Dev) (x : Src) (b : Nat) : (stSet d x b).now = d.now := rfl
@[simp] theorem stSet_draw (d : Dev) (x : Src) (b : Nat) : (stSet d x b).draw = d.draw := rfl
@[simp] theorem stSet_dmaOut (d : Dev) (x : Src) (b : Nat) : (stSet d x b).dmaOut = d.dmaOut := rfl
@[simp] theorem stSet_time (d : Dev) (x : Src) (b : Nat) : (stSet d x b).time = d.time := rfl
@[simp] theorem stSet_rel (d : Dev) (x : Src) (b : Nat) : (stSet d x b).rel = d.rel := rfl
@[simp] theorem stSet_host (d : Dev) (x : Src) (b : Nat) : (stSet d x b).host = d.host := rfl
@[simp] theorem stSet_pwr (d : Dev) (x : Src) (b : Nat) : (stSet d x b).pwr = d.pwr := rfl
@[simp] theorem stSet_fwd (d : Dev) (x : Src) (b : Nat) : (stSet d x b).fwd = d.fwd := rfl
@[simp] theorem stSet_sw (d : Dev) (x : Src) (b : Nat) : (stSet d x b).sw = d.sw := rfl
@[simp] theorem stSet_seams (d : Dev) (x : Src) (b : Nat) : (stSet d x b).seams = d.seams := rfl
@[simp] theorem stSet_rt (d : Dev) (x : Src) (b : Nat) : (stSet d x b).rt = d.rt := rfl
@[simp] theorem stSet_pol (d : Dev) (x : Src) (b : Nat) : (stSet d x b).pol = d.pol := rfl
@[simp] theorem stSet_lanes (d : Dev) (x : Src) (b : Nat) : (stSet d x b).lanes = d.lanes := rfl
@[simp] theorem stSet_mem (d : Dev) (x : Src) (b : Nat) : (stSet d x b).mem = d.mem := rfl
@[simp] theorem stSet_coll (d : Dev) (x : Src) (b : Nat) : (stSet d x b).coll = d.coll := rfl
@[simp] theorem stSet_opt (d : Dev) (x : Src) (b : Nat) : (stSet d x b).opt = d.opt := rfl
@[simp] theorem stSet_bolt (d : Dev) (x : Src) (b : Nat) : (stSet d x b).bolt = d.bolt := rfl
@[simp] theorem stSet_oe (d : Dev) (x : Src) (b : Nat) : (stSet d x b).oe = d.oe := rfl
@[simp] theorem stSet_pmc (d : Dev) (x : Src) (b : Nat) : (stSet d x b).pmc = d.pmc := rfl

@[simp] theorem cntAdd_regs (d : Dev) (off n : Nat) : (cntAdd d off n).regs = d.regs := rfl
@[simp] theorem cntAdd_loadBins (d : Dev) (off n : Nat) : (cntAdd d off n).loadBins = d.loadBins := rfl
@[simp] theorem cntAdd_stage (d : Dev) (off n : Nat) : (cntAdd d off n).stage = d.stage := rfl
@[simp] theorem cntAdd_snap (d : Dev) (off n : Nat) : (cntAdd d off n).snap = d.snap := rfl
@[simp] theorem cntAdd_bar (d : Dev) (off n : Nat) : (cntAdd d off n).bar = d.bar := rfl
@[simp] theorem cntAdd_now (d : Dev) (off n : Nat) : (cntAdd d off n).now = d.now := rfl
@[simp] theorem cntAdd_draw (d : Dev) (off n : Nat) : (cntAdd d off n).draw = d.draw := rfl
@[simp] theorem cntAdd_dmaOut (d : Dev) (off n : Nat) : (cntAdd d off n).dmaOut = d.dmaOut := rfl
@[simp] theorem cntAdd_time (d : Dev) (off n : Nat) : (cntAdd d off n).time = d.time := rfl
@[simp] theorem cntAdd_rel (d : Dev) (off n : Nat) : (cntAdd d off n).rel = d.rel := rfl
@[simp] theorem cntAdd_host (d : Dev) (off n : Nat) : (cntAdd d off n).host = d.host := rfl
@[simp] theorem cntAdd_pwr (d : Dev) (off n : Nat) : (cntAdd d off n).pwr = d.pwr := rfl
@[simp] theorem cntAdd_fwd (d : Dev) (off n : Nat) : (cntAdd d off n).fwd = d.fwd := rfl
@[simp] theorem cntAdd_sw (d : Dev) (off n : Nat) : (cntAdd d off n).sw = d.sw := rfl
@[simp] theorem cntAdd_seams (d : Dev) (off n : Nat) : (cntAdd d off n).seams = d.seams := rfl
@[simp] theorem cntAdd_rt (d : Dev) (off n : Nat) : (cntAdd d off n).rt = d.rt := rfl
@[simp] theorem cntAdd_pol (d : Dev) (off n : Nat) : (cntAdd d off n).pol = d.pol := rfl
@[simp] theorem cntAdd_lanes (d : Dev) (off n : Nat) : (cntAdd d off n).lanes = d.lanes := rfl
@[simp] theorem cntAdd_mem (d : Dev) (off n : Nat) : (cntAdd d off n).mem = d.mem := rfl
@[simp] theorem cntAdd_coll (d : Dev) (off n : Nat) : (cntAdd d off n).coll = d.coll := rfl
@[simp] theorem cntAdd_opt (d : Dev) (off n : Nat) : (cntAdd d off n).opt = d.opt := rfl
@[simp] theorem cntAdd_bolt (d : Dev) (off n : Nat) : (cntAdd d off n).bolt = d.bolt := rfl
@[simp] theorem cntAdd_oe (d : Dev) (off n : Nat) : (cntAdd d off n).oe = d.oe := rfl
@[simp] theorem cntAdd_pmc (d : Dev) (off n : Nat) : (cntAdd d off n).pmc = d.pmc := rfl

@[simp] theorem cntN_regs (d : Dev) (x : Src) (n k : Nat) : (cntN d x n k).regs = d.regs := rfl
@[simp] theorem cntN_loadBins (d : Dev) (x : Src) (n k : Nat) : (cntN d x n k).loadBins = d.loadBins := rfl
@[simp] theorem cntN_stage (d : Dev) (x : Src) (n k : Nat) : (cntN d x n k).stage = d.stage := rfl
@[simp] theorem cntN_snap (d : Dev) (x : Src) (n k : Nat) : (cntN d x n k).snap = d.snap := rfl
@[simp] theorem cntN_bar (d : Dev) (x : Src) (n k : Nat) : (cntN d x n k).bar = d.bar := rfl
@[simp] theorem cntN_now (d : Dev) (x : Src) (n k : Nat) : (cntN d x n k).now = d.now := rfl
@[simp] theorem cntN_draw (d : Dev) (x : Src) (n k : Nat) : (cntN d x n k).draw = d.draw := rfl
@[simp] theorem cntN_dmaOut (d : Dev) (x : Src) (n k : Nat) : (cntN d x n k).dmaOut = d.dmaOut := rfl
@[simp] theorem cntN_time (d : Dev) (x : Src) (n k : Nat) : (cntN d x n k).time = d.time := rfl
@[simp] theorem cntN_rel (d : Dev) (x : Src) (n k : Nat) : (cntN d x n k).rel = d.rel := rfl
@[simp] theorem cntN_host (d : Dev) (x : Src) (n k : Nat) : (cntN d x n k).host = d.host := rfl
@[simp] theorem cntN_pwr (d : Dev) (x : Src) (n k : Nat) : (cntN d x n k).pwr = d.pwr := rfl
@[simp] theorem cntN_fwd (d : Dev) (x : Src) (n k : Nat) : (cntN d x n k).fwd = d.fwd := rfl
@[simp] theorem cntN_sw (d : Dev) (x : Src) (n k : Nat) : (cntN d x n k).sw = d.sw := rfl
@[simp] theorem cntN_seams (d : Dev) (x : Src) (n k : Nat) : (cntN d x n k).seams = d.seams := rfl
@[simp] theorem cntN_rt (d : Dev) (x : Src) (n k : Nat) : (cntN d x n k).rt = d.rt := rfl
@[simp] theorem cntN_pol (d : Dev) (x : Src) (n k : Nat) : (cntN d x n k).pol = d.pol := rfl
@[simp] theorem cntN_lanes (d : Dev) (x : Src) (n k : Nat) : (cntN d x n k).lanes = d.lanes := rfl
@[simp] theorem cntN_mem (d : Dev) (x : Src) (n k : Nat) : (cntN d x n k).mem = d.mem := rfl
@[simp] theorem cntN_coll (d : Dev) (x : Src) (n k : Nat) : (cntN d x n k).coll = d.coll := rfl
@[simp] theorem cntN_opt (d : Dev) (x : Src) (n k : Nat) : (cntN d x n k).opt = d.opt := rfl
@[simp] theorem cntN_bolt (d : Dev) (x : Src) (n k : Nat) : (cntN d x n k).bolt = d.bolt := rfl
@[simp] theorem cntN_oe (d : Dev) (x : Src) (n k : Nat) : (cntN d x n k).oe = d.oe := rfl
@[simp] theorem cntN_pmc (d : Dev) (x : Src) (n k : Nat) : (cntN d x n k).pmc = d.pmc := rfl

@[simp] theorem cnt1_regs (d : Dev) (x : Src) (n : Nat) : (cnt1 d x n).regs = d.regs := rfl
@[simp] theorem cnt1_loadBins (d : Dev) (x : Src) (n : Nat) : (cnt1 d x n).loadBins = d.loadBins := rfl
@[simp] theorem cnt1_stage (d : Dev) (x : Src) (n : Nat) : (cnt1 d x n).stage = d.stage := rfl
@[simp] theorem cnt1_snap (d : Dev) (x : Src) (n : Nat) : (cnt1 d x n).snap = d.snap := rfl
@[simp] theorem cnt1_bar (d : Dev) (x : Src) (n : Nat) : (cnt1 d x n).bar = d.bar := rfl
@[simp] theorem cnt1_now (d : Dev) (x : Src) (n : Nat) : (cnt1 d x n).now = d.now := rfl
@[simp] theorem cnt1_draw (d : Dev) (x : Src) (n : Nat) : (cnt1 d x n).draw = d.draw := rfl
@[simp] theorem cnt1_dmaOut (d : Dev) (x : Src) (n : Nat) : (cnt1 d x n).dmaOut = d.dmaOut := rfl
@[simp] theorem cnt1_time (d : Dev) (x : Src) (n : Nat) : (cnt1 d x n).time = d.time := rfl
@[simp] theorem cnt1_rel (d : Dev) (x : Src) (n : Nat) : (cnt1 d x n).rel = d.rel := rfl
@[simp] theorem cnt1_host (d : Dev) (x : Src) (n : Nat) : (cnt1 d x n).host = d.host := rfl
@[simp] theorem cnt1_pwr (d : Dev) (x : Src) (n : Nat) : (cnt1 d x n).pwr = d.pwr := rfl
@[simp] theorem cnt1_fwd (d : Dev) (x : Src) (n : Nat) : (cnt1 d x n).fwd = d.fwd := rfl
@[simp] theorem cnt1_sw (d : Dev) (x : Src) (n : Nat) : (cnt1 d x n).sw = d.sw := rfl
@[simp] theorem cnt1_seams (d : Dev) (x : Src) (n : Nat) : (cnt1 d x n).seams = d.seams := rfl
@[simp] theorem cnt1_rt (d : Dev) (x : Src) (n : Nat) : (cnt1 d x n).rt = d.rt := rfl
@[simp] theorem cnt1_pol (d : Dev) (x : Src) (n : Nat) : (cnt1 d x n).pol = d.pol := rfl
@[simp] theorem cnt1_lanes (d : Dev) (x : Src) (n : Nat) : (cnt1 d x n).lanes = d.lanes := rfl
@[simp] theorem cnt1_mem (d : Dev) (x : Src) (n : Nat) : (cnt1 d x n).mem = d.mem := rfl
@[simp] theorem cnt1_coll (d : Dev) (x : Src) (n : Nat) : (cnt1 d x n).coll = d.coll := rfl
@[simp] theorem cnt1_opt (d : Dev) (x : Src) (n : Nat) : (cnt1 d x n).opt = d.opt := rfl
@[simp] theorem cnt1_bolt (d : Dev) (x : Src) (n : Nat) : (cnt1 d x n).bolt = d.bolt := rfl
@[simp] theorem cnt1_oe (d : Dev) (x : Src) (n : Nat) : (cnt1 d x n).oe = d.oe := rfl
@[simp] theorem cnt1_pmc (d : Dev) (x : Src) (n : Nat) : (cnt1 d x n).pmc = d.pmc := rfl

@[simp] theorem dmaWrite_regs (d : Dev) (a : Nat) (b : List Byte) : (dmaWrite d a b).regs = d.regs := by
  unfold dmaWrite; split <;> rfl
@[simp] theorem dmaWrite_cnt (d : Dev) (a : Nat) (b : List Byte) : (dmaWrite d a b).cnt = d.cnt := by
  unfold dmaWrite; split <;> rfl
@[simp] theorem dmaWrite_loadBins (d : Dev) (a : Nat) (b : List Byte) : (dmaWrite d a b).loadBins = d.loadBins := by
  unfold dmaWrite; split <;> rfl
@[simp] theorem dmaWrite_stage (d : Dev) (a : Nat) (b : List Byte) : (dmaWrite d a b).stage = d.stage := by
  unfold dmaWrite; split <;> rfl
@[simp] theorem dmaWrite_snap (d : Dev) (a : Nat) (b : List Byte) : (dmaWrite d a b).snap = d.snap := by
  unfold dmaWrite; split <;> rfl
@[simp] theorem dmaWrite_bar (d : Dev) (a : Nat) (b : List Byte) : (dmaWrite d a b).bar = d.bar := by
  unfold dmaWrite; split <;> rfl
@[simp] theorem dmaWrite_now (d : Dev) (a : Nat) (b : List Byte) : (dmaWrite d a b).now = d.now := by
  unfold dmaWrite; split <;> rfl
@[simp] theorem dmaWrite_draw (d : Dev) (a : Nat) (b : List Byte) : (dmaWrite d a b).draw = d.draw := by
  unfold dmaWrite; split <;> rfl
@[simp] theorem dmaWrite_time (d : Dev) (a : Nat) (b : List Byte) : (dmaWrite d a b).time = d.time := by
  unfold dmaWrite; split <;> rfl
@[simp] theorem dmaWrite_rel (d : Dev) (a : Nat) (b : List Byte) : (dmaWrite d a b).rel = d.rel := by
  unfold dmaWrite; split <;> rfl
@[simp] theorem dmaWrite_pwr (d : Dev) (a : Nat) (b : List Byte) : (dmaWrite d a b).pwr = d.pwr := by
  unfold dmaWrite; split <;> rfl
@[simp] theorem dmaWrite_fwd (d : Dev) (a : Nat) (b : List Byte) : (dmaWrite d a b).fwd = d.fwd := by
  unfold dmaWrite; split <;> rfl
@[simp] theorem dmaWrite_sw (d : Dev) (a : Nat) (b : List Byte) : (dmaWrite d a b).sw = d.sw := by
  unfold dmaWrite; split <;> rfl
@[simp] theorem dmaWrite_seams (d : Dev) (a : Nat) (b : List Byte) : (dmaWrite d a b).seams = d.seams := by
  unfold dmaWrite; split <;> rfl
@[simp] theorem dmaWrite_rt (d : Dev) (a : Nat) (b : List Byte) : (dmaWrite d a b).rt = d.rt := by
  unfold dmaWrite; split <;> rfl
@[simp] theorem dmaWrite_pol (d : Dev) (a : Nat) (b : List Byte) : (dmaWrite d a b).pol = d.pol := by
  unfold dmaWrite; split <;> rfl
@[simp] theorem dmaWrite_lanes (d : Dev) (a : Nat) (b : List Byte) : (dmaWrite d a b).lanes = d.lanes := by
  unfold dmaWrite; split <;> rfl
@[simp] theorem dmaWrite_mem (d : Dev) (a : Nat) (b : List Byte) : (dmaWrite d a b).mem = d.mem := by
  unfold dmaWrite; split <;> rfl
@[simp] theorem dmaWrite_coll (d : Dev) (a : Nat) (b : List Byte) : (dmaWrite d a b).coll = d.coll := by
  unfold dmaWrite; split <;> rfl
@[simp] theorem dmaWrite_opt (d : Dev) (a : Nat) (b : List Byte) : (dmaWrite d a b).opt = d.opt := by
  unfold dmaWrite; split <;> rfl
@[simp] theorem dmaWrite_bolt (d : Dev) (a : Nat) (b : List Byte) : (dmaWrite d a b).bolt = d.bolt := by
  unfold dmaWrite; split <;> rfl
@[simp] theorem dmaWrite_oe (d : Dev) (a : Nat) (b : List Byte) : (dmaWrite d a b).oe = d.oe := by
  unfold dmaWrite; split <;> rfl
@[simp] theorem dmaWrite_pmc (d : Dev) (a : Nat) (b : List Byte) : (dmaWrite d a b).pmc = d.pmc := by
  unfold dmaWrite; split <;> rfl

@[simp] theorem setRing_regs (d : Dev) (r : Nat) (x : RingSt) : (setRing d r x).regs = d.regs := rfl
@[simp] theorem setRing_cnt (d : Dev) (r : Nat) (x : RingSt) : (setRing d r x).cnt = d.cnt := rfl
@[simp] theorem setRing_loadBins (d : Dev) (r : Nat) (x : RingSt) : (setRing d r x).loadBins = d.loadBins := rfl
@[simp] theorem setRing_stage (d : Dev) (r : Nat) (x : RingSt) : (setRing d r x).stage = d.stage := rfl
@[simp] theorem setRing_snap (d : Dev) (r : Nat) (x : RingSt) : (setRing d r x).snap = d.snap := rfl
@[simp] theorem setRing_bar (d : Dev) (r : Nat) (x : RingSt) : (setRing d r x).bar = d.bar := rfl
@[simp] theorem setRing_now (d : Dev) (r : Nat) (x : RingSt) : (setRing d r x).now = d.now := rfl
@[simp] theorem setRing_draw (d : Dev) (r : Nat) (x : RingSt) : (setRing d r x).draw = d.draw := rfl
@[simp] theorem setRing_dmaOut (d : Dev) (r : Nat) (x : RingSt) : (setRing d r x).dmaOut = d.dmaOut := rfl
@[simp] theorem setRing_time (d : Dev) (r : Nat) (x : RingSt) : (setRing d r x).time = d.time := rfl
@[simp] theorem setRing_rel (d : Dev) (r : Nat) (x : RingSt) : (setRing d r x).rel = d.rel := rfl
@[simp] theorem setRing_pwr (d : Dev) (r : Nat) (x : RingSt) : (setRing d r x).pwr = d.pwr := rfl
@[simp] theorem setRing_fwd (d : Dev) (r : Nat) (x : RingSt) : (setRing d r x).fwd = d.fwd := rfl
@[simp] theorem setRing_sw (d : Dev) (r : Nat) (x : RingSt) : (setRing d r x).sw = d.sw := rfl
@[simp] theorem setRing_seams (d : Dev) (r : Nat) (x : RingSt) : (setRing d r x).seams = d.seams := rfl
@[simp] theorem setRing_rt (d : Dev) (r : Nat) (x : RingSt) : (setRing d r x).rt = d.rt := rfl
@[simp] theorem setRing_pol (d : Dev) (r : Nat) (x : RingSt) : (setRing d r x).pol = d.pol := rfl
@[simp] theorem setRing_lanes (d : Dev) (r : Nat) (x : RingSt) : (setRing d r x).lanes = d.lanes := rfl
@[simp] theorem setRing_mem (d : Dev) (r : Nat) (x : RingSt) : (setRing d r x).mem = d.mem := rfl
@[simp] theorem setRing_coll (d : Dev) (r : Nat) (x : RingSt) : (setRing d r x).coll = d.coll := rfl
@[simp] theorem setRing_opt (d : Dev) (r : Nat) (x : RingSt) : (setRing d r x).opt = d.opt := rfl
@[simp] theorem setRing_bolt (d : Dev) (r : Nat) (x : RingSt) : (setRing d r x).bolt = d.bolt := rfl
@[simp] theorem setRing_oe (d : Dev) (r : Nat) (x : RingSt) : (setRing d r x).oe = d.oe := rfl
@[simp] theorem setRing_pmc (d : Dev) (r : Nat) (x : RingSt) : (setRing d r x).pmc = d.pmc := rfl

@[simp] theorem setPv_regs (d : Dev) (p v : Nat) (x : Pv) : (setPv d p v x).regs = d.regs := rfl
@[simp] theorem setPv_cnt (d : Dev) (p v : Nat) (x : Pv) : (setPv d p v x).cnt = d.cnt := rfl
@[simp] theorem setPv_loadBins (d : Dev) (p v : Nat) (x : Pv) : (setPv d p v x).loadBins = d.loadBins := rfl
@[simp] theorem setPv_stage (d : Dev) (p v : Nat) (x : Pv) : (setPv d p v x).stage = d.stage := rfl
@[simp] theorem setPv_snap (d : Dev) (p v : Nat) (x : Pv) : (setPv d p v x).snap = d.snap := rfl
@[simp] theorem setPv_bar (d : Dev) (p v : Nat) (x : Pv) : (setPv d p v x).bar = d.bar := rfl
@[simp] theorem setPv_now (d : Dev) (p v : Nat) (x : Pv) : (setPv d p v x).now = d.now := rfl
@[simp] theorem setPv_draw (d : Dev) (p v : Nat) (x : Pv) : (setPv d p v x).draw = d.draw := rfl
@[simp] theorem setPv_dmaOut (d : Dev) (p v : Nat) (x : Pv) : (setPv d p v x).dmaOut = d.dmaOut := rfl
@[simp] theorem setPv_time (d : Dev) (p v : Nat) (x : Pv) : (setPv d p v x).time = d.time := rfl
@[simp] theorem setPv_rel (d : Dev) (p v : Nat) (x : Pv) : (setPv d p v x).rel = d.rel := rfl
@[simp] theorem setPv_host (d : Dev) (p v : Nat) (x : Pv) : (setPv d p v x).host = d.host := rfl
@[simp] theorem setPv_pwr (d : Dev) (p v : Nat) (x : Pv) : (setPv d p v x).pwr = d.pwr := rfl
@[simp] theorem setPv_fwd (d : Dev) (p v : Nat) (x : Pv) : (setPv d p v x).fwd = d.fwd := rfl
@[simp] theorem setPv_seams (d : Dev) (p v : Nat) (x : Pv) : (setPv d p v x).seams = d.seams := rfl
@[simp] theorem setPv_rt (d : Dev) (p v : Nat) (x : Pv) : (setPv d p v x).rt = d.rt := rfl
@[simp] theorem setPv_pol (d : Dev) (p v : Nat) (x : Pv) : (setPv d p v x).pol = d.pol := rfl
@[simp] theorem setPv_lanes (d : Dev) (p v : Nat) (x : Pv) : (setPv d p v x).lanes = d.lanes := rfl
@[simp] theorem setPv_mem (d : Dev) (p v : Nat) (x : Pv) : (setPv d p v x).mem = d.mem := rfl
@[simp] theorem setPv_coll (d : Dev) (p v : Nat) (x : Pv) : (setPv d p v x).coll = d.coll := rfl
@[simp] theorem setPv_opt (d : Dev) (p v : Nat) (x : Pv) : (setPv d p v x).opt = d.opt := rfl
@[simp] theorem setPv_bolt (d : Dev) (p v : Nat) (x : Pv) : (setPv d p v x).bolt = d.bolt := rfl
@[simp] theorem setPv_oe (d : Dev) (p v : Nat) (x : Pv) : (setPv d p v x).oe = d.oe := rfl
@[simp] theorem setPv_pmc (d : Dev) (p v : Nat) (x : Pv) : (setPv d p v x).pmc = d.pmc := rfl

@[simp] theorem setIng_regs (d : Dev) (x : Ing) : (setIng d x).regs = d.regs := rfl
@[simp] theorem setIng_cnt (d : Dev) (x : Ing) : (setIng d x).cnt = d.cnt := rfl
@[simp] theorem setIng_loadBins (d : Dev) (x : Ing) : (setIng d x).loadBins = d.loadBins := rfl
@[simp] theorem setIng_stage (d : Dev) (x : Ing) : (setIng d x).stage = d.stage := rfl
@[simp] theorem setIng_snap (d : Dev) (x : Ing) : (setIng d x).snap = d.snap := rfl
@[simp] theorem setIng_bar (d : Dev) (x : Ing) : (setIng d x).bar = d.bar := rfl
@[simp] theorem setIng_now (d : Dev) (x : Ing) : (setIng d x).now = d.now := rfl
@[simp] theorem setIng_draw (d : Dev) (x : Ing) : (setIng d x).draw = d.draw := rfl
@[simp] theorem setIng_dmaOut (d : Dev) (x : Ing) : (setIng d x).dmaOut = d.dmaOut := rfl
@[simp] theorem setIng_time (d : Dev) (x : Ing) : (setIng d x).time = d.time := rfl
@[simp] theorem setIng_rel (d : Dev) (x : Ing) : (setIng d x).rel = d.rel := rfl
@[simp] theorem setIng_host (d : Dev) (x : Ing) : (setIng d x).host = d.host := rfl
@[simp] theorem setIng_pwr (d : Dev) (x : Ing) : (setIng d x).pwr = d.pwr := rfl
@[simp] theorem setIng_fwd (d : Dev) (x : Ing) : (setIng d x).fwd = d.fwd := rfl
@[simp] theorem setIng_seams (d : Dev) (x : Ing) : (setIng d x).seams = d.seams := rfl
@[simp] theorem setIng_rt (d : Dev) (x : Ing) : (setIng d x).rt = d.rt := rfl
@[simp] theorem setIng_pol (d : Dev) (x : Ing) : (setIng d x).pol = d.pol := rfl
@[simp] theorem setIng_lanes (d : Dev) (x : Ing) : (setIng d x).lanes = d.lanes := rfl
@[simp] theorem setIng_mem (d : Dev) (x : Ing) : (setIng d x).mem = d.mem := rfl
@[simp] theorem setIng_coll (d : Dev) (x : Ing) : (setIng d x).coll = d.coll := rfl
@[simp] theorem setIng_opt (d : Dev) (x : Ing) : (setIng d x).opt = d.opt := rfl
@[simp] theorem setIng_bolt (d : Dev) (x : Ing) : (setIng d x).bolt = d.bolt := rfl
@[simp] theorem setIng_oe (d : Dev) (x : Ing) : (setIng d x).oe = d.oe := rfl
@[simp] theorem setIng_pmc (d : Dev) (x : Ing) : (setIng d x).pmc = d.pmc := rfl

@[simp] theorem setEgrQ_regs (d : Dev) (p v : Nat) (q : List Egr) : (setEgrQ d p v q).regs = d.regs := rfl
@[simp] theorem setEgrQ_cnt (d : Dev) (p v : Nat) (q : List Egr) : (setEgrQ d p v q).cnt = d.cnt := rfl
@[simp] theorem setEgrQ_loadBins (d : Dev) (p v : Nat) (q : List Egr) : (setEgrQ d p v q).loadBins = d.loadBins := rfl
@[simp] theorem setEgrQ_stage (d : Dev) (p v : Nat) (q : List Egr) : (setEgrQ d p v q).stage = d.stage := rfl
@[simp] theorem setEgrQ_snap (d : Dev) (p v : Nat) (q : List Egr) : (setEgrQ d p v q).snap = d.snap := rfl
@[simp] theorem setEgrQ_bar (d : Dev) (p v : Nat) (q : List Egr) : (setEgrQ d p v q).bar = d.bar := rfl
@[simp] theorem setEgrQ_now (d : Dev) (p v : Nat) (q : List Egr) : (setEgrQ d p v q).now = d.now := rfl
@[simp] theorem setEgrQ_draw (d : Dev) (p v : Nat) (q : List Egr) : (setEgrQ d p v q).draw = d.draw := rfl
@[simp] theorem setEgrQ_dmaOut (d : Dev) (p v : Nat) (q : List Egr) : (setEgrQ d p v q).dmaOut = d.dmaOut := rfl
@[simp] theorem setEgrQ_time (d : Dev) (p v : Nat) (q : List Egr) : (setEgrQ d p v q).time = d.time := rfl
@[simp] theorem setEgrQ_rel (d : Dev) (p v : Nat) (q : List Egr) : (setEgrQ d p v q).rel = d.rel := rfl
@[simp] theorem setEgrQ_host (d : Dev) (p v : Nat) (q : List Egr) : (setEgrQ d p v q).host = d.host := rfl
@[simp] theorem setEgrQ_pwr (d : Dev) (p v : Nat) (q : List Egr) : (setEgrQ d p v q).pwr = d.pwr := rfl
@[simp] theorem setEgrQ_fwd (d : Dev) (p v : Nat) (q : List Egr) : (setEgrQ d p v q).fwd = d.fwd := rfl
@[simp] theorem setEgrQ_seams (d : Dev) (p v : Nat) (q : List Egr) : (setEgrQ d p v q).seams = d.seams := rfl
@[simp] theorem setEgrQ_rt (d : Dev) (p v : Nat) (q : List Egr) : (setEgrQ d p v q).rt = d.rt := rfl
@[simp] theorem setEgrQ_pol (d : Dev) (p v : Nat) (q : List Egr) : (setEgrQ d p v q).pol = d.pol := rfl
@[simp] theorem setEgrQ_lanes (d : Dev) (p v : Nat) (q : List Egr) : (setEgrQ d p v q).lanes = d.lanes := rfl
@[simp] theorem setEgrQ_mem (d : Dev) (p v : Nat) (q : List Egr) : (setEgrQ d p v q).mem = d.mem := rfl
@[simp] theorem setEgrQ_coll (d : Dev) (p v : Nat) (q : List Egr) : (setEgrQ d p v q).coll = d.coll := rfl
@[simp] theorem setEgrQ_opt (d : Dev) (p v : Nat) (q : List Egr) : (setEgrQ d p v q).opt = d.opt := rfl
@[simp] theorem setEgrQ_bolt (d : Dev) (p v : Nat) (q : List Egr) : (setEgrQ d p v q).bolt = d.bolt := rfl
@[simp] theorem setEgrQ_oe (d : Dev) (p v : Nat) (q : List Egr) : (setEgrQ d p v q).oe = d.oe := rfl
@[simp] theorem setEgrQ_pmc (d : Dev) (p v : Nat) (q : List Egr) : (setEgrQ d p v q).pmc = d.pmc := rfl

@[simp] theorem setPart_regs (d : Dev) (p : Nat) (x : Part) : (setPart d p x).regs = d.regs := rfl
@[simp] theorem setPart_cnt (d : Dev) (p : Nat) (x : Part) : (setPart d p x).cnt = d.cnt := rfl
@[simp] theorem setPart_loadBins (d : Dev) (p : Nat) (x : Part) : (setPart d p x).loadBins = d.loadBins := rfl
@[simp] theorem setPart_stage (d : Dev) (p : Nat) (x : Part) : (setPart d p x).stage = d.stage := rfl
@[simp] theorem setPart_snap (d : Dev) (p : Nat) (x : Part) : (setPart d p x).snap = d.snap := rfl
@[simp] theorem setPart_bar (d : Dev) (p : Nat) (x : Part) : (setPart d p x).bar = d.bar := rfl
@[simp] theorem setPart_now (d : Dev) (p : Nat) (x : Part) : (setPart d p x).now = d.now := rfl
@[simp] theorem setPart_draw (d : Dev) (p : Nat) (x : Part) : (setPart d p x).draw = d.draw := rfl
@[simp] theorem setPart_dmaOut (d : Dev) (p : Nat) (x : Part) : (setPart d p x).dmaOut = d.dmaOut := rfl
@[simp] theorem setPart_time (d : Dev) (p : Nat) (x : Part) : (setPart d p x).time = d.time := rfl
@[simp] theorem setPart_rel (d : Dev) (p : Nat) (x : Part) : (setPart d p x).rel = d.rel := rfl
@[simp] theorem setPart_host (d : Dev) (p : Nat) (x : Part) : (setPart d p x).host = d.host := rfl
@[simp] theorem setPart_pwr (d : Dev) (p : Nat) (x : Part) : (setPart d p x).pwr = d.pwr := rfl
@[simp] theorem setPart_sw (d : Dev) (p : Nat) (x : Part) : (setPart d p x).sw = d.sw := rfl
@[simp] theorem setPart_seams (d : Dev) (p : Nat) (x : Part) : (setPart d p x).seams = d.seams := rfl
@[simp] theorem setPart_rt (d : Dev) (p : Nat) (x : Part) : (setPart d p x).rt = d.rt := rfl
@[simp] theorem setPart_pol (d : Dev) (p : Nat) (x : Part) : (setPart d p x).pol = d.pol := rfl
@[simp] theorem setPart_lanes (d : Dev) (p : Nat) (x : Part) : (setPart d p x).lanes = d.lanes := rfl
@[simp] theorem setPart_mem (d : Dev) (p : Nat) (x : Part) : (setPart d p x).mem = d.mem := rfl
@[simp] theorem setPart_coll (d : Dev) (p : Nat) (x : Part) : (setPart d p x).coll = d.coll := rfl
@[simp] theorem setPart_opt (d : Dev) (p : Nat) (x : Part) : (setPart d p x).opt = d.opt := rfl
@[simp] theorem setPart_bolt (d : Dev) (p : Nat) (x : Part) : (setPart d p x).bolt = d.bolt := rfl
@[simp] theorem setPart_oe (d : Dev) (p : Nat) (x : Part) : (setPart d p x).oe = d.oe := rfl
@[simp] theorem setPart_pmc (d : Dev) (p : Nat) (x : Part) : (setPart d p x).pmc = d.pmc := rfl

@[simp] theorem memWr_regs (d : Dev) (a : Nat) (b : List Byte) : (memWr d a b).regs = d.regs := rfl
@[simp] theorem memWr_cnt (d : Dev) (a : Nat) (b : List Byte) : (memWr d a b).cnt = d.cnt := rfl
@[simp] theorem memWr_loadBins (d : Dev) (a : Nat) (b : List Byte) : (memWr d a b).loadBins = d.loadBins := rfl
@[simp] theorem memWr_stage (d : Dev) (a : Nat) (b : List Byte) : (memWr d a b).stage = d.stage := rfl
@[simp] theorem memWr_snap (d : Dev) (a : Nat) (b : List Byte) : (memWr d a b).snap = d.snap := rfl
@[simp] theorem memWr_bar (d : Dev) (a : Nat) (b : List Byte) : (memWr d a b).bar = d.bar := rfl
@[simp] theorem memWr_now (d : Dev) (a : Nat) (b : List Byte) : (memWr d a b).now = d.now := rfl
@[simp] theorem memWr_draw (d : Dev) (a : Nat) (b : List Byte) : (memWr d a b).draw = d.draw := rfl
@[simp] theorem memWr_dmaOut (d : Dev) (a : Nat) (b : List Byte) : (memWr d a b).dmaOut = d.dmaOut := rfl
@[simp] theorem memWr_time (d : Dev) (a : Nat) (b : List Byte) : (memWr d a b).time = d.time := rfl
@[simp] theorem memWr_rel (d : Dev) (a : Nat) (b : List Byte) : (memWr d a b).rel = d.rel := rfl
@[simp] theorem memWr_host (d : Dev) (a : Nat) (b : List Byte) : (memWr d a b).host = d.host := rfl
@[simp] theorem memWr_pwr (d : Dev) (a : Nat) (b : List Byte) : (memWr d a b).pwr = d.pwr := rfl
@[simp] theorem memWr_fwd (d : Dev) (a : Nat) (b : List Byte) : (memWr d a b).fwd = d.fwd := rfl
@[simp] theorem memWr_sw (d : Dev) (a : Nat) (b : List Byte) : (memWr d a b).sw = d.sw := rfl
@[simp] theorem memWr_seams (d : Dev) (a : Nat) (b : List Byte) : (memWr d a b).seams = d.seams := rfl
@[simp] theorem memWr_rt (d : Dev) (a : Nat) (b : List Byte) : (memWr d a b).rt = d.rt := rfl
@[simp] theorem memWr_pol (d : Dev) (a : Nat) (b : List Byte) : (memWr d a b).pol = d.pol := rfl
@[simp] theorem memWr_lanes (d : Dev) (a : Nat) (b : List Byte) : (memWr d a b).lanes = d.lanes := rfl
@[simp] theorem memWr_coll (d : Dev) (a : Nat) (b : List Byte) : (memWr d a b).coll = d.coll := rfl
@[simp] theorem memWr_opt (d : Dev) (a : Nat) (b : List Byte) : (memWr d a b).opt = d.opt := rfl
@[simp] theorem memWr_bolt (d : Dev) (a : Nat) (b : List Byte) : (memWr d a b).bolt = d.bolt := rfl
@[simp] theorem memWr_oe (d : Dev) (a : Nat) (b : List Byte) : (memWr d a b).oe = d.oe := rfl
@[simp] theorem memWr_pmc (d : Dev) (a : Nat) (b : List Byte) : (memWr d a b).pmc = d.pmc := rfl

@[simp] theorem memZero_regs (d : Dev) (a n : Nat) : (memZero d a n).regs = d.regs := rfl
@[simp] theorem memZero_cnt (d : Dev) (a n : Nat) : (memZero d a n).cnt = d.cnt := rfl
@[simp] theorem memZero_loadBins (d : Dev) (a n : Nat) : (memZero d a n).loadBins = d.loadBins := rfl
@[simp] theorem memZero_stage (d : Dev) (a n : Nat) : (memZero d a n).stage = d.stage := rfl
@[simp] theorem memZero_snap (d : Dev) (a n : Nat) : (memZero d a n).snap = d.snap := rfl
@[simp] theorem memZero_bar (d : Dev) (a n : Nat) : (memZero d a n).bar = d.bar := rfl
@[simp] theorem memZero_now (d : Dev) (a n : Nat) : (memZero d a n).now = d.now := rfl
@[simp] theorem memZero_draw (d : Dev) (a n : Nat) : (memZero d a n).draw = d.draw := rfl
@[simp] theorem memZero_dmaOut (d : Dev) (a n : Nat) : (memZero d a n).dmaOut = d.dmaOut := rfl
@[simp] theorem memZero_time (d : Dev) (a n : Nat) : (memZero d a n).time = d.time := rfl
@[simp] theorem memZero_rel (d : Dev) (a n : Nat) : (memZero d a n).rel = d.rel := rfl
@[simp] theorem memZero_host (d : Dev) (a n : Nat) : (memZero d a n).host = d.host := rfl
@[simp] theorem memZero_pwr (d : Dev) (a n : Nat) : (memZero d a n).pwr = d.pwr := rfl
@[simp] theorem memZero_fwd (d : Dev) (a n : Nat) : (memZero d a n).fwd = d.fwd := rfl
@[simp] theorem memZero_sw (d : Dev) (a n : Nat) : (memZero d a n).sw = d.sw := rfl
@[simp] theorem memZero_seams (d : Dev) (a n : Nat) : (memZero d a n).seams = d.seams := rfl
@[simp] theorem memZero_rt (d : Dev) (a n : Nat) : (memZero d a n).rt = d.rt := rfl
@[simp] theorem memZero_pol (d : Dev) (a n : Nat) : (memZero d a n).pol = d.pol := rfl
@[simp] theorem memZero_lanes (d : Dev) (a n : Nat) : (memZero d a n).lanes = d.lanes := rfl
@[simp] theorem memZero_coll (d : Dev) (a n : Nat) : (memZero d a n).coll = d.coll := rfl
@[simp] theorem memZero_opt (d : Dev) (a n : Nat) : (memZero d a n).opt = d.opt := rfl
@[simp] theorem memZero_bolt (d : Dev) (a n : Nat) : (memZero d a n).bolt = d.bolt := rfl
@[simp] theorem memZero_oe (d : Dev) (a n : Nat) : (memZero d a n).oe = d.oe := rfl
@[simp] theorem memZero_pmc (d : Dev) (a n : Nat) : (memZero d a n).pmc = d.pmc := rfl

@[simp] theorem poisonAt_regs (d : Dev) (a n : Nat) : (poisonAt d a n).regs = d.regs := rfl
@[simp] theorem poisonAt_cnt (d : Dev) (a n : Nat) : (poisonAt d a n).cnt = d.cnt := rfl
@[simp] theorem poisonAt_loadBins (d : Dev) (a n : Nat) : (poisonAt d a n).loadBins = d.loadBins := rfl
@[simp] theorem poisonAt_stage (d : Dev) (a n : Nat) : (poisonAt d a n).stage = d.stage := rfl
@[simp] theorem poisonAt_snap (d : Dev) (a n : Nat) : (poisonAt d a n).snap = d.snap := rfl
@[simp] theorem poisonAt_bar (d : Dev) (a n : Nat) : (poisonAt d a n).bar = d.bar := rfl
@[simp] theorem poisonAt_now (d : Dev) (a n : Nat) : (poisonAt d a n).now = d.now := rfl
@[simp] theorem poisonAt_draw (d : Dev) (a n : Nat) : (poisonAt d a n).draw = d.draw := rfl
@[simp] theorem poisonAt_dmaOut (d : Dev) (a n : Nat) : (poisonAt d a n).dmaOut = d.dmaOut := rfl
@[simp] theorem poisonAt_time (d : Dev) (a n : Nat) : (poisonAt d a n).time = d.time := rfl
@[simp] theorem poisonAt_rel (d : Dev) (a n : Nat) : (poisonAt d a n).rel = d.rel := rfl
@[simp] theorem poisonAt_host (d : Dev) (a n : Nat) : (poisonAt d a n).host = d.host := rfl
@[simp] theorem poisonAt_pwr (d : Dev) (a n : Nat) : (poisonAt d a n).pwr = d.pwr := rfl
@[simp] theorem poisonAt_fwd (d : Dev) (a n : Nat) : (poisonAt d a n).fwd = d.fwd := rfl
@[simp] theorem poisonAt_sw (d : Dev) (a n : Nat) : (poisonAt d a n).sw = d.sw := rfl
@[simp] theorem poisonAt_seams (d : Dev) (a n : Nat) : (poisonAt d a n).seams = d.seams := rfl
@[simp] theorem poisonAt_rt (d : Dev) (a n : Nat) : (poisonAt d a n).rt = d.rt := rfl
@[simp] theorem poisonAt_pol (d : Dev) (a n : Nat) : (poisonAt d a n).pol = d.pol := rfl
@[simp] theorem poisonAt_lanes (d : Dev) (a n : Nat) : (poisonAt d a n).lanes = d.lanes := rfl
@[simp] theorem poisonAt_coll (d : Dev) (a n : Nat) : (poisonAt d a n).coll = d.coll := rfl
@[simp] theorem poisonAt_opt (d : Dev) (a n : Nat) : (poisonAt d a n).opt = d.opt := rfl
@[simp] theorem poisonAt_bolt (d : Dev) (a n : Nat) : (poisonAt d a n).bolt = d.bolt := rfl
@[simp] theorem poisonAt_oe (d : Dev) (a n : Nat) : (poisonAt d a n).oe = d.oe := rfl
@[simp] theorem poisonAt_pmc (d : Dev) (a n : Nat) : (poisonAt d a n).pmc = d.pmc := rfl

@[simp] theorem launchFlight_regs (d : Dev) (t chan plane age : Nat) (l : Load) (ds : List Nat) : (launchFlight d t chan plane age l ds).regs = d.regs := rfl
@[simp] theorem launchFlight_cnt (d : Dev) (t chan plane age : Nat) (l : Load) (ds : List Nat) : (launchFlight d t chan plane age l ds).cnt = d.cnt := rfl
@[simp] theorem launchFlight_loadBins (d : Dev) (t chan plane age : Nat) (l : Load) (ds : List Nat) : (launchFlight d t chan plane age l ds).loadBins = d.loadBins := rfl
@[simp] theorem launchFlight_stage (d : Dev) (t chan plane age : Nat) (l : Load) (ds : List Nat) : (launchFlight d t chan plane age l ds).stage = d.stage := rfl
@[simp] theorem launchFlight_snap (d : Dev) (t chan plane age : Nat) (l : Load) (ds : List Nat) : (launchFlight d t chan plane age l ds).snap = d.snap := rfl
@[simp] theorem launchFlight_bar (d : Dev) (t chan plane age : Nat) (l : Load) (ds : List Nat) : (launchFlight d t chan plane age l ds).bar = d.bar := rfl
@[simp] theorem launchFlight_now (d : Dev) (t chan plane age : Nat) (l : Load) (ds : List Nat) : (launchFlight d t chan plane age l ds).now = d.now := rfl
@[simp] theorem launchFlight_draw (d : Dev) (t chan plane age : Nat) (l : Load) (ds : List Nat) : (launchFlight d t chan plane age l ds).draw = d.draw := rfl
@[simp] theorem launchFlight_dmaOut (d : Dev) (t chan plane age : Nat) (l : Load) (ds : List Nat) : (launchFlight d t chan plane age l ds).dmaOut = d.dmaOut := rfl
@[simp] theorem launchFlight_time (d : Dev) (t chan plane age : Nat) (l : Load) (ds : List Nat) : (launchFlight d t chan plane age l ds).time = d.time := rfl
@[simp] theorem launchFlight_rel (d : Dev) (t chan plane age : Nat) (l : Load) (ds : List Nat) : (launchFlight d t chan plane age l ds).rel = d.rel := rfl
@[simp] theorem launchFlight_host (d : Dev) (t chan plane age : Nat) (l : Load) (ds : List Nat) : (launchFlight d t chan plane age l ds).host = d.host := rfl
@[simp] theorem launchFlight_pwr (d : Dev) (t chan plane age : Nat) (l : Load) (ds : List Nat) : (launchFlight d t chan plane age l ds).pwr = d.pwr := rfl
@[simp] theorem launchFlight_fwd (d : Dev) (t chan plane age : Nat) (l : Load) (ds : List Nat) : (launchFlight d t chan plane age l ds).fwd = d.fwd := rfl
@[simp] theorem launchFlight_seams (d : Dev) (t chan plane age : Nat) (l : Load) (ds : List Nat) : (launchFlight d t chan plane age l ds).seams = d.seams := rfl
@[simp] theorem launchFlight_rt (d : Dev) (t chan plane age : Nat) (l : Load) (ds : List Nat) : (launchFlight d t chan plane age l ds).rt = d.rt := rfl
@[simp] theorem launchFlight_pol (d : Dev) (t chan plane age : Nat) (l : Load) (ds : List Nat) : (launchFlight d t chan plane age l ds).pol = d.pol := rfl
@[simp] theorem launchFlight_lanes (d : Dev) (t chan plane age : Nat) (l : Load) (ds : List Nat) : (launchFlight d t chan plane age l ds).lanes = d.lanes := rfl
@[simp] theorem launchFlight_mem (d : Dev) (t chan plane age : Nat) (l : Load) (ds : List Nat) : (launchFlight d t chan plane age l ds).mem = d.mem := rfl
@[simp] theorem launchFlight_coll (d : Dev) (t chan plane age : Nat) (l : Load) (ds : List Nat) : (launchFlight d t chan plane age l ds).coll = d.coll := rfl
@[simp] theorem launchFlight_opt (d : Dev) (t chan plane age : Nat) (l : Load) (ds : List Nat) : (launchFlight d t chan plane age l ds).opt = d.opt := rfl
@[simp] theorem launchFlight_bolt (d : Dev) (t chan plane age : Nat) (l : Load) (ds : List Nat) : (launchFlight d t chan plane age l ds).bolt = d.bolt := rfl
@[simp] theorem launchFlight_oe (d : Dev) (t chan plane age : Nat) (l : Load) (ds : List Nat) : (launchFlight d t chan plane age l ds).oe = d.oe := rfl
@[simp] theorem launchFlight_pmc (d : Dev) (t chan plane age : Nat) (l : Load) (ds : List Nat) : (launchFlight d t chan plane age l ds).pmc = d.pmc := rfl

@[simp] theorem setCtx_regs (d : Dev) (k : Nat) (c : Ctx) : (setCtx d k c).regs = d.regs := rfl
@[simp] theorem setCtx_cnt (d : Dev) (k : Nat) (c : Ctx) : (setCtx d k c).cnt = d.cnt := rfl
@[simp] theorem setCtx_loadBins (d : Dev) (k : Nat) (c : Ctx) : (setCtx d k c).loadBins = d.loadBins := rfl
@[simp] theorem setCtx_stage (d : Dev) (k : Nat) (c : Ctx) : (setCtx d k c).stage = d.stage := rfl
@[simp] theorem setCtx_snap (d : Dev) (k : Nat) (c : Ctx) : (setCtx d k c).snap = d.snap := rfl
@[simp] theorem setCtx_bar (d : Dev) (k : Nat) (c : Ctx) : (setCtx d k c).bar = d.bar := rfl
@[simp] theorem setCtx_now (d : Dev) (k : Nat) (c : Ctx) : (setCtx d k c).now = d.now := rfl
@[simp] theorem setCtx_draw (d : Dev) (k : Nat) (c : Ctx) : (setCtx d k c).draw = d.draw := rfl
@[simp] theorem setCtx_dmaOut (d : Dev) (k : Nat) (c : Ctx) : (setCtx d k c).dmaOut = d.dmaOut := rfl
@[simp] theorem setCtx_time (d : Dev) (k : Nat) (c : Ctx) : (setCtx d k c).time = d.time := rfl
@[simp] theorem setCtx_rel (d : Dev) (k : Nat) (c : Ctx) : (setCtx d k c).rel = d.rel := rfl
@[simp] theorem setCtx_host (d : Dev) (k : Nat) (c : Ctx) : (setCtx d k c).host = d.host := rfl
@[simp] theorem setCtx_pwr (d : Dev) (k : Nat) (c : Ctx) : (setCtx d k c).pwr = d.pwr := rfl
@[simp] theorem setCtx_fwd (d : Dev) (k : Nat) (c : Ctx) : (setCtx d k c).fwd = d.fwd := rfl
@[simp] theorem setCtx_sw (d : Dev) (k : Nat) (c : Ctx) : (setCtx d k c).sw = d.sw := rfl
@[simp] theorem setCtx_seams (d : Dev) (k : Nat) (c : Ctx) : (setCtx d k c).seams = d.seams := rfl
@[simp] theorem setCtx_rt (d : Dev) (k : Nat) (c : Ctx) : (setCtx d k c).rt = d.rt := rfl
@[simp] theorem setCtx_pol (d : Dev) (k : Nat) (c : Ctx) : (setCtx d k c).pol = d.pol := rfl
@[simp] theorem setCtx_lanes (d : Dev) (k : Nat) (c : Ctx) : (setCtx d k c).lanes = d.lanes := rfl
@[simp] theorem setCtx_mem (d : Dev) (k : Nat) (c : Ctx) : (setCtx d k c).mem = d.mem := rfl
@[simp] theorem setCtx_opt (d : Dev) (k : Nat) (c : Ctx) : (setCtx d k c).opt = d.opt := rfl
@[simp] theorem setCtx_bolt (d : Dev) (k : Nat) (c : Ctx) : (setCtx d k c).bolt = d.bolt := rfl
@[simp] theorem setCtx_oe (d : Dev) (k : Nat) (c : Ctx) : (setCtx d k c).oe = d.oe := rfl
@[simp] theorem setCtx_pmc (d : Dev) (k : Nat) (c : Ctx) : (setCtx d k c).pmc = d.pmc := rfl

@[simp] theorem setShard_regs (d : Dev) (k : Nat) (x : Shard) : (setShard d k x).regs = d.regs := rfl
@[simp] theorem setShard_cnt (d : Dev) (k : Nat) (x : Shard) : (setShard d k x).cnt = d.cnt := rfl
@[simp] theorem setShard_loadBins (d : Dev) (k : Nat) (x : Shard) : (setShard d k x).loadBins = d.loadBins := rfl
@[simp] theorem setShard_stage (d : Dev) (k : Nat) (x : Shard) : (setShard d k x).stage = d.stage := rfl
@[simp] theorem setShard_snap (d : Dev) (k : Nat) (x : Shard) : (setShard d k x).snap = d.snap := rfl
@[simp] theorem setShard_bar (d : Dev) (k : Nat) (x : Shard) : (setShard d k x).bar = d.bar := rfl
@[simp] theorem setShard_now (d : Dev) (k : Nat) (x : Shard) : (setShard d k x).now = d.now := rfl
@[simp] theorem setShard_draw (d : Dev) (k : Nat) (x : Shard) : (setShard d k x).draw = d.draw := rfl
@[simp] theorem setShard_dmaOut (d : Dev) (k : Nat) (x : Shard) : (setShard d k x).dmaOut = d.dmaOut := rfl
@[simp] theorem setShard_time (d : Dev) (k : Nat) (x : Shard) : (setShard d k x).time = d.time := rfl
@[simp] theorem setShard_rel (d : Dev) (k : Nat) (x : Shard) : (setShard d k x).rel = d.rel := rfl
@[simp] theorem setShard_host (d : Dev) (k : Nat) (x : Shard) : (setShard d k x).host = d.host := rfl
@[simp] theorem setShard_pwr (d : Dev) (k : Nat) (x : Shard) : (setShard d k x).pwr = d.pwr := rfl
@[simp] theorem setShard_fwd (d : Dev) (k : Nat) (x : Shard) : (setShard d k x).fwd = d.fwd := rfl
@[simp] theorem setShard_sw (d : Dev) (k : Nat) (x : Shard) : (setShard d k x).sw = d.sw := rfl
@[simp] theorem setShard_seams (d : Dev) (k : Nat) (x : Shard) : (setShard d k x).seams = d.seams := rfl
@[simp] theorem setShard_rt (d : Dev) (k : Nat) (x : Shard) : (setShard d k x).rt = d.rt := rfl
@[simp] theorem setShard_pol (d : Dev) (k : Nat) (x : Shard) : (setShard d k x).pol = d.pol := rfl
@[simp] theorem setShard_lanes (d : Dev) (k : Nat) (x : Shard) : (setShard d k x).lanes = d.lanes := rfl
@[simp] theorem setShard_mem (d : Dev) (k : Nat) (x : Shard) : (setShard d k x).mem = d.mem := rfl
@[simp] theorem setShard_coll (d : Dev) (k : Nat) (x : Shard) : (setShard d k x).coll = d.coll := rfl
@[simp] theorem setShard_bolt (d : Dev) (k : Nat) (x : Shard) : (setShard d k x).bolt = d.bolt := rfl
@[simp] theorem setShard_oe (d : Dev) (k : Nat) (x : Shard) : (setShard d k x).oe = d.oe := rfl
@[simp] theorem setShard_pmc (d : Dev) (k : Nat) (x : Shard) : (setShard d k x).pmc = d.pmc := rfl

@[simp] theorem setGrid_regs (d : Dev) (x : Grid) : (setGrid d x).regs = d.regs := rfl
@[simp] theorem setGrid_cnt (d : Dev) (x : Grid) : (setGrid d x).cnt = d.cnt := rfl
@[simp] theorem setGrid_loadBins (d : Dev) (x : Grid) : (setGrid d x).loadBins = d.loadBins := rfl
@[simp] theorem setGrid_stage (d : Dev) (x : Grid) : (setGrid d x).stage = d.stage := rfl
@[simp] theorem setGrid_snap (d : Dev) (x : Grid) : (setGrid d x).snap = d.snap := rfl
@[simp] theorem setGrid_bar (d : Dev) (x : Grid) : (setGrid d x).bar = d.bar := rfl
@[simp] theorem setGrid_now (d : Dev) (x : Grid) : (setGrid d x).now = d.now := rfl
@[simp] theorem setGrid_draw (d : Dev) (x : Grid) : (setGrid d x).draw = d.draw := rfl
@[simp] theorem setGrid_dmaOut (d : Dev) (x : Grid) : (setGrid d x).dmaOut = d.dmaOut := rfl
@[simp] theorem setGrid_time (d : Dev) (x : Grid) : (setGrid d x).time = d.time := rfl
@[simp] theorem setGrid_rel (d : Dev) (x : Grid) : (setGrid d x).rel = d.rel := rfl
@[simp] theorem setGrid_host (d : Dev) (x : Grid) : (setGrid d x).host = d.host := rfl
@[simp] theorem setGrid_pwr (d : Dev) (x : Grid) : (setGrid d x).pwr = d.pwr := rfl
@[simp] theorem setGrid_fwd (d : Dev) (x : Grid) : (setGrid d x).fwd = d.fwd := rfl
@[simp] theorem setGrid_sw (d : Dev) (x : Grid) : (setGrid d x).sw = d.sw := rfl
@[simp] theorem setGrid_seams (d : Dev) (x : Grid) : (setGrid d x).seams = d.seams := rfl
@[simp] theorem setGrid_rt (d : Dev) (x : Grid) : (setGrid d x).rt = d.rt := rfl
@[simp] theorem setGrid_pol (d : Dev) (x : Grid) : (setGrid d x).pol = d.pol := rfl
@[simp] theorem setGrid_lanes (d : Dev) (x : Grid) : (setGrid d x).lanes = d.lanes := rfl
@[simp] theorem setGrid_mem (d : Dev) (x : Grid) : (setGrid d x).mem = d.mem := rfl
@[simp] theorem setGrid_coll (d : Dev) (x : Grid) : (setGrid d x).coll = d.coll := rfl
@[simp] theorem setGrid_bolt (d : Dev) (x : Grid) : (setGrid d x).bolt = d.bolt := rfl
@[simp] theorem setGrid_oe (d : Dev) (x : Grid) : (setGrid d x).oe = d.oe := rfl
@[simp] theorem setGrid_pmc (d : Dev) (x : Grid) : (setGrid d x).pmc = d.pmc := rfl

@[simp] theorem setSeam_regs (d : Dev) (die link : Nat) (x : Seam) : (setSeam d die link x).regs = d.regs := rfl
@[simp] theorem setSeam_cnt (d : Dev) (die link : Nat) (x : Seam) : (setSeam d die link x).cnt = d.cnt := rfl
@[simp] theorem setSeam_loadBins (d : Dev) (die link : Nat) (x : Seam) : (setSeam d die link x).loadBins = d.loadBins := rfl
@[simp] theorem setSeam_stage (d : Dev) (die link : Nat) (x : Seam) : (setSeam d die link x).stage = d.stage := rfl
@[simp] theorem setSeam_snap (d : Dev) (die link : Nat) (x : Seam) : (setSeam d die link x).snap = d.snap := rfl
@[simp] theorem setSeam_bar (d : Dev) (die link : Nat) (x : Seam) : (setSeam d die link x).bar = d.bar := rfl
@[simp] theorem setSeam_now (d : Dev) (die link : Nat) (x : Seam) : (setSeam d die link x).now = d.now := rfl
@[simp] theorem setSeam_draw (d : Dev) (die link : Nat) (x : Seam) : (setSeam d die link x).draw = d.draw := rfl
@[simp] theorem setSeam_dmaOut (d : Dev) (die link : Nat) (x : Seam) : (setSeam d die link x).dmaOut = d.dmaOut := rfl
@[simp] theorem setSeam_time (d : Dev) (die link : Nat) (x : Seam) : (setSeam d die link x).time = d.time := rfl
@[simp] theorem setSeam_rel (d : Dev) (die link : Nat) (x : Seam) : (setSeam d die link x).rel = d.rel := rfl
@[simp] theorem setSeam_host (d : Dev) (die link : Nat) (x : Seam) : (setSeam d die link x).host = d.host := rfl
@[simp] theorem setSeam_pwr (d : Dev) (die link : Nat) (x : Seam) : (setSeam d die link x).pwr = d.pwr := rfl
@[simp] theorem setSeam_fwd (d : Dev) (die link : Nat) (x : Seam) : (setSeam d die link x).fwd = d.fwd := rfl
@[simp] theorem setSeam_sw (d : Dev) (die link : Nat) (x : Seam) : (setSeam d die link x).sw = d.sw := rfl
@[simp] theorem setSeam_rt (d : Dev) (die link : Nat) (x : Seam) : (setSeam d die link x).rt = d.rt := rfl
@[simp] theorem setSeam_pol (d : Dev) (die link : Nat) (x : Seam) : (setSeam d die link x).pol = d.pol := rfl
@[simp] theorem setSeam_lanes (d : Dev) (die link : Nat) (x : Seam) : (setSeam d die link x).lanes = d.lanes := rfl
@[simp] theorem setSeam_mem (d : Dev) (die link : Nat) (x : Seam) : (setSeam d die link x).mem = d.mem := rfl
@[simp] theorem setSeam_coll (d : Dev) (die link : Nat) (x : Seam) : (setSeam d die link x).coll = d.coll := rfl
@[simp] theorem setSeam_opt (d : Dev) (die link : Nat) (x : Seam) : (setSeam d die link x).opt = d.opt := rfl
@[simp] theorem setSeam_bolt (d : Dev) (die link : Nat) (x : Seam) : (setSeam d die link x).bolt = d.bolt := rfl
@[simp] theorem setSeam_oe (d : Dev) (die link : Nat) (x : Seam) : (setSeam d die link x).oe = d.oe := rfl
@[simp] theorem setSeam_pmc (d : Dev) (die link : Nat) (x : Seam) : (setSeam d die link x).pmc = d.pmc := rfl

@[simp] theorem setRingLock_regs (d : Dev) (n : Nat) (tx : Bool) (f c : Nat) (x : RingLock) : (setRingLock d n tx f c x).regs = d.regs := rfl
@[simp] theorem setRingLock_cnt (d : Dev) (n : Nat) (tx : Bool) (f c : Nat) (x : RingLock) : (setRingLock d n tx f c x).cnt = d.cnt := rfl
@[simp] theorem setRingLock_loadBins (d : Dev) (n : Nat) (tx : Bool) (f c : Nat) (x : RingLock) : (setRingLock d n tx f c x).loadBins = d.loadBins := rfl
@[simp] theorem setRingLock_stage (d : Dev) (n : Nat) (tx : Bool) (f c : Nat) (x : RingLock) : (setRingLock d n tx f c x).stage = d.stage := rfl
@[simp] theorem setRingLock_snap (d : Dev) (n : Nat) (tx : Bool) (f c : Nat) (x : RingLock) : (setRingLock d n tx f c x).snap = d.snap := rfl
@[simp] theorem setRingLock_bar (d : Dev) (n : Nat) (tx : Bool) (f c : Nat) (x : RingLock) : (setRingLock d n tx f c x).bar = d.bar := rfl
@[simp] theorem setRingLock_now (d : Dev) (n : Nat) (tx : Bool) (f c : Nat) (x : RingLock) : (setRingLock d n tx f c x).now = d.now := rfl
@[simp] theorem setRingLock_draw (d : Dev) (n : Nat) (tx : Bool) (f c : Nat) (x : RingLock) : (setRingLock d n tx f c x).draw = d.draw := rfl
@[simp] theorem setRingLock_dmaOut (d : Dev) (n : Nat) (tx : Bool) (f c : Nat) (x : RingLock) : (setRingLock d n tx f c x).dmaOut = d.dmaOut := rfl
@[simp] theorem setRingLock_time (d : Dev) (n : Nat) (tx : Bool) (f c : Nat) (x : RingLock) : (setRingLock d n tx f c x).time = d.time := rfl
@[simp] theorem setRingLock_rel (d : Dev) (n : Nat) (tx : Bool) (f c : Nat) (x : RingLock) : (setRingLock d n tx f c x).rel = d.rel := rfl
@[simp] theorem setRingLock_host (d : Dev) (n : Nat) (tx : Bool) (f c : Nat) (x : RingLock) : (setRingLock d n tx f c x).host = d.host := rfl
@[simp] theorem setRingLock_pwr (d : Dev) (n : Nat) (tx : Bool) (f c : Nat) (x : RingLock) : (setRingLock d n tx f c x).pwr = d.pwr := rfl
@[simp] theorem setRingLock_fwd (d : Dev) (n : Nat) (tx : Bool) (f c : Nat) (x : RingLock) : (setRingLock d n tx f c x).fwd = d.fwd := rfl
@[simp] theorem setRingLock_sw (d : Dev) (n : Nat) (tx : Bool) (f c : Nat) (x : RingLock) : (setRingLock d n tx f c x).sw = d.sw := rfl
@[simp] theorem setRingLock_seams (d : Dev) (n : Nat) (tx : Bool) (f c : Nat) (x : RingLock) : (setRingLock d n tx f c x).seams = d.seams := rfl
@[simp] theorem setRingLock_rt (d : Dev) (n : Nat) (tx : Bool) (f c : Nat) (x : RingLock) : (setRingLock d n tx f c x).rt = d.rt := rfl
@[simp] theorem setRingLock_pol (d : Dev) (n : Nat) (tx : Bool) (f c : Nat) (x : RingLock) : (setRingLock d n tx f c x).pol = d.pol := rfl
@[simp] theorem setRingLock_lanes (d : Dev) (n : Nat) (tx : Bool) (f c : Nat) (x : RingLock) : (setRingLock d n tx f c x).lanes = d.lanes := rfl
@[simp] theorem setRingLock_mem (d : Dev) (n : Nat) (tx : Bool) (f c : Nat) (x : RingLock) : (setRingLock d n tx f c x).mem = d.mem := rfl
@[simp] theorem setRingLock_coll (d : Dev) (n : Nat) (tx : Bool) (f c : Nat) (x : RingLock) : (setRingLock d n tx f c x).coll = d.coll := rfl
@[simp] theorem setRingLock_opt (d : Dev) (n : Nat) (tx : Bool) (f c : Nat) (x : RingLock) : (setRingLock d n tx f c x).opt = d.opt := rfl
@[simp] theorem setRingLock_bolt (d : Dev) (n : Nat) (tx : Bool) (f c : Nat) (x : RingLock) : (setRingLock d n tx f c x).bolt = d.bolt := rfl
@[simp] theorem setRingLock_pmc (d : Dev) (n : Nat) (tx : Bool) (f c : Nat) (x : RingLock) : (setRingLock d n tx f c x).pmc = d.pmc := rfl

@[simp] theorem setFeed_regs (d : Dev) (n g : Nat) (x : Feed) : (setFeed d n g x).regs = d.regs := rfl
@[simp] theorem setFeed_cnt (d : Dev) (n g : Nat) (x : Feed) : (setFeed d n g x).cnt = d.cnt := rfl
@[simp] theorem setFeed_loadBins (d : Dev) (n g : Nat) (x : Feed) : (setFeed d n g x).loadBins = d.loadBins := rfl
@[simp] theorem setFeed_stage (d : Dev) (n g : Nat) (x : Feed) : (setFeed d n g x).stage = d.stage := rfl
@[simp] theorem setFeed_snap (d : Dev) (n g : Nat) (x : Feed) : (setFeed d n g x).snap = d.snap := rfl
@[simp] theorem setFeed_bar (d : Dev) (n g : Nat) (x : Feed) : (setFeed d n g x).bar = d.bar := rfl
@[simp] theorem setFeed_now (d : Dev) (n g : Nat) (x : Feed) : (setFeed d n g x).now = d.now := rfl
@[simp] theorem setFeed_draw (d : Dev) (n g : Nat) (x : Feed) : (setFeed d n g x).draw = d.draw := rfl
@[simp] theorem setFeed_dmaOut (d : Dev) (n g : Nat) (x : Feed) : (setFeed d n g x).dmaOut = d.dmaOut := rfl
@[simp] theorem setFeed_time (d : Dev) (n g : Nat) (x : Feed) : (setFeed d n g x).time = d.time := rfl
@[simp] theorem setFeed_rel (d : Dev) (n g : Nat) (x : Feed) : (setFeed d n g x).rel = d.rel := rfl
@[simp] theorem setFeed_host (d : Dev) (n g : Nat) (x : Feed) : (setFeed d n g x).host = d.host := rfl
@[simp] theorem setFeed_pwr (d : Dev) (n g : Nat) (x : Feed) : (setFeed d n g x).pwr = d.pwr := rfl
@[simp] theorem setFeed_fwd (d : Dev) (n g : Nat) (x : Feed) : (setFeed d n g x).fwd = d.fwd := rfl
@[simp] theorem setFeed_sw (d : Dev) (n g : Nat) (x : Feed) : (setFeed d n g x).sw = d.sw := rfl
@[simp] theorem setFeed_seams (d : Dev) (n g : Nat) (x : Feed) : (setFeed d n g x).seams = d.seams := rfl
@[simp] theorem setFeed_rt (d : Dev) (n g : Nat) (x : Feed) : (setFeed d n g x).rt = d.rt := rfl
@[simp] theorem setFeed_pol (d : Dev) (n g : Nat) (x : Feed) : (setFeed d n g x).pol = d.pol := rfl
@[simp] theorem setFeed_lanes (d : Dev) (n g : Nat) (x : Feed) : (setFeed d n g x).lanes = d.lanes := rfl
@[simp] theorem setFeed_mem (d : Dev) (n g : Nat) (x : Feed) : (setFeed d n g x).mem = d.mem := rfl
@[simp] theorem setFeed_coll (d : Dev) (n g : Nat) (x : Feed) : (setFeed d n g x).coll = d.coll := rfl
@[simp] theorem setFeed_opt (d : Dev) (n g : Nat) (x : Feed) : (setFeed d n g x).opt = d.opt := rfl
@[simp] theorem setFeed_bolt (d : Dev) (n g : Nat) (x : Feed) : (setFeed d n g x).bolt = d.bolt := rfl
@[simp] theorem setFeed_pmc (d : Dev) (n g : Nat) (x : Feed) : (setFeed d n g x).pmc = d.pmc := rfl

@[simp] theorem setLane_regs (d : Dev) (l : Nat) (x : LaneSt) : (setLane d l x).regs = d.regs := rfl
@[simp] theorem setLane_cnt (d : Dev) (l : Nat) (x : LaneSt) : (setLane d l x).cnt = d.cnt := rfl
@[simp] theorem setLane_loadBins (d : Dev) (l : Nat) (x : LaneSt) : (setLane d l x).loadBins = d.loadBins := rfl
@[simp] theorem setLane_stage (d : Dev) (l : Nat) (x : LaneSt) : (setLane d l x).stage = d.stage := rfl
@[simp] theorem setLane_snap (d : Dev) (l : Nat) (x : LaneSt) : (setLane d l x).snap = d.snap := rfl
@[simp] theorem setLane_bar (d : Dev) (l : Nat) (x : LaneSt) : (setLane d l x).bar = d.bar := rfl
@[simp] theorem setLane_now (d : Dev) (l : Nat) (x : LaneSt) : (setLane d l x).now = d.now := rfl
@[simp] theorem setLane_draw (d : Dev) (l : Nat) (x : LaneSt) : (setLane d l x).draw = d.draw := rfl
@[simp] theorem setLane_dmaOut (d : Dev) (l : Nat) (x : LaneSt) : (setLane d l x).dmaOut = d.dmaOut := rfl
@[simp] theorem setLane_time (d : Dev) (l : Nat) (x : LaneSt) : (setLane d l x).time = d.time := rfl
@[simp] theorem setLane_rel (d : Dev) (l : Nat) (x : LaneSt) : (setLane d l x).rel = d.rel := rfl
@[simp] theorem setLane_host (d : Dev) (l : Nat) (x : LaneSt) : (setLane d l x).host = d.host := rfl
@[simp] theorem setLane_pwr (d : Dev) (l : Nat) (x : LaneSt) : (setLane d l x).pwr = d.pwr := rfl
@[simp] theorem setLane_fwd (d : Dev) (l : Nat) (x : LaneSt) : (setLane d l x).fwd = d.fwd := rfl
@[simp] theorem setLane_sw (d : Dev) (l : Nat) (x : LaneSt) : (setLane d l x).sw = d.sw := rfl
@[simp] theorem setLane_seams (d : Dev) (l : Nat) (x : LaneSt) : (setLane d l x).seams = d.seams := rfl
@[simp] theorem setLane_rt (d : Dev) (l : Nat) (x : LaneSt) : (setLane d l x).rt = d.rt := rfl
@[simp] theorem setLane_pol (d : Dev) (l : Nat) (x : LaneSt) : (setLane d l x).pol = d.pol := rfl
@[simp] theorem setLane_mem (d : Dev) (l : Nat) (x : LaneSt) : (setLane d l x).mem = d.mem := rfl
@[simp] theorem setLane_coll (d : Dev) (l : Nat) (x : LaneSt) : (setLane d l x).coll = d.coll := rfl
@[simp] theorem setLane_opt (d : Dev) (l : Nat) (x : LaneSt) : (setLane d l x).opt = d.opt := rfl
@[simp] theorem setLane_bolt (d : Dev) (l : Nat) (x : LaneSt) : (setLane d l x).bolt = d.bolt := rfl
@[simp] theorem setLane_oe (d : Dev) (l : Nat) (x : LaneSt) : (setLane d l x).oe = d.oe := rfl
@[simp] theorem setLane_pmc (d : Dev) (l : Nat) (x : LaneSt) : (setLane d l x).pmc = d.pmc := rfl

/-! ### Registers -/

theorem rowReset_lt (r : Reg) : rowReset (regRow r) < 4294967296 := by cases r <;> decide

/-- Reading a register just stored gives the value stored, as a 32-bit word. -/
@[simp] theorem rd_wr_same (d : Dev) (r : Reg) (ix : List Nat) (v : Nat) : rd (wr d r ix v) r ix = v % 4294967296 := by
  have h : (w32 v).toNat = v % 4294967296 := by simp [w32]
  simp only [rd, wr, tget?_tput, if_true]
  by_cases hv : w32 v = w32 (rowReset (regRow r))
  · have h2 : (w32 (rowReset (regRow r))).toNat = rowReset (regRow r) := by
      simp only [w32, BitVec.toNat_ofNat]; exact Nat.mod_eq_of_lt (rowReset_lt r)
    simp only [hv, if_true]; rw [← h, hv, h2]
  · simp only [hv, if_false]; exact h

/-- A register at another offset reads as before. -/
theorem rd_wr_other (d : Dev) {r r' : Reg} {ix ix' : List Nat} (v : Nat) (h : regAddr r ix ≠ regAddr r' ix') :
    rd (wr d r ix v) r' ix' = rd d r' ix' := by
  simp [rd, wr, tget?_tput, h]

theorem rd_wrf_other (d : Dev) {r r' : Reg} {ix ix' : List Nat} (m l v : Nat) (h : regAddr r ix ≠ regAddr r' ix') :
    rd (wrf d r ix m l v) r' ix' = rd d r' ix' := rd_wr_other d _ h

/-- Registers read alike in two devices whose register files are equal. -/
theorem rd_congr {d e : Dev} (h : e.regs = d.regs) (r : Reg) (ix : List Nat) : rd e r ix = rd d r ix := by
  simp [rd, h]

@[simp] theorem rd_cntAdd (d : Dev) (off n : Nat) (r : Reg) (ix : List Nat) : rd (cntAdd d off n) r ix = rd d r ix := rfl
@[simp] theorem rd_cntN (d : Dev) (x : Src) (n k : Nat) (r : Reg) (ix : List Nat) : rd (cntN d x n k) r ix = rd d r ix := rfl
@[simp] theorem rd_cnt1 (d : Dev) (x : Src) (n : Nat) (r : Reg) (ix : List Nat) : rd (cnt1 d x n) r ix = rd d r ix := rfl

/-! ### Counters -/

/-- A counter just added to holds the sum modulo 2^48; every other counter is as before. -/
theorem cntAt_cntAdd (d : Dev) (off n o : Nat) :
    cntAt (cntAdd d off n) o = if off = o then cntAt d off + BitVec.ofNat 48 n else cntAt d o := by
  simp [cntAt, cntAdd]

@[simp] theorem cntAt_wr (d : Dev) (r : Reg) (ix : List Nat) (v o : Nat) : cntAt (wr d r ix v) o = cntAt d o := rfl
@[simp] theorem cntAt_stSet (d : Dev) (x : Src) (b o : Nat) : cntAt (stSet d x b) o = cntAt d o := rfl

/-! ### What an update stored -/

theorem partOf_setPart (d : Dev) (p q : Nat) (x : Part) : partOf (setPart d p x) q = if p = q then x else partOf d q := by
  simp [partOf, setPart]

theorem egrQ_setEgrQ (d : Dev) (p v : Nat) (q : List Egr) : egrQ (setEgrQ d p v q) p v = q := by
  simp [egrQ, setEgrQ]

theorem pvSt_setPv (d : Dev) (p v : Nat) (x : Pv) : pvSt (setPv d p v x) p v = x := by
  simp [pvSt, setPv]

theorem ringSt_setRing (d : Dev) (r s : Nat) (x : RingSt) :
    ringSt (setRing d r x) s = if r = s then x else ringSt d s := by
  simp [ringSt, setRing]

theorem ctxOf_setCtx (d : Dev) (k j : Nat) (c : Ctx) : ctxOf (setCtx d k c) j = if k = j then some c else ctxOf d j := by
  simp [ctxOf, setCtx]

theorem shardOf_setShard (d : Dev) (k j : Nat) (x : Shard) :
    shardOf (setShard d k x) j = if k = j then some x else shardOf d j := by
  simp [shardOf, setShard]

theorem ringLock_setRingLock (d : Dev) (n : Nat) (tx : Bool) (f c : Nat) (x : RingLock) :
    ringLock (setRingLock d n tx f c x) n tx f c = x := by
  simp [ringLock, setRingLock]

/-! ### Memory requests -/

/-- A memory request changes only the requests under way, the mesh and the draw of free values. -/
theorem issue_frame (d : Dev) (op : Nat) (r : MemReq) :
    issue d op r = { d with mem := (issue d op r).mem, sw := (issue d op r).sw, draw := (issue d op r).draw } := by
  unfold issue freePlane; split
  · rfl
  · dsimp only; split <;> rfl

end Sys2Proof.Machine
end

