-- ==== Sys2Proof/Laws/Flags.lean ====
section
/-! SUPPORT. Everything that counting, reporting and completing can change, said once. -/
namespace Sys2Proof.Machine

/-- `e` is `d` but for counters, the reliability state, free values drawn, the management port's transmit buffer
and the registers at the offsets `A`. -/
def Reports (A : List Nat) (d e : Dev) : Prop :=
  ∃ regs cnt rel draw tx seq,
    e = { d with regs := regs, cnt := cnt, rel := rel, draw := draw,
                 host := { d.host with mgmtTx := tx, seq := seq } } ∧
    ∀ a, a ∉ A → tget? regs a = tget? d.regs a

theorem Reports.refl (A : List Nat) (d : Dev) : Reports A d d := ⟨_, _, _, _, _, _, rfl, fun _ _ => rfl⟩

theorem Reports.trans {A : List Nat} {d e f : Dev} (h : Reports A d e) (k : Reports A e f) : Reports A d f := by
  obtain ⟨_, _, _, _, _, _, rfl, h2⟩ := h
  obtain ⟨_, _, _, _, _, _, rfl, k2⟩ := k
  exact ⟨_, _, _, _, _, _, rfl, fun a ha => (k2 a ha).trans (h2 a ha)⟩

theorem Reports.mono {A B : List Nat} {d e : Dev} (h : Reports A d e) (hs : ∀ a ∈ A, a ∈ B) : Reports B d e := by
  obtain ⟨_, _, _, _, _, _, rfl, h2⟩ := h
  exact ⟨_, _, _, _, _, _, rfl, fun a ha => h2 a (fun hb => ha (hs a hb))⟩

/-- A register outside the offsets reads as before. -/
theorem Reports.rd {A : List Nat} {d e : Dev} (h : Reports A d e) {r : Reg} {ix : List Nat} (ha : regAddr r ix ∉ A) :
    rd e r ix = rd d r ix := by
  obtain ⟨_, _, _, _, _, _, rfl, h2⟩ := h
  simp [Machine.rd, h2 _ ha]

theorem Reports.sw {A : List Nat} {d e : Dev} (h : Reports A d e) : e.sw = d.sw := by
  obtain ⟨_, _, _, _, _, _, rfl, _⟩ := h; rfl
theorem Reports.fwd {A : List Nat} {d e : Dev} (h : Reports A d e) : e.fwd = d.fwd := by
  obtain ⟨_, _, _, _, _, _, rfl, _⟩ := h; rfl
theorem Reports.mem {A : List Nat} {d e : Dev} (h : Reports A d e) : e.mem = d.mem := by
  obtain ⟨_, _, _, _, _, _, rfl, _⟩ := h; rfl
theorem Reports.pwr {A : List Nat} {d e : Dev} (h : Reports A d e) : e.pwr = d.pwr := by
  obtain ⟨_, _, _, _, _, _, rfl, _⟩ := h; rfl
theorem Reports.dmaOut {A : List Nat} {d e : Dev} (h : Reports A d e) : e.dmaOut = d.dmaOut := by
  obtain ⟨_, _, _, _, _, _, rfl, _⟩ := h; rfl

/-- The status registers that a report itself may set: HIF_STATUS and REL_STATUS. -/
def reportRegs : List Nat := [regAddr .hifStatus [], regAddr .relStatus []]

theorem reports_cntN (A : List Nat) (d : Dev) (x : Src) (n k : Nat) : Reports A d (cntN d x n k) :=
  ⟨_, _, _, _, _, _, rfl, fun _ _ => rfl⟩

theorem reports_stSet {A : List Nat} (d : Dev) (x : Src) (b : Nat) (h : regAddr x.st x.ix ∈ A) :
    Reports A d (stSet d x b) :=
  ⟨_, _, _, _, _, _, rfl, fun a ha => by
    have hn : regAddr x.st x.ix ≠ a := by rintro rfl; exact ha h
    simp only [tget?_tput, if_neg hn]⟩

/-- A count and a sticky status bit of the host interface or of reliability. -/
theorem reports_count {d : Dev} {x : Src} {n b : Nat} (h : regAddr x.st x.ix ∈ reportRegs) :
    Reports reportRegs d (stSet (cnt1 d x n) x b) :=
  (reports_cntN _ d x n 1).trans (reports_stSet _ x b h)

theorem reports_rel (A : List Nat) (d : Dev) (r : RelState) : Reports A d { d with rel := r } :=
  ⟨_, _, _, _, _, _, rfl, fun _ _ => rfl⟩

theorem reports_storePush (d : Dev) (e : Event) : Reports reportRegs d (storePush d e) := by
  unfold storePush; split
  · exact reports_rel ..
  · exact (reports_count (d := d) (x := srcHif 0) (by decide)).trans (reports_rel ..)

theorem reports_mgmtPush (A : List Nat) (d : Dev) (t : Nat) (b : List Byte) : Reports A d (mgmtPush d t b).2 := by
  unfold mgmtPush; dsimp only; split
  · exact ⟨_, _, _, _, _, _, rfl, fun _ _ => rfl⟩
  · exact .refl ..

theorem reports_rewriteRecord (A : List Nat) (d : Dev) (old new : Event) : Reports A d (rewriteRecord d old new) :=
  ⟨_, _, _, _, _, _, rfl, fun _ _ => rfl⟩

theorem reports_coalesce (A : List Nat) (d : Dev) (e : Event) : Reports A d (coalesce d e).2 := by
  unfold coalesce; dsimp only
  repeat' split
  all_goals first | exact reports_rel .. | exact (reports_rel ..).trans (reports_rewriteRecord ..)

theorem reports_record0 (d : Dev) (e : Event) : Reports reportRegs d (record0 d e) := by
  unfold record0; dsimp only
  refine (reports_storePush d e).trans ?_
  split
  · split
    · exact reports_mgmtPush ..
    · exact (reports_mgmtPush ..).trans (reports_count (by decide))
  · exact .refl ..

theorem reports_emit0 (d : Dev) (code die unit : Nat) (args : List (Nat × Nat)) :
    Reports reportRegs d (emit0 d code die unit args) := by
  unfold emit0; dsimp only
  have hd : Reports reportRegs d { d with draw := d.draw + 1 } := ⟨_, _, _, _, _, _, rfl, fun _ _ => rfl⟩
  refine (hd.trans (reports_coalesce _ _ (mkEvent d code die unit args []))).trans ?_
  split
  · exact reports_record0 ..
  · exact .refl ..

theorem reports_recordOut (d : Dev) (e : Event) : Reports reportRegs d (recordOut d e) := by
  unfold recordOut; dsimp only
  generalize hx : (if rdb d .mgmtCtl [] 31 = true then _ else d : Dev) = x
  have h1 : Reports reportRegs d x := by
    rw [← hx]; split
    · split
      · exact reports_mgmtPush ..
      · exact ((reports_mgmtPush ..).trans (reports_count (by decide))).trans (reports_emit0 ..)
    · exact .refl ..
  refine h1.trans ?_
  split
  · split
    · exact reports_rel ..
    · exact ((reports_rel ..).trans (reports_count (by decide))).trans (reports_emit0 ..)
  · exact .refl ..

theorem reports_record (d : Dev) (e : Event) : Reports reportRegs d (record d e) :=
  (reports_storePush d e).trans (reports_recordOut ..)

/-- Everything that raising an event can change. -/
theorem reports_event (d : Dev) (code die unit : Nat) (args : List (Nat × Nat)) (lanes : List Nat) :
    Reports reportRegs d (event d code die unit args lanes) := by
  unfold event; dsimp only
  have hd : Reports reportRegs d { d with draw := d.draw + 1 } := ⟨_, _, _, _, _, _, rfl, fun _ _ => rfl⟩
  refine (hd.trans (reports_coalesce _ _ (mkEvent d code die unit args lanes))).trans ?_
  split
  · exact reports_record ..
  · exact .refl ..

/-- Everything that counting, setting a status bit and raising an event can change. -/
theorem reports_raise (d : Dev) (x : Src) (n : Nat) (args : List (Nat × Nat)) (lanes : List Nat) :
    Reports (regAddr x.st x.ix :: reportRegs) d (raise d x n args lanes) := by
  unfold raise raiseAt
  refine ((reports_cntN _ d x n 1).trans (reports_stSet _ x n (by simp))).trans ?_
  exact (reports_event ..).mono (fun a ha => List.mem_cons_of_mem _ ha)

/-! ### Injection marks -/

/-- With no injection waiting at a detector nothing is taken. -/
theorem takeMark_none {d : Dev} {id die unit : Nat} (h : (takeMark d id die unit).1 = none) :
    takeMark d id die unit = (none, d) := by
  unfold takeMark at *; dsimp only at *; split at h
  · simp at h
  · rfl

/-! ### Completions -/

/-- `e` is `d` but for registers, the host interface and the record of writes to host memory. -/
def Completes (d e : Dev) : Prop := ∃ regs host out, e = { d with regs := regs, host := host, dmaOut := out }

theorem Completes.refl (d : Dev) : Completes d d := ⟨_, _, _, rfl⟩

theorem Completes.trans {d e f : Dev} (h : Completes d e) (k : Completes e f) : Completes d f := by
  obtain ⟨_, _, _, rfl⟩ := h
  obtain ⟨_, _, _, rfl⟩ := k
  exact ⟨_, _, _, rfl⟩

theorem completes_wr (d : Dev) (r : Reg) (ix : List Nat) (v : Nat) : Completes d (wr d r ix v) := ⟨_, _, _, rfl⟩
theorem completes_setRing (d : Dev) (r : Nat) (x : RingSt) : Completes d (setRing d r x) := ⟨_, _, _, rfl⟩
theorem completes_dmaWrite (d : Dev) (a : Nat) (b : List Byte) : Completes d (dmaWrite d a b) := by
  unfold dmaWrite; split <;> exact ⟨_, _, _, rfl⟩

theorem completes_wrWords (n : Nat) (d : Dev) (r : Reg) (ix : List Nat) (k : Nat) (b : List Byte) :
    Completes d (wrWords d r ix n k b) := by
  induction n generalizing d k b with
  | zero => exact .refl d
  | succ n ih => exact (completes_wr ..).trans (ih ..)

theorem completes_setProd (d : Dev) (r v : Nat) : Completes d (setProd d r v) := by
  unfold setProd; split <;> exact completes_wr ..

theorem completes_raiseVec (d : Dev) (v : Nat) : Completes d (raiseVec d v) := by
  unfold raiseVec; dsimp only
  repeat' split
  all_goals exact ⟨_, _, _, rfl⟩

theorem completes_writeBack (d : Dev) (r v : Nat) : Completes d (writeBack d r v) := completes_dmaWrite ..

/-- Everything that writing an entry to a ring can change. -/
theorem completes_ringWrite (d : Dev) (r : Nat) (e : List Byte) : Completes d (ringWrite d r e) := by
  have h (a : Nat) (b : List Byte) (p : Nat) (x : RingSt) :
      Completes d (writeBack (setRing (setProd (dmaWrite d a b) r p) r x) r p) :=
    (((completes_dmaWrite d a b).trans (completes_setProd ..)).trans (completes_setRing ..)).trans (completes_writeBack ..)
  unfold ringWrite; dsimp only
  repeat' split
  all_goals first | exact h .. | exact (h ..).trans (completes_raiseVec ..)

theorem completes_ringPush (d : Dev) (r : Nat) (e : List Byte) : Completes d (ringPush d r e) := by
  unfold ringPush; split
  · exact completes_ringWrite ..
  · exact completes_setRing ..

/-- Everything that completing a command can change. -/
theorem completes_complete (d : Dev) (rp : Reply) (st : Nat) (r b : List Byte) : Completes d (complete d rp st r b) := by
  unfold complete; split
  · dsimp only; split
    · exact ((completes_setRing ..).trans (completes_setRing ..)).trans (completes_ringPush ..)
    · exact .refl d
  · exact (completes_wrWords ..).trans (completes_wr ..)
  · exact ⟨_, _, _, rfl⟩

end Sys2Proof.Machine
end

