-- ==== Sys2Proof/Laws/Mem.lean ====
section
/-! SUPPORT. Every operation over stacked memory keeps the canonical form, a read finds the bytes last written,
and every other byte reads as before. -/
namespace Sys2Proof.Machine

@[simp] theorem memory_wf_reset : Memory.wf State.reset.dev.mem.bytes = true := rfl

theorem memWr_wf {d : Dev} (h : Memory.wf d.mem.bytes = true) (a : Nat) (b : List Byte) :
    Memory.wf (memWr d a b).mem.bytes = true := tabWf_twrite b h a

theorem memZero_wf {d : Dev} (h : Memory.wf d.mem.bytes = true) (a n : Nat) :
    Memory.wf (memZero d a n).mem.bytes = true := tabWf_filter _ h

@[simp] theorem poisonAt_bytes (d : Dev) (a n : Nat) : (poisonAt d a n).mem.bytes = d.mem.bytes := rfl

/-- Reading a range just written gives the bytes written. -/
theorem memRd_memWr (d : Dev) (a : Nat) (b : List Byte) : memRd (memWr d a b) a b.length = b := tread_twrite 0 b _ a

/-- A byte outside a range just written reads as before. -/
theorem byte_memWr_other (d : Dev) (a : Nat) (b : List Byte) {k : Nat} (h : k < a ∨ a + b.length ≤ k) :
    tgetD (memWr d a b).mem.bytes k 0 = tgetD d.mem.bytes k 0 := by
  simp only [memWr, tgetD_twrite]; rw [if_neg (by omega)]

/-- A stack that loses its contents leaves the canonical form. -/
theorem filter_bytes_wf {d : Dev} (h : Memory.wf d.mem.bytes = true) (p : Nat × Byte → Bool) :
    Memory.wf (d.mem.bytes.filter p) = true := tabWf_filter p h

end Sys2Proof.Machine
end

