-- ==== Sys2Proof/Laws/Ops.lean ====
section
/-! SUPPORT. What the operations over host memory, command headers and shared cells do, said once each. -/
namespace Sys2Proof.Machine

/-- Taking an injection changes the reliability state alone. -/
theorem takeMark_frame (d : Dev) (id die unit : Nat) : ∃ r, (takeMark d id die unit).2 = { d with rel := r } := by
  unfold takeMark; dsimp only; split <;> exact ⟨_, rfl⟩

/-- A read of host memory that no injection meets answers its bytes and changes nothing. -/
theorem dmaGet_ok {d : Dev} (h : (takeMark d 0x20 0 0).1 = none) (b : List Byte) :
    dmaGet d (.ok b) = (some b, d) := by
  unfold dmaGet; rw [takeMark_none h]

/-- A failed read of host memory is counted and reported. -/
theorem dmaGet_fails {d : Dev} (h : (takeMark d 0x20 0 0).1 = none) (r : DmaRead) (hr : ∀ b, r ≠ .ok b) :
    dmaGet d r = (none, dmaFail d) := by
  unfold dmaGet; rw [takeMark_none h]
  cases r with
  | ok b => exact absurd rfl (hr b)
  | _ => rfl

/-- A block command whose block is read, no injection meeting the read: its parameters, or BAD_PARAM. -/
theorem withBlock_ok {α : Type} {d : Dev} (h : (takeMark d 0x20 0 0).1 = none) (parse : List Byte → Option α)
    (b : List Byte) (f : α → Dev → Reply → Dev) (rp : Reply) :
    withBlock parse (.ok b) f d rp =
      match parse b with | none => refuseGen d rp 0x09 | some x => f x d rp := by
  cases hp : parse b <;> simp only [withBlock, dmaGet_ok h, hp]

/-- A block command whose read fails. -/
theorem withBlock_fails {α : Type} {d : Dev} (h : (takeMark d 0x20 0 0).1 = none) (parse : List Byte → Option α)
    (r : DmaRead) (hr : ∀ b, r ≠ .ok b) (f : α → Dev → Reply → Dev) (rp : Reply) :
    withBlock parse r f d rp = refuseDma (dmaFail d) rp := by
  simp only [withBlock, dmaGet_fails h r hr]

/-- Claiming shared cells changes the switch core alone. -/
theorem claimCells_frame (n : Nat) (d : Dev) (p v : Nat) : ∃ sw, claimCells n d p v = { d with sw := sw } := by
  induction n generalizing d with
  | zero => exact ⟨d.sw, rfl⟩
  | succ n ih =>
    unfold claimCells; split
    · exact (ih (setPv d p v _)).imp fun _ h => h
    · exact ⟨d.sw, rfl⟩

/-- Freeing shared cells changes the switch core alone. -/
theorem freeShared_frame (n : Nat) (d : Dev) (p v : Nat) : ∃ sw, freeShared n d p v = { d with sw := sw } := by
  induction n generalizing d with
  | zero => exact ⟨d.sw, rfl⟩
  | succ n ih =>
    unfold freeShared; dsimp only; split
    · exact (ih (setPv d p v _)).imp fun _ h => h
    · exact (ih (setPv d p v _)).imp fun _ h => h

/-- Everything that refusing a command under the general checks can change. -/
theorem refuseGen_frame (d : Dev) (rp : Reply) (st : Nat) :
    ∃ e, Reports (regAddr Reg.hifStatus [] :: reportRegs) d e ∧ Completes e (refuseGen d rp st) := by
  refine ⟨cmdErr d rp, ?_, completes_complete ..⟩
  exact reports_raise d (srcHif _) 3 _ _

end Sys2Proof.Machine
end

