-- ==== Sys2Proof/Laws/Step.lean ====
section
/-! SUPPORT. What a step can do, said once: every command changes the device under a condition that no tripped device
meets, except the two that act after a thermal trip too, and the stacked-memory commands, which may fault. -/
namespace Sys2Proof.Machine

/-- A change of the device that a tripped device does not make. -/
def Guarded (f : State → Host.Outcome State Fault Refusal) : Prop :=
  ∃ p g, (∀ d : Dev, d.pwr.tripped = true → p d = false) ∧ f = actWhen p g

theorem guarded_act (g : Dev → Dev) : Guarded (act g) := ⟨_, g, fun _ => serves_of_tripped, rfl⟩
theorem guarded_actBar (off : Nat) (g : Dev → Dev) : Guarded (actBar off g) :=
  ⟨_, g, fun _ h => barOn_of_tripped h off, rfl⟩
theorem guarded_actPins (g : Dev → Dev) : Guarded (actPins g) := ⟨_, g, fun _ => powered_of_tripped, rfl⟩

theorem shape_act {o : Host.Outcome State Fault Refusal} {s : State} {g : Dev → Dev} (h : o = act g s) :
    ∃ f, Guarded f ∧ o = f s := ⟨_, guarded_act g, h⟩
theorem shape_actBar {o : Host.Outcome State Fault Refusal} {s : State} {off : Nat} {g : Dev → Dev}
    (h : o = actBar off g s) : ∃ f, Guarded f ∧ o = f s := ⟨_, guarded_actBar off g, h⟩
theorem shape_actPins {o : Host.Outcome State Fault Refusal} {s : State} {g : Dev → Dev} (h : o = actPins g s) :
    ∃ f, Guarded f ∧ o = f s := ⟨_, guarded_actPins g, h⟩

theorem shape_elsAlert (m : Fin 8) (a : BitVec 16) (s : State) :
    ∃ f, Guarded f ∧ execElsAlert m a s = f s := shape_act (by unfold execElsAlert; rfl)
theorem shape_patrolFull (s : State) : ∃ f, Guarded f ∧ execPatrolFull s = f s :=
  shape_actBar (by unfold execPatrolFull; rfl)

theorem shape_laneRetrain (l : Fin 512) (v : Word) (s : State) : ∃ f, Guarded f ∧ execLaneRetrain l v s = f s :=
  shape_actBar (by unfold execLaneRetrain; rfl)

/-- The three shapes of `exec`. -/
theorem exec_shape (c : Instr) (s : State) :
    (∃ f, Guarded f ∧ exec c s = f s) ∨
    (∃ f, exec c s = actAlways f s ∧ (c = .porAssert ∨ ∃ r, c = .brownout r)) ∨
    (∃ op q f, exec c s = memApply op q f s ∧ memReqOf c = some q) := by
  cases c
  case memRead => exact .inr (.inr ⟨_, _, _, rfl, rfl⟩)
  case memWrite => exact .inr (.inr ⟨_, _, _, rfl, rfl⟩)
  case redF32 => exact .inr (.inr ⟨_, _, _, rfl, rfl⟩)
  case redBf16 => exact .inr (.inr ⟨_, _, _, rfl, rfl⟩)
  case redBf16w => exact .inr (.inr ⟨_, _, _, rfl, rfl⟩)
  case redI32 => exact .inr (.inr ⟨_, _, _, rfl, rfl⟩)
  case redI64 => exact .inr (.inr ⟨_, _, _, rfl, rfl⟩)
  case addF32 => exact .inr (.inr ⟨_, _, _, rfl, rfl⟩)
  case addBf16 => exact .inr (.inr ⟨_, _, _, rfl, rfl⟩)
  case addI32 => exact .inr (.inr ⟨_, _, _, rfl, rfl⟩)
  case addI64 => exact .inr (.inr ⟨_, _, _, rfl, rfl⟩)
  case cnt => exact .inr (.inr ⟨_, _, _, rfl, rfl⟩)
  case rdclr => exact .inr (.inr ⟨_, _, _, rfl, rfl⟩)
  case porAssert => exact .inr (.inl ⟨_, rfl, .inl rfl⟩)
  case brownout => exact .inr (.inl ⟨_, rfl, .inr ⟨_, rfl⟩⟩)
  case elsAlert => exact .inl (shape_elsAlert _ _ s)
  case laneRetrain => exact .inl (shape_laneRetrain _ _ s)
  case patrolFull => exact .inl (shape_patrolFull s)
  all_goals apply Or.inl
  all_goals first
    | exact ⟨_, guarded_act _, rfl⟩
    | exact ⟨_, guarded_actBar _ _, rfl⟩
    | exact ⟨_, guarded_actPins _, rfl⟩
    | (apply shape_act; unfold exec; dsimp only; exact rfl)
    | (apply shape_actBar; unfold exec; dsimp only; exact rfl)
    | (apply shape_actPins; unfold exec; dsimp only; exact rfl)

theorem memApply_beyond (op : Nat) (q : MemReq) (f : Dev → Dev) (s : State) (h : memEnd < q.addr + q.len) :
    memApply op q f s = .fault .noSuchAddress := by
  simp [memApply, h]

theorem memApply_within (op : Nat) (q : MemReq) (f : Dev → Dev) (s : State) (h : q.addr + q.len ≤ memEnd) :
    ∃ g, memApply op q f s = act g s := by
  rw [memApply, if_neg (Nat.not_lt.mpr h)]; exact ⟨_, rfl⟩

end Sys2Proof.Machine
end

