-- ==== Sys2Proof/WellFormed.lean ====
section
/-! DEFINITION. Checks on commands as terms: which operands the spec's widths and ranges allow, where the operand's
type allows more. -/
namespace Sys2Proof

/-- Bytes of BAR0 (spec/00 R4). -/
def barSize : Nat := 67108864

/-- Bytes of stacked memory: addresses 0 to 0x8F_FFFF_FFFF (spec/09 R244). -/
def memSize : Nat := 618475290624

/-- The offset of a 32-bit access (spec/00 R4). -/
def regWf (off : Nat) : Bool := off < barSize && off % 4 == 0

/-- What the check code reports names one of the lanes of a channel. -/
def eccWf (e : Ecc) : Bool :=
  match e with
  | .ce lane => lane < 128
  | _ => true

/-- What the check code finds in sectors that a row reads. -/
def flawsWf (fl : List (Nat × Ecc)) : Bool := fl.all (fun x => eccWf x.2)

/-- A command path: rings 0 to 7, the windows of four dies, or the management port (spec/14). -/
def hdrWf (h : CmdHdr) : Bool :=
  flawsWf h.flaws && match h.path with
  | .ring i => i < 8
  | .window d => d < 4
  | .mgmt => true

/-- A read of host memory that succeeded returned the bytes asked for (spec/14 R348). -/
def dmaLen (d : DmaRead) (n : Nat) : Bool :=
  match d with
  | .ok b => b.length == n
  | .err => true

/-- A strand's window: 64 counts of at most 2^16 bits (spec/11 R295). -/
def winWf (w : StrandWin) : Bool :=
  w.counts.length == 64 && w.counts.all (· ≤ 65536) && w.lo < 64 && w.hi < 64

/-- The length of a payload is a 14-bit number (spec/02 R29). -/
def frameWf (f : Frame) : Bool := f.payload.length < 16384

/-- A link-control frame carries one grant count for each of the eight VCs (spec/03 R73). -/
def lcfWf (l : Lcf) : Bool := l.cg.length == 8

/-- A read or write request: 64, 128, 192 or 256 bytes on a 64-byte boundary within one unit (spec/09 R247). -/
def accessWf (r : MemReq) : Bool :=
  r.addr + r.len ≤ memSize && r.addr % 64 == 0 && r.len % 64 == 0 && decide (0 < r.len) &&
  r.addr % 256 + r.len ≤ 256

/-- A memory-side operation: naturally aligned elements within one unit (spec/09 R247). -/
def sideWf (r : MemReq) (w : Nat) : Bool :=
  r.addr + r.len ≤ memSize && r.addr % w == 0 && r.len % w == 0 && decide (0 < r.len) &&
  r.addr % 256 + r.len ≤ 256 && r.offs.all (fun o => o % w == 0 && decide (o + w ≤ r.len))

/-- What the check code reports of the sectors of a unit. -/
def eccsWf (es : List Ecc) : Bool := decide (es.length ≤ 4) && es.all eccWf

/-- The data of a write fill its range, or the part whose offset it gives. -/
def storeWf (r : MemReq) : Bool :=
  match r.offs with
  | [] => r.data.length == r.len
  | [o] => o + r.data.length ≤ r.len
  | _ => false

/-- A unit that Patrol tests: 72 cores, 64 tiles, 16 links on each of four dies (spec/16 R421). -/
def unitWf (u : PatrolUnit) : Bool :=
  match u with
  | .core c => c < 72
  | .pre t => t < 64
  | .seam d l => d < 4 && l < 16
  | .mesh t => t < 64

/-- A rail with a brown-out detector (spec/15 R382). -/
def railWf (r : Rail) : Bool :=
  match r with
  | .aon => true
  | .fab d => d < 4

/-- A record of the system area (spec/10 R283). -/
def recWf (r : BoltRec) : Bool :=
  match r with
  | .laneCache l => l < 512
  | _ => true

/-- What a codeword decodes to: 4,096 data bytes and 32 metadata bytes (spec/10 R270). -/
def cwWordWf (w : Option (List Byte × List Byte)) : Bool := w.all (fun x => x.1.length == 4096 && x.2.length == 32)

/-- A codeword that a read of an image finds other than clean. -/
def cwWf (r : CwRead) : Bool := r.bits ≤ 140288 && cwWordWf r.word

/-- What a start finds: cores among 72, eight laser sources, records, wires and memory lanes that exist (spec/15
R399). -/
def foundWf (x : StartupIn) : Bool :=
  x.coreFail.all (fun c => decide (c < 72)) && x.elsSerial.length == 8 && x.elsCap.length == 8 &&
  x.elsBias.length == 8 && x.seamFail.all (fun y => decide (y.1 < 4) && decide (y.2 < 16)) && x.badRecs.all recWf &&
  x.seamWires.all (fun w => decide (w.1 < 4) && decide (w.2.1 < 16) && decide (w.2.2 < 544)) &&
  x.laneFail.all (fun w => decide (w.1 < 12) && decide (w.2.1 < 32) && decide (w.2.2 < 128))

/-- A command whose operands are in the ranges that the spec gives them. -/
def wellFormed (i : Instr) : Bool :=
  match i with
  | .registerWrite off _ _ => regWf off
  | .blockLock off _ => regWf off
  | .rsvdAccess off _ wide => off < barSize && off % (if wide then 8 else 4) == 0
  | .unsupportedAccess off _ _ => off < barSize
  | .pairLoWrite off _ => regWf off
  | .pairHiWrite off _ => regWf off
  | .pair64Write off _ => off < barSize && off % 8 == 0
  | .pairLoRead a => a.off < barSize && a.off % (if a.wide then 8 else 4) == 0
  | .frameReceive _ f => frameWf f
  | .foreignDequeue _ => true
  | .frameTxStart _ => true
  | .frameTxEnd _ => true
  | .orderFenceRequest _ _ => true
  | .orderRelease _ => true
  | .lcfReceive _ l => lcfWf l
  | .lcfSend _ => true
  | .learnInsert _ => true
  | .agingSweep => true
  | .fwdAgeCtlWrite _ _ => true
  | .fwdEmSeedWrite _ _ _ => true
  | .floodRelease _ => true
  | .partDrained _ => true
  | .tblEmStage h _ => hdrWf h
  | .tblEmDelete h _ _ => hdrWf h
  | .tblEmRead h _ _ => hdrWf h
  | .tblGrpStage h _ _ _ mask => hdrWf h && dmaLen mask 64
  | .tblGrpRead h _ _ => hdrWf h
  | .tblPartStage h _ _ _ _ mask => hdrWf h && dmaLen mask 64
  | .tblPartState h _ _ => hdrWf h
  | .tblBundleStage h _ n list => hdrWf h && dmaLen list (2 * n.toNat)
  | .tblCommit h _ _ => hdrWf h
  | .fwdEpochCommit _ => true
  | .epochFlip => true
  | .settlingEnd => true
  | .scrubSlotRead _ => true
  | .shadowPass _ => true
  | .swRsvWrite _ _ _ => true
  | .meshInject _ => true
  | .meshFlitRoute _ ecc => eccWf ecc
  | .meshEscape _ => true
  | .seamFlitReceive _ _ _ => true
  | .seamNakReceive _ _ _ => true
  | .seamRepair _ _ _ => true
  | .depthSample _ => true
  | .portActivate _ _ => true
  | .portDrain _ _ => true
  | .portDisable _ _ => true
  | .portRestore _ _ => true
  | .portBypass _ => true
  | .portDisabledDrained _ => true
  | .portDeadRelease _ => true
  | .portRestored _ => true
  | .bcastRequest _ _ unit => (match unit with | some u => unitWf u | none => true)
  | .mirCtlWrite _ _ _ => true
  | .mirrorCopySend _ => true
  | .rtOrdSeedWrite _ _ => true
  | .polEntryRead _ _ _ => true
  | .polEntryWrite _ _ => true
  | .polCmdComplete => true
  | .shpWrite _ _ _ _ => true
  | .preReduceAdd _ _ => true
  | .preWaitExpiry _ _ => true
  | .clBobWrite _ _ => true
  | .coreAccumulate x => eccWf x.ecc && flawsWf x.flaws
  | .resultSend _ _ => true
  | .overlockCompare _ x => flawsWf x.flaws
  | .patSet h _ _ n list => hdrWf h && dmaLen list (8 * n.toNat)
  | .patClear h _ => hdrWf h
  | .collCreate h b => hdrWf h && dmaLen b 88
  | .collDestroy h _ _ => hdrWf h
  | .collAbort h _ => hdrWf h
  | .collQuery h _ => hdrWf h
  | .contribReceive x => flawsWf x.flaws
  | .creditSend _ => true
  | .stragglerTimeout _ _ => true
  | .quarantineExpiry _ => true
  | .collMemWrite _ _ _ => true
  | .spillCntIssue _ => true
  | .shardSet h p => hdrWf h && dmaLen p.segData (16 * p.segCount.toNat)
  | .shardClear h _ => hdrWf h
  | .hparamSet h b => hdrWf h && dmaLen b 72
  | .optCommit h _ _ _ => hdrWf h
  | .optCommitTick _ => true
  | .optRollback h _ _ => hdrWf h
  | .optCkpt h _ _ _ => hdrWf h
  | .optCkptEnd _ _ rs => rs.all cwWf
  | .optRestore h _ _ => hdrWf h
  | .shardRead h _ _ _ _ _ => hdrWf h
  | .kernelLoad h _ _ _ _ len code => hdrWf h && dmaLen code len.toNat
  | .stitchLaunch h b => hdrWf h && dmaLen b 104
  | .stitchGridEnd _ => true
  | .stitchWatchdog _ => true
  | .rubUpdate _ x => flawsWf x.flaws
  | .rubUpdateDone _ x => flawsWf x.flaws
  | .orthoBlockUpdate _ _ x => flawsWf x.flaws
  | .mirrorReceive x => flawsWf x.flaws
  | .mackReceive _ => true
  | .mackSend x => flawsWf x.flaws
  | .shardSeal _ => true
  | .stitchNop _ _ => true
  | .exit _ _ => true
  | .bra _ _ => true
  | .bar _ _ => true
  | .barRelease _ _ => true
  | .fence _ _ => true
  | .sval _ _ => true
  | .iadd _ _ => true
  | .isub _ _ => true
  | .imul _ _ => true
  | .and _ _ => true
  | .or _ _ => true
  | .xor _ _ => true
  | .shl _ _ => true
  | .shr _ _ => true
  | .sar _ _ => true
  | .icmp _ _ => true
  | .movi _ _ => true
  | .sel _ _ => true
  | .iadd64 _ _ => true
  | .fadd _ _ => true
  | .fmul _ _ => true
  | .ffma _ _ => true
  | .fmax _ _ => true
  | .fmin _ _ => true
  | .fcmp _ _ => true
  | .cvt _ _ => true
  | .rcp _ _ => true
  | .rsqrt _ _ => true
  | .sqrt _ _ => true
  | .exp2 _ _ => true
  | .log2 _ _ => true
  | .lds _ _ ecc => eccWf ecc
  | .sts _ _ => true
  | .ldg _ _ => true
  | .stg _ _ => true
  | .atom _ _ => true
  | .mma _ _ => true
  | .mmaComplete _ _ => true
  | .mwait _ _ => true
  | .optMemWrite _ _ _ => true
  | .memRead r ecc => accessWf r && eccsWf ecc
  | .memWrite w => accessWf w.r && storeWf w.r && eccsWf w.ecc
  | .memResponse _ => true
  | .redF32 r ecc => sideWf r 4 && eccsWf ecc
  | .redBf16 r ecc => sideWf r 2 && eccsWf ecc
  | .redBf16w r ecc => sideWf r 4 && eccsWf ecc
  | .redI32 r ecc => sideWf r 4 && eccsWf ecc
  | .redI64 r ecc => sideWf r 8 && eccsWf ecc
  | .addF32 r ecc => sideWf r 4 && eccsWf ecc
  | .addBf16 r ecc => sideWf r 2 && eccsWf ecc
  | .addI32 r ecc => sideWf r 4 && eccsWf ecc
  | .addI64 r ecc => sideWf r 8 && eccsWf ecc
  | .cnt r ecc => sideWf r 4 && eccsWf ecc
  | .rdclr r ecc => accessWf r && eccsWf ecc
  | .memHashSeedWrite _ => true
  | .memScrubRead ecc => eccWf ecc
  | .memLanePending _ _ _ => true
  | .memTempSample _ _ => true
  | .memRefresh _ => true
  | .boltList h _ _ => hdrWf h
  | .boltDelete h _ _ => hdrWf h
  | .boltExport h _ _ _ => hdrWf h
  | .boltHealth h _ => hdrWf h
  | .boltProgramFail _ _ _ => true
  | .boltWlMove => true
  | .boltBandErase => true
  | .boltScrubRead x => x.rs.all cwWf
  | .boltRelocate x => decide (x.band < 5120) && x.rs.all cwWf
  | .boltRecordWrite w => recWf w.r
  | .lnPortWrite _ _ => true
  | .fecCodeword _ errs => errs ≤ 544
  | .ucwLinkDown _ => true
  | .cdrLoss _ _ => true
  | .fomWindowEnd _ wins signs => wins.length == 5 && wins.all winWf && signs.length == 5 && signs.all (·.length == 8)
  | .trainingFrameReceive _ _ => true
  | .trainTimeout _ => true
  | .alignDone _ _ => true
  | .holdExpiry _ => true
  | .laneRetrain _ _ => true
  | .txQuietEnter _ => true
  | .txWake _ => true
  | .rxQuietEnter _ => true
  | .rxWake _ => true
  | .ringSweepDone _ _ _ _ res _ => res.all (fun x => decide (x.h < 65536) && decide (x.tone < 9))
  | .toneWindowEnd _ _ _ _ _ _ => true
  | .oeLaneReady _ => true
  | .rxpwrSample _ _ _ _ => true
  | .elsBusTransaction _ cmd reg _ replies => decide (replies.length ≤ 4) && reg.toNat == cmd.toNat % 128
  | .elsBiasWrite _ _ _ _ => true
  | .elsCtlWrite _ _ => true
  | .elsAlert _ _ => true
  | .feedKill _ _ => true
  | .feedProbe _ _ => true
  | .feedProbeEnd _ _ _ => true
  | .thimbleTrip _ _ => true
  | .thimbleProbe _ _ => true
  | .thimbleProbeEnd _ _ => true
  | .thimbleResp _ _ => true
  | .thimbleLit _ _ => true
  | .timeIncWrite _ _ => true
  | .timeAdj _ _ => true
  | .timeSetLoad _ => true
  | .domainSwitchGo => true
  | .timeSwitched => true
  | .tsqPop _ => true
  | .timeLaunch h c => hdrWf h && frameWf c.frame
  | .launchTarget _ => true
  | .frameSend h c => hdrWf h && frameWf c.frame
  | .ppsInEdge => true
  | .ppsLost => true
  | .ppsOutEdge => true
  | .ppsOutEnd => true
  | .ringDoorbell _ _ => true
  | .descriptorFetch _ d => dmaLen d 64
  | .ringConsWrite _ _ => true
  | .ringEnable _ _ => true
  | .ringDisable _ _ => true
  | .ringInterrupt _ => true
  | .eventRecordWrite => true
  | .coalWindowClose _ => true
  | .coalRateIntervalEnd => true
  | .nop h => hdrWf h
  | .regRead h _ _ => hdrWf h
  | .fwStage h _ _ _ _ => hdrWf h
  | .fwActivate h => hdrWf h
  | .fwCommitSvn h => hdrWf h
  | .estop h => hdrWf h
  | .estopClear h => hdrWf h
  | .mgmtFrameReceive f => f.body.length ≤ 65535
  | .bootReqSend => true
  | .bootImgReceive _ _ _ _ => true
  | .tlrBootGo _ => true
  | .tlrWatchdogExpiry _ => true
  | .tlrRestartDone => true
  | .porAssert => true
  | .brownout rail => railWf rail
  | .porRelease found => foundWf found
  | .startupComplete => true
  | .warmReset _ => true
  | .i3cWarm => true
  | .pcieReset _ => true
  | .refFail _ => true
  | .refSwitch => true
  | .refRevert => true
  | .refSelect _ => true
  | .holdoverRelock _ => true
  | .pwrEval _ _ => true
  | .domainWake _ => true
  | .domainWakeDone _ _ => true
  | .thmSample _ temps => temps.length == 20
  | .ilimAssert _ => true
  | .ilimHoldEnd _ => true
  | .issueRampStep _ => true
  | .injectArm _ => true
  | .injectDisarm _ => true
  | .injection => true
  | .errorLogPop => true
  | .suspicionDecay _ => true
  | .patrolUnitStart u => unitWf u
  | .patrolUnitEnd u _ => unitWf u
  | .patrolYield u => unitWf u
  | .patrolFull => true
  | .patrolDone fails => fails.all (fun x => unitWf x.1)
  | .spareIn _ _ => true
  | .pmcSelWrite off _ => regWf off
  | .pmcModeWrite _ => true
  | .pmcDump => true
  | .pmcDumpEnd => true
  | .pmcFreezeGo _ => true
  | .pmcFreezeTick => true
  | .swatchRecordWrite _ => true
  | .thimbleRespDark _ _ => true
  | .optRestoreEnd _ _ rs => rs.all cwWf
  | .boltExportEnd _ x => x.rs.all cwWf
  | .shardReadEnd _ => true
  | .ckptSideReadDone _ x => flawsWf x.flaws
  | .boltDeleteJournalled _ _ => true
  | .perstRelease => true
  | .refGood _ => true
  | .ilimRelease _ => true
  | .tailorFrameSend t => t.port < 512 && t.vc < 8 && frameWf t.frame
  | .i3cDynamicAddress _ => true

end Sys2Proof
end

