-- ==== Sys2Proof/Tests/Slice0.lean ====
section
/-! SUPPORT. The model's own tests: ill-formed terms refused by each check, a worked value of the manual here and
there, and, for every statement with hypotheses, states and operands that meet the hypotheses of each clause. -/
namespace Sys2Proof.Tests
open Sys2Proof Sys2Proof.Machine

-- One theorem at a time: each one below is a kernel evaluation.
set_option Elab.async false

/-! ### Well-formedness: every check refuses something -/

def ringHdr : CmdHdr := ⟨.ring 0, 5, []⟩
def mgmtHdr : CmdHdr := ⟨.mgmt, 5, []⟩
def winHdr : CmdHdr := ⟨.window 1, 5, []⟩
def req (a n : Nat) (l : List Nat) : MemReq := { (default : MemReq) with addr := a, len := n, offs := l }
def frame0 : Frame := default
def found0 : StartupIn := { (default : StartupIn) with
  elsSerial := List.replicate 8 none, elsCap := List.replicate 8 [], elsBias := List.replicate 8 [] }

theorem test_wf_register_offset : wellFormed (.registerWrite 67108864 none none) = false ∧
    wellFormed (.registerWrite 2 none none) = false ∧ wellFormed (.registerWrite 67108860 none none) = true := by decide
theorem test_wf_wide_offset : wellFormed (.pair64Write 4 0) = false ∧ wellFormed (.rsvdAccess 4 false true) = false ∧
    wellFormed (.rsvdAccess 4 false false) = true ∧ wellFormed (.unsupportedAccess 67108864 1 true) = false := by decide
theorem test_wf_path : wellFormed (.nop ⟨.ring 8, 0, []⟩) = false ∧ wellFormed (.estop ⟨.window 4, 0, []⟩) = false ∧
    wellFormed (.nop ⟨.ring 7, 0, []⟩) = true ∧ wellFormed (.nop mgmtHdr) = true := by decide
theorem test_wf_dma_length : wellFormed (.tblGrpStage ringHdr 0 true 0 (.ok [1])) = false ∧
    wellFormed (.tblGrpStage ringHdr 0 true 0 .err) = true ∧
    wellFormed (.tblBundleStage ringHdr 0 1 (.ok [1])) = false ∧ wellFormed (.patSet ringHdr 0 0 1 (.ok [])) = false ∧
    wellFormed (.kernelLoad ringHdr 0 0 0 0 8 (.ok [])) = false ∧ wellFormed (.descriptorFetch 0 (.ok [])) = false := by decide
theorem test_wf_params : wellFormed (.hparamSet ringHdr (.ok [1])) = false ∧ wellFormed (.stitchLaunch ringHdr (.ok [1])) = false ∧
    wellFormed (.collCreate ringHdr (.ok [1])) = false ∧ wellFormed (.collCreate ringHdr .err) = true ∧
    wellFormed (.shardSet ringHdr { (default : ShardParams) with segCount := 1, segData := .ok [] }) = false := by decide
theorem test_wf_flaws : wellFormed (.nop { ringHdr with flaws := [(0, .ce 128)] }) = false ∧
    wellFormed (.coreAccumulate ⟨0, .ce 128, []⟩) = false ∧ wellFormed (.rubUpdate 0 ⟨0, [(5, .ce 200)]⟩) = false ∧
    wellFormed (.mackSend ⟨0, [(5, .ue)]⟩) = true := by decide
theorem test_wf_els_register : wellFormed (.elsBusTransaction 0 5 4 0 []) = false := by decide
theorem test_wf_mgmt : wellFormed (.mgmtFrameReceive { (default : MgmtFrame) with body := List.replicate 65536 0 }) = false := by
  change decide ((List.replicate 65536 (0 : Byte)).length ≤ 65535) = false
  rw [List.length_replicate]; decide
theorem test_wf_patrol_fails : wellFormed (.patrolDone [(.core 72, 0)]) = false ∧
    wellFormed (.pmcSelWrite 1 0) = false := by decide
theorem test_wf_tailor_frame : wellFormed (.tailorFrameSend ⟨512, 2, false, 0, frame0⟩) = false ∧
    wellFormed (.tailorFrameSend ⟨0, 8, false, 0, frame0⟩) = false := by decide
theorem test_wf_lcf : wellFormed (.lcfReceive 0 { (default : Lcf) with cg := [] }) = false := by decide
theorem test_wf_frame : wellFormed (.frameReceive 0 { frame0 with payload := List.replicate 16384 0 }) = false := by
  change decide ((List.replicate 16384 (0 : Byte)).length < 16384) = false
  rw [List.length_replicate]; decide
theorem test_wf_ecc : wellFormed (.memScrubRead (.ce 128)) = false ∧ wellFormed (.memScrubRead (.ce 127)) = true := by decide
theorem test_wf_access : wellFormed (.memRead (req 32 64 []) []) = false ∧ wellFormed (.memRead (req 64 32 []) []) = false ∧
    wellFormed (.memRead (req 0 0 []) []) = false ∧ wellFormed (.memRead (req 192 128 []) []) = false ∧
    wellFormed (.memRead (req 618475290624 64 []) []) = false ∧ wellFormed (.memWrite ⟨req 0 64 [], []⟩) = false ∧
    wellFormed (.memRead (req 192 64 []) []) = true := by decide
theorem test_wf_side : wellFormed (.redF32 (req 2 4 []) []) = false ∧ wellFormed (.redF32 (req 4 6 []) []) = false ∧
    wellFormed (.redF32 (req 0 8 [2]) []) = false ∧ wellFormed (.redF32 (req 0 8 [8]) []) = false ∧
    wellFormed (.redI64 (req 4 8 []) []) = false ∧ wellFormed (.redF32 (req 0 8 [4]) []) = true := by decide
theorem test_wf_eccs : wellFormed (.memRead (req 0 64 []) [.clean, .clean, .clean, .clean, .ue]) = false ∧
    wellFormed (.cnt (req 0 4 []) [.ce 128]) = false ∧ wellFormed (.cnt (req 0 4 []) [.ue]) = true := by decide
theorem test_wf_units : wellFormed (.patrolUnitStart (.core 72)) = false ∧ wellFormed (.patrolUnitStart (.pre 64)) = false ∧
    wellFormed (.patrolUnitStart (.seam 0 16)) = false ∧ wellFormed (.patrolUnitStart (.mesh 64)) = false := by decide
theorem test_wf_bounds : wellFormed (.brownout (.fab 4)) = false ∧ wellFormed (.boltRecordWrite ⟨(.laneCache 512), true⟩) = false ∧
    wellFormed (.boltRelocate ⟨5120, []⟩) = false ∧
    wellFormed (.boltScrubRead ⟨[⟨0, 0, 140289, none⟩]⟩) = false ∧ wellFormed (.boltScrubRead ⟨[⟨0, 0, 0, some ([], [])⟩]⟩) = false ∧
    wellFormed (.fecCodeword 0 545) = false ∧ wellFormed (.thmSample 0 []) = false ∧
    wellFormed (.fomWindowEnd 0 [] []) = false := by decide
theorem test_wf_start : wellFormed (.porRelease found0) = true ∧ wellFormed (.porRelease { found0 with coreFail := [72] }) = false ∧
    wellFormed (.porRelease { found0 with elsCap := [] }) = false ∧
    wellFormed (.porRelease { found0 with seamFail := some (0, 16) }) = false ∧
    wellFormed (.porRelease { found0 with badRecs := [.laneCache 512] }) = false ∧
    wellFormed (.porRelease { found0 with seamWires := [(0, 0, 544)] }) = false ∧
    wellFormed (.porRelease { found0 with laneFail := [(0, 0, 128)] }) = false := by decide
theorem test_wf_els_tries : wellFormed (.elsBusTransaction 0 0 0 0 [default, default, default, default, default]) = false := by decide

/-! ### States for the witnesses -/

/-- The device after its start-up: its clocks run and it serves. -/
def dev0 : Dev := { State.reset.dev with pwr := { State.reset.dev.pwr with step := 8, porHigh := true, perstHigh := true } }
def s0 : State := { State.reset with dev := dev0 }
/-- The same device, changed. -/
def st (f : Dev → Dev) : State := { s0 with dev := f dev0 }
/-- Every lane of a port UP. -/
def lanesUp (p : Nat) (d : Dev) : Dev := (portLanes d p).foldl (fun d l => wr d .lnState (lix l) 5) d
/-- A port whose link is up. -/
def linkOn (p : Nat) (d : Dev) : Dev :=
  { lanesUp p d with sw := { d.sw with link := tset d.sw.link p ⟨true, true, true, 0, false, 0⟩ } }
/-- RT_PORT.STATE of a port. -/
def portIn (p n : Nat) (d : Dev) : Dev := setPortState d p n
/-- A frame of partition 4095 whose header check holds. -/
def frame1 : Frame :=
  let h : FabHdr := { (default : FabHdr) with ver := 1, vc := 2, plen := 46, part := 4095, dst := 5, src := 6 }
  let f : Frame := { frame0 with payload := List.replicate 46 0, etype := 0x9C4E, hdr := h }
  { f with hdr := { f.hdr with hcrc := hcrcOf f.hdr } }
/-- A frame held in ingress. -/
def ing0 (id p : Nat) (f : Frame) : Ing :=
  ⟨id, p, 2, f, f, 1, 0, 0, false, [], 1, 1, .ready, false, none, 0, (⟨0, 0⟩, ⟨0, 0⟩), 0, none, false, false⟩
/-- A frame in egress. -/
def egr0 (f : Frame) : Egr := ⟨f, 1, none, false, false, false, .port, none, none, none, none, 0, false⟩

/-- A device on whose path a command's descriptor stands first: its opcode, and PARAMS packed of fields with their widths. -/
def asked (h : CmdHdr) (opc : Nat) (fs : List (Nat × Nat)) (d : Dev) : Dev :=
  { d with host := { d.host with fetched := [⟨pathNo h.path, h.tag, opc, slice (packFields fs) 0 56, [], d.host.epoch⟩] } }

/-- Its command passes where its fields are those of PARAMS, its path does not wait and takes it. -/
theorem passes_asked {d : Dev} {h : CmdHdr} {opc : Nat} {fs : List (Nat × Nat)} {acc : Accept} {ps : List (Option Nat)}
    (h1 : paramsAgree (slice (packFields fs) 0 56) opc ps = true) (h2 : cmdWaits d h.path = false)
    (h3 : pathRefusal d h.path acc = none) : Passes (asked h opc fs d) h opc acc ps := by
  refine ⟨?_, h2, h3⟩
  simp [stands, fetchedNext, asked, sameQueue, h1]

/-! ### The step, BAR0 -/

theorem witness_StepRunsFront : ∃ s : State, s.pending = .porAssert :: [] := ⟨{ State.reset with pending := [.porAssert] }, rfl⟩

theorem witness_TripLatches :
    let s := { st (fun d => { d with pwr := { d.pwr with tripped := true } }) with pending := [Instr.i3cWarm] }
    s.dev.pwr.tripped = true ∧ (∀ c ∈ s.pending, c ≠ .porAssert ∧ ∀ r, c ≠ .brownout r) ∧
      ∃ t, step s = .next t ∧ t.pending = [] := by
  intro s
  refine ⟨by decide, ?_, _, rfl, rfl⟩
  intro c hc
  obtain rfl : c = .i3cWarm := by simpa [s] using hc
  exact ⟨by simp, by intro r; simp⟩

theorem witness_WriteMergesByAccessType :
    (∀ a ∈ [Acc.rw, .ro, .w1c, .w1s, .rwl, .wo],
      ∃ r ∈ [Reg.fwdEmCtl, .idDev, .fwdStatus, .fwdEtype, .polCmd, .relInjCtl, .timeCtl, .rstCtl, .relLogCtl, .pmcFreeze],
        ∃ f ∈ (regRow r).flds, f.acc = a) ∧ (0 : Nat) < 2 ^ 32 ∧ 4294967295 < 2 ^ 32 := by decide

theorem witness_RegisterWriteStores :
    let s := s0
    let t := st (fun d => wr d .fwdEmCtl [] (setBit (rd d .fwdEmCtl) 31))
    let u := st (fun d => wr d .pwrDomState [4] 0x10000)
    (Running s ∧ aligned32 0xC00000 = true ∧ target 0xC00000 = .reg .fwdEtype [] ∧ pairHiOf .fwdEtype = none ∧
      pairLoOf .fwdEtype = none ∧ plainReg .fwdEtype = true ∧ asleepAt s.dev 0xC00000 = none ∧
      locked s.dev .fwdEtype [] = false ∧
      locked (wr s.dev .fwdEtype [] (stripWo .fwdEtype (merge false .fwdEtype (rd s.dev .fwdEtype) 5))) .fwdEtype [] = false ∧
      asleepAt (wr s.dev .fwdEtype [] (stripWo .fwdEtype (merge false .fwdEtype (rd s.dev .fwdEtype) 5))) 0xC00000 = none) ∧
    (target 0x802000 = .reg .swTileCtl [0, 0] ∧ isLockReg 0x802000 = true ∧ locked s.dev .swTileCtl [0, 0] = false ∧
      plainReg .swTileCtl = true ∧ asleepAt s.dev 0x802000 = none ∧ (0x80000000 : Word).getLsbD 31 = true) ∧
    (asleepAt u.dev 0xA30000 = some 72 ∧ target 0xA30000 = .reg .clCtl [0, 0] ∧ locked u.dev .clCtl [0, 0] = false ∧
      isLockReg 0xA30000 = true) ∧
    (locked t.dev .fwdEtype [] = true ∧ asleepAt t.dev 0xC00000 = none ∧ onlyRwl .fwdEtype = true ∧ lockHit true .fwdEtype (rd t.dev .fwdEtype) 5 = true ∧
      lockHit true .fwdEtype (rd t.dev .fwdEtype) 0x9C4E = false) ∧
    State.reset.dev.pwr.step < 3 ∧
    ((st (fun d => { d with pwr := { d.pwr with step := 3 } })).dev.pwr.step = 3 ∧ 0x800000 ≤ 0x802000) := by decide

theorem witness_ReservedOffsetReadsZero :
    (aligned32 0x3FFFFFC && isRsvd 0x3FFFFFC) = true ∧ (aligned32 0x24 && isRsvd 0x24) = true ∧
    (aligned64 0x28 && isRsvd 0x28 && isRsvd 0x2C) = true ∧
    (aligned64 0xC00018 = true ∧ isRsvd 0xC00018 = false ∧ isRsvd 0xC0001C = true) := by decide

theorem witness_UnsupportedAccessHasNoEffect :
    ¬((2 = 4 ∧ 0 % 4 = 0) ∨ (2 = 8 ∧ 0 % 8 = 0)) ∧ ¬((8 = 4 ∧ 4 % 4 = 0) ∨ (8 = 8 ∧ 4 % 8 = 0)) ∧
    ¬((4 = 4 ∧ 6 % 4 = 0) ∨ (4 = 8 ∧ 6 % 8 = 0)) ∧ aligned32 0x3FFFFFC = true ∧
    (aligned64 0x102000 = true ∧ target 0x102000 = .cnt 0x102000 false ∧ target 0x102004 = .cnt 0x102000 true) := by decide

theorem witness_PairAccesses :
    let s := s0
    let t := st (fun d => { d with stage := [(0xC0003C, 9)], snap := [(0xC00040, 5)] })
    let a := regAddr .fwdScrubBaseLo []
    (Running s ∧ aligned32 a = true ∧ target a = .reg .fwdScrubBaseLo [] ∧ pairHiOf .fwdScrubBaseLo = some .fwdScrubBaseHi ∧
      pairLoOf .fwdScrubBaseHi = some .fwdScrubBaseLo ∧ pairHiOf .fwdScrubBaseHi = none ∧
      target (a + 4) = .reg .fwdScrubBaseHi [] ∧ aligned32 (a + 4) = true ∧ plainPair .fwdScrubBaseLo = true ∧
      locked s.dev .fwdScrubBaseLo [] = false ∧
      (regRow .fwdScrubBaseLo).flds.all (fun f => f.acc == .ro) = false) ∧
    aligned64 (regAddr .timeIncLo [1]) = true ∧ target (regAddr .timeIncLo [1]) = .reg .timeIncLo [1] ∧
    plainPair .timeIncLo = true ∧ locked s.dev .timeIncLo [1] = false ∧
    (tget? s.dev.stage a = none ∧ tget? { t.dev with stage := [(a, 9)] }.stage a = some 9 ∧
      tget? { t.dev with snap := [(a + 4, 5)] }.snap (a + 4) = some 5) := by decide

/-! ### Writes that a rule judges, policers, ports -/

theorem witness_JudgedRegisterWrites :
    let s := s0
    let t := st (fun d => wr (wr d .fwdEmCtl [] (2 ^ 31)) .memCtl [] (2 ^ 31))
    (Running s ∧ locked s.dev .fwdEmSeed0 [] = false ∧ emCount s.dev = 0 ∧ s.dev.fwd.staged = 0 ∧
      s.dev.fwd.settling = false ∧ (7 : Nat) ≠ rd s.dev .fwdEmSeed1) ∧
    (locked s.dev .swRsv (lix 511 ++ [7]) = false ∧ locked s.dev .rtOrdSeed [] = false ∧
      tget? s.dev.pol.shp (4 * 511 + 3) = none) ∧
    (locked s.dev .clBob [3, 1] = false ∧ locked s.dev .lnPort (tix 63) = false ∧ locked s.dev .collMemSize [] = false ∧
      locked s.dev .optMemSize [] = false ∧ locked s.dev .memHashSeed [] = false) ∧
    (Running t ∧ locked t.dev .fwdEmSeed0 [] = true ∧ locked t.dev .memHashSeed [] = true) := by decide

theorem witness_PolicerCommands :
    let s := s0
    let t := fun clr => st (fun d => { d with pol := { d.pol with cmd := some (3, false, clr, 16383) } })
    (Running s ∧ rdb s.dev .polCmd [] 31 = false ∧ Running (t true)) ∧
    (t true).dev.pol.cmd = some ((3 : Fin 4).val, false, true, (16383 : BitVec 14).toNat) ∧
    (t false).dev.pol.cmd = some ((3 : Fin 4).val, false, false, (16383 : BitVec 14).toNat) := by decide

theorem witness_PortStateWrites :
    let s := fun n => st (portIn 511 n)
    (Running (s 3) ∧ (∀ v ∈ [0x1C000000, 0x2C000000, 0x0C000000, 0x4C000000], bits v 27 26 = 3) ∧
      bits 0x14000000 27 26 ≠ portRole (s 1).dev 511 ∧ portState (s 1).dev 511 = 1) ∧
    (bits 0x10000000 30 28 = 1 ∧ portState (s 3).dev 511 = 3 ∧ bits 0x20000000 30 28 = 2 ∧ portState (s 0).dev 511 = 0 ∧
      bits 0x40000000 30 28 = 4 ∧ portState (s 1).dev 511 = 1) ∧
    (∀ n < 5, ∀ v ∈ [0x10000000, 0x20000000, 0, 0x40000000], bits v 27 26 = portRole (s n).dev 511) ∧
    portRole (s 0).dev 511 ≠ 3 ∧ portState (s 2).dev 511 = 2 ∧ portState (s 4).dev 511 = 4 ∧
    linkUp (s 3).dev 511 = false ∧ (∀ l ∈ portLanes (s 3).dev 511, laneState (s 3).dev l ≠ 5) := by decide

theorem witness_PortStateMoves :
    let s := fun n => st (portIn 511 n)
    let t := st (fun d => { portIn 511 1 d with rt := { (portIn 511 1 d).rt with toDisable := [511] } })
    let u := st (fun d => linkOn 511 (portIn 511 4 d))
    (Running (s 2) ∧ portState (s 2).dev 511 = 2 ∧ (s 2).dev.rt.toDisable.contains 511 = false ∧
      egressEmpty (s 2).dev 511 = true ∧ waitsFor (s 2).dev 511 = false ∧ linkUp (s 2).dev 511 = false) ∧
    portState (s 1).dev 511 ≠ 2 ∧ portState (s 1).dev 511 ≠ 4 ∧
    (t.dev.rt.toDisable.contains 511 = true ∧ egressEmpty t.dev 511 = true ∧ waitsFor t.dev 511 = false) ∧
    (portState u.dev 511 = 4 ∧ linkUp u.dev 511 = true ∧ (linkSt u.dev 511).lcfRcvd = true) := by decide

/-! ### Tables -/

/-- A static entry of partition 4095 that names port 511, its bits EVEN and ODD clear, and a way that it may stand in. -/
def entry0 : Nat := emMake true false 0 4095 0xABCDEF 511
def way0 : Nat := (freeWay s0.dev.fwd.em (emBucket s0.dev 0 4095 0xABCDEF)).getD 0
def withEntry (e : Nat) (d : Dev) : Dev := setEm d (emPut d.fwd.em way0 e)

theorem witness_TableStaging :
    let s := s0
    let t := st (withEntry (entry0 + 2 ^ 62))
    (Running s ∧ holding s.dev = false ∧ s.dev.fwd.staged < 16384) ∧
    (emEntryOk (BitVec.ofNat 64 entry0).toNat = true ∧
      (∀ x ∈ emSlots s.dev (emKey entry0).1 (emKey entry0).2, emKey (emAt s.dev.fwd.em x) ≠ emKey entry0) ∧
      freeWay s.dev.fwd.em (emBucket s.dev 0 (emKey entry0).1 (emKey entry0).2) = some way0) ∧
    (holding t.dev = false ∧ emFind t.dev t.dev.fwd.em 4095 0xABCDEF (1 - parity t.dev) = some way0) ∧
    Unmarked s.dev 0x20 0 0 ∧ (64 : BitVec 8).toNat ≤ 64 := by decide +kernel

theorem witness_TableStaging_paths :
    let q := fun h opc fs => st (fun d => asked h opc fs (withEntry (entry0 + 2 ^ 62) d))
    let fs := [(16, 65535), (1, 1), (12, 4095), (64, 64)]
    let gs := [(12, 4095), (1, 1), (3, 7), (10, 1023), (64, 64)]
    Passes (q winHdr 0x10 [(64, entry0)]).dev winHdr 0x10 .h [some entry0] ∧
    Passes (q ringHdr 0x11 [(12, 4095), (24, 0xABCDEF)]).dev ringHdr 0x11 .h [some 4095, some 0xABCDEF] ∧
    Passes (q winHdr 0x13 fs).dev winHdr 0x13 .h [some 65535, some 1, some 4095, none] ∧
    Passes (q ringHdr 0x15 gs).dev ringHdr 0x15 .h [some 4095, some 1, some 7, some 1023, none] ∧
    Passes (q winHdr 0x17 [(8, 255), (32, 64), (64, 64)]).dev winHdr 0x17 .h [some 255, some 64, none] :=
  ⟨passes_asked (by decide +kernel) (by decide) (by decide), passes_asked (by decide) (by decide) (by decide),
    passes_asked (by decide) (by decide) (by decide), passes_asked (by decide) (by decide) (by decide),
    passes_asked (by decide) (by decide) (by decide)⟩

theorem witness_TableReadsAndCommits :
    let s := fun opc fs => st (asked winHdr opc fs)
    let t := st (fun d => { d with fwd := { d.fwd with commit := some ⟨9, 0, none⟩ } })
    let u := st (fun d => { d with fwd := { d.fwd with settling := true } })
    (Passes (s 0x12 [(12, 4095), (24, 1)]).dev winHdr 0x12 .h [some 4095, some 1] ∧
      Passes (s 0x14 [(16, 65535), (64, 64)]).dev winHdr 0x14 .h [some 65535, some 64] ∧
      Passes (s 0x18 [(32, 4294967295), (1, 1)]).dev winHdr 0x18 .h [some 4294967295, some 1]) ∧
    (∀ opc fs, Running (s opc fs) ∧ (s opc fs).dev.fwd.commit = none ∧ (s opc fs).dev.fwd.settling = false) ∧
    (t.dev.fwd.commit = some ⟨9, 0, none⟩ ∧ (⟨9, 0, none⟩ : Commit).reply = none ∧ (∀ x ∈ t.dev.coll.ctxs, live x.2 = false)) ∧
    (u.dev.fwd.settling = true ∧ u.dev.fwd.held = []) :=
  ⟨⟨passes_asked (by decide) (by decide) (by decide), passes_asked (by decide) (by decide) (by decide),
    passes_asked (by decide) (by decide) (by decide)⟩, fun _ _ => ⟨(by decide : Running s0), rfl, rfl⟩, by decide, by decide⟩

theorem emFind_empty (d : Dev) (part ep a : Nat) : emFind d [] part ep a = none := by
  simp [emFind, emAt, tgetD, tget?, emValid, bit]

theorem witness_TableUpkeep :
    let q : LearnReq := ⟨4095, 0xABCDEF, 511⟩
    let s := st (fun d => { d with fwd := { d.fwd with learnQ := [[], [], [q], []] } })
    let t := st (fun d => withEntry (emMake false false (learnTarget d 511).1 4095 0xABCDEF (learnTarget d 511).2 + 2 ^ 63)
      { d with fwd := { d.fwd with learnQ := [[], [], [q], []] } })
    let u := st (fun d => wr (wr d .fwdEmCtl [] 1) .fwdScrubCtl [] 5)
    let img : List Byte := List.replicate 64 0
    (Running s ∧ s.dev.fwd.learnQ.getD (2 : Fin 4) [] = [q] ∧
      (∀ a, emFind s.dev s.dev.fwd.em q.part.toNat q.src.toNat a = none) ∧
      freeWay s.dev.fwd.em (emBucket s.dev 0 q.part.toNat q.src.toNat) = some way0) ∧
    (emFind t.dev t.dev.fwd.em q.part.toNat q.src.toNat (parity t.dev) = some way0 ∧
      emTarget (emAt t.dev.fwd.em way0) = learnTarget t.dev q.port) ∧
    (rdb s.dev .fwdEmCtl [] 1 = true ∧ rdb u.dev .fwdEmCtl [] 1 = false) ∧
    (rdb u.dev .fwdScrubCtl [] 0 = true ∧ u.dev.fwd.emDiff = [] ∧ rdb u.dev .fwdScrubCtl [] 2 = true ∧ Unmarked u.dev 0x20 0 0) ∧
    (leAt (1 :: img) 0 4 ≠ rd u.dev .fwdEpoch ∧ leAt img 0 4 = rd u.dev .fwdEpoch ∧
      leAt img 4 4 = (u.dev.fwd.em.filter (fun e => emValid e.2.toNat (parity u.dev) && emStatic e.2.toNat)).length ∧
      (∀ r ∈ shadowRecords img (natMin (leAt img 4 4) ((img.length - 64) / 16)), ∀ die : Fin 4,
        ∃ e, emLookup u.dev die (emKey r).1 (emKey r).2 = some e ∧ shadowSame e r = true)) := by
  refine ⟨⟨by decide, by decide, fun _ => emFind_empty _ _ _ _, by decide +kernel⟩, by decide +kernel, by decide, by decide,
    by decide, by decide, by decide, ?_⟩
  intro r h
  have e : shadowRecords (List.replicate 64 (0 : Byte))
      (natMin (leAt (List.replicate 64 0) 4 4) (((List.replicate 64 (0 : Byte)).length - 64) / 16)) = [] := by decide
  cases (e ▸ h : r ∈ [])

theorem witness_PartitionsAndHeldFrames :
    let s := st (asked ringHdr 0x16 [(12, 4095), (2, 2)])
    let v := st (asked winHdr 0x16 [(12, 4095), (2, 2)])
    let t := st (fun d => setPart d 4095 { partOf d 4095 with st := 2 })
    let i : Ing := { ing0 3 511 frame0 with floodWait := true }
    let u := st (fun d => { d with sw := { d.sw with ing := [i] } })
    Passes s.dev ringHdr 0x16 .h [some 4095, some 2] ∧ Passes v.dev winHdr 0x16 .h [some 4095, some 2] ∧
    ((2 : BitVec 2) ≠ 3 ∧ (partOf s.dev 4095).st ≠ 1 ∧ s.dev.coll.ctxs = []) ∧
    ((partOf t.dev 4095).st = 2 ∧ (∀ die : Fin 4, partOcc t.dev 4095 die = 0)) ∧ (partOf s.dev 4095).st ≠ 2 ∧
    (findIng u.dev 3 = some i ∧ i.floodWait = true ∧
      floodCost u.dev i.frame ≤ floodTok u.dev (i.port / 128) i.frame.hdr.part.toNat) ∧
    (∀ i ∈ u.dev.sw.ing, i.hold = .foreign → i.port / 128 ≠ (0 : Fin 4)) := by
  refine ⟨passes_asked (by decide) (by decide) (by decide), passes_asked (by decide) (by decide) (by decide), by decide, by decide, by decide, by decide, ?_⟩
  intro i h
  fin_cases h
  exact fun h => absurd h (by decide)

/-! ### Frames, fences, mesh and Seam, lanes -/

/-- Credit on every VC of a port: 400 cells advertised, 100 received, 100 granted to it and none sent. -/
def credit (p : Nat) (d : Dev) : Dev :=
  { d with sw := { d.sw with pv := (List.range 8).foldl (fun t v => tset t (8 * p + v) ⟨0, 0, 0, 400, 400, 100, 100, 0⟩) d.sw.pv } }

/-- A link-control frame. -/
def lcf0 : Frame := { frame0 with etype := 0x9C4F, payload := List.replicate 46 0 }

theorem witness_FramesReceived :
    let s := st (fun d => credit 511 (linkOn 511 d))
    let t := st (fun d => portIn 511 1 (setPart (credit 511 (linkOn 511 d)) 4095 { partOf d 4095 with st := 1 }))
    let f2 : Frame := { frame1 with etype := 0x800 }
    let f3 : Frame := { frame1 with hdr := { frame1.hdr with hcrc := 0 } }
    (∀ f ∈ [frame1, f2, f3], f.etype.toNat ≠ rdf s.dev .swLcf (tix (511 / 8)) 31 16 ∧
      Running s ∧ linkUp s.dev 511 = true ∧ s.dev.rel.marks = [] ∧ frameLen s.dev f ≤ 8266 ∧
      (pvSt s.dev 511 (vcOf s.dev f)).rcvd + frameCells s.dev f ≤ (pvSt s.dev 511 (vcOf s.dev f)).adv) ∧
    (lcf0.etype.toNat = rdf s.dev .swLcf (tix (511 / 8)) 31 16 ∧ frameLen s.dev lcf0 ≤ 8266) ∧
    s.dev.sw.ing = [] ∧ (isForeign s.dev f3 = false ∧ f3.hdr.hcrc ≠ hcrcOf f3.hdr) ∧
    (isForeign s.dev frame1 = false ∧ frame1.hdr.hcrc = hcrcOf frame1.hdr ∧ portState s.dev 511 ≠ 3 ∧
      (partOf s.dev frame1.hdr.part.toNat).st ≠ 1 ∧ (partOf t.dev frame1.hdr.part.toNat).st = 1) ∧
    (isForeign s.dev f2 = true ∧ f2.fcs = .good ∧ (s.dev.fwd.foreignQ.getD (511 / 128) []).length < 64) := by decide +kernel

theorem witness_LinkControlFrames :
    let s := st (fun d => linkOn 511 d)
    let l : Lcf := ⟨1, false, [9, 8, 7, 6, 5, 4, 3, 2], .good⟩
    let first := st (fun d => lanesUp 511 d)
    let batch := st (fun d => { linkOn 511 d with sw := { (linkOn 511 d).sw with pv := tset d.sw.pv (8 * 511 + 3) ⟨0, 0, 0, 400, 0, 0, 0, 0⟩ } })
    let due := st (fun d => { linkOn 511 d with now := 1000000 })
    let demI : Ing := { ing0 3 5 { frame0 with hdr := { frame0.hdr with vc := 7 } } with vcIn := 6 }
    let dem := st (fun d => setEgrQ { lanesUp 511 d with sw := { d.sw with ing := [demI] } } 511 7 [{ egr0 demI.frame with ing := some 3 }])
    let busy := st (fun d => { linkOn 511 d with now := 1000000, sw := { (linkOn 511 d).sw with tx := [(511, egr0 frame0)] } })
    (Running s ∧ linkUp s.dev 511 = true ∧ l.fcs = .good ∧ l.ver = 1 ∧ ({ l with ver := 2 } : Lcf).ver ≠ 1 ∧
      ({ l with fcs := .bad } : Lcf).fcs = .bad ∧ ({ l with fcs := .stomped } : Lcf).fcs = .stomped) ∧
    (∀ t ∈ [first, batch, due, busy], Running t ∧ linkUp t.dev 511 = true ∧ portState t.dev 511 ≠ 3 ∧
      (∀ x ∈ portLanes t.dev 511, rdb t.dev .lnCtl (lix x) 30 = false) ∧ pdOn t.dev (80 + 511 / 32) = true) ∧
    ((linkSt first.dev 511).lcfRcvd = false ∧ (linkSt s.dev 511).lcfRcvd = true ∧ l.init = false ∧
      (∀ i ∈ dem.dev.sw.ing, i.vcIn < 8) ∧ (egrQ dem.dev 511 7).map (fun x => x.ing.bind (findIng dem.dev)) = [some demI] ∧
      demoted demI = true) ∧
    ((linkSt first.dev 511).initSent = false ∧ natMax 1 (rdf batch.dev .swLcf (tix (511 / 8)) 15 8) ≤ unadvertised batch.dev 511 ∧
      12 * natMax 1 (rdf due.dev .swLcf (tix (511 / 8)) 7 0) ≤ due.dev.now - (linkSt due.dev 511).lcfAt ∧
      12 * natMax 1 (rdf busy.dev .swLcf (tix (511 / 8)) 7 0) ≤ busy.dev.now - (linkSt busy.dev 511).lcfAt) ∧
    (∀ t ∈ [first, batch, due], tget? t.dev.sw.tx 511 = none) ∧ tget? busy.dev.sw.tx 511 ≠ none := by decide

theorem witness_FramesSent :
    let s := st (fun d => setEgrQ (credit 511 (linkOn 511 d)) 511 0 [egr0 frame0])
    let t := st (fun d => { d with sw := { d.sw with tx := [(511, egr0 frame0)] } })
    let x : MirHeld := ⟨15, some 3, frame0⟩
    let u := st (fun d => { wr (wr (wr d .mirCtl [15] (2 ^ 31 + 3 * 2 ^ 25 + 511 * 2 ^ 9)) .mirMaxcells [15] 100) .rtPort (lix 511) (3 * 2 ^ 28 + 2 * 2 ^ 26) with
      rt := { d.rt with mirHeld := [x] }, sw := { d.sw with ing := [ing0 3 5 frame0] } })
    (Running s ∧ canStart s.dev 511 = true ∧ headOf s.dev 511 0 = some (egr0 frame0)) ∧
    canStart s0.dev 511 = false ∧ tget? s.dev.sw.tx 511 = none ∧
    (tget? t.dev.sw.tx 511 = some (egr0 frame0) ∧ (egr0 frame0).swatch = none ∧ (egr0 frame0).ing = none ∧
      (egr0 frame0).launch = none) ∧
    (u.dev.rt.mirHeld.find? (fun h => h.session == 15) = some x ∧ mirWay u.dev 15 = true ∧
      mirCells u.dev 15 + frameCells u.dev x.frame ≤ rdf u.dev .mirMaxcells [15] 15 0 ∧
      x.ing = some 3 ∧ findIng u.dev 3 = some (ing0 3 5 frame0)) := by decide

theorem witness_FencesSamplesBroadcasts :
    let i : Ing := { ing0 3 5 frame0 with hold := .fence }
    let fen := fun ds => st (fun d => { d with rt := { d.rt with fences := [(65535, 3, ds)] }, sw := { d.sw with ing := [i] } })
    let s := fen [0, 2]
    let t := fen [0, 2, 1, 3]
    let b := fun m us => st (fun d => (List.range 4).foldl (fun d die => wrf d .meshBcastCtl [die] 1 0 m)
      { d with rel := { d.rel with patrol := us } })
    (Running s ∧ fenceAt s.dev 65535 = some (65535, 3, [0, 2]) ∧ (3 : Fin 4).val ∉ [0, 2] ∧ fenceAt s.dev 0 = none) ∧
    (∀ i ∈ t.dev.sw.ing, inStall i = false ∧ i.hold ≠ .orderQ) ∧
    (fenceAt t.dev 65535 = some (65535, 3, [0, 2, 1, 3]) ∧ fenceClear t.dev 65535 [0, 2, 1, 3] = true ∧
      fenceClear s.dev 65535 [0, 2] = false) ∧
    (rdf (b 1 []).dev .meshBcastCtl [bcastTile (b 1 []).dev 63 none / 16] 1 0 ≠ 0 ∧
      (rdf (b 0 []).dev .meshBcastCtl [bcastTile (b 0 []).dev 63 none / 16] 1 0 = 0 ∧ unitRuns (b 0 []).dev none = false) ∧
      unitRuns (b 0 [.core 71]).dev (some (.core 71)) = true) := by decide

def part0 : Partial := ⟨7, 3, 0, 2, [0, 1], 0, 2, 0, [1, 2, 3], false⟩
def oper0 : OutOp := ⟨63, 0, part0⟩
def flight0 : Flight :=
  { (default : Flight) with id := 9, load := .partial_ part0 5, chan := 0, tile := 12, prev := 12, dests := [12], plane := 1 }
/-- A Seam flit of zeros whose CRC holds. -/
def flit0 : SeamFlit := ⟨0, 3975388681⟩

theorem crcReg_append (c : Nat) (a b : List Byte) : crcReg c (a ++ b) = crcReg (crcReg c a) b := by
  induction a generalizing c with
  | nil => rfl
  | cons x r ih => exact ih _

theorem seamCrc_zero (f : SeamFlit) (h : leBytes 256 f.data.toNat ++ leBytes 4 (f.side.toNat / 2 ^ 32)
    = List.replicate 130 0 ++ List.replicate 130 0) : seamCrc f = 3975388681 := by
  have e1 : crcReg 0xFFFFFFFF (List.replicate 130 (0 : Byte)) = 975184426 := by decide +kernel
  unfold seamCrc crc32c
  rw [h, crcReg_append, e1]
  decide +kernel

theorem witness_MeshAndSeam :
    let c : Ctx := { (default : Ctx) with st := 2, cores := [3, 4, 5], chunks := [] }
    let fl : List Flight := [flight0, { flight0 with id := 10, dests := [50] }, { flight0 with id := 11, chan := 1 }]
    let s := st (fun d => { d with coll := { d.coll with outq := [oper0], ctxs := [(7, c)] }, sw := { d.sw with flights := fl } })
    let k : Copy := ⟨1, [5], 2, .port⟩
    let i : Ing := { ing0 3 511 frame0 with copies := [k] }
    let t := st (fun d => { d with sw := { d.sw with ing := [i] } })
    let t2 := st (fun d => { d with now := 1000, sw := { d.sw with ing := [{ i with rxAt := 900 }, { ing0 4 0 frame0 with copies := [k], rxAt := 0 }] } })
    let v := st (fun d => { d with sw := { d.sw with flights := [flight0, { flight0 with id := 10, age := 1 }] } })
    let z := st (fun d => { wr d .pwrDomState [6] (0xFF * 2 ^ 24) with sw := { d.sw with flights := [flight0] } })
    let errs : Tab (List (Nat × Bool)) := [(535, List.replicate 16 (0, false)), (536, List.replicate 16 (0, false))]
    let w := fun (wait : Bool) (bad : Option SeamFlit) (m : List Nat) => st (fun d => setSeam d 3 15
      { seamSt d 3 15 with waiting := wait, failed := bad, fails := 15, mapped := m, wireErr := errs })
    let behind := (List.range 4).map (fun n => { flight0 with id := 20 + n, tile := 13, dests := [14] })
    let full := st (fun d => { d with sw := { d.sw with flights := { flight0 with id := 10, dests := [14] } :: behind } })
    let late := st (fun d => { d with now := 1000000, sw := { d.sw with flights := fl } })
    ((match oldest s.dev 63 (cands s.dev 63) with | some (.oper o) => o == oper0 | _ => false) = true ∧
      ctxOf s.dev part0.slot = some c ∧ findChunk c part0.chunk = none ∧ outGranted s.dev 63 (.oper oper0) = false) ∧
    ((match oldest t.dev 63 (cands t.dev 63) with | some (.copy j x) => j == i && x == k | _ => false) = true ∧
      (cands s.dev 0).isEmpty = true) ∧
    (outGranted t.dev 63 (.copy i k) = false ∧ outGranted t2.dev 63 (.copy { i with rxAt := 900 } k) = true ∧
      (match oldest t2.dev 63 (cands t2.dev 63) with | some (.copy j x) => j == { i with rxAt := 900 } && x == k | _ => false) = true) ∧
    (outbid s.dev flight0 = false ∧ outbid s.dev { flight0 with id := 10, dests := [50] } = false ∧
      findFlight v.dev 9 = some flight0 ∧ outbid v.dev flight0 = true ∧ asleep s.dev flight0 = false ∧
      asleep s.dev { flight0 with id := 10, dests := [50] } = false ∧ findFlight z.dev 9 = some flight0 ∧ asleep z.dev flight0 = true) ∧
    (findFlight s.dev 9 = some flight0 ∧ Unmarked s.dev 6 (tileOfN 12 / 16) (tileOfN 12 % 16) ∧
      goal flight0 = flight0.tile ∧ flight0.chan = 0) ∧
    (∃ b, b < 64 ∧ findFlight s.dev 10 = some { flight0 with id := 10, dests := [50] } ∧ goal { flight0 with id := 10, dests := [50] } = 50 ∧
      adaptive s.dev 1 12 50 = some b ∧ mayGo s.dev 1 0 12 b (partFlits s.dev part0) = true) ∧
    (findFlight full.dev 10 = some { flight0 with id := 10, dests := [14] } ∧ adaptive full.dev 1 12 14 = some 13 ∧
      mayGo full.dev 1 0 12 13 (partFlits full.dev part0) = false ∧ outbid full.dev { flight0 with id := 10, dests := [14] } = false) ∧
    (findFlight s.dev 11 = some { flight0 with id := 11, chan := 1 } ∧ findFlight late.dev 9 = some flight0 ∧
      natMax 1 (rdf late.dev .meshCtl [dieOfN flight0.tile] 7 0) ≤ 2 * (late.dev.now - flight0.since) ∧
      2 * (s.dev.now - flight0.since) < natMax 1 (rdf s.dev .meshCtl [dieOfN flight0.tile] 7 0)) ∧
    (Unmarked s.dev 7 3 15 ∧ seamCrc flit0 = flit0.side.toNat % 2 ^ 32 ∧ (seamSt s.dev 3 15).waiting = false ∧
      (seamSt s.dev 3 15).failed = none ∧ seamType flit0 ≠ 3 ∧ seamType flit0 ≠ 2 ∧ seamCrc ⟨0, 1⟩ ≠ (1 : BitVec 64).toNat % 2 ^ 32) ∧
    ((seamSt (w true (some ⟨5, 0⟩) []).dev 3 15).waiting = true ∧ (seamSt (w true none []).dev 3 15).failed = none ∧
      (seamSt (w true (some ⟨5, 0⟩) []).dev 3 15).failed.map seamSeq = some (seamSeq ⟨0, 1⟩)) ∧
    (wireDue (w false none []).dev 3 15 535 = true ∧ wireDue s.dev 3 15 535 = false ∧
      (seamSt (w false none []).dev 3 15).mapped.length < 8 ∧ wireDue (w false none [1, 2, 3, 4, 5, 6, 7, 8]).dev 3 15 535 = true ∧
      8 ≤ (seamSt (w false none [1, 2, 3, 4, 5, 6, 7, 8]).dev 3 15).mapped.length) := by
  refine ⟨?_, ?_, ?_, ?_, ?_, ?_, ?_, ?_, ?_, ?_, ?_⟩
  · decide +kernel
  · decide +kernel
  · decide +kernel
  · decide +kernel
  · decide +kernel
  · decide +kernel
  · decide +kernel
  · decide +kernel
  · rw [seamCrc_zero flit0 (by decide +kernel), seamCrc_zero ⟨0, 1⟩ (by decide +kernel)]
    decide +kernel
  · decide +kernel
  · decide +kernel

/-- LN_STATE.STATE of lane 511. -/
def laneIn (n : Nat) (d : Dev) : Dev := wrf d .lnState (lix 511) 2 0 n

theorem witness_Lanes :
    let s := fun n => st (laneIn n)
    let t := st (fun d => setLane (laneIn 5 d) 511 { laneSt d 511 with ucwRun := 8, claim := some 2, key := some (77, 511) })
    let u := st (fun d => wr (laneIn 2 d) .lnFom (lix 511) 0xFF00FFFF)
    let v := st (fun d => (portLanes d 511).foldl (fun d l => wr d .lnState (lix l) 4) d)
    let g : TrainFrame := ⟨trainMarker, 2, BitVec.ofNat 2 (lnW (s 2).dev (portOf (s 2).dev 511)), 511, 5, 0x80, 0, 77, 0⟩
    let sealed := fun g : TrainFrame => { g with crc := BitVec.ofNat 32 (trainCrc g) }
    let f := sealed g
    (∀ n < 8, Running (s n) ∧ laneState (s n).dev 511 = n ∧ rdb (s n).dev .lnState (lix 511) 3 = false) ∧
    Unmarked (s 5).dev 3 (511 / 128) (511 % 128) ∧
    (laneState t.dev 511 = 5 ∧ 8 ≤ (laneSt t.dev 511).ucwRun ∧ (laneSt t.dev 511).claim ≠ none ∧
      (laneSt (s 5).dev 511).claim ≠ some 3 ∧ (laneSt (s 2).dev 511).claim ≠ some 0) ∧
    (goodTraining f = true ∧ f.width.toNat = lnW (s 2).dev (portOf (s 2).dev 511) ∧
      goodTraining (sealed { g with width := g.width + 1 }) = true ∧
      ({ g with width := g.width + 1 } : TrainFrame).width.toNat ≠ lnW (s 2).dev (portOf (s 2).dev 511) ∧
      g.crc.toNat ≠ trainCrc g ∧ ({ f with marker := 0 } : TrainFrame).marker ≠ trainMarker) ∧
    ((failing (s 2).dev 511).length ≠ 1 ∧ laneState u.dev 511 = 2 ∧ (∃ k < 5, failing u.dev 511 = [k])) ∧
    (portLanes v.dev 511 ≠ [] ∧ (∀ j ∈ portLanes v.dev 511, laneState v.dev j = 4) ∧
      (∃ j ∈ portLanes (s 5).dev 511, laneState (s 5).dev j ≠ 4)) := by decide +kernel

theorem witness_QuietAndRetrain :
    let s := st (fun d => { wr (lanesUp 511 d) .lnQuiet (lix 511) 0xC0000000 with now := 10 })
    let t := st (fun d => setEgrQ d 511 2 [egr0 frame0])
    (Running s ∧ rdb s.dev .lnQuiet (lix 511) 31 = true ∧ laneState s.dev 511 = 5 ∧
      egressEmpty s.dev (portOf s.dev 511) = true ∧
      6 * natMax 1 (rdf s.dev .lnQuiet (lix 511) 19 0) ≤ 5 * (s.dev.now - (linkSt s.dev (portOf s.dev 511)).idleAt) ∧ unadvertised s.dev (portOf s.dev 511) = 0 ∧
      s.dev.time.launches = [] ∧ rdb s.dev .lnQuiet (lix 511) 30 = true) ∧
    (rdb t.dev .lnQuiet (lix 511) 31 = false ∧ rdb t.dev .lnQuiet (lix 511) 30 = false ∧
      egressEmpty t.dev (portOf t.dev 511) = false) := by decide

/-! ### Collectives and shards -/

/-- Parameters of a context in slot 7 with four members; its RUB form is bound to shard 100. -/
def params0 (op : Nat) : CollParams :=
  { (default : CollParams) with
    handle := 7, part := 4095, pattern := 9, op := BitVec.ofNat _ op, total := 24, chunkElems := 12
    window := 8, stragUs := 5, root := if op = 8 then 0xFFFFF else 0, shard := 100, stepBase := 5, partnerEp := 6, partnerSig := 9 }
def ctx0 (op : Nat) : Ctx :=
  { (default : Ctx) with
    st := 1, p := params0 op, gen := 3, sig := 77, cores := [3, 4, 5], granted := 8, lastCred := 2, limit := 100
    members := [5, 6, 7, 8].map (fun x => BitVec.ofNat 64 (x * 2 ^ 40)), area := 1048576, next := [(1, 1)] }
def withCtx (c : Ctx) (d : Dev) : Dev := { d with coll := { d.coll with ctxs := [(7, c)] } }
/-- A frame of the contribution class with a kind and a payload of 12 elements, taken at tile 0. -/
def contrib (kind op : Nat) : Ing :=
  let h : CollHdr := { (default : CollHdr) with
    handle := 7, gen := 3, kind := BitVec.ofNat _ kind, chunk := 1, rank := 1, op := BitVec.ofNat _ op, sig := 77, elems := 12
    credit := 0x55 }
  let f : Frame := { frame1 with hdr := { frame1.hdr with coll := true, src := 6, plen := 72 }, chdr := h, payload := List.replicate 48 0x41 }
  { ing0 3 0 f with vcIn := if kind = 0 then 1 else 2, hold := .taken }
def takenAt0 (i : Ing) (d : Dev) : Dev :=
  { d with sw := { d.sw with ing := [i] }, coll := { d.coll with taken := [(0, [3])], preQ := [(0, [3])] } }
def chunk0 : Chunk := { (default : Chunk) with idx := 1, timer := some 3 }

theorem witness_PreReduction :
    let i := contrib 0 0
    let c : Ctx := { ctx0 0 with members := [5, 6, 7, 0x12C] }
    let x : PreSlot := ⟨7, 1, 0, 1, 0, [0, 2, 3], List.range 12, []⟩
    let s := st (fun d => withCtx c (takenAt0 i d))
    let t := st (fun d => setPre (withCtx c (takenAt0 i d)) 0 [x])
    let y : PreSlot := ⟨7, 1, 0, 2, 0, [0], [], [(0, List.range 12)]⟩
    let w := st (fun d => setPre (withCtx { c with p := { c.p with mode := 1 } } (takenAt0 i d)) 0 [y])
    let u := st (fun d => withCtx c { d with coll := { d.coll with spills := [⟨9, 0, 7, 5, 0, 3⟩] } })
    (Running s ∧ tgetD s.dev.coll.preQ 1 [] = [] ∧ tgetD s.dev.coll.preQ 0 [] = [3] ∧ findIng s.dev 3 = some i ∧
      ctxOf s.dev 7 = some c ∧ live c = true ∧ c.gen = i.frame.chdr.gen ∧ live { c with st := 3 } = false) ∧
    (rdb s.dev .preCtl (tix 0) 31 = false ∧ rdb s.dev .preCtl (tix 0) 30 = false ∧ pdOn s.dev (112 + 0 / 16) = true ∧ (0 : Nat) ≠ opBcast ∧ (0 : Nat) ≠ opBarrier ∧
      effMode c.p = 0 ∧ 4 ≤ membersOn s.dev c 0 * typeBytes 0 ∧ preOf s.dev 0 = [] ∧ Unmarked s.dev 0x0A (0 / 16) (0 % 16) ∧
      2 ≤ membersOn s.dev c 0) ∧
    (preOf t.dev 0 = [x] ∧ x.slot = 7 ∧ x.chunk = i.frame.chdr.chunk.toNat ∧ x.pos = 0 ∧ x.size = 1 ∧
      x.ranks.length + 1 = membersOn t.dev c 0 ∧ takeAt (preOf t.dev 0) 0 = some (x, []) ∧ takeAt (preOf t.dev 0) 1 = none) ∧
    (takeAt (preOf w.dev 0) 0 = some (y, []) ∧ ctxOf w.dev 7 = some { c with p := { c.p with mode := 1 } } ∧
      effMode { c.p with mode := 1 } = 1) ∧
    (u.dev.coll.spills.find? (fun x => x.tile == 0 && x.wait == 0) = some ⟨9, 0, 7, 5, 0, 3⟩ ∧ ctxOf u.dev 7 = some c) := by
  decide +kernel

theorem witness_CoreWork :
    let x : Partial := ⟨7, 1, 0, 2, [0, 1], 0, 2, 0, List.range 12, false⟩
    let s := fun (k : Chunk) (marks : List (Nat × Nat × Nat × Nat)) => st (fun d =>
      let d := withCtx { ctx0 0 with chunks := [k] } d
      { wr d .rcCoreState [0, 0, 3] 1 with coll := { d.coll with stg := [(3, [x])] }, rel := { d.rel with marks := marks } })
    let k1 : Chunk := { chunk0 with count := 2 }
    let k2 : Chunk := { chunk0 with done := true, sampled := true, shadow := some 4, res := [1], rep := ⟨2, 4, some [1], []⟩ }
    let q := coreOf { ctx0 0 with chunks := [k2] } 1
    (Running (s chunk0 []) ∧ tgetD (s chunk0 []).dev.coll.stg (3 : Fin 72) [] = [x] ∧ nameUp (s chunk0 []).dev (8 * (3 / 9) + 3 % 9) = true ∧
      nameOn (s chunk0 []).dev (8 * (3 / 9) + 3 % 9) = true ∧ nameOn (wr (s chunk0 []).dev .pwrDomState [0] 64) (8 * (3 / 9) + 3 % 9) = false ∧
      ctxOf (s chunk0 []).dev x.slot = some { ctx0 0 with chunks := [chunk0] } ∧
      findChunk { ctx0 0 with chunks := [chunk0] } x.chunk = some chunk0 ∧ live (ctx0 0) = true ∧ chunk0.done = false) ∧
    (chunk0.count + x.count + chunk0.memCount < 4 ∧ effMode (ctx0 0).p ≠ 1 ∧ 4 ≤ k1.count + x.count ∧ k1.memCount = 0 ∧
      tgetD (s chunk0 []).dev.coll.stg (4 : Fin 72) [] = []) ∧
    (k2.done = true ∧ k2.sampled = true ∧ k2.compared = false ∧ Unmarked (s k2 []).dev 0x0B (q / 16) (coreNo q) ∧
      ¬ Unmarked (s k2 [(0x0B, q / 16, coreNo q, 7)]).dev 0x0B (q / 16) (coreNo q) ∧
      shadowDone (ctx0 0) k2 = true ∧ k2.res = shadowRes (ctx0 0) k2 ∧ { k2 with res := [2] }.res ≠ shadowRes (ctx0 0) k2 ∧
      shadowDone (ctx0 0) { k2 with rep := ⟨0, 0, none, []⟩ } = false ∧
      comparable (s k2 []).dev (ctx0 0) k2 = true ∧ comparable (s k2 []).dev (ctx0 0) { k2 with compared := true } = false) ∧
    (nextOperand (s chunk0 []).dev (3 : Fin 72) [x] = some x ∧ shadowChunk (s chunk0 []).dev (3 : Fin 72) x = none ∧
      Unmarked (s chunk0 []).dev 9 (3 / 16) (coreNo 3) ∧ (ctx0 0).p.op.toNat ≠ opBarrier) ∧
    ({ k2 with compared := true }.compared = true ∧ (ctx0 0).p.op.toNat ≠ opRub ∧ (ctx0 8).p.op.toNat = opRub) := by
  decide +kernel

/-- Partition 4095 LIVE on every port; regions of collective and optimizer state; every core in service. -/
def live4095 (d : Dev) : Dev :=
  setPart d 4095 { partOf d 4095 with st := 1, even := ⟨BitVec.ofNat 512 (2 ^ 512 - 1), true, 3, 1⟩ }
def regions (d : Dev) : Dev := wr (wr (wr d .collMemSize [] 16) .optMemSize [] 1) .optMemBaseLo [] 0x40000000
def pat0 : Pattern := ⟨true, 4095, 5, [1, 2, 3], 0⟩

theorem witness_PatternCommands :
    let ms := bytesOf 8 [5 * 2 ^ 40]
    let f := fun d => regions (live4095 { d with coll := { d.coll with pats := [(9, pat0)] } })
    let set := fun n => [(14, 9), (12, 4095), (32, n), (64, 64)]
    let s := fun n => st (fun d => asked ringHdr 0x20 (set n) (f d))
    let s1 := st (fun d => asked ringHdr 0x21 [(14, 9)] (f d))
    let t := st (fun d => asked ringHdr 0x20 (set 131072) (withCtx (ctx0 0) d))
    let t1 := st (fun d => asked ringHdr 0x21 [(14, 9)] (withCtx (ctx0 0) d))
    (Passes t.dev ringHdr 0x20 .h [some 9, some 4095, some 131072, none] ∧ Passes t1.dev ringHdr 0x21 .h [some 9] ∧
      Passes (s 0).dev ringHdr 0x20 .h [some 9, some 4095, some 0, none] ∧
      Passes (s 1).dev ringHdr 0x20 .h [some 9, some 4095, some 1, none] ∧ Passes s1.dev ringHdr 0x21 .h [some 9]) ∧
    (Running t ∧ Running t1 ∧ patBusy t.dev 9 = true ∧ patBusy t1.dev 9 = true ∧ 1 ≤ (131072 : BitVec 32).toNat ∧
      (131072 : BitVec 32).toNat ≤ 131072 ∧ 131072 < (131073 : BitVec 32).toNat) ∧
    (Running (s 1) ∧ patBusy (s 1).dev 9 = false ∧ Unmarked (s 1).dev 0x20 0 0 ∧ tget? s1.dev.coll.pats 9 = some pat0 ∧
      patBusy s1.dev 9 = false ∧ badMember (s 1).dev 4095 ((elemsOf 8 ms 1).map (BitVec.ofNat 64)) = none ∧
      badMember (s 1).dev 4095 [5 * 2 ^ 40, 1] = some 1) :=
  ⟨⟨passes_asked (by decide) (by decide) (by decide), passes_asked (by decide) (by decide) (by decide),
    passes_asked (by decide) (by decide) (by decide), passes_asked (by decide) (by decide) (by decide),
    passes_asked (by decide) (by decide) (by decide)⟩, by decide +kernel, by decide +kernel⟩

/-- The parameter block that spells a context's parameters (spec/14 R354). -/
def blockOf (p : CollParams) : List Byte :=
  packFields [(20, p.handle.toNat), (12, p.part.toNat), (14, p.pattern.toNat), (4, p.op.toNat), (2, p.mode.toNat),
    (4, p.itype.toNat), (4, p.otype.toNat), (20, p.root.toNat), (64, p.total.toNat), (14, p.chunkElems.toNat),
    (16, p.window.toNat), (4, p.ordHold.toNat), (20, p.stragUs.toNat), (64, p.place.toNat), (16, p.downGroup.toNat),
    (1, b2n p.roundEvt), (1, b2n p.spillEn), (13, p.shard.toNat), (32, p.stepBase.toNat), (1, b2n p.gradOut), (1, b2n p.prime),
    (1, b2n p.mirrorEn), (24, p.partnerEp.toNat), (10, p.partnerTarget.toNat), (20, p.partnerHandle.toNat),
    (8, p.partnerGen.toNat), (32, p.partnerSig.toNat)] ++ [0, 0, 0, 0]

/-- The worked layout of spec/14 R465: the COLL_CREATE block of the worked all-reduce of spec/07. -/
theorem test_coll_create_layout :
    let b : List Byte := [0x5A, 0xC0, 0x02, 0, 0x07, 0, 0x78, 0, 0, 0, 1, 1, 0xFF, 0xFF, 0x0F, 0, 0, 0, 0, 0x18, 0, 0, 0, 0,
      0, 0x10, 0, 2, 0, 0, 0, 0, 0xD0, 0x07, 0, 0, 0, 0, 0, 0, 0, 0, 0, 0, 0, 0, 0, 0, 0x40, 1, 0, 1] ++ List.replicate 36 0
    let p : CollParams := { (default : CollParams) with
      handle := 0x2C05A, part := 7, pattern := 120, itype := 1, otype := 1, root := 0xFFFFF, total := 402653184
      chunkElems := 4096, window := 512, stragUs := 2000, downGroup := 0x140, spillEn := true }
    b.length = 88 ∧ collBlock b = some p ∧ collBlock (lset b 29 1) = none ∧ collBlock (lset b 2 0x12) = none := by decide +kernel

theorem witness_ContextCommands :
    let f := fun d => regions (live4095 { d with coll := { d.coll with pats := [(9, pat0)] } })
    let s := st (fun d => asked ringHdr 0x22 [] (f d))
    let busy := st (fun d => asked ringHdr 0x22 [] (withCtx (ctx0 0) d))
    let q := fun opc fs n => st (fun d => asked ringHdr opc fs (withCtx { ctx0 0 with st := n } d))
    let un := fun opc fs => st (fun d => asked ringHdr opc fs d)
    (Passes s.dev ringHdr 0x22 .h [] ∧ Passes busy.dev ringHdr 0x22 .h [] ∧
      (∀ g, ∀ n ∈ [1, 3], Passes (q 0x23 [(20, 7), (1, b2n g)] n).dev ringHdr 0x23 .h [some 7, some (b2n g)]) ∧
      (∀ opc ∈ [0x24, 0x25], Passes (q opc [(20, 7)] 1).dev ringHdr opc .h [some 7]) ∧
      Passes (un 0x23 [(20, 7), (1, 1)]).dev ringHdr 0x23 .h [some 7, some (b2n true)] ∧
      Passes (un 0x24 [(20, 7)]).dev ringHdr 0x24 .h [some 7]) ∧
    (Running s ∧ Unmarked s.dev 0x20 0 0 ∧ collBlock (blockOf (params0 0)) = some (params0 0) ∧
      collBlock (lset (blockOf (params0 0)) 84 1) = none ∧ (ctxOf busy.dev ((params0 0).handle.toNat % 16384)).isSome = true) ∧
    (ctxOf s.dev ((params0 0).handle.toNat % 16384) = none ∧ (partOf s.dev 4095).st = 1 ∧
      tget? s.dev.coll.pats (params0 0).pattern.toNat = some pat0 ∧ pat0.valid = true ∧ pat0.part = (params0 0).part ∧
      pairOk 0 0 0 0 = true ∧ (params0 0).op.toNat ≠ opRub) ∧
    (named (un 0x24 [(20, 7)]).dev 7 = none ∧ named (q 0x24 [(20, 7)] 1).dev 7 = some (ctx0 0) ∧ live (ctx0 0) = true ∧
      named (q 0x23 [(20, 7), (1, 0)] 3).dev 7 = some { ctx0 0 with st := 3 } ∧
      ctxOf (q 0x25 [(20, 7)] 1).dev ((7 : BitVec 20).toNat % 16384) = some (ctx0 0)) := by
  refine ⟨⟨passes_asked (by decide) (by decide) (by decide), passes_asked (by decide) (by decide) (by decide), ?_, ?_,
    passes_asked (by decide) (by decide) (by decide), passes_asked (by decide) (by decide) (by decide)⟩,
    by decide +kernel, by decide +kernel, by decide +kernel⟩
  · intro g n h
    fin_cases h <;> cases g <;> exact passes_asked (by decide) (by decide) (by decide)
  · intro opc h
    fin_cases h <;> exact passes_asked (by decide) (by decide) (by decide)

theorem witness_ContextTimers :
    let s := fun (c : Ctx) => st (fun d => withCtx c (takenAt0 (contrib 0 0) d))
    let dead : Ctx := { ctx0 0 with st := 4 }
    let r := takenFrame (untake (s (ctx0 0)).dev.fresh 0 3) 0 true (contrib 0 0).frame
    (Running (s (ctx0 0)) ∧ takenContrib (s (ctx0 0)).dev 1 = none ∧ takenContrib (s (ctx0 0)).dev 0 = some (contrib 0 0) ∧
      (contrib 0 0).vcIn = 1 ∧ r.1.chdr.kind = 0 ∧ firstCheck r.2 r.1 = some (ctx0 0)) ∧
    (live (ctx0 0) = true ∧ (ctx0 0).p.root.toNat ≠ noRank ∧ (ctx0 0).lastCred < (ctx0 0).granted ∧
      { ctx0 0 with granted := 34 }.lastCred + natMax 1 (rdf (s (ctx0 0)).dev .collCred [] 15 8) ≤ { ctx0 0 with granted := 34 }.granted ∧
      (ctx0 0).credAt + 120 * natMax 1 (rdf (s (ctx0 0)).dev .collCred [] 7 0) ≤ 1000000 ∧
      rubRole (s (ctx0 0)).dev (ctx0 0) 1 = false ∧ { ctx0 0 with granted := 2 }.granted ≤ (ctx0 0).lastCred) ∧
    (findChunk { ctx0 0 with chunks := [chunk0] } 1 = some chunk0 ∧ chunk0.timer.isSome = true ∧ (ctx0 0).p.stragUs ≠ 0 ∧
      { chunk0 with timer := none }.timer = none) ∧
    (ctxOf (st (withCtx dead)).dev 7 = some dead ∧ dead.st = 4 ∧ slotBusy (st (withCtx dead)).dev 7 = false ∧
      areaBusy (st (withCtx dead)).dev dead = false ∧ dead.chunks = [] ∧
      (ctx0 0).st ≠ 4) := by decide +kernel

/-- The four outcomes of the checks of R183 on a contribution. -/
theorem witness_ContextTimers_verdicts :
    let v := fun (c : Ctx) (i : Ing) =>
      let s := st (fun d => withCtx c (takenAt0 i d))
      let r := takenFrame (untake s.dev.fresh 0 3) 0 true i.frame
      contribVerdict r.2 c i.port r.1
    (v (ctx0 0) (contrib 0 0)).1 = none ∧ (v { ctx0 0 with sig := 4 } (contrib 0 0)).1 = some (.abort 1) ∧
      (v { ctx0 0 with st := 2, hwm := 1 } (contrib 0 0)).1 = some .stale ∧
      (v { ctx0 0 with area := 0 } (contrib 0 0)).1 = none ∧
      (let s := st (fun d => withCtx (ctx0 0) { takenAt0 (contrib 0 0) d with mem := { d.mem with poison := [0] } })
       let r := takenFrame (untake s.dev.fresh 0 3) 0 true (contrib 0 0).frame
       (contribVerdict r.2 (ctx0 0) 0 r.1).1 = some (.poison 0)) := by decide +kernel

/-- A shard of 24 elements of program `prog`, bound to slot 7. -/
def shard0 (prog role : Nat) : Shard :=
  { (default : Shard) with
    st := 2, part := 4095, role := role, elems := 24, step := 4, base := 2 ^ 30, z := 512, bound := some 7
    segs := [⟨0, 24, prog, 0, 0, 1, 0, if prog = 3 then 3 else if prog = 1 then 1 else 2⟩]
    hs := List.replicate 16 ⟨List.replicate 16 0x3F800000, none⟩ }
/-- A segment word of SHARD_SET's list: start, count, program. -/
def segWord (start count prog : Nat) : Nat := start * 2 ^ 88 + count * 2 ^ 48 + prog * 2 ^ 44

theorem witness_ShardCommands :
    let b : List Byte := bytesOf 16 [segWord 0 100 2]
    let p : ShardParams := { (default : ShardParams) with sh := 100, part := 4095, elems := 100, segCount := 1, segData := .ok b, initData := .ok [] }
    let hp := packFields ([(13, 100), (4, 15), (32, 6)] ++ List.replicate 16 (32, 9))
    let f := fun d => regions (live4095 d)
    let set := fun (p : ShardParams) d => asked ringHdr 0x30 [(13, p.sh.toNat), (12, p.part.toNat), (1, p.role.toNat), (41, p.elems.toNat),
      (32, p.step.toNat), (64, p.segAddr.toNat), (32, p.segCount.toNat), (64, p.initAddr.toNat)] d
    let pass := fun (p : ShardParams) => Passes (st (fun d => set p (f d))).dev ringHdr 0x30 .h [some p.sh.toNat, some p.part.toNat,
      some p.role.toNat, some p.elems.toNat, some p.step.toNat, some p.segAddr.toNat, some p.segCount.toNat, some p.initAddr.toNat]
    let s := st f
    let t := st (fun d => setShard d 100 (shard0 2 0))
    (pass p ∧ pass { p with elems := 0 } ∧ pass { p with elems := 2 ^ 40 + 1 } ∧ pass { p with segCount := 0 } ∧
      pass { p with segCount := 65 } ∧
      Passes (st (fun d => asked ringHdr 0x31 [(13, 100)] (setShard d 100 (shard0 2 0)))).dev ringHdr 0x31 .h [some 100] ∧
      Passes (st (asked ringHdr 0x32 [])).dev ringHdr 0x32 .h []) ∧
    (Running s ∧ Unmarked s.dev 0x20 0 0 ∧ (shardOf t.dev p.sh.toNat).isSome = true ∧ shardOf s.dev p.sh.toNat = none ∧
      (partOf t.dev p.part.toNat).st ≠ 1 ∧ (partOf s.dev p.part.toNat).st = 1) ∧
    (p.elems ≠ 0 ∧ p.elems.toNat ≤ 2 ^ 40 ∧ p.segCount ≠ 0 ∧ p.segCount.toNat ≤ 64 ∧ p.segData = .ok b ∧ p.initData = .ok []) ∧
    (scanSegs s.dev.opt.kernels p.elems.toNat 0 0 (elemsOf 16 b 1) = none ∧
      (scanSegs s.dev.opt.kernels 101 0 0 (elemsOf 16 b 1)).isSome = true ∧
      ((elemsOf 16 b 1).map (parseSeg s.dev.opt.kernels)).any (fun g => g.prog == 15 && (tget? s.dev.opt.kernels g.kernel).isNone) = false ∧
      ([segWord 0 100 15].map (parseSeg s.dev.opt.kernels)).any (fun g => g.prog == 15 && (tget? s.dev.opt.kernels g.kernel).isNone) = true ∧
      scanSegs s.dev.opt.kernels 100 0 0 [segWord 0 100 15] = none ∧
      (optFit (wr s.dev .optMemSize [] 2) (2 * sideBytes ((elemsOf 16 b 1).map (parseSeg s.dev.opt.kernels)))).isSome = true ∧
      optFit s.dev (2 * sideBytes ((elemsOf 16 b 1).map (parseSeg s.dev.opt.kernels))) = none) ∧
    ((shard0 2 0).bound.isSome = true ∧ { shard0 2 0 with bound := none }.bound = none) ∧
    (hparamBlock hp = some ⟨100, 15, 6, List.replicate 16 9⟩ ∧ hparamBlock (lset hp 3 1) = none ∧
      shardOf t.dev 100 = some (shard0 2 0) ∧ 2 ≤ (shard0 2 0).st ∧ (6 : BitVec 32).toNat ≠ 0 ∧
      { shard0 2 0 with step := 4 }.step.toNat + 1 < (6 : BitVec 32).toNat ∧ (5 : BitVec 32).toNat ≤ ((shard0 2 0).step + 1).toNat) := by
  refine ⟨⟨?_, ?_, ?_, ?_, ?_, ?_, ?_⟩, by decide +kernel, by decide +kernel, by decide +kernel, by decide +kernel, by decide +kernel⟩ <;>
    exact passes_asked (by decide +kernel) (by decide +kernel) (by decide +kernel)

theorem witness_CommitIsAtomic :
    let c : OptCommit := ⟨4095, 5, 3, 0, ⟨.ring 0, 4, 5, 0⟩, none⟩
    let s := fun (x : Shard) => st (fun d => setShard { d with opt := { d.opt with commits := [c] } } 100 x)
    let bad := fun e : Nat × Shard => e.2.lost || (e.2.bound.isSome && !(e.2.st == 3 && e.2.step + 1 == c.step))
    let free := fun (rb : Bool) => ((partShards (s { shard0 2 0 with bound := none, rb := rb }).dev 4095).filter (fun e => e.2.step == 4))
    (Passes (st (asked ringHdr 0x33 [(12, 4095), (32, 5), (32, 3)])).dev ringHdr 0x33 .h [some 4095, some 5, some 3] ∧
      Passes (st (asked ringHdr 0x34 [(12, 4095), (32, 4)])).dev ringHdr 0x34 .h [some 4095, some 4]) ∧
    ((s (shard0 2 0)).dev.opt.commits.find? (fun c => c.part == 4095) = some c ∧
      (partShards (s (shard0 2 0)).dev 4095).find? bad = some (100, shard0 2 0) ∧
      (partShards (s { shard0 2 0 with st := 3 }).dev 4095).find? bad = none ∧
      s0.dev.opt.commits.find? (fun c => c.part == 4095) = none) ∧
    (((partShards (s (shard0 2 0)).dev 4095).filter (fun e => e.2.step == 4)).any (fun e => e.2.bound.isSome) = true ∧
      (free false).any (fun e => e.2.bound.isSome) = false ∧ (free false).any (fun e => !e.2.rb) = true ∧
      (free true).any (fun e => !e.2.rb) = false) :=
  ⟨⟨passes_asked (by decide) (by decide) (by decide), passes_asked (by decide) (by decide) (by decide)⟩, by decide +kernel,
    by decide +kernel⟩

/-- A complete chunk 1 of the RUB context. -/
def rubChunk : Chunk := { chunk0 with done := true, res := (List.range 12).map (0x3F800000 + ·) }

theorem witness_RubUpdates :
    let c := fun (k : Chunk) => { ctx0 8 with chunks := [k] }
    let s := fun (k : Chunk) (prog role : Nat) => st (fun d => setShard (withCtx (c k) d) 100 (shard0 prog role))
    let due := fun (k : Chunk) (prog role : Nat) =>
      (placeOf (s k prog role).dev (c k) 1).map (fun x => updateDue (s k prog role).dev 7 (c k) k x)
    let d := (s rubChunk 2 0).dev
    let twice := { rubChunk with sampled := true, rep := ⟨4, 4, none, []⟩ }
    (Running (s rubChunk 2 0) ∧ ctxOf d 7 = some (c rubChunk) ∧ findChunk (c rubChunk) 1 = some rubChunk ∧
      (∃ x ∈ placeOf d (c rubChunk) 1, x.shard.role = 0 ∧ x.seg.prog ∈ [1, 2, 3] ∧ slotsQueued d x = false ∧
        slotsQueued { d with mem := { d.mem with reqs := [⟨0x11, { (default : MemReq) with addr := x.shard.base, len := 4 }⟩] } } x = true ∧
        slotPoison (slotGet (d.reading []) x.shard x.shard.side x.k x.seg x.first x.count) x.shard x.shard.side x.k x.seg x.first
          x.count = none ∧
        slotPoison (slotGet ({ d with mem := { d.mem with poison := [slotAddr x.shard x.shard.side x.k x.seg 0 x.first / 64] } }.reading [])
          x.shard x.shard.side x.k x.seg x.first x.count) x.shard x.shard.side x.k x.seg x.first x.count ≠ none)) ∧
    (due rubChunk 2 0 = some true ∧ due twice 15 0 = some true ∧ due rubChunk 2 1 = some true ∧
      due { rubChunk with done := false } 2 0 = some false ∧ (c rubChunk).p.mirrorEn = false) ∧
    (∀ f ∈ fmtOf 0, (grOf d (c rubChunk) rubChunk).all (fun v => match fdec f v with
      | .num _ _ _ => true
      | _ => false) = true) ∧
    (live (c rubChunk) = true ∧ { rubChunk with updated := true }.updated = true ∧ rubChunk.updated = false ∧
      (c rubChunk).p.gradOut = false) := by decide +kernel

theorem witness_RubUpdates_ortho :
    let k := { rubChunk with updated := true }
    let c := { ctx0 8 with chunks := [{ k with idx := 0 }, { k with idx := 1 }], p := { params0 8 with chunkElems := 2 } }
    let s := st (fun d => setShard (withCtx c d) 100 (shard0 4 0))
    let g : Seg := ⟨0, 24, 4, 0, 0, 1, 0, 2⟩
    (shardOf s.dev c.p.shard.toNat = some (shard0 4 0) ∧ (shard0 4 0).segs[0]? = some g ∧ g.prog = 4 ∧
      (0 + 1) * 2 ^ (2 * g.bshift) ≤ g.count ∧ live c = true ∧ c.p.op.toNat = opRub ∧ (shard0 4 0).role = 0) ∧
    (blockChunks c (shard0 4 0) g 0 ≠ [] ∧
      (∀ i ∈ blockChunks c (shard0 4 0) g 0, ∃ k ∈ findChunk c i, k.updated = true ∧ k.blk = false ∧ k.sampled = false)) ∧
    (∀ x ∈ [slotAddr (shard0 4 0) 0 0 g 0 0, slotAddr (shard0 4 0) 1 0 g 1 0, slotAddr (shard0 4 0) 1 0 g 0 0],
      unitsQueued s.dev x (4 * 4) = false) ∧
    (let e := (memGet (memGet (s.dev.reading []) (slotAddr (shard0 4 0) 0 0 g 0 0) (4 * 4)).2 (slotAddr (shard0 4 0) 1 0 g 1 0) (4 * 4)).2
     poisonIn e (slotAddr (shard0 4 0) 0 0 g 0 0) (4 * 4) = none ∧ poisonIn e (slotAddr (shard0 4 0) 1 0 g 1 0) (4 * 4) = none) := by decide +kernel

theorem witness_MirrorAndSeal :
    let s := fun (c : Ctx) (kind role : Nat) => st (fun d => setShard (withCtx c (takenAt0 (contrib kind 8) d)) 100 (shard0 2 role))
    let r := fun (c : Ctx) (kind role : Nat) => takenFrame (untake (s c kind role).dev.fresh 0 3) 0 false (contrib kind 8).frame
    let v := fun (c : Ctx) (kind role : Nat) => rubVerdict (r c kind role).2 c (contrib kind 8).port (r c kind role).1 kind
    let sealed := { ctx0 8 with sealed := [0, 1, 2, 3] }
    (takenKind (s (ctx0 8) 6 1).dev 1 6 = none ∧ takenKind (s (ctx0 8) 7 0).dev 1 7 = none ∧
      takenKind (s (ctx0 8) 6 1).dev 0 6 = some (contrib 6 8) ∧ takenKind (s (ctx0 8) 7 0).dev 0 7 = some (contrib 7 8)) ∧
    (firstCheck (r (ctx0 8) 6 1).2 (r (ctx0 8) 6 1).1 = some (ctx0 8) ∧
      firstCheck (r { ctx0 8 with gen := 9 } 6 1).2 (r { ctx0 8 with gen := 9 } 6 1).1 = none) ∧
    (v (ctx0 8) 6 1 = .take ∧ v { ctx0 8 with sig := 4 } 6 1 = .abort 1 ∧ v (ctx0 8) 7 0 = .take ∧
      v { ctx0 8 with p := { params0 8 with total := 12 } } 6 1 = .hold) ∧
    (rubRole (s (ctx0 8) 6 1).dev (ctx0 8) 1 = true ∧ (ctx0 8).macks = [] ∧ { ctx0 8 with macks := [(1, 7)] }.macks = [(1, 7)]) ∧
    (shardOf (s sealed 6 0).dev 100 = some (shard0 2 0) ∧ (shard0 2 0).bound = some 7 ∧ ctxOf (s sealed 6 0).dev 7 = some sealed ∧
      (∀ i ∈ (List.range (roundN sealed.p)).map (fun q => openRoundNo sealed (shard0 2 0) * roundN sealed.p + q), i ∈ sealed.sealed) ∧
      segsOnWay (s sealed 6 0).dev sealed = false ∧
      (let e := egr0 { frame1 with hdr := { frame1.hdr with coll := true }, chdr := { (default : CollHdr) with kind := 7 } }
       let d := (s sealed 6 0).dev
       segsOnWay { d with sw := { d.sw with ownq := [⟨0, 0, 0, e⟩] } } sealed = true)) := by
  decide +kernel

/-- The Bolt store in service, with one image of generation 9 in a state. -/
def store (n : Nat) (d : Dev) : Dev :=
  setBolt (wr d .boltState [] 2) (fun b => { b with imgs := [⟨4095, 9, 0, n, 4, 1, 5000, 0, 0, [], [5], 3, 0, []⟩], wseq := [(5, 3)] })

theorem witness_Checkpoints :
    let x : CkptShard := ⟨100, shard0 2 0, some [1], false⟩
    let s := fun (x : CkptShard) => st (fun d => setShard { store 1 d with
      opt := { d.opt with ckpts := [⟨4095, 9, 0, 4, [x], ⟨.ring 0, 4, 5, 0⟩⟩] } } 100 (shard0 2 0))
    let t := st (fun d => setShard (store 2 d) 100 (shard0 2 0))
    Passes (asked ringHdr 0x35 [(12, 4095), (2, 2), (32, 9)] t.dev) ringHdr 0x35 .h [some 4095, some 2, some 9] ∧
    ((2 : BitVec 2) ≠ 3 ∧ (s x).dev.opt.ckpts.any (fun c => c.part == 4095) = true ∧
      t.dev.opt.ckpts.any (fun c => c.part == 4095) = false ∧
      ((partShards t.dev 4095).filter (fun e => inScopeOf 2 e.2)).all (fun e => e.2.step == 4) = true) ∧
    (unitsQueued (s x).dev (snapAddr x) x.snap.z = false ∧
      unitsQueued { (s x).dev with mem := { (s x).dev.mem with
        reqs := [⟨0x11, { (default : MemReq) with addr := snapAddr x, len := 4 }⟩] } } (snapAddr x) x.snap.z = true) ∧
    (([{ x with data := none }] : List CkptShard).find? (fun x => x.sh == 100 && x.data.isNone) = some { x with data := none }) ∧
    (flashOn (s x).dev = true ∧ flashOn (wr (s x).dev .pwrDomState [7] 256) = false ∧
      (s x).dev.opt.ckpts.find? (fun c => c.part == 4095 && c.gen == 9) = some ⟨4095, 9, 0, 4, [x], ⟨.ring 0, 4, 5, 0⟩⟩ ∧
      (findImg (s x).dev 4095 9).isSome = true ∧ [x].any (fun x => x.data.isNone) = false ∧
      [{ x with bad := true }].find? (·.bad) = some { x with bad := true } ∧ [x].find? (·.bad) = none) :=
  ⟨passes_asked (by decide) (by decide) (by decide), by decide +kernel, by decide +kernel, by decide +kernel, by decide +kernel⟩

theorem witness_RestoresAndReads :
    let c : Restore := ⟨4095, 9, ⟨.ring 0, 4, 5, 0⟩⟩
    let r : ShardRd := ⟨100, 0, 77, [1, 2, 3], 4, ⟨.ring 0, 4, 5, 0⟩⟩
    let s := st (fun d => setShard { store 2 d with opt := { d.opt with restores := [c], reads := [r] } } 100 (shard0 2 0))
    (Passes (asked ringHdr 0x36 [(12, 4095), (32, 9)] s.dev) ringHdr 0x36 .h [some 4095, some 9] ∧
      Passes (asked ringHdr 0x37 [(13, 100), (2, 1), (40, 3), (40, 4), (64, 77)] s.dev) ringHdr 0x37 .h
        [some 100, some 1, some 3, some 4, some 77]) ∧
    (flashOn s.dev = true ∧ flashOn (wr s.dev .pwrDomState [7] 256) = false ∧
      s.dev.opt.restores.find? (fun c => c.part == 4095 && c.gen == 9) = some c ∧ (findImg s.dev 4095 9).isSome = true) ∧
    (let r := fun (i : BoltImg) => readImage { s.dev.fresh with opt := { s.dev.opt with restores := [] } } i []
     ∀ i ∈ findImg s.dev 4095 9, badAt (r i).2 i (r i).1 = [] ∧ (∀ x ∈ shardsRead [] (r i).1 65536 i.shards, x.2 = false) ∧
      (restoreAll i.step ((shardsRead [] (r i).1 65536 i.shards).map (·.1)) (r i).2).isSome = true ∧
      badAt (r i).2 i [⟨0, 0, 0, none⟩] = [] ∧ badAt (r i).2 { i with seq := 4 } [⟨0, 0, 0, none⟩] ≠ [] ∧
      (∃ x ∈ shardsRead [] (r i).1 65536 [⟨100, shard0 2 0, [1], 0⟩], x.2 = true) ∧
      (restoreAll i.step [⟨200, shard0 2 0, [], w32 (crc32c [])⟩] (r i).2).isNone = true) ∧
    (shardOf s.dev 0 = none ∧ shardOf s.dev 100 = some (shard0 2 0) ∧ s.dev.opt.reads.find? (fun r => r.sh == 100) = some r) :=
  ⟨⟨passes_asked (by decide) (by decide) (by decide), passes_asked (by decide) (by decide) (by decide)⟩, by decide +kernel,
    by decide +kernel, by decide +kernel⟩

theorem witness_BoltCommands :
    let j : BoltJob := ⟨4095, 9, 50, ⟨.ring 0, 4, 5, 0⟩⟩
    let c : Restore := ⟨4095, 9, ⟨.ring 0, 4, 5, 0⟩⟩
    let s := st (fun d => { store 2 d with bolt := { (store 2 d).bolt with exports := [j], deletes := [j] } })
    (Passes (asked ringHdr 0x40 [(64, 64), (32, 5)] s.dev) ringHdr 0x40 .h [some 64, some 5] ∧
      Passes (asked ringHdr 0x41 [(12, 4095), (32, 9)] s.dev) ringHdr 0x41 .h [some 4095, some 9] ∧
      Passes (asked ringHdr 0x42 [(12, 4095), (32, 9), (64, 50)] s.dev) ringHdr 0x42 .h [some 4095, some 9, some 50] ∧
      Passes (asked ringHdr 0x43 [(64, 64)] s.dev) ringHdr 0x43 .both [some 64] ∧
      Passes (asked mgmtHdr 0x43 [(64, 0)] s.dev) mgmtHdr 0x43 .both [some 0]) ∧
    (flashOn s.dev = true ∧ s.dev.bolt.deletes.find? (fun j => j.part == 4095 && j.gen == 9) = some j ∧ (findImg s.dev 4095 9).isSome = true ∧
      s.dev.bolt.deletes.find? (fun j => j.part == 4095 && j.gen == 0) = none ∧
      s.dev.opt.restores = [] ∧ s0.dev.bolt.exports = [] ∧ (c.part = 4095 ∧ c.gen = 9) ∧ (j.part = 4095 ∧ j.gen = 9) ∧
      s.dev.bolt.exports.find? (fun j => j.part == 4095 && j.gen == 9) = some j) := by
  refine ⟨⟨?_, ?_, ?_, ?_, ?_⟩, by decide +kernel⟩ <;> exact passes_asked (by decide) (by decide) (by decide)

/-! ### Stitch -/

/-- An instruction word: opcode, D 5, A 6, B 7, guard p7, and the low bits. -/
def word0 (op lo : Nat) : Nat := op * 2 ^ 56 + 5 * 2 ^ 50 + 6 * 2 ^ 44 + 7 * 2 ^ 40 + 7 * 2 ^ 34 + lo
def kernel0 (w : Nat) : Kernel := ⟨64, 256, 0, [0, BitVec.ofNat 64 w], 2 ^ 30⟩
/-- A group of eight active threads at instruction 1; R6 of every lane holds `a`. -/
def group0 (a : Nat) : Grp :=
  { (default : Grp) with g := 3, core := 5, res := 256, pc := 1, mask := 255, regs := (List.range 8).map (fun l => (64 * l + 6, BitVec.ofNat 32 a)) }
def grid0 (y : Grp) : Grid :=
  ⟨1, 9, 4, [5], 7, [⟨2 ^ 30, 4096⟩, ⟨0, 2 ^ 20⟩, ⟨0, 0⟩, ⟨0, 0⟩], 100, 0, .host ⟨.ring 0, 4, 5, 0⟩, 0, [1], 0, [y], false, none⟩
def running0 (y : Grp) (k : Kernel) : State :=
  st (fun d => { d with opt := { d.opt with kernels := [(9, k)], launches := [grid0 y] } })

theorem witness_LaneWritesAreGuarded :
    ((0 : Nat) < 64 ∧ 63 < 64 ∧ 0 ∈ onLanes (group0 0) (word0 0x10 0) ∧ 5 = iD (word0 0x10 0) ∧ 63 ∉ onLanes (group0 0) (word0 0x10 0)) ∧
    (∀ op ∈ [0x06, 0x10, 0x11, 0x12, 0x13, 0x14, 0x15, 0x16, 0x17, 0x18, 0x19, 0x1A, 0x1B, 0x1C, 0x20, 0x21, 0x22, 0x23, 0x24, 0x25,
        0x26, 0x27, 0x28, 0x29, 0x2A, 0x2B, 0x30, 0x32],
      let w := word0 op 0
      let d := (running0 (group0 0) (kernel0 w)).dev
      AtInstr d op 1 3 (grid0 (group0 0)) (kernel0 w) (group0 0) w ∧ iD w < 63 ∧
      (∀ j ∈ onLanes (group0 0) w, spadAt (kernel0 w) (group0 0) (segInfo d (grid0 (group0 0))) false (ldsAddr (group0 0) w j) (szBytes w) ≠ none) ∧
      (∀ j ∈ onLanes (group0 0) w, ldgAddr (grid0 (group0 0)) (segInfo d (grid0 (group0 0))) false (group0 0) w j ≠ none) ∧
      Unmarked d 0x09 ((group0 0).core / 16) (coreNo (group0 0).core)) ∧
    -- a lane outside the mask, and lanes in which guard p0 does not hold
    (63 ∉ active (group0 0) ∧ 0 ∈ active (group0 0) ∧ guardOf (group0 0) (word0 0x10 0 - 7 * 2 ^ 40) 0 = false) := by
  refine ⟨?_, ?_, ?_⟩ <;> decide +kernel

theorem witness_KernelsAndLaunches :
    let code : List Byte := bytesOf 8 [word0 0x10 0, 2 ^ 56 + 7 * 2 ^ 40]
    let s := st (fun d => { regions (wr d .rcCoreState [0, 0, 3] 1) with opt := { d.opt with kernels := [(9, kernel0 0)] } })
    let t := running0 (group0 0) (kernel0 0)
    let b := packFields ([(8, 9), (32, 1000), (64, 8), (32, 1), (64, 0)] ++ List.replicate 8 (40, 0) ++ [(32, 9)])
    let p : LaunchParams := ⟨9, 1000, 8, 1, 0, List.replicate 4 ⟨0, 0⟩, 9⟩
    (Passes (asked ringHdr 0x38 [(8, 9), (64, 64), (32, 16), (8, 64), (32, 256), (2, 0)] s.dev) ringHdr 0x38 .h
        [some 9, none, some 16, some 64, some 256, some 0] ∧
      Passes (asked ringHdr 0x39 [] s.dev) ringHdr 0x39 .h []) ∧
    (Running s ∧ Unmarked s.dev 0x20 0 0 ∧ kernelBusy t.dev 9 = true ∧ kernelBusy s.dev 9 = false ∧
      firstBad 64 2 0 (elemsOf 8 code 2) = none ∧ firstBad 8 2 0 (elemsOf 8 code 2) = none ∧ 256 % 256 = 0) ∧
    (launchBlock b = some p ∧ launchBlock (lset b 1 1) = none) ∧
    (tget? s.dev.opt.kernels 8 = none ∧ tget? s.dev.opt.kernels p.k.toNat = some (kernel0 0) ∧ 1 ≤ p.g.toNat ∧
      (67108864 : BitVec 32).toNat ≤ 2 ^ 26 ∧ usesBar (kernel0 0) = false) ∧
    (findGrid t.dev 1 = some (grid0 (group0 0)) ∧ (grid0 (group0 0)).done < gridGroups (grid0 (group0 0)) ∧
      gridGroups { grid0 (group0 0) with done := 1 } ≤ 1 ∧ allReqs t.dev = [] ∧ allResps t.dev = [] ∧ findGrid t.dev 0 = none) :=
  ⟨⟨passes_asked (by decide) (by decide) (by decide), passes_asked (by decide) (by decide) (by decide)⟩, by decide +kernel,
    by decide +kernel, by decide +kernel, by decide +kernel⟩

theorem witness_StitchInteger :
    ∀ op ∈ [0x10, 0x11, 0x12, 0x13, 0x14, 0x15, 0x16, 0x17, 0x18, 0x1A, 0x06, 0x1B, 0x1C],
      let w := word0 op 0
      let s := running0 (group0 31) (kernel0 w)
      Running s ∧ AtInstr s.dev op 1 3 (grid0 (group0 31)) (kernel0 w) (group0 31) w := by decide +kernel

theorem witness_StitchFloating :
    (∀ op ∈ [0x20, 0x21, 0x22, 0x23, 0x24, 0x27, 0x28, 0x29, 0x2A, 0x2B, 0x19, 0x25],
      let w := word0 op 0
      AtInstr (running0 (group0 31) (kernel0 w)).dev op 1 3 (grid0 (group0 31)) (kernel0 w) (group0 31) w) ∧
    (∀ t ∈ [0, 1, 2, 3, 4, 5, 6, 8, 9, 10, 11, 12], ∀ rm ∈ [0, 1, 2],
      let w := word0 0x26 (t * 2 ^ 15 + rm * 2 ^ 24)
      AtInstr (running0 (group0 31) (kernel0 w)).dev 0x26 1 3 (grid0 (group0 31)) (kernel0 w) (group0 31) w ∧
      iRM w = rm ∧ iTO w = t) ∧
    ((∀ t ∈ [0, 1, 2, 3, 4], (fmtOf t).isSome = true ∧ isMx t = false) ∧ ∃ t, t < 16 ∧ isMx t = true ∧ t ≠ 5 ∧ t ≠ 6) := by
  refine ⟨by decide +kernel, by decide +kernel, by decide, 8, by decide⟩

theorem witness_StitchControl :
    let y := { group0 0 with memWait := 2, mma := [(5, [])] }
    let none_ := word0 2 0 - 7 * 2 ^ 40
    let z := { group0 0 with preds := [(0, true)] }
    let x := { grid0 { group0 0 with bar := true } with started := [1] }
    ((∀ op ∈ [0x00, 0x01, 0x02, 0x03, 0x04, 0x41],
      let w := word0 op 0
      AtInstr (running0 (group0 0) (kernel0 w)).dev op 1 3 (grid0 (group0 0)) (kernel0 w) (group0 0) w) ∧
     ∀ op ∈ [0x04, 0x41],
      let w := word0 op 0
      AtInstr (running0 y (kernel0 w)).dev op 1 3 (grid0 y) (kernel0 w) y w) ∧
    -- guard p0, false everywhere; guard p7; and a guard that holds in lane 0 alone
    (laneMask (onLanes (group0 0) none_) = 0 ∧ onLanes (group0 0) none_ = [] ∧
      laneMask (onLanes (group0 0) (word0 2 0)) ≠ 0 ∧ (group0 0).mask &&& ~~~laneMask (onLanes (group0 0) (word0 2 0)) = 0 ∧
      laneMask (onLanes z none_) ≠ 0 ∧ z.mask &&& ~~~laneMask (onLanes z none_) ≠ 0) ∧
    (x.groups.filter (fun y => coreNo y.core == 5) ≠ [] ∧ (∀ y ∈ x.groups.filter (fun y => coreNo y.core == 5), y.bar = true) ∧
      groupsOn (gridGroups x) x.cores.length (x.cores.findIdx (fun q => coreNo q == 5)) ≤ x.started.getD 0 0 ∧
      x.groups.filter (fun y => coreNo y.core == 6) = [] ∧ (group0 0).bar = false) ∧
    (y.memWait ≠ 0 ∧ (group0 0).memWait = 0 ∧ y.mma ≠ [] ∧ (group0 0).mma = []) := by
  refine ⟨?_, ?_, ?_, ?_⟩ <;> decide +kernel

/-- Where the lanes of `group0 a` go, in a launch of kernel `kernel0 w`. -/
def reaches (w a : Nat) (f : Grp → Nat → Bool) : Bool := (onLanes (group0 a) w).all (f (group0 a))

theorem witness_StitchMemory :
    let s := fun a => running0 (group0 a) (kernel0 (word0 0x30 0))
    let seg := fun a => segInfo (s a).dev (grid0 (group0 a))
    let k := kernel0 0
    let w := word0 0x30 0
    (∀ op ∈ [0x30, 0x31, 0x32, 0x33, 0x34, 0x40],
      let w := word0 op 0
      AtInstr (running0 (group0 0) (kernel0 w)).dev op 1 3 (grid0 (group0 0)) (kernel0 w) (group0 0) w) ∧
    (reaches w 0 (fun y j => (spadAt k y (seg 0) false (ldsAddr y w j) (szBytes w)).isSome) = true ∧
      reaches w 65536 (fun y j => (spadAt k y (seg 65536) false (ldsAddr y w j) (szBytes w)).isNone) = true ∧
      reaches w 0 (fun y j => (spadAt k y (seg 0) true (ldsAddr y w j) (szBytes w)).isSome) = true ∧
      reaches w 65536 (fun y j => (spadAt k y (seg 65536) true (ldsAddr y w j) (szBytes w)).isNone) = true ∧
      Unmarked (s 0).dev 0x09 ((group0 0).core / 16) (coreNo (group0 0).core) ∧
      reaches w 0 (fun y j => (ldgAddr (grid0 y) (seg 0) false y w j).isSome) = true ∧
      reaches w 4096 (fun y j => (ldgAddr (grid0 y) (seg 4096) false y w j).isNone) = true ∧
      reaches w 0 (fun y j => (ldgAddr (grid0 y) (seg 0) true y w j).isSome) = true ∧
      reaches w 4096 (fun y j => (ldgAddr (grid0 y) (seg 4096) true y w j).isNone) = true) := by decide +kernel

theorem witness_StitchMemory_atom :
    let y := { group0 0 with mask := 1 }
    let w := fun sz => word0 0x34 (sz * 2 ^ 31)
    let seg := segInfo (running0 y (kernel0 0)).dev (grid0 y)
    let at_ := fun c sz => atomOf (grid0 y) seg { y with regs := [(6, BitVec.ofNat 32 (c * 2 ^ 28))] } (w sz) 0
    onLanes y (w 0) = [0] ∧ (at_ 9 0).isNone = true ∧ [0, 1, 2, 3].any (fun sz => (at_ 0 sz).any (fun z => decide (z.code < 5))) = true ∧
    [0, 1, 2, 3].any (fun sz => (at_ 5 sz).any (fun z => decide (5 ≤ z.code))) = true := by decide +kernel

theorem witness_StitchMemory_responses :
    let r := fun src => (⟨0, ⟨src, 256, 8, [], []⟩, [1, 2, 3, 4, 5, 6, 7, 8], false, 0, none⟩ : MemResp)
    let y := { group0 0 with mma := [(5, [0, 1024, 2048, 0, 0])] }
    let s := st (fun d => { (running0 y (kernel0 0)).dev with
      mem := { d.mem with resps := [r (.thread 1 3 5 7 1 2 0), r (.store 1 3 0), r .scrub] } })
    let u := st (fun d => { d with mem := { d.mem with resps := [r (.tile 5 7 1 4)] } })
    let v := [rg (group0 0) 0 6, rg (group0 0) 0 7, rg (group0 0) 0 0, rg (group0 0) 0 5, rg (group0 0) 0 6].map w32
    (findGrid s.dev 1 = some (grid0 y) ∧ tget? s.dev.opt.kernels 9 = some (kernel0 0) ∧
      (grid0 y).groups.find? (fun y => y.g == 3) = some y ∧ y.mma = [(5, [0, 1024, 2048, 0, 0])]) ∧
    (takeAt s.dev.mem.resps 0 = some (r (.thread 1 3 5 7 1 2 0), [r (.store 1 3 0), r .scrub]) ∧
      takeAt s.dev.mem.resps 1 = some (r (.store 1 3 0), [r (.thread 1 3 5 7 1 2 0), r .scrub]) ∧
      takeAt s.dev.mem.resps 2 = some (r .scrub, [r (.thread 1 3 5 7 1 2 0), r (.store 1 3 0)]) ∧ takeAt s.dev.mem.resps 3 = none ∧
      takeAt u.dev.mem.resps 0 = some (r (.tile 5 7 1 4), []) ∧ (r (.tile 5 7 1 4)).op ≠ 25 ∧ (r .scrub).bad = false) ∧
    (onLanes (group0 0) (word0 0x40 0 - 7 * 2 ^ 40) = [] ∧ onLanes (group0 0) (word0 0x40 0) ≠ [] ∧
      (∀ r ∈ (mmaRanges (word0 0x40 0) v).zip [false, false, true, false, false], r.1.2 ≠ 0 →
         spadAt { kernel0 0 with spad := 2 ^ 20 } (group0 0) (segInfo s.dev (grid0 y)) r.2 r.1.1 r.1.2 ≠ none)) := by decide +kernel

/-! ### Stacked memory -/

theorem witness_MemoryAccesses :
    let r := fun a n => (⟨.tile 5 7 9 1, a, n, List.replicate n 1, []⟩ : MemReq)
    let s := s0
    let t := st (fun d => { d with mem := { d.mem with reqs := [⟨1, r 0 64⟩, ⟨0, r 0 64⟩] } })
    let u := { grid0 (group0 0) with held := some [(3, 4)] }
    (Running s ∧ memReqOf (.memRead (r (memEnd - 63) 64) []) = some (r (memEnd - 63) 64) ∧ memEnd < memEnd - 63 + 64) ∧
    (∀ op ∈ [0, 1, 25, 26], MemFree s.dev op (r (memEnd - 64) 64)) ∧ MemClean s.dev (memEnd - 64) 64 ∧
    ((r 0 64).addr + (r 0 64).len ≤ memEnd ∧ reqWaits t.dev 0 (r 0 64) = true) ∧
    ((r 0 64).data.length = (r 0 64).len ∧ (r 0 64).src ≠ .scrub) ∧
    (partSectors (memEnd - 64) 64 = [] ∧ partSectors (memEnd - 60) 4 = [(memEnd - 64) / 64]) ∧
    (overOf s.dev (r 0 64).src = none ∧ (overOf { s.dev with opt := { s.dev.opt with launches := [u] } } (.store 1 3 0)).isSome = true) := by
  refine ⟨?_, ?_, ?_, ?_, ?_, ?_, ?_⟩ <;> decide +kernel

theorem witness_MemoryReductions :
    let r : MemReq := ⟨.tile 5 7 9 1, memEnd - 64, 64, List.replicate 64 1, []⟩
    let ks := sectors r.addr r.len
    let t := st (fun d => { d with mem := { d.mem with poison := ks } })
    (Running s0 ∧ MemClean s0.dev r.addr r.len ∧ ∀ op ∈ [16, 17, 18, 19, 20, 21, 22, 23, 24], MemFree s0.dev op r ∧ MemFree t.dev op r) ∧
    -- marked before, and found now
    (s0.dev.mem.flaws = [] ∧ t.dev.mem.flaws = [] ∧ (∀ k ∈ ks, Unmarked s0.dev 0x0C (memStack s0.dev (64 * k) / 3) (memStack s0.dev (64 * k))) ∧
      (∃ i ∈ List.range ks.length, poisoned t.dev (64 * ks.getD i 0) 1 = true) ∧
      (∃ i ∈ List.range ks.length, ([Ecc.ue].getD i .clean == .ue) = true) ∧ (reqTile s0.dev r.src).isSome = true) := by
  decide +kernel

theorem witness_MemoryKeepsItsForm :
    let r : MemReq := ⟨.tile 5 7 9 1, 0, 64, [1], []⟩
    memReqOf (.memWrite ⟨r, []⟩) = some r ∧ tabWf 0 s0.dev.mem.bytes = true ∧
    tabWf 0 [(0, (1 : Byte)), (memEnd - 1, 255)] = true ∧ (∃ t, exec (.memWrite ⟨r, []⟩) s0 = .next t) ∧ ∃ t, step s0 = .next t :=
  ⟨by decide, by decide, by decide, ⟨_, rfl⟩, _, rfl⟩

/-! ### Optics and laser sources, time -/

/-- Ring (engine 15, fibre 15, channel 8) in a state, its fibre lit in both directions. -/
def ringIn (tx : Bool) (n : Nat) (x : RingLock) (d : Dev) : Dev :=
  setThim (setFeed (setRingLock (setRingState d 15 tx 15 8 n) 15 tx 15 8 x) 15 3 ⟨true, false, false⟩) 15 15 3
def lock0 : RingLock := ⟨0x1000, 40, 0, 0, 0, 0⟩

theorem witness_RingLocks :
    let s := fun tx n x => st (ringIn tx n x)
    let e := fun tx n x => sensorSample (s tx n x).dev.fresh 15 3 40
    let after := fun d : Dev => cnt1 (sensorSample d 15 3 40) (srcOe 15 15) 4
    (Running (s true 1 lock0) ∧ pdOn (s true 1 lock0).dev (80 + 15) = true ∧ pdOn (s false 1 lock0).dev (80 + 15) = true ∧
      sweeping (s true 1 lock0).dev 15 true 15 8 false = true ∧ sweeping (s false 1 lock0).dev 15 false 15 8 true = true ∧
      sweeping (s false 1 lock0).dev 15 false 15 8 false = false ∧ sweeping (s true 2 lock0).dev 15 true 15 8 true = false ∧
      (sweepLock (after (s true 1 lock0).dev.fresh) 15 8 (ascending []) 40).isNone = true ∧
      sweepLock (after (s true 1 lock0).dev.fresh) 15 8 (ascending [⟨30000, 8⟩, ⟨26000, 7⟩]) 40 = some (30000, 320000) ∧
      lock0.fails + 1 ≠ 3 ∧ { lock0 with fails := 2 }.fails + 1 = 3) ∧
    (ringState (e true 1 lock0) 15 true 15 8 ≠ 2 ∧ ringState (e true 1 lock0) 15 true 15 8 ≠ 3 ∧
      ringState (e true 2 lock0) 15 true 15 8 = 2 ∧ ringState (e true 3 lock0) 15 true 15 8 = 3 ∧
      fibreLit (e true 2 lock0) 15 true 15 false = true ∧ fibreLit (e false 2 lock0) 15 false 15 false = false ∧
      (s true 2 lock0).dev.rel.marks.contains (0x14, (15 : Fin 16) / 4, (15 : Fin 16).val, 9 * 15 + 8) = false ∧
      ringLock (s true 2 lock0).dev 15 true 15 8 = lock0 ∧
      outOfOrder (e true 2 lock0) 15 15 0x1001 lock0 = false ∧
      ffTerm lock0 (groupTemp (e true 2 lock0) 15 3) = 0x1000 ∧ tlrHolds (s true 2 lock0).dev = false ∧
      pdOn (s true 2 lock0).dev (80 + 15) = true ∧
      tlrHolds { (s true 2 lock0).dev with host := { (s true 2 lock0).dev.host with tlr := .restarting none } } = true ∧ 1 ≤ { lock0 with wrong := 1 }.wrong) ∧
    ((s false 2 lock0).dev.rel.marks.contains (0x15, (15 : Fin 16) / 4, (15 : Fin 16).val, 9 * 15 + 8) = false ∧
      ringState (s false 1 lock0).dev 15 false 15 8 ≠ 2 ∧ ringState (s false 2 lock0).dev 15 false 15 8 = 2 ∧
      losLevel (s false 2 lock0).dev 15 + (rdf (s false 2 lock0).dev .oeLos [15] 23 16 : Nat) ≤ sx 16 32767 ∧
      losLevel (s false 2 lock0).dev 15 ≤ sx 16 32767 ∧ sx 16 32768 < losLevel (s false 2 lock0).dev 15 ∧
      (losOf (s false 2 lock0).dev 15 15 8).below = 0) ∧
    (laneState (st (laneIn 1)).dev 511 = 1 ∧ opticsReady (st (laneIn 1)).dev 511 = false ∧ laneState (st (laneIn 2)).dev 511 ≠ 1) := by
  decide +kernel

/-- A lane whose optics are ready: the rings of its four channels and of the spare are locked in both directions. -/
theorem witness_RingLocks_ready :
    let s := st (fun d =>
      let d := wrf (ringIn false 2 lock0 (laneIn 1 d)) .elsState [7] 1 0 1
      (List.range 9).foldl (fun d c => setRingState (setRingState (wr d .oeRxpwr [15, 135 + c] 0xFF9C) 15 true 15 c 2) 15 false 15 c 2) d)
    laneState s.dev 511 = 1 ∧ opticsReady s.dev 511 = true ∧ pdOn s.dev (80 + 511 / 32) = true := by decide +kernel

theorem witness_LightSafety :
    let s := fun n => st (fun d => portIn 511 1 (ringIn false 2 lock0 d |> (setThim · 15 15 n)))
    let may := fun s : State => (fibreLanes 15 15).any (fun l => mayTrain s.dev (portOf s.dev l))
    (∀ n < 4, Running (s n) ∧ thim (s n).dev 15 15 = n ∧ feedLit (s n).dev 15 3 = true ∧ noProbe (s n).dev = false ∧ may (s n) = true) ∧
    (feedLit s0.dev 15 3 = false ∧ may s0 = false ∧ thim s0.dev 15 15 = 0) ∧
    (noProbe (st (fun d => wr d .thimCtl [] 256)).dev = true) := by decide +kernel

theorem witness_LightSafety_sources :
    let s := st (fun d => { wr (wrf d .elsBias [7, 8] 31 16 0x9000) .elsCtl [7] 0x50FF with oe := { d.oe with aged := [71] } })
    let fd := fun f => st (fun d => setFeed (wr d .elsCtl [7] 0xFF) 15 3 f)
    (Running s ∧ elsCap s.dev 7 8 = 0x9000 ∧ 100 * 5 < natMin 100 (rdf s.dev .elsCtl [7] 15 8) * elsCap s.dev 7 8 ∧
      elsCap s.dev 7 8 < bits 0xFFFF 15 0 ∧ s.dev.oe.aged.contains 71 = true) ∧
    (drives s.dev .laserBus = true ∧ drives State.reset.dev .laserBus = false ∧ (5 : BitVec 8).toNat = (0x85 : BitVec 8).toNat % 128 ∧
      Unmarked s.dev 0x18 3 7 ∧ (0x80 : BitVec 8).getLsbD 7 = true ∧
      (([none, some 7] : List (Option (BitVec 16))).take 4).find? (·.isSome) = some (some 7) ∧
      (([none, none, none, none] : List (Option (BitVec 16))).take 4).find? (·.isSome) = none) ∧
    ((feedOf (fd ⟨true, false, false⟩).dev 15 3).killed = false ∧ rdb s.dev .elsCtl [7] 7 = true ∧
      (feedOf (fd ⟨false, false, true⟩).dev 15 3).killed = true ∧ (feedOf (fd ⟨false, false, true⟩).dev 15 3).probing = false ∧
      noProbe (fd ⟨false, false, true⟩).dev = false ∧ (feedOf (fd ⟨false, true, true⟩).dev 15 3).probing = true) := by decide +kernel

theorem witness_TimeDomains :
    let s := fun k t => st (fun d => wr { d with time := { d.time with setPend := [k], d0 := ⟨5000, 3⟩ } } .timeSwitchAt [] t)
    let p := st (fun d => { d with time := { d.time with pend := some (77, 0) } })
    (Running (s 1 0) ∧ (s 1 0).dev.time.setPend.contains 1 = true ∧ 1 ≠ activeDom (s 1 0).dev ∧ boundTo (s 1 0).dev 1 = false) ∧
    ((s 0 0).dev.time.setPend.contains 0 = true ∧ 0 = activeDom (s 0 0).dev ∧ (s 0 0).dev.time.setPend.contains 1 = false) ∧
    ((s 0 0).dev.time.pend = none ∧ tickReached (nsNow (s 0 9000).dev) (BitVec.ofNat 32 (rd (s 0 9000).dev .timeSwitchAt)) = false ∧
      tickReached (nsNow (s 0 0).dev) (BitVec.ofNat 32 (rd (s 0 0).dev .timeSwitchAt)) = true) ∧
    p.dev.time.pend = some (77, 0) := by decide +kernel

theorem witness_LaunchesAndPps :
    let l : Launch := ⟨63, 9, 0, 511, 5, some 7, frame0, ⟨.ring 0, 4, 5, 0⟩, false, 0⟩
    let run := fun d : Dev => { d with host := { d.host with tlr := .running } }
    let s := st (fun d => run (linkOn 511 (portIn 511 1 { wr d .timePpsCtl [] 0xA0000000 with time := { d.time with launches := [l] } })))
    (Passes (asked ringHdr 0x50 [(6, 63), (32, 9), (9, 511), (3, 5), (1, 1), (16, 7), (14, 8267), (64, 64)] s.dev) ringHdr 0x50 .h
        [some 63, some 9, some 511, some 5, some (b2n true), some 7, some 8267, none] ∧
      Passes (asked ringHdr 0x51 [(9, 511), (3, 5), (1, 0), (16, 0), (14, 64), (64, 64)] s.dev) ringHdr 0x51 .h
        [some 511, some 5, some (b2n false), some 0, some 64, none]) ∧
    (Running s ∧ Unmarked s.dev 0x20 0 0 ∧ s.dev.time.launches.find? (fun l => l.slot == 63 && !l.fired) = some l ∧
      s.dev.time.launches.find? (fun l => l.slot == 0 && !l.fired) = none) ∧
    (s.dev.host.tlr = .running ∧ inService s.dev 511 = true ∧ inService s.dev 0 = false ∧ s0.dev.host.tlr ≠ .running) ∧
    (rdb s.dev .timePpsCtl [] 29 = true ∧ Unmarked s.dev 0x21 0 0 ∧ rdb s.dev .timePpsCtl [] 31 = true ∧
      rdb s0.dev .timePpsCtl [] 29 = false ∧ rdb s0.dev .timePpsCtl [] 31 = false) :=
  ⟨⟨passes_asked (by decide) (by decide) (by decide), passes_asked (by decide) (by decide) (by decide)⟩, by decide +kernel,
    by decide +kernel, by decide +kernel⟩

/-! ### The host interface -/

/-- Rings on, of sixteen entries, with three entries produced on the command rings. -/
def ringsOn (d : Dev) : Dev :=
  (List.range 18).foldl (fun d r => wr (wr (wr d .ringCtl [r] (0x80000004 + r * 65536)) .ringMod [r] 0x00400008) .ringProdCmd [r % 8] 3) d

theorem witness_HostRings :
    let s := st (fun d => { ringsOn d with host := { d.host with rings := (List.range 18).map (fun r => (r, { (default : RingSt) with since := r, open_ := r % 2 })) } })
    let d := s.dev
    (Running s ∧ ¬ ringSize d 7 < ((5 : Nat) % 65536 + 65536 - ringCons d 7) % 65536 ∧
      ringSize d 7 < ((0xFFFF : Nat) % 65536 + 65536 - ringCons d 7) % 65536) ∧
    (¬ ringHeld d 17 < (ringProd d 17 + 65536 - (0 : Nat) % 65536) % 65536 ∧
      ringHeld d 17 < (ringProd d 17 + 65536 - (5 : Nat) % 65536) % 65536) ∧
    (rdb s0.dev .ringCtl [17] 31 = false ∧ rdb d .ringCtl [17] 31 = true) ∧
    (ringTurn d = some 0 ∧ tlrHolds d = false ∧ pcieUp d = true ∧ Unmarked d 0x20 0 0 ∧ ringTurn d ≠ some 1 ∧
      bit (leAt (slice (0 :: 0 :: 1 :: List.replicate 61 (0 : Byte)) 0 64) 2 1) 0 = true ∧ 0 < (ringSt d 1).open_ ∧ ¬ 0 < (ringSt d 0).open_) ∧
    ((ringSt d 17).since ≠ 0 ∧ rdf d .ringMod [17] 31 16 ≠ 0 ∧
      (ringSt d 17).first + 1200 * rdf d .ringMod [17] 15 0 ≤ { d with now := 100000 }.now ∧ (ringSt d 0).since = 0 ∧
      (generalCheck d (.ring 0) (1 :: List.replicate 63 0) []).isNone = true ∧
      (generalCheck d (.ring 0) (List.replicate 64 0) []).isSome = true) := by decide +kernel

theorem witness_ReportCountsAndMarks :
    (31 : Nat) < 32 ∧ cntAt s0.dev ((srcHif 3).cnt + 8 * 8) < 2 ^ 48 - 1 ∧
    (0 : Nat) ≠ (srcHif 3).cnt + 8 * 8 ∧ (0 : Nat) ≠ regAddr (srcHif 3).st (srcHif 3).ix ∧ (30 : Nat) ≠ 31 := by decide +kernel

theorem witness_EventRecords :
    let e : Event := { (default : Event) with code := 0x1304, count := 1 }
    let s := fun lost => st (fun d => { ringsOn d with rel := { d.rel with lost := lost, store := [e] } })
    let w : CoalWin := { (default : CoalWin) with root := e }
    let t := st (fun d => { d with rel := { d.rel with wins := [w] } })
    (eventRoom s0.dev = false ∧ eventRoom (s 0).dev = true ∧ (s 0).dev.rel.lost = 0 ∧ (s 0).dev.rel.store = [e] ∧
      eventRoom (s 4).dev = true ∧ 0 < (s 4).dev.rel.lost) ∧
    (takeAt t.dev.rel.wins 0 = some (w, []) ∧ takeAt t.dev.rel.wins 1 = none) := by decide +kernel

theorem witness_HostCommands :
    let x : FwImg := default
    let s := st (fun d => { d with host := { d.host with tlr := .running, image := some x, checked := some x } })
    let t := st (fun d => { d with host := { d.host with estop := true } })
    let m := fun opc fs => asked mgmtHdr opc fs s.dev
    (Passes (asked ringHdr 0x01 [] s.dev) ringHdr 0x01 .both [] ∧ Passes (m 0x01 []) mgmtHdr 0x01 .both [] ∧
      Passes (m 0x60 [(32, 0x3FFFFC0), (32, 16)]) mgmtHdr 0x60 .m [some 0x3FFFFC0, some 16] ∧
      (∀ fin ∈ [0, 1], Passes (m 0x61 [(32, 0), (32, 64), (1, fin)]) mgmtHdr 0x61 .m [some 0, some 64, some fin]) ∧
      ∀ opc ∈ [0x62, 0x63, 0x64, 0x65], Passes (m opc []) mgmtHdr opc .m []) ∧
    (stands s.dev ringHdr 0x01 [] = false ∧ cmdWaits { s.dev with pwr := { s.dev.pwr with perstHigh := false } } (.ring 0) = true ∧
      cmdWaits t.dev (.ring 0) = false ∧ stands (asked ringHdr 0x01 [] t.dev) ringHdr 0x01 [] = true ∧
      ∀ opc ∈ [0x62, 0x63, 0x64, 0x65], stands (asked ringHdr opc [] s.dev) ringHdr opc [] = true) ∧
    (ringHdr.path = .ring 0 ∧ winHdr.path = .window 1 ∧ mgmtHdr.path = .mgmt ∧ t.dev.host.estop = true) ∧
    ((0x3FFFFC0 : BitVec 32).toNat % 4 = 0 ∧ 1 ≤ (16 : BitVec 32).toNat ∧ (16 : BitVec 32).toNat ≤ 16 ∧
      (0x3FFFFC0 : BitVec 32).toNat + 4 * (16 : BitVec 32).toNat ≤ 0x4000000) ∧
    (∀ a ∈ fetchedNext (m 0x61 [(32, 0), (32, 64), (1, 0)]) mgmtHdr.path, a.data = []) ∧
    (s.dev.host.checked = some x ∧ s.dev.host.tlr = .running ∧ t.dev.host.checked = none ∧ s.dev.host.image = some x) := by
  refine ⟨⟨passes_asked (by decide) (by decide) (by decide), passes_asked (by decide) (by decide) (by decide),
    passes_asked (by decide) (by decide) (by decide), ?_, ?_⟩, by decide, by decide, by decide, by decide, by decide⟩
  · intro f h
    fin_cases h <;> exact passes_asked (by decide) (by decide) (by decide)
  · intro f h
    fin_cases h <;> exact passes_asked (by decide) (by decide) (by decide)

theorem witness_TailorAndBoot :
    let s := fun n t => st (fun d => { d with pwr := { d.pwr with step := n }, now := 100, host := { d.host with tlr := t, tlrAt := some 3, image := some default } })
    let f : MgmtFrame := ⟨0x9C50, 1, 0, 4, 5, [1, 0, 0, 0], 0⟩
    (Running (s 4 .off) ∧ f.etype.toNat = rdf (s 4 .off).dev .mgmtCtl [] 15 0 ∧ f.ver = 1 ∧ f.typ = 0 ∧ f.len.toNat = f.body.length ∧ 4 ≤ (s 4 .off).dev.pwr.step ∧
      Unmarked (s 4 .off).dev 0x1F 0 0 ∧ ¬ f.seq.toNat ≤ (s 4 .off).dev.host.last ∧ (0 : BitVec 64).toNat ≤ (s 4 .off).dev.host.last) ∧
    (bootWaits (s 4 .off).dev = true ∧ bootWaits (s 4 .running).dev = false ∧ Unmarked (s 4 .off).dev 0x20 0 0 ∧
      (s 0 .off).dev.pwr.step < 4) ∧
    ((s 8 .running).dev.host.tlr = .running ∧ Unmarked (s 8 .running).dev 0x1E 0 3 ∧
      (s 8 .running).dev.host.tlrAt.any (fun t => decide ((s 8 .running).dev.now - t < 60 * 1200000000)) = true ∧
      s0.dev.host.tlrAt.any (fun t => decide (s0.dev.now - t < 60 * 1200000000)) = false) ∧
    ((s 8 (.restarting none)).dev.host.tlr = .restarting none ∧ (s 8 (.restarting none)).dev.host.image = some default) := by decide +kernel

/-! ### Resets, clocks, power; reliability and monitoring -/

/-- The start-up has reached a step, POR_N being high. -/
def atStep (n : Nat) (d : Dev) : Dev :=
  { d with pwr := { d.pwr with step := n, porHigh := true, found := some found0 }, host := { d.host with tlr := .running } }

theorem witness_Resets :
    let s := st (atStep 6)
    (Running s ∧ Powered State.reset ∧ State.reset.dev.pwr.porHigh = false ∧ Powered s ∧ s.dev.pwr.porHigh = true) ∧
    (s.dev.pwr.step = 6 ∧ s.dev.host.tlr = .running ∧ s.dev.host.fault = false ∧ (st (atStep 8)).dev.pwr.step ≠ 6) ∧
    (s.dev.host.i3cAddr = none ∧ { s.dev.host with i3cAddr := some 9 }.i3cAddr = some 9) ∧
    (bits (0x8000A500 : Word).toNat 15 8 = 0xA5 ∧ bits (0x80005A00 : Word).toNat 15 8 ≠ 0xA5) := by decide

theorem witness_ReferenceClocks :
    let at_ := fun n v c j => st (fun d =>
      let d := wr (wr (atStep n d) .clkRefStatus [] v) .clkRefCtl [] c
      { d with pwr := { d.pwr with refSwitch := j } })
    let s := at_ 8
    let w := at_ 1 6 0 none
    -- bit 0 the input in use, bits 1 and 2 the inputs good, bit 3 holdover, bit 4 lock
    (Running (s 0x16 0 none) ∧ inHoldover (s 0x16 0 none).dev = false ∧ refActive (s 0x16 0 none).dev = 0 ∧
      refOk (s 0x16 0 none).dev (1 - 0) = true ∧ refOk (s 0x12 0 none).dev (1 - 0) = false) ∧
    ((s 0x16 0 (some 1)).dev.pwr.refSwitch = some 1 ∧ refOk (s 0x16 0 (some 1)).dev 1 = true ∧ (s 0x16 0 none).dev.pwr.refSwitch = none) ∧
    (rdb (s 0x17 4 none).dev .clkRefCtl [] 2 = true ∧ refActive (s 0x17 4 none).dev = 1 ∧ refOk (s 0x17 4 none).dev 0 = true ∧
      inHoldover (s 0x17 4 none).dev = false ∧ rdb (s 0x17 0 none).dev .clkRefCtl [] 2 = false) ∧
    (refOk (s 0x12 0 none).dev (bits 2 1 1) = false ∧ refOk (s 0x16 0 none).dev (bits 2 1 1) = true ∧
      locked (s 0x16 0 none).dev .clkRefCtl [] = false ∧ 2 ≤ (s 0x16 0 none).dev.pwr.step ∧ w.dev.pwr.step < 2) ∧
    (inHoldover (s 0x0E 0 none).dev = true ∧ refOk (s 0x0E 0 none).dev 1 = true ∧ refOk (s 0x08 0 none).dev 1 = false) ∧
    ((s 0x16 0 none).dev.pwr.step ≠ 1 ∧ Powered w ∧ w.dev.pwr.found = some found0 ∧ w.dev.pwr.porHigh = true ∧
      w.dev.pwr.step = 1 ∧ rdb w.dev .clkRefStatus [] 4 = false) := by decide +kernel

theorem witness_PowerAndThermal :
    let on := fun d : Dev => (List.range 8).foldl (fun d k => wr d .pwrTol [k] 0xFFFFFF) (wr d .pwrDepth [] 0xFFFF)
    let s := st on
    let y := st (fun d => { setPd (on d) 72 2 with pwr := { (setPd (on d) 72 2).pwr with waking := [72] } })
    let z := st (fun d => setPd (on d) 120 2)
    let w := st (fun d => { d with pwr := { d.pwr with waking := [120], ilimLow := [3], ilimHold := [0], frac := [3, 4, 4, 4, 4, 4, 4, 4] } })
    let next := fun (s : State) (n : Nat) (k : PcieLow) => ([3, 2, 1].find? (pdAllowed { s.dev with pwr := { s.dev.pwr with aspm := k } } n)).getD 0
    (120 < 121 ∧ tlrHolds s.dev = false ∧
      tlrHolds { s.dev with host := { s.dev.host with tlr := .restarting none } } = true ∧ s.dev.pwr.waking.contains 120 = false ∧ coreDown s.dev 0 0 = false) ∧
    (next s 120 ⟨true, true, true, 0⟩ = pdState s.dev 120 ∧ next s 120 ⟨true, true, true, 1⟩ ≠ pdState s.dev 120 ∧
      next s 120 ⟨true, true, true, 1⟩ ≠ 0 ∧ next z 120 ⟨true, true, true, 0⟩ ≠ pdState z.dev 120 ∧ next z 120 ⟨true, true, true, 0⟩ = 0) ∧
    (pdState z.dev 120 ≠ 0 ∧ pdState s.dev 127 = 0 ∧ w.dev.pwr.waking.contains 120 = true ∧ pdClass 120 ≠ 1 ∧
      y.dev.pwr.waking.contains 72 = true ∧ pdClass 72 = 1) ∧
    (Unmarked s.dev 0x1A (11 / 3) 11 ∧ rdf s.dev .memStkState [11] 9 8 = 0 ∧ sx 8 96 ≤ 96 ∧ sx 8 85 ≤ memThrot s.dev) ∧
    (s.dev.pwr.ilimLow.contains 3 = false ∧ w.dev.pwr.ilimLow.contains 3 = true ∧ w.dev.pwr.ilimHold.contains 0 = true) ∧
    (w.dev.pwr.frac.getD 0 4 < targetFrac w.dev 0 ∧ targetFrac w.dev 7 ≤ w.dev.pwr.frac.getD 7 4) := by decide +kernel

theorem witness_StoreUpkeep :
    let s := st (fun d => { wr d .memCtl [] 1 with
      mem := { d.mem with scrubPos := memEnd - 64, laneErr := [(8192 * 11 + 128 * 3 + 5, List.replicate 64 1)], lanePend := [7] } })
    let q := { s with dev := issue s.dev 0 (scrubReq s.dev) }
    let slept := { q with dev := setPd q.dev (96 + memStack s.dev (memEnd - 64)) 2 }
    let ahead := { s with dev := { s.dev with mem := { s.dev.mem with reqs := [⟨1, req (memEnd - 128) 64 []⟩] } } }
    (Running s ∧ rdb s.dev .memCtl [] 0 = true ∧ reqWaits ahead.dev 0 (scrubReq s.dev) = true ∧
      ⟨0, scrubReq s.dev⟩ ∉ ahead.dev.mem.reqs ∧ stkBuf ahead.dev (memStack ahead.dev ahead.dev.mem.scrubPos) < 256 ∧ rdb (wr s.dev .memCtl [] 0) .memCtl [] 0 = false) ∧
    (rdb q.dev .memCtl [] 0 = true ∧ MemFree q.dev 0 (scrubReq q.dev) ∧ MemClean q.dev q.dev.mem.scrubPos 64) ∧
    (reqWaits slept.dev 0 (scrubReq slept.dev) = true ∧ ⟨0, scrubReq slept.dev⟩ ∈ slept.dev.mem.reqs) ∧
    (lanePendDue s.dev (8192 * 11 + 128 * 3 + 5) = true ∧ s.dev.mem.lanePend.contains (8192 * 11 + 128 * 3 + 5) = false ∧
      lanePendDue s.dev 0 = false ∧ s.dev.mem.lanePend.contains 7 = true) := by decide +kernel

theorem witness_StoreUpkeep_bolt :
    let i : BoltImg := ⟨4095, 9, 0, 2, 4, 1, 5000, 0, 0, [], [5], 3, 0, []⟩
    let s := fun on era => st (fun d => let d := wr (store 2 d) .boltCtl [] on
      { d with bolt := { d.bolt with erases := [(5, era)], dirty := if on = 1 then [3] else [], reloc := [5], scrubPos := 5 * 65536 }
               lanes := [(5, { (default : LaneSt) with partner := some (7, 8) })] })
    let d := (s 1 500).dev
    (boltUp s0.dev = false ∧ boltUp d = true ∧ flashOn d = true ∧ flashOn (wr d .pwrDomState [7] 256) = false ∧ (5461 : BitVec 13).toNat < 5462 ∧ (bandsUsed d).contains 5461 = false) ∧
    (d.bolt.dirty = [3] ∧ (s 0 0).dev.bolt.dirty = [] ∧ rdb d .boltCtl [] 0 = true ∧ rdb (s 0 0).dev .boltCtl [] 0 = false ∧
      nextPage d d.bolt.scrubPos = some (5, 0) ∧ Unmarked d 0x0D 0 0 ∧ Unmarked d 0x0E 0 0 ∧ intact d i 0 = true ∧
      i.bands.findIdx (· == 5) = 0 ∧ lostReads d i = [] ∧ i.lost.contains (0, 0) = false) ∧
    (d.fresh.bolt.dirty = [3] ∧ recNo (.repair) ≠ 5 ∧ (coldest d ((bandsUsed d).filter (fun b => decide (0 < bandPages d b)))).isSome = true) ∧
    (d.bolt.reloc.contains 5 = true ∧ imgOfBand d 5 = some i ∧ imageRead d i = false ∧ i.st ≠ 1 ∧ d.bolt.reloc.contains 0 = false ∧
      (laneRecord d 5).isSome = true ∧ laneRecord d 6 = none) := by decide +kernel

/-- A band can be moved while a freed one waits. -/
theorem moveBand_some {d : Dev} {x : Nat} {r : List Nat} (i : BoltImg) (b : Nat) (rs : List CwRead) (h : d.bolt.dirty = x :: r) :
    (moveBand d i b rs).isSome = true := by
  have e : nextBand d [] ≠ none := by
    unfold nextBand
    generalize coldest d _ = o
    cases o <;> simp [h]
  obtain ⟨y, hy⟩ := Option.ne_none_iff_exists'.1 e
  simp [moveBand, takeBands, hy]

theorem le_foldl_natMax (f : Nat → Nat) (l : List Nat) (a : Nat) :
    a ≤ l.foldl (fun a b => natMax a (f b)) a ∧ ∀ x ∈ l, f x ≤ l.foldl (fun a b => natMax a (f b)) a := by
  induction l generalizing a with
  | nil => simp
  | cons y r ih =>
    have h : a ≤ natMax a (f y) ∧ f y ≤ natMax a (f y) := by unfold natMax; split <;> omega
    refine ⟨h.1.trans (ih _).1, ?_⟩
    intro x hx
    obtain rfl | hx := List.mem_cons.1 hx
    · exact h.2.trans (ih _).1
    · exact (ih _).2 x hx

theorem foldl_natMin_le (f : Nat → Nat) (l : List Nat) (a : Nat) :
    l.foldl (fun a b => natMin a (f b)) a ≤ a ∧ ∀ x ∈ l, l.foldl (fun a b => natMin a (f b)) a ≤ f x := by
  induction l generalizing a with
  | nil => simp
  | cons y r ih =>
    have h : natMin a (f y) ≤ a ∧ natMin a (f y) ≤ f y := by unfold natMin; split <;> omega
    refine ⟨(ih _).1.trans h.1, ?_⟩
    intro x hx
    obtain rfl | hx := List.mem_cons.1 hx
    · exact (ih _).1.trans h.2
    · exact (ih _).2 x hx

/-- A spread of wear for which a band is due. -/
theorem witness_StoreUpkeep_wear :
    let d := (st (fun d => { store 2 d with bolt := { (store 2 d).bolt with erases := [(5, 50000)] } })).dev
    let most := (List.range bandCount).foldl (fun a b => natMax a (bandWear d b)) 0
    let least := (List.range bandCount).foldl (fun a b => natMin a (bandWear d b)) most
    planeCount * natMax 1 (rdf d .boltWl [] 15 0) < most - least := by
  intro d most least
  have h : planeCount * natMax 1 (rdf d .boltWl [] 15 0) + bandWear d 0 < bandWear d 5 := by decide +kernel
  have h1 : bandWear d 5 ≤ most := (le_foldl_natMax (bandWear d) _ 0).2 5 (List.mem_range.2 (by decide))
  have h2 : least ≤ bandWear d 0 := (foldl_natMin_le (bandWear d) _ most).2 0 (List.mem_range.2 (by decide))
  omega

theorem witness_InjectionAndSuspicion :
    let sel := fun u => st (fun d => wr (wr d .relInjSel [] (0x16 * 2 ^ 24 + u)) .relInjArg [] 15)
    let i : Inject := ⟨0x16, 1, 2, 3, some 1⟩
    let a := st (fun d => { wr d .relInjCtl [] 1 with rel := { d.rel with inject := some i, sparing := [(3, 2, 28, 1)] } })
    (locked (sel 15).dev .relInjCtl [] = false ∧ (1 : Word).getLsbD 3 = false ∧ (1 : Word).getLsbD 0 = true ∧ bits 1 5 4 = 0 ∧
      (sel 15).dev.rel.inject = none ∧ rdf (sel 15).dev .relInjSel [] 15 0 < injUnits (rdf (sel 15).dev .relInjSel [] 31 24) ∧
      injArgOk (rdf (sel 15).dev .relInjSel [] 31 24) (rdf (sel 15).dev .relInjArg [] 15 0) = true ∧
      injUnits (rdf (sel 16).dev .relInjSel [] 31 24) ≤ rdf (sel 16).dev .relInjSel [] 15 0 ∧ a.dev.rel.inject.isSome = true) ∧
    (a.dev.rel.inject = some i ∧ rdb a.dev .relInjCtl [] 0 = true ∧ i.left = some 1 ∧ (0 : Word).getLsbD 1 = false) ∧
    (a.dev.rel.sparing.find? (fun x => x.1 == 3) = some (3, 2, 28, 1) ∧ pdOn a.dev (9 * 3 + 8) = true ∧
      pdOn (wr a.dev .pwrDomState [2] 192) (9 * 3 + 8) = false ∧ a.dev.rel.sparing.find? (fun x => x.1 == 0) = none ∧
      71 % 9 = 8 ∧ 70 % 9 ≠ 8) := by decide +kernel

theorem witness_Patrol :
    let s := fun full l => st (fun d => { wr d .relPatrolCtl [] 1 with rel := { d.rel with full := full, patrol := l } })
    let d := (s none []).dev
    (patrolUnit (.core 72) = false ∧ (s (some 5) []).dev.rel.full.isSome = true ∧ (s none [.core 3]).dev.rel.patrol.contains (.core 3) = true) ∧
    (nameOf d (3 / 9) (3 % 9) = some 3 ∧ nameUp d (8 * (3 / 9) + 3) = true ∧ patrolReady d (8 * (3 / 9) + 3) = true ∧
      d.rel.condemned = [] ∧ d.rel.suspect = [] ∧ pdOn d 3 = true ∧ rdb d .relPatrolCtl [] 0 = true ∧ d.rel.full = none ∧
      d.rel.patrol.contains (.core 3) = false ∧ d.rel.patrol.contains (.pre 63) = false) ∧
    ((s none [.pre 63]).dev.rel.patrol.contains (.pre 63) = true) ∧
    ((d.fwd.parts.any (fun e => e.2.st == 1) || !d.coll.ctxs.isEmpty || !d.opt.shards.isEmpty || decide (0 < collUsed d)
        || decide (0 < optUsed d)) = false ∧
      (st live4095).dev.fwd.parts.any (fun e => e.2.st == 1) = true) := by decide +kernel

theorem witness_Monitoring :
    let a := regAddr .pmcSelTile [0, 0, 0]
    let t := regAddr .pmcSelDie [3, 0]
    let s := fun x mode => st (fun d => { wr (ringsOn d) .pmcCtl [] 1 with
      pmc := { d.pmc with dump := x, mode := mode, swq := [(0, [List.replicate 64 3])] } })
    (aligned32 a = true ∧ target a = .reg .pmcSelTile [0, 0, 0] ∧ selKind .pmcSelTile = some 0 ∧ locked s0.dev .pmcSelTile [0, 0, 0] = false ∧
      asleepAt s0.dev a = none ∧ srcOk 0 (bits 0x00800000 29 23) (bits 0x00800000 22 16) = true ∧
      srcOk 0 (bits 0x10000000 29 23) (bits 0x10000000 22 16) = false ∧ isSel 0 = false ∧ isSel t = true) ∧
    (locked s0.dev .pmcCtl [] = false ∧ s0.dev.pmc.dump = none ∧ (s (some ⟨true, 0, []⟩) none).dev.pmc.dump.isSome = true ∧
      pmcMode s0.dev ≠ 1 ∧ pmcMode (s none none).dev = 1 ∧ (s (some ⟨false, 0, []⟩) none).dev.pmc.mode = none) ∧
    ((0 : Word).getLsbD 30 = false ∧ rdb (st (fun d => wr d .pmcFreeze [] 0x40000000)).dev .pmcFreeze [] 30 = true ∧
      rdb s0.dev .pmcFreeze [] 30 = false) ∧
    (tgetD (s none none).dev.pmc.swq 0 [] = [List.replicate 64 3] ∧ telRoom (s none none).dev 1 = true ∧
      telRoom s0.dev 1 = false) := by decide +kernel

/-! ### Worked values of the manual -/

/-- CRC-32C over the nine characters 1 to 9: the published check value of that code (spec/02 R30 names it). -/
theorem test_crc32c_check : crc32c ((List.range 9).map (fun i => BitVec.ofNat 8 (0x31 + i))) = 0xE3069283 := by decide +kernel

/-- The worked decode of spec/01: tile T5.6 (die 3, t = 9) and cluster C7 (cluster 1 of die 3). -/
theorem test_worked_decode : regAddr .swTileCtl [3, 9] = 0x2090000 + 0x2000 ∧
    target (0x2090000 + 0x2000) = .reg .swTileCtl [3, 9] ∧ regAddr .clBob [3, 1] / 0x40000 * 0x40000 = 0x2240000 := by decide +kernel

/-- The worked tick of spec/13 R337: NS 0xFFF0_0000 has not reached 0x0010_0000, which lies across the wrap. -/
theorem test_worked_tick : tickReached 0xFFF00000 0x00100000 = false ∧ tickReached 0x00100000 0xFFF00000 = true := by decide

/-- The worked sums of spec/06: 2^24 + 1 + 1 in two orders. -/
theorem test_worked_sum : fadd (fadd 0x4B800000 0x3F800000) 0x3F800000 = 0x4B800000 ∧
    fadd (fadd 0x3F800000 0x3F800000) 0x4B800000 = 0x4B800001 := by decide +kernel

/-- The worked rates of spec/05: 0x49C4 is 40 Gbit/s and 0x5C35 is 100 Gbit/s, in Mbit/s (R132). -/
theorem test_worked_rate : rateOf 0x49C4 = 40000 ∧ rateOf 0x5C35 = 100000 := by decide

/-- Steps: the front of the queue runs, an empty queue is one tick of TIME (log entry 2). -/
theorem test_step_pops : ∃ t, step { s0 with pending := [.memRefresh 0, .i3cWarm] } = .next t ∧ t.pending = [.i3cWarm] :=
  ⟨_, rfl, rfl⟩

/-- The table gives no row any bits, so no word spells a command (log entry 1). -/
theorem test_no_word_spells_a_command : decodeTableWord 32 0 = none ∧ s0.withFetchWord 32 0 = s0 := ⟨rfl, rfl⟩


/-- spec/01 R20, spec/17 R431, R432: a selector write to a sleeping core is held, its value reads back, its counter
reads as the core left it, and the wake applies the write, which clears the counter. -/
theorem test_held_write :
    let a := regAddr .pmcSelCore [0, 0, 3, 1]
    let c := a - 4 + 0x20 + 8
    let d0 := cntAdd (wr s0.dev .pmcSelCore [0, 0, 3, 1] 0xC8800000) c 5
    let d1 := cntAdd (setPd d0 3 1) c 2
    let d2 := busWrite a 0x88000009 d1
    let d3 := domainWakeDone 3 false { d2 with pwr := { d2.pwr with waking := [3] } }
    rd d2 .pmcSelCore [0, 0, 3, 1] = 0xC8800000 ∧ (busRead a d2).1 = 0x88000009 ∧ (busRead c d2).1 = 5 ∧
    rd d3 .pmcSelCore [0, 0, 3, 1] = 0x88000009 ∧ (busRead c d3).1 = 0 ∧ pdOn d3 3 = true ∧ d3.pwr.heldWr = [] := by decide +kernel

end Sys2Proof.Tests
end

section
/-! Accesses to BAR0 that meet reserved offsets, counters, or a width or alignment that the device does not accept
(spec/00 R4, R6): what each does to the device, then the obligations of this family. -/
namespace Sys2Proof.Machine

/-! ### From an access to its effect -/

/-- An access that reaches BAR0 does what its change does to the device it finds. -/
theorem does_of_actBar {c : Instr} {s : State} {off : Nat} {f g : Dev → Dev} (hc : exec c s = actBar off f s)
    (hs : Reached s) (hfg : f s.dev.fresh = g s.dev.fresh) : Does c s g := by
  unfold Does
  rw [hc, actBar_eq_of_reached hs, hfg]

/-- An access that reaches BAR0 gives what its change makes of the device it finds. -/
theorem gives_of_actBar {c : Instr} {s : State} {off : Nat} {f : Dev → Dev} {P : Dev → Dev → Prop}
    (hc : exec c s = actBar off f s) (hs : Reached s) (hP : P s.dev.fresh (f s.dev.fresh)) : Gives c s P :=
  ⟨_, hc.trans (actBar_eq_of_reached hs off f), hP⟩

theorem exec_rsvdAccess (off : Nat) (write wide : Bool) (s : State) :
    exec (.rsvdAccess off write wide) s = actBar off (rsvdAccess off write wide) s := rfl

theorem exec_pair64Write (off : Nat) (val : BitVec 64) (s : State) :
    exec (.pair64Write off val) s = actBar off (busWrite64 off val.toNat) s := rfl

/-- A write by the host alone is one 32-bit write access. -/
theorem exec_registerWrite_host (off : Nat) (val : Word) (s : State) :
    exec (.registerWrite off (some val) none) s = actBar off (busWrite off val.toNat) s := rfl

/-- An access whose width and alignment the device does not accept sets the answer Unsupported Request, no more (R4). -/
theorem exec_unsupportedAccess {off bytes : Nat} (hb : ¬((bytes = 4 ∧ off % 4 = 0) ∨ (bytes = 8 ∧ off % 8 = 0)))
    (write : Bool) (s : State) :
    exec (.unsupportedAccess off bytes write) s = actBar off (setBar .unsupported) s := by
  change execUnsupportedAccess off bytes write s = _
  simp only [execUnsupportedAccess, if_neg hb]

theorem exec_read32 {off : Nat} (ha : aligned32 off = true) (s : State) :
    exec (.pairLoRead ⟨off, false⟩) s =
      actBar off (fun d => setBar (.ok (BitVec.ofNat 64 (busRead off d).1)) (busRead off d).2) s := by
  change execPairLoRead ⟨off, false⟩ s = _
  simp [execPairLoRead, ha]

theorem exec_read64 {off : Nat} (ha : aligned64 off = true) (s : State) :
    exec (.pairLoRead ⟨off, true⟩) s =
      actBar off (fun d => setBar (.ok (BitVec.ofNat 64 (busRead64 off d).1)) (busRead64 off d).2) s := by
  change execPairLoRead ⟨off, true⟩ s = _
  simp [execPairLoRead, ha]

/-! ### Reserved offsets -/

theorem isRsvd_iff {off : Nat} : isRsvd off = true ↔ target off = .rsvd := by
  unfold isRsvd
  cases target off <;> simp

/-- The half of a counter is no reserved offset. -/
theorem isRsvd_of_cnt {off lo : Nat} {hi : Bool} (ht : target off = .cnt lo hi) : isRsvd off = false := by
  simp [isRsvd, ht]

theorem halfSeen_rsvd {off : Nat} (h : isRsvd off = true) (d : Dev) : halfSeen d off = 0 := by
  simp [halfSeen, isRsvd_iff.mp h]

/-- A 64-bit read whose upper half alone is reserved: the lower half beside 0, counted once. -/
theorem busRead64_rsvd_upper {off : Nat} (hu : isRsvd (off + 4) = true) (d : Dev) :
    busRead64 off d = (halfSeen d off, rsvdCount d) := by
  simp [busRead64, halfSeen_rsvd hu, hu]

/-- An access that meets nothing but reserved offsets is counted and reported, and a read answers 0. -/
theorem rsvdAccess_rsvd {off : Nat} {wide : Bool}
    (h : (if wide then aligned64 off && isRsvd off && isRsvd (off + 4) else aligned32 off && isRsvd off) = true)
    (write : Bool) (d : Dev) :
    rsvdAccess off write wide d = if write then rsvdCount d else setBar (.ok 0) (rsvdCount d) := by
  cases wide with
  | true => exact if_pos h
  | false => exact if_pos h

/-- A 64-bit read whose upper half alone is reserved answers the lower half, and is counted once. -/
theorem rsvdAccess_read_rsvd_upper {off : Nat} (ha : aligned64 off = true) (hl : isRsvd off = false)
    (hu : isRsvd (off + 4) = true) (d : Dev) :
    rsvdAccess off false true d = setBar (.ok (BitVec.ofNat 64 (halfSeen d off))) (rsvdCount d) := by
  simp [rsvdAccess, ha, hl, hu, busRead64_rsvd_upper hu]

/-! ### Writes that meet a counter -/

/-- A 32-bit write that meets half of a counter is counted as a write and leaves the counter as it is. -/
theorem busWrite_cnt {off lo : Nat} {hi : Bool} (ha : aligned32 off = true) (ht : target off = .cnt lo hi) (val : Nat)
    (d : Dev) : busWrite off val d = d.written := by
  simp only [busWrite, busWriteX, ha, ht]
  rfl

theorem halfWrite_cnt {off lo : Nat} {hi : Bool} (ht : target off = .cnt lo hi) (val : Nat) (d : Dev) :
    halfWrite off val d = d := by
  simp only [halfWrite, ht]

/-- A 64-bit write of a counter is counted as one write and leaves the counter as it is. -/
theorem busWrite64_cnt {off lo lo' : Nat} {hi hi' : Bool} (ha : aligned64 off = true) (hl : target off = .cnt lo hi)
    (hu : target (off + 4) = .cnt lo' hi') (val : Nat) (d : Dev) : busWrite64 off val d = regwr d := by
  simp [busWrite64, ha, hl, isRsvd_of_cnt hl, isRsvd_of_cnt hu, halfWrite_cnt hu]

/-! ### The obligations -/

/-- Settles O6: `rsvdAccess` is the report alone, with the answer 0 or the lower half beside 0. -/
theorem reservedOffsetReadsZero : Obligations.ReservedOffsetReadsZero := by
  intro s off write wide hs
  constructor
  · intro h
    exact does_of_actBar (exec_rsvdAccess off write wide s) hs (rsvdAccess_rsvd h write _)
  · intro ha hl hu
    exact does_of_actBar (exec_rsvdAccess off false true s) hs (rsvdAccess_read_rsvd_upper ha hl hu _)

/-- Settles O7: an unsupported access is its answer alone; each accepted read sets an answer; a write that meets a
counter is one count. -/
theorem unsupportedAccessHasNoEffect : Obligations.UnsupportedAccessHasNoEffect := by
  intro s off bytes write v u hs
  refine ⟨fun hb => ?unsupported, fun ha => ?read32, fun ha => ?read64, fun ha ht => ?write32,
    fun ha hl hu => ?write64⟩
  case unsupported => exact does_of_actBar (exec_unsupportedAccess hb write s) hs rfl
  case read32 => exact gives_of_actBar (exec_read32 ha s) hs ⟨_, rfl⟩
  case read64 => exact gives_of_actBar (exec_read64 ha s) hs ⟨_, rfl⟩
  case write32 => exact does_of_actBar (exec_registerWrite_host off v s) hs (busWrite_cnt ha ht v.toNat _)
  case write64 => exact does_of_actBar (exec_pair64Write off u s) hs (busWrite64_cnt ha hl hu u.toNat _)

end Sys2Proof.Machine
end

section
/-! Writes of the registers that a rule judges (spec/02 R44, R51, spec/03 R70, spec/04 R119, R123, spec/05 R135, spec/06 R145,
spec/07 R202, spec/08 R241, spec/09 R246, spec/11 R292): where each register stands, what its fields merge to, what its
write does, then the obligation of this family. -/
namespace Sys2Proof.Machine

/-! ### Fields of a written word -/

theorem bits_lt (x m l : Nat) : bits x m l < 2 ^ (m + 1 - l) := Nat.mod_lt _ (Nat.two_pow_pos _)

@[simp] theorem bits_word (v : Word) : bits v.toNat 31 0 = v.toNat := by
  simp only [bits, Nat.shiftRight_zero]
  exact Nat.mod_eq_of_lt v.isLt

theorem testBit_bits (x m l i : Nat) : (bits x m l).testBit i = (decide (i < m + 1 - l) && x.testBit (l + i)) := by
  simp only [bits, Nat.testBit_mod_two_pow, Nat.testBit_shiftRight]

/-- A field of the low bits of a number is that field of the number. -/
theorem bits_bits_low (x l : Nat) {m n : Nat} (h : m ≤ n) : bits (bits x n 0) m l = bits x m l := by
  refine Nat.eq_of_testBit_eq fun i => ?_
  have : i < m + 1 - l → l + i < n + 1 := by omega
  simp only [testBit_bits, Nat.sub_zero, Nat.zero_add]
  by_cases hi : i < m + 1 - l <;> simp [hi, this]

/-- A field written with its own bits is unchanged. -/
theorem putBits_self (x m l : Nat) : putBits x m l (x / 2 ^ l) = x := by
  have h : bits x m l * 2 ^ l ≤ x := by
    rw [bits, Nat.shiftRight_eq_div_pow]
    exact (Nat.mul_le_mul_right _ (Nat.mod_le ..)).trans (Nat.div_mul_le_self ..)
  rw [putBits, ← Nat.shiftRight_eq_div_pow]
  exact Nat.sub_add_cancel h

theorem rd_lt (d : Dev) (r : Reg) (ix : List Nat) : rd d r ix < 2 ^ 32 := by
  unfold rd
  split
  · exact BitVec.isLt _
  · exact rowReset_lt r

/-- A register of one field that software writes, from bit 0 up: a write merges to the field's bits. -/
theorem merge_single {r : Reg} {m z : Nat} {a : Acc} (h : (regRow r).flds = [⟨m, 0, a, z⟩])
    (ha : a = .rw ∨ a = .rwl) (old val : Nat) : merge false r old val = bits val m 0 := by
  rcases ha with rfl | rfl <;> simp [merge, mergeFld, h, putBits, bits]

/-- MIR_CTL keeps every bit of a word but its reserved ones, 24 to 18. -/
theorem merge_mirCtl (old : Nat) (val : Word) : merge false .mirCtl old val.toNat = putBits val.toNat 24 18 0 := by
  have := val.isLt
  simp [merge, mergeFld, regRow, fl, putBits, bits, Nat.shiftRight_eq_div_pow]
  omega

theorem putBits_putBits_mirCtl (val : Nat) : putBits (putBits val 24 18 0) 24 18 0 = putBits val 24 18 0 := by
  simp only [putBits, bits, Nat.shiftRight_eq_div_pow]
  omega

theorem bits_putBits_mirCtl (val : Nat) : bits (putBits val 24 18 0) 27 25 = bits val 27 25 := by
  simp only [putBits, bits, Nat.shiftRight_eq_div_pow]
  omega

/-- LN_PORT takes the widths of a word; its lock bit is set and never cleared. -/
theorem merge_lnPort (old val : Nat) :
    merge false .lnPort old val = bits val 15 0 + 2 ^ 31 * (bits old 31 31 ||| bits val 31 31) := by
  have h : bits old 31 31 ||| bits val 31 31 < 2 ^ 1 := Nat.or_lt_two_pow (bits_lt ..) (bits_lt ..)
  simp [merge, mergeFld, regRow, fl, putBits, bits, Nat.shiftRight_eq_div_pow] at h ⊢
  omega

/-! ### Registers that no lock touches -/

/-- No lock touches a write of the register: none of its fields is RWL, and software writes one of them. -/
def lockFree (r : Reg) : Bool := (regRow r).flds.all (fun f => f.acc != .rwl) && !onlyRwl r

theorem merge_lockFree {r : Reg} (h : lockFree r = true) (lk : Bool) (old val : Nat) :
    merge lk r old val = merge false r old val := by
  obtain ⟨hr, -⟩ := Bool.and_eq_true_iff.mp h
  refine List.foldl_ext _ _ _ fun a f hf => ?_
  have hne : f.acc ≠ .rwl := by simpa using List.all_eq_true.mp hr f hf
  cases ha : f.acc with
  | rwl => exact absurd ha hne
  | _ => simp only [mergeFld, ha]

theorem lockHit_lockFree {r : Reg} (h : lockFree r = true) (lk : Bool) (old val : Nat) :
    lockHit lk r old val = false := by
  obtain ⟨hr, -⟩ := Bool.and_eq_true_iff.mp h
  have : ∀ f ∈ (regRow r).flds, f.acc ≠ .rwl := fun f hf => by simpa using List.all_eq_true.mp hr f hf
  simp only [lockHit, Bool.and_eq_false_iff, List.any_eq_false]
  exact .inr fun f hf => by simp [this f hf]

/-! ### From a write access to what its register sets off -/

/-- At an offset that the device accepts stands a register outside the pairs. -/
abbrev MeetsReg (off : Nat) (r : Reg) (ix : List Nat) : Prop :=
  aligned32 off = true ∧ target off = .reg r ix ∧ pairHiOf r = none ∧ pairLoOf r = none

theorem asleepAt_of_sleepDom {off : Nat} (h : sleepDom off = none) (d : Dev) : asleepAt d off = none := by
  simp [asleepAt, h]

/-- A write under no lock does what its register sets off, or is held where the block sleeps. -/
theorem busWrite_unlocked {off : Nat} {r : Reg} {ix : List Nat} {d : Dev} (hm : MeetsReg off r ix)
    (hl : locked d r ix = false) (val : Word) :
    busWrite off val.toNat d = writeOrHold d off false val
      (writeReg (offDie off) r ix (merge false r (rd d r ix) val.toNat) val.toNat none (Config.freeBool d.draw)
        d.written) := by
  obtain ⟨ha, ht, h1, h2⟩ := hm
  unfold writeOrHold
  cases hs : asleepAt d off with
  | none => exact busWrite_plain ha ht h1 h2 hl hs
  | some n =>
    rw [busWrite_reg ha ht h1 h2, applyReg_held (d := d.written) hl hs, w32, BitVec.ofNat_toNat, BitVec.setWidth_eq]
    rfl

/-- A write under no lock to a block that never sleeps. -/
theorem busWrite_unlocked_awake {off : Nat} {r : Reg} {ix : List Nat} {d : Dev} (hm : MeetsReg off r ix)
    (hs : sleepDom off = none) (hl : locked d r ix = false) (val : Nat) :
    busWrite off val d =
      writeReg (offDie off) r ix (merge false r (rd d r ix) val) val none (Config.freeBool d.draw) d.written := by
  obtain ⟨ha, ht, h1, h2⟩ := hm
  exact busWrite_plain ha ht h1 h2 hl (asleepAt_of_sleepDom hs d)

/-- A write of a register that no lock touches, in a block that never sleeps. -/
theorem busWrite_lockFree_awake {off : Nat} {r : Reg} {ix : List Nat} (hm : MeetsReg off r ix)
    (hs : sleepDom off = none) (hr : lockFree r = true) (val : Nat) (d : Dev) :
    busWrite off val d =
      writeReg (offDie off) r ix (merge false r (rd d r ix) val) val none (Config.freeBool d.draw) d.written := by
  obtain ⟨ha, ht, h1, h2⟩ := hm
  have ho : onlyRwl r = false := by simpa using (Bool.and_eq_true_iff.mp hr).2
  rw [busWrite_reg ha ht h1 h2]
  simp [applyReg, asleepAt_of_sleepDom hs, lockHit_lockFree hr, ho, merge_lockFree hr]

/-- A write of a locked register of RWL fields alone changes no register but those of the report, where one is made. -/
theorem reports_busWrite_locked {off : Nat} {r : Reg} {ix : List Nat} {d : Dev} (hm : MeetsReg off r ix)
    (hl : locked d r ix = true) (ho : onlyRwl r = true) (hr : ∀ die e, lockReject die r e = raise e (srcRel 255 0) 1)
    (val : Nat) : Reports (regAddr .relStatus [] :: reportRegs) d (busWrite off val d) := by
  obtain ⟨ha, ht, h1, h2⟩ := hm
  have hw : Reports (regAddr .relStatus [] :: reportRegs) d d.written := ⟨_, _, _, _, _, _, rfl, fun _ _ => rfl⟩
  have hj : ∀ (b : Bool) (e : Dev), Reports (regAddr .relStatus [] :: reportRegs) e
      (if b = true then lockReject (offDie off) r e else e) := fun b e => by
    cases b with
    | true => exact hr (offDie off) e ▸ reports_raise e (srcRel 255 0) 1 [] []
    | false => exact .refl _ e
  rw [busWrite_reg ha ht h1 h2]
  simp only [applyReg, locked_written, hl, ho, Bool.and_self, if_true]
  exact hw.trans (hj _ _)

/-! ### Where the judged registers stand -/

/-- Registers that exist once stand, through every die, in blocks that never sleep. -/
theorem meets_viaDie (die : Fin 4) :
    ∀ r ∈ ([.fwdAgeCtl, .fwdEmSeed0, .fwdEmSeed1, .fwdEpochCtl, .rtOrdSeed, .collMemSize, .optMemSize] : List Reg),
      MeetsReg (viaDie die r) r [] ∧ sleepDom (viaDie die r) = none ∧ offDie (viaDie die r) = die := by
  revert die
  decide +kernel

theorem meets_mirCtl (die : Fin 4) (ses : Fin 16) :
    MeetsReg (viaDie die .mirCtl [ses.val]) .mirCtl [ses.val] ∧ sleepDom (viaDie die .mirCtl [ses.val]) = none ∧
      offDie (viaDie die .mirCtl [ses.val]) = die := by
  revert die ses
  decide +kernel

theorem meets_clBob (cl : Fin 8) :
    MeetsReg (regAddr .clBob [cl.val / 2, cl.val % 2]) .clBob [cl.val / 2, cl.val % 2] := by
  revert cl
  decide +kernel

theorem meets_lnPort (tile : Fin 64) : MeetsReg (regAddr .lnPort (tix tile)) .lnPort (tix tile) := by
  revert tile
  decide +kernel

theorem meets_memHashSeed :
    MeetsReg (regAddr .memHashSeed []) .memHashSeed [] ∧ sleepDom (regAddr .memHashSeed []) = none := by
  decide +kernel

/-- No counter stands among a tile's reserves and shapers. -/
theorem isCnt_dieTile {i j x : Nat} (hi : i < 4) (hj : j < 16)
    (hx : 0x2000 ≤ x ∧ x < 0x3000 ∨ 0x4000 ≤ x ∧ x < 0x5800) :
    isCnt (0x800000 + i * 0x800000 + j * 0x10000 + x) = false := by
  simp only [isCnt, cntBlocks, splitIx, List.any_cons, List.any_nil, List.nil_append, List.cons_append,
    Bool.or_eq_false_iff, Bool.or_false]
  and_intros <;> simp <;> omega

/-- A list of registers finds the one that covers an offset when none before it does. -/
theorem findReg_append {pre post : List Reg} {r : Reg} {off : Nat} {ix : List Nat}
    (hpre : ∀ q ∈ pre, splitIx (regRow q).dims (off - (regRow q).base) = none) (hb : (regRow r).base ≤ off)
    (h : splitIx (regRow r).dims (off - (regRow r).base) = some ix) :
    findReg (pre ++ r :: post) off = some (r, ix) := by
  induction pre with
  | nil => simp [findReg, h, Nat.not_lt.mpr hb]
  | cons q qs ih =>
    obtain ⟨hq, hqs⟩ := List.forall_mem_cons.mp hpre
    simp [findReg, hq, ih hqs]

/-- A register that the tile registers' list finds among a tile's reserves and shapers stands there, in a block that
never sleeps. -/
theorem meets_of_findReg {i j x : Nat} {r : Reg} {ix : List Nat} (hi : i < 4) (hj : j < 16)
    (hx : 0x2100 ≤ x ∧ x < 0x3000 ∨ 0x5000 ≤ x ∧ x < 0x5800) (h4 : x % 4 = 0)
    (hf : findReg dieTileRegs (0x800000 + i * 0x800000 + j * 0x10000 + x) = some (r, ix))
    (h1 : pairHiOf r = none) (h2 : pairLoOf r = none) :
    MeetsReg (0x800000 + i * 0x800000 + j * 0x10000 + x) r ix ∧
      sleepDom (0x800000 + i * 0x800000 + j * 0x10000 + x) = none := by
  have hc := isCnt_dieTile hi hj (x := x) (by omega)
  have hc' := isCnt_dieTile hi hj (x := x - 4) (by omega)
  rw [← Nat.add_sub_assoc (by omega)] at hc'
  generalize ho : 0x800000 + i * 0x800000 + j * 0x10000 + x = off at hc hc' hf ⊢
  have hr : 0x800000 ≤ off ∧ off < 0x2800000 := by omega
  have hin : (off - 0x800000) % 0x800000 < 0x100000 := by omega
  have hx' : (off - 0x800000) % 0x800000 % 0x10000 = x := by omega
  have hcan : canonOff off = off := by
    simp only [canonOff, if_pos hr]
    exact if_neg (by omega)
  have hdec : decodeReg off = some (r, ix) := by
    simp only [decodeReg, hcan, if_neg (Nat.not_lt.mpr hr.1), if_pos hr.2, if_pos hin, hf]
  refine ⟨⟨?aligned, ?target, h1, h2⟩, ?awake⟩
  case aligned => simp [aligned32]; omega
  case target => simp [target, hc, hc', hdec]
  case awake =>
    simp only [sleepDom, if_pos hr, if_pos hin, hx']
    rw [if_neg (by omega), if_neg (by omega)]

theorem findReg_swRsv {i j k v : Nat} (hi : i < 4) (hj : j < 16) (hk : k < 8) (hv : v < 8) :
    findReg dieTileRegs (regAddr .swRsv [i, j, k, v]) = some (.swRsv, [i, j, k, v]) := by
  refine findReg_append (pre := [.swTileCtl, .swCtMap, .swShr, .swLcf, .swStatus]) ?_ ?_ ?_
  · simp [regAddr, dimOff, regRow, splitIx]; omega
  · simp [regAddr, regRow]
  · simp [regAddr, dimOff, regRow, splitIx]; omega

theorem meets_swRsv (lane : Fin 512) (vc : Fin 8) :
    MeetsReg (regAddr .swRsv (lix lane ++ [vc.val])) .swRsv (lix lane ++ [vc.val]) ∧
      sleepDom (regAddr .swRsv (lix lane ++ [vc.val])) = none := by
  have hi : lane.val / 128 < 4 := by omega
  have hj : lane.val / 8 % 16 < 16 := by omega
  have hf := findReg_swRsv hi hj (Nat.mod_lt lane.val (by omega : 0 < 8)) vc.isLt
  have ha : regAddr .swRsv (lix lane ++ [vc.val]) = 0x800000 + lane.val / 128 * 0x800000 + lane.val / 8 % 16 * 0x10000
      + (0x2100 + lane.val % 8 * 0x20 + vc.val * 4) := by
    simp only [regAddr, regRow, dimOff, lix, List.cons_append, List.nil_append]
    omega
  rw [ha]
  exact meets_of_findReg hi hj (by omega) (by omega) (ha ▸ hf) rfl rfl

/-- The register of a shaper that a write names. -/
def shpReg (reg : Fin 3) : Reg := if reg = 0 then .shpC0 else if reg = 1 then .shpC1 else .shpC2

/-- The three registers of a shaper lie word after word, strided alike. -/
theorem regRow_shpReg (n : Fin 3) : (regRow (shpReg n)).base = 0x805000 + n * 4 ∧
    (regRow (shpReg n)).dims = [(4, 0x800000), (16, 0x10000), (32, 0x10)] := by
  match n with
  | 0 | 1 | 2 => exact ⟨rfl, rfl⟩

theorem regAddr_shpReg (reg : Fin 3) (i j k : Nat) :
    regAddr (shpReg reg) [i, j, k] = 0x800000 + i * 0x800000 + j * 0x10000 + (0x5000 + k * 0x10 + reg * 4) := by
  obtain ⟨hb, hd⟩ := regRow_shpReg reg
  simp only [regAddr, hb, hd, dimOff]
  omega

/-- Of a shaper's registers, one before the register at an offset does not cover it. -/
theorem splitIx_shpReg {i j k : Nat} (hi : i < 4) (hj : j < 16) (hk : k < 32) {n reg : Fin 3} (h : n ≤ reg) :
    splitIx (regRow (shpReg n)).dims (regAddr (shpReg reg) [i, j, k] - (regRow (shpReg n)).base) =
      if n = reg then some [i, j, k] else none := by
  obtain ⟨hb, hd⟩ := regRow_shpReg n
  rw [regAddr_shpReg, hb, hd]
  split
  · subst n; simp [splitIx]; omega
  · simp [splitIx]; omega

/-- The tile registers listed before the shapers' lie elsewhere. -/
theorem splitIx_before_shapers {i j x : Nat} (hi : i < 4) (hj : j < 16) (hx : 0x5000 ≤ x ∧ x < 0x5200) :
    ∀ q ∈ [Reg.swTileCtl, .swCtMap, .swShr, .swLcf, .swStatus, .swRsv, .rtPort],
      splitIx (regRow q).dims (0x800000 + i * 0x800000 + j * 0x10000 + x - (regRow q).base) = none := by
  simp [regRow, splitIx]
  omega

theorem findReg_shpReg {i j k : Nat} (hi : i < 4) (hj : j < 16) (hk : k < 32) (reg : Fin 3) :
    findReg dieTileRegs (regAddr (shpReg reg) [i, j, k]) = some (shpReg reg, [i, j, k]) := by
  have hlt : ∀ n ∈ (List.finRange 3).take reg, n < reg := by
    revert reg
    decide
  have hsplit : dieTileRegs = ([.swTileCtl, .swCtMap, .swShr, .swLcf, .swStatus, .swRsv, .rtPort] ++
      ((List.finRange 3).take reg).map shpReg) ++ shpReg reg :: dieTileRegs.drop (reg + 8) := by
    match reg with
    | 0 | 1 | 2 => rfl
  rw [hsplit]
  refine findReg_append (fun q hq => ?before) ?base ?here
  case before =>
    rcases List.mem_append.mp hq with h | h
    · rw [regAddr_shpReg]
      exact splitIx_before_shapers hi hj (by omega) q h
    · obtain ⟨n, hn, rfl⟩ := List.mem_map.mp h
      have := hlt n hn
      rw [splitIx_shpReg hi hj hk this.le, if_neg this.ne]
  case base => exact Nat.le_add_right ..
  case here => rw [splitIx_shpReg hi hj hk le_rfl, if_pos rfl]

theorem meets_shpReg (p : Fin 512) (cls : Fin 4) (reg : Fin 3) :
    MeetsReg (regAddr (shpReg reg) (shpIx p cls)) (shpReg reg) (shpIx p cls) ∧
      sleepDom (regAddr (shpReg reg) (shpIx p cls)) = none := by
  have hi : p.val / 8 / 16 < 4 := by omega
  have hj : p.val / 8 % 16 < 16 := by omega
  have hf := findReg_shpReg (k := 4 * (p.val % 8) + cls.val) hi hj (by omega) reg
  have ha : regAddr (shpReg reg) (shpIx p cls) = _ := regAddr_shpReg reg ..
  rw [ha]
  refine meets_of_findReg hi hj (by omega) (by omega) (ha ▸ hf) ?_ ?_
  · match reg with
    | 0 | 1 | 2 => rfl
  · match reg with
    | 0 | 1 | 2 => rfl

/-! ### What each judged write does -/

theorem busWrite_fwdAgeCtl (die : Fin 4) (val : Word) (d : Dev) :
    busWrite (viaDie die .fwdAgeCtl) val.toNat d =
      { wr d.written .fwdAgeCtl [] (bits val.toNat 23 0) with fwd := { d.fwd with sweepAt := d.now } } := by
  obtain ⟨hm, hs, -⟩ := meets_viaDie die .fwdAgeCtl (by decide)
  rw [busWrite_lockFree_awake hm hs rfl, merge_single rfl (.inl rfl)]
  simp only [writeReg, fwdAgeCtlWrite, bits_bits_low _ _ le_rfl]
  rfl

/-- The hash seed of a table. -/
def emSeedReg (tbl : Fin 2) : Reg := if tbl = 0 then .fwdEmSeed0 else .fwdEmSeed1

/-- The hash seed of the other table. -/
def emSeedOther (tbl : Fin 2) : Reg := if tbl = 0 then .fwdEmSeed1 else .fwdEmSeed0

theorem meets_emSeedReg (die : Fin 4) (tbl : Fin 2) : MeetsReg (viaDie die (emSeedReg tbl)) (emSeedReg tbl) [] ∧
    sleepDom (viaDie die (emSeedReg tbl)) = none ∧ offDie (viaDie die (emSeedReg tbl)) = die :=
  meets_viaDie die _ (by revert tbl; decide)

/-- One lock guards both hash seeds. -/
theorem locked_emSeedReg (d : Dev) (tbl : Fin 2) : locked d (emSeedReg tbl) [] = locked d .fwdEmSeed0 [] := by
  match tbl with
  | 0 | 1 => rfl

theorem writeReg_emSeedReg (tbl : Fin 2) (die m val : Nat) (img : Option DmaRead) (low : Bool) (d : Dev) :
    writeReg die (emSeedReg tbl) [] m val img low d = emSeedWrite die (emSeedReg tbl) (emSeedOther tbl) m d := by
  match tbl with
  | 0 | 1 => rfl

theorem merge_emSeedReg (tbl : Fin 2) (old : Nat) (val : Word) :
    merge false (emSeedReg tbl) old val.toNat = val.toNat := by
  match tbl with
  | 0 | 1 => exact (merge_single rfl (.inr rfl) ..).trans (bits_word val)

theorem busWrite_emSeed (die : Fin 4) (tbl : Fin 2) (val : Word) {d : Dev} (hl : locked d .fwdEmSeed0 [] = false) :
    busWrite (viaDie die (emSeedReg tbl)) val.toNat d =
      if emCount d = 0 ∧ d.fwd.staged = 0 ∧ d.fwd.settling = false ∧ val.toNat ≠ rd d (emSeedOther tbl) then
        wr d.written (emSeedReg tbl) [] val.toNat
      else raise d.written (srcFwd die) 13 := by
  obtain ⟨hm, hs, hd⟩ := meets_emSeedReg die tbl
  rw [busWrite_unlocked_awake hm hs ((locked_emSeedReg d tbl).trans hl), writeReg_emSeedReg, merge_emSeedReg, hd,
    emSeedWrite]
  simp only [Bool.not_eq_true', rd_written]
  rfl

theorem lockReject_emSeedReg (tbl : Fin 2) (die : Nat) (d : Dev) :
    lockReject die (emSeedReg tbl) d = raise d (srcRel 255 0) 1 := by
  match tbl with
  | 0 | 1 => rfl

/-- Under the lock no hash seed changes. -/
theorem rd_busWrite_emSeed_locked (die : Fin 4) (tbl : Fin 2) (val : Word) {d : Dev}
    (hl : locked d .fwdEmSeed0 [] = true) (tbl' : Fin 2) :
    rd (busWrite (viaDie die (emSeedReg tbl)) val.toNat d) (emSeedReg tbl') = rd d (emSeedReg tbl') := by
  have ho : ∀ t, onlyRwl (emSeedReg t) = true := by decide
  have hn : ∀ t, regAddr (emSeedReg t) [] ∉ regAddr .relStatus [] :: reportRegs := by decide
  exact (reports_busWrite_locked (meets_emSeedReg die tbl).1 ((locked_emSeedReg d tbl).trans hl) (ho tbl)
    (lockReject_emSeedReg tbl) val.toNat).rd (hn tbl')

theorem busWrite_fwdEpochCtl (die : Fin 4) (d : Dev) :
    busWrite (viaDie die .fwdEpochCtl) 1 d =
      if d.fwd.commit.isSome ∨ d.fwd.settling then
        { d.written with fwd := { d.fwd with held := d.fwd.held ++ [⟨.commit none, none, die, some (commitTick d none,
          activeDom d)⟩] } }
      else { d.written with fwd := { d.fwd with commit := some ⟨commitTick d none, activeDom d, none⟩ } } := by
  obtain ⟨hm, hs, hd⟩ := meets_viaDie die .fwdEpochCtl (by decide)
  rw [busWrite_lockFree_awake hm hs rfl, hd]
  change sequence d.written ⟨.commit none, none, die, none⟩ = _
  simp only [sequence, holding, Bool.or_eq_true]
  rfl

theorem busWrite_swRsv (lane : Fin 512) (vc : Fin 8) (val : Word) {d : Dev}
    (hl : locked d .swRsv (lix lane ++ [vc.val]) = false) :
    busWrite (regAddr .swRsv (lix lane ++ [vc.val])) val.toNat d =
      let p := portOf d lane
      let d1 := wr d.written .swRsv (lix lane ++ [vc.val]) (bits val.toNat 11 0)
      let r := reserveOf d1 p vc
      if (0 < r ∧ r < 33) ∨ 22008 < tileReserve d1 (lane / 8) ∨ linkUp d p then raise d.written (srcSw (lane / 8)) 6
      else d1 := by
  obtain ⟨hm, hs⟩ := meets_swRsv lane vc
  have hlane : 8 * (16 * (lane.val / 128) + lane.val / 8 % 16) + lane.val % 8 = lane := by omega
  have hw (m : Nat) : writeReg (offDie (regAddr .swRsv (lix lane ++ [vc.val]))) .swRsv (lix lane ++ [vc.val]) m val.toNat
      none (Config.freeBool d.draw) d.written = swRsvWrite lane vc m d.written := by
    simp only [writeReg, lix, List.cons_append, List.nil_append, List.getD_cons_zero, List.getD_cons_succ, hlane]
  rw [busWrite_unlocked_awake hm hs hl, merge_single rfl (.inr rfl), hw]
  simp only [swRsvWrite, bits_bits_low _ _ le_rfl]
  rfl

theorem busWrite_mirCtl (die : Fin 4) (ses : Fin 16) (val : Word) (d : Dev) :
    busWrite (viaDie die .mirCtl [ses.val]) val.toNat d =
      if bits val.toNat 27 25 < 3 then raise d.written (srcRt die 0) 0
      else wr d.written .mirCtl [ses.val] (putBits val.toNat 24 18 0) := by
  obtain ⟨hm, hs, hd⟩ := meets_mirCtl die ses
  rw [busWrite_lockFree_awake hm hs rfl, hd, merge_mirCtl]
  change mirCtlWrite die ses _ _ = _
  rw [mirCtlWrite, bits_putBits_mirCtl, putBits_putBits_mirCtl]

theorem busWrite_rtOrdSeed (die : Fin 4) (val : Word) {d : Dev} (hl : locked d .rtOrdSeed [] = false) :
    busWrite (viaDie die .rtOrdSeed) val.toNat d =
      if (List.range 512).any (inService d) = true then raise d.written (srcRt die 0) 0
      else wr d.written .rtOrdSeed [] val.toNat := by
  obtain ⟨hm, hs, hd⟩ := meets_viaDie die .rtOrdSeed (by decide)
  have hin : inService d.written = inService d := rfl
  rw [busWrite_unlocked_awake hm hs hl, hd, merge_single rfl (.inr rfl), bits_word, ← hin]
  rfl

theorem lockFree_shpReg (reg : Fin 3) : lockFree (shpReg reg) = true := by
  revert reg
  decide

theorem writeReg_shpReg (p : Fin 512) (cls : Fin 4) (reg : Fin 3) (die m val : Nat) (img : Option DmaRead) (low : Bool)
    (d : Dev) : writeReg die (shpReg reg) (shpIx p cls) m val img low d = shpWrite p cls reg m d := by
  have hp : 8 * (16 * (p.val / 8 / 16) + p.val / 8 % 16) + (4 * (p.val % 8) + cls.val) / 4 = p := by omega
  have hc : (4 * (p.val % 8) + cls.val) % 4 = cls := by omega
  match reg with
  | 0 | 1 | 2 =>
    simp [shpReg, writeReg, shpIx, tix, hp, hc]

theorem bucketsOk_eq_false (cir pir cbs pbs : Nat) :
    bucketsOk cir pir cbs pbs = false ↔ rateOf pir < rateOf cir ∨ cbs < 8329 ∨ pbs < 8329 := by
  simp only [bucketsOk, Bool.and_eq_false_iff, decide_eq_false_iff_not, Nat.not_le]
  tauto

/-- A shaper write is judged with the merged value in place (R135). -/
theorem shpWrite_eq (p : Fin 512) (cls : Fin 4) (reg : Fin 3) (m : Nat) (d : Dev) :
    shpWrite p cls reg m d =
      let ix := shpIx p cls
      let d1 := wr d (shpReg reg) ix m
      let pir := rdf d1 .shpC2 ix 31 16
      if rdb d1 .shpC0 ix 31 = true ∧ (rateOf pir = 0 ∨ rateOf pir < rateOf (rdf d1 .shpC2 ix 15 0)
          ∨ rdf d1 .shpC0 ix 23 0 < 8329 ∨ rdf d1 .shpC1 ix 23 0 < 8329) then
        raise d (srcShp (p / 8)) 0
      else
        let b := shpNow d p cls
        let z := shpSize d1 p cls
        setShp d1 p cls { b with sc := intMin b.sc z.1, sp := intMin b.sp z.2 } := by
  have hr : (if reg.val = 0 then Reg.shpC0 else if reg.val = 1 then .shpC1 else .shpC2) = shpReg reg := by
    match reg with
    | 0 | 1 | 2 => rfl
  simp only [shpWrite, hr, shpOn, Bool.and_eq_true, Bool.or_eq_true, beq_iff_eq, Bool.not_eq_true', bucketsOk_eq_false]

theorem busWrite_shpReg (p : Fin 512) (cls : Fin 4) (reg : Fin 3) (val : Word) (d : Dev) :
    busWrite (regAddr (shpReg reg) (shpIx p cls)) val.toNat d =
      shpWrite p cls reg (merge false (shpReg reg) (rd d (shpReg reg) (shpIx p cls)) val.toNat) d.written := by
  obtain ⟨hm, hs⟩ := meets_shpReg p cls reg
  rw [busWrite_lockFree_awake hm hs (lockFree_shpReg reg), writeReg_shpReg]

theorem busWrite_clBob (cl : Fin 8) (val : Word) {d : Dev} (hl : locked d .clBob [cl.val / 2, cl.val % 2] = false) :
    busWrite (regAddr .clBob [cl.val / 2, cl.val % 2]) val.toNat d =
      writeOrHold d (regAddr .clBob [cl.val / 2, cl.val % 2]) false val
        (if clusterBusy d cl then raise d.written (srcCl cl) 0
         else wrf d.written .clBob [cl.val / 2, cl.val % 2] 8 0 (bits val.toNat 8 0)) := by
  have hcl : 2 * (cl.val / 2) + cl.val % 2 = cl := by omega
  rw [busWrite_unlocked (meets_clBob cl) hl, merge_single rfl (.inr rfl)]
  simp only [writeReg, List.getD_cons_zero, List.getD_cons_succ, hcl]
  rfl

/-! ### Port widths of a tile -/

theorem tilePorts_low (w : Nat) : tilePorts (bits w 15 0) = tilePorts w :=
  List.filterMap_congr fun k hk => by
    have : k < 8 := List.mem_range.mp hk
    rw [bits_bits_low w (2 * k) (by omega)]

theorem lnPortOk_low (w : Nat) : lnPortOk (bits w 15 0) = lnPortOk w := by
  simp only [lnPortOk, tilePorts_low]

/-- A write of a word of widths `w` and lock bit `b`: judged by the widths (R292). -/
theorem lnPortWrite_eq {t w b m : Nat} (hw : bits m 15 0 = w) (hb : bits m 31 31 = b) (d : Dev) :
    lnPortWrite t m d =
      let new := tilePorts w
      let gone := (tilePorts (rdf d .lnPort (tix t) 15 0)).filter (fun p => !new.contains p)
      if lnPortOk w = true ∧ ∀ p ∈ gone, ∀ j < p.2, laneState d (8 * t + p.1 + j) = 0 then
        (new.filter (fun p => !(tilePorts (rdf d .lnPort (tix t) 15 0)).contains p)).foldl
          (fun d p => if mayTrain d (8 * t + p.1) then startTraining d (8 * t + p.1) else d)
          (wr d .lnPort (tix t) (w + 2 ^ 31 * b))
      else raise d (srcLnTile t) 0 := by
  have hm : m % 65536 = w := by simpa [bits] using hw
  subst hw hb
  simp only [lnPortWrite, lnPortOk_low, hm]
  rw [← ite_not]
  congr 1
  simp

theorem busWrite_lnPort (tile : Fin 64) (val : Word) {d : Dev} (hl : locked d .lnPort (tix tile) = false) :
    busWrite (regAddr .lnPort (tix tile)) val.toNat d =
      let new := tilePorts (bits val.toNat 15 0)
      let gone := (tilePorts (rdf d .lnPort (tix tile) 15 0)).filter (fun p => !new.contains p)
      writeOrHold d (regAddr .lnPort (tix tile)) false val
        (if lnPortOk (bits val.toNat 15 0) = true ∧ ∀ p ∈ gone, ∀ j < p.2, laneState d (8 * tile + p.1 + j) = 0 then
          (new.filter (fun p => !(tilePorts (rdf d .lnPort (tix tile) 15 0)).contains p)).foldl
            (fun d p => if mayTrain d (8 * tile + p.1) then startTraining d (8 * tile + p.1) else d)
            (wr d.written .lnPort (tix tile)
              (bits val.toNat 15 0 + 2 ^ 31 * (bits (rd d .lnPort (tix tile)) 31 31 ||| bits val.toNat 31 31)))
        else raise d.written (srcLnTile tile) 0) := by
  have ht : 16 * (tile.val / 16) + tile.val % 16 = tile := by omega
  have hv := bits_lt val.toNat 15 0
  have hb : bits (rd d .lnPort (tix tile)) 31 31 ||| bits val.toNat 31 31 < 2 ^ 1 :=
    Nat.or_lt_two_pow (bits_lt ..) (bits_lt ..)
  have hw (m : Nat) : writeReg (offDie (regAddr .lnPort (tix tile))) .lnPort (tix tile) m val.toNat none
      (Config.freeBool d.draw) d.written = lnPortWrite tile m d.written := by
    simp only [writeReg, tix, List.getD_cons_zero, List.getD_cons_succ, ht]
  rw [busWrite_unlocked (meets_lnPort tile) hl, merge_lnPort, hw]
  congr 1
  refine lnPortWrite_eq ?_ ?_ d.written
  · simp only [bits, Nat.shiftRight_eq_div_pow] at hv hb ⊢
    omega
  · simp only [bits, Nat.shiftRight_eq_div_pow] at hv hb ⊢
    omega

/-! ### Memory regions and the interleave seed -/

theorem rd_wrf_same (d : Dev) (r : Reg) (ix : List Nat) (m l v : Nat) :
    rd (wrf d r ix m l v) r ix = putBits (rd d r ix) m l v % 4294967296 := rd_wr_same ..

/-- The device with COLL_MEM_SIZE written and the base written as it stands. -/
def collSized (d : Dev) (size : Nat) : Dev :=
  wrf (wr (wrf d .collMemBaseLo [] 31 20 (rd d .collMemBaseLo / 2 ^ 20)) .collMemBaseHi [] (rd d .collMemBaseHi))
    .collMemSize [] 15 0 size

/-- The base stays, so the region ends behind its new size. -/
theorem collTop_collSized (d : Dev) {size : Nat} (h : size < 2 ^ 16) :
    collTop (collSized d size) = collBase d + size * 2 ^ 20 := by
  have hlo : rd (collSized d size) .collMemBaseLo = rd d .collMemBaseLo := by
    rw [collSized, rd_wrf_other _ _ _ _ (by decide), rd_wr_other _ _ (by decide), rd_wrf_same, putBits_self]
    exact Nat.mod_eq_of_lt (rd_lt ..)
  have hhi : rd (collSized d size) .collMemBaseHi = rd d .collMemBaseHi := by
    rw [collSized, rd_wrf_other _ _ _ _ (by decide), rd_wr_same]
    exact Nat.mod_eq_of_lt (rd_lt ..)
  have hsize : rdf (collSized d size) .collMemSize [] 15 0 = size := by
    rw [rdf, collSized, rd_wrf_same]
    simp only [putBits, bits, Nat.shiftRight_zero]
    omega
  rw [collTop, collBase, hlo, hhi, hsize, collBase]

theorem busWrite_collMemSize (die : Fin 4) (val : Word) {d : Dev} (hl : locked d .collMemSize [] = false) :
    busWrite (viaDie die .collMemSize) val.toNat d =
      if d.coll.ctxs = [] ∧ d.coll.pats.all (fun e => !e.2.valid) ∧ collBase d + bits val.toNat 15 0 * 2 ^ 20 ≤ memEnd then
        collSized d.written (bits val.toNat 15 0)
      else raise d.written (srcColl die 0) 3 := by
  obtain ⟨hm, hs, hd⟩ := meets_viaDie die .collMemSize (by decide)
  have ht := collTop_collSized d.written (bits_lt val.toNat 15 0)
  rw [busWrite_unlocked_awake hm hs hl, hd, merge_single rfl (.inr rfl)]
  change (if _ || decide (memEnd < collTop (collSized d.written _)) then _ else collSized d.written _) = _
  rw [ht, ← ite_not]
  simp only [Bool.or_eq_true, Bool.not_eq_true', List.isEmpty_eq_false_iff, List.any_eq_true, decide_eq_true_eq, not_or,
    not_not, Nat.not_lt, not_exists, not_and, Bool.not_eq_true, List.all_eq_true, and_assoc]
  rfl

/-- The device with OPT_MEM_SIZE written and the base written as it stands. -/
def optSized (d : Dev) (size : Nat) : Dev :=
  wrf (wr (wrf d .optMemBaseLo [] 31 30 (rd d .optMemBaseLo / 2 ^ 30)) .optMemBaseHi [] (rd d .optMemBaseHi))
    .optMemSize [] 9 0 size

theorem busWrite_optMemSize (die : Fin 4) (val : Word) {d : Dev} (hl : locked d .optMemSize [] = false) :
    busWrite (viaDie die .optMemSize) val.toNat d =
      let d1 := optSized d.written (bits val.toNat 9 0)
      if d.opt.shards = [] ∧ d.opt.kernels = [] ∧ overlaps (optBase d1) (optTop d1) (collBase d1) (collTop d1) = false
          ∧ optTop d1 ≤ memEnd then d1
      else raise d.written (srcOpt die 0) 5 := by
  obtain ⟨hm, hs, hd⟩ := meets_viaDie die .optMemSize (by decide)
  rw [busWrite_unlocked_awake hm hs hl, hd, merge_single rfl (.inr rfl)]
  change optMemWrite die _ _ _ _ = _
  rw [optMemWrite, ← ite_not]
  simp only [Bool.or_eq_true, Bool.not_eq_true', List.isEmpty_eq_false_iff, decide_eq_true_eq, not_or,
    not_not, Nat.not_lt, Bool.not_eq_true, and_assoc]
  rfl

theorem busWrite_memHashSeed (val : Word) {d : Dev} (hl : locked d .memHashSeed [] = false) :
    busWrite (regAddr .memHashSeed []) val.toNat d =
      if collUsed d = 0 ∧ optUsed d = 0 then
        let m := movedAddr (rd d .memHashSeed) val.toNat
        wr { d.written with mem := { d.mem with
            bytes := d.mem.bytes.foldl (fun t e => tput 0 t (m e.1) e.2) []
            poison := d.mem.poison.map (fun k => m (64 * k) / 64) } } .memHashSeed [] val.toNat
      else raise d.written (srcMem 0) 5 := by
  obtain ⟨hm, hs⟩ := meets_memHashSeed
  rw [busWrite_unlocked_awake hm hs hl, merge_single rfl (.inr rfl), bits_word]
  change memHashSeedWrite _ _ = _
  have hu : collUsed d.written = collUsed d ∧ optUsed d.written = optUsed d := ⟨rfl, rfl⟩
  by_cases h : collUsed d = 0 ∧ optUsed d = 0
  · rw [memHashSeedWrite, if_neg (by rw [hu.1, hu.2]; tauto), if_pos h, Nat.mod_eq_of_lt val.isLt]
    rfl
  · rw [memHashSeedWrite, if_pos (by rw [hu.1, hu.2]; tauto), if_neg h]

theorem rd_busWrite_memHashSeed_locked (val : Word) {d : Dev} (hl : locked d .memHashSeed [] = true) :
    rd (busWrite (regAddr .memHashSeed []) val.toNat d) .memHashSeed = rd d .memHashSeed :=
  (reports_busWrite_locked meets_memHashSeed.1 hl rfl (fun _ _ => rfl) val.toNat).rd (by decide)

/-! ### The obligation -/

/-- Settles O9: each write meets its register, whose fields merge to the word's, and the rule of the register judges
them. -/
theorem judgedRegisterWrites : Obligations.JudgedRegisterWrites := by
  refine ⟨fun s die val hs => ⟨?age, fun tbl hl => ?seed, fun tbl hl => ?seedLocked, ?commit⟩,
    fun s die val hs => ⟨fun lane vc hl => ?reserve, fun ses => ?mirror, fun hl => ?orderSeed, fun p cls reg => ?shaper⟩,
    fun s val hs => ⟨fun cl hl => ?bobbins, fun tile hl => ?widths, fun die hl => ?collRegion, fun die hl => ?optRegion,
      fun hl => ?hash, fun hl => ?hashLocked⟩⟩
  case age => exact does_of_actBar rfl hs (busWrite_fwdAgeCtl die val _)
  case seed => exact does_of_actBar rfl hs (busWrite_emSeed (d := s.dev.fresh) die tbl val hl)
  case seedLocked =>
    have h := rd_busWrite_emSeed_locked (d := s.dev.fresh) die tbl val hl
    exact gives_of_actBar rfl hs ⟨h 0, h 1⟩
  case commit => exact does_of_actBar rfl hs (busWrite_fwdEpochCtl die _)
  case reserve => exact does_of_actBar rfl hs (busWrite_swRsv (d := s.dev.fresh) lane vc val hl)
  case mirror => exact does_of_actBar rfl hs (busWrite_mirCtl die ses val _)
  case orderSeed => exact does_of_actBar rfl hs (busWrite_rtOrdSeed (d := s.dev.fresh) die val hl)
  case shaper => exact does_of_actBar rfl hs ((busWrite_shpReg p cls reg val _).trans (shpWrite_eq p cls reg _ _))
  case bobbins => exact does_of_actBar rfl hs (busWrite_clBob (d := s.dev.fresh) cl val hl)
  case widths => exact does_of_actBar rfl hs (busWrite_lnPort (d := s.dev.fresh) tile val hl)
  case collRegion => exact does_of_actBar rfl hs (busWrite_collMemSize (d := s.dev.fresh) die val hl)
  case optRegion => exact does_of_actBar rfl hs (busWrite_optMemSize (d := s.dev.fresh) die val hl)
  case hash => exact does_of_actBar rfl hs (busWrite_memHashSeed (d := s.dev.fresh) val hl)
  case hashLocked => exact gives_of_actBar rfl hs (rd_busWrite_memHashSeed_locked (d := s.dev.fresh) val hl)

end Sys2Proof.Machine
end

section
/-! Reference inputs of the root PLL (spec/15 R387 to R390): what a write of one status field leaves of the others, what
each row does to the device, what a write of CLK_REF_CTL comes to, then the obligation of this family. -/
namespace Sys2Proof.Machine

/-! ### From a pin or the clock to its effect -/

/-- What comes from the pins and clocks of a powered device does what its change does to the device it finds. -/
theorem does_of_actPins {c : Instr} {s : State} {f g : Dev → Dev} (hc : exec c s = actPins f s)
    (hs : Powered s) (hfg : f s.dev.fresh = g s.dev.fresh) : Does c s g := by
  unfold Does
  rw [hc, actPins_eq_of_powered hs, hfg]

/-! ### Fields outside a written field -/

theorem putBits_eq_add (x m l v : Nat) :
    putBits x m l v =
      2 ^ l * (2 ^ (m + 1 - l) * (x / 2 ^ l / 2 ^ (m + 1 - l)) + v % 2 ^ (m + 1 - l)) + x % 2 ^ l := by
  have hx := Nat.div_add_mod x (2 ^ l)
  have hq := Nat.div_add_mod (x / 2 ^ l) (2 ^ (m + 1 - l))
  have hs : x = 2 ^ l * (2 ^ (m + 1 - l) * (x / 2 ^ l / 2 ^ (m + 1 - l))) + x % 2 ^ l + bits x m l * 2 ^ l := by
    rw [bits, Nat.shiftRight_eq_div_pow]
    linarith [congrArg (2 ^ l * ·) hq]
  rw [putBits, Nat.sub_eq_of_eq_add hs]
  ring

theorem testBit_putBits_outside (x v : Nat) {m l i : Nat} (h : i < l ∨ m < i) :
    (putBits x m l v).testBit i = x.testBit i := by
  rw [putBits_eq_add, Nat.testBit_two_pow_mul_add _ (Nat.mod_lt _ (Nat.two_pow_pos _))]
  split_ifs with hi
  · simp [Nat.testBit_mod_two_pow, hi]
  · rw [Nat.testBit_two_pow_mul_add _ (Nat.mod_lt _ (Nat.two_pow_pos _)), if_neg (by omega), Nat.testBit_div_two_pow,
      Nat.testBit_div_two_pow]
    congr 1
    omega

theorem bit_eq_testBit (x n : Nat) : bit x n = x.testBit n := by
  rw [bit, Nat.testBit, Nat.and_comm, Nat.and_one_is_mod]
  rcases Nat.mod_two_eq_zero_or_one (x >>> n) with h | h <;> simp [h]

theorem testBit_rd_wrf_outside (d : Dev) (r : Reg) (ix : List Nat) (v : Nat) {m l i : Nat} (h : i < l ∨ m < i) :
    (rd (wrf d r ix m l v) r ix).testBit i = (rd d r ix).testBit i := by
  have hd : rd d r ix = rd d r ix % 2 ^ 32 := (Nat.mod_eq_of_lt (rd_lt ..)).symm
  rw [hd, rd_wrf_same, show 4294967296 = 2 ^ 32 from rfl, Nat.testBit_mod_two_pow, Nat.testBit_mod_two_pow,
    testBit_putBits_outside _ _ h]

/-- A bit outside a written field reads as before. -/
theorem rdb_wrf_outside (d : Dev) (r : Reg) (ix : List Nat) (v : Nat) {m l n : Nat} (h : n < l ∨ m < n) :
    rdb (wrf d r ix m l v) r ix n = rdb d r ix n := by
  simp only [rdb, bit_eq_testBit, testBit_rd_wrf_outside d r ix v h]

/-- A field outside a written field reads as before. -/
theorem rdf_wrf_outside (d : Dev) (r : Reg) (ix : List Nat) (v : Nat) {m l m' l' : Nat} (h : m' < l ∨ m < l') :
    rdf (wrf d r ix m l v) r ix m' l' = rdf d r ix m' l' := by
  refine Nat.eq_of_testBit_eq fun i => ?_
  simp only [rdf, testBit_bits]
  by_cases hi : i < m' + 1 - l'
  · rw [testBit_rd_wrf_outside d r ix v (by omega)]
  · simp [hi]

/-! ### The good bit of an input -/

/-- The device with an input noted good or bad. -/
def refNoted (d : Dev) (k v : Nat) : Dev := wrf d .clkRefStatus [] (1 + k) (1 + k) v

@[simp] theorem refNoted_pwr (d : Dev) (k v : Nat) : (refNoted d k v).pwr = d.pwr := rfl

@[simp] theorem refActive_refNoted (d : Dev) (k v : Nat) : refActive (refNoted d k v) = refActive d :=
  rdf_wrf_outside d _ _ v (.inl (by omega))

@[simp] theorem inHoldover_refNoted (d : Dev) (k : Fin 2) (v : Nat) : inHoldover (refNoted d k v) = inHoldover d :=
  rdb_wrf_outside d _ _ v (.inr (by omega))

@[simp] theorem rootLock_refNoted (d : Dev) (k : Fin 2) (v : Nat) :
    rdb (refNoted d k v) .clkRefStatus [] 4 = rdb d .clkRefStatus [] 4 :=
  rdb_wrf_outside d _ _ v (.inr (by omega))

@[simp] theorem refOk_other_refNoted (d : Dev) (k : Fin 2) (v : Nat) :
    refOk (refNoted d k v) (1 - k) = refOk d (1 - k) :=
  rdb_wrf_outside d _ _ v (by omega)

/-! ### What each row does -/

/-- Before the first lock a bad input is noted, no more (R390). -/
theorem refFail_unlocked {d : Dev} (h : d.pwr.step < 2) (k : Nat) : refFail k d = refNoted d k 0 :=
  if_pos (.inl h)

/-- With the input in use bad, the PLL switches to the other where that is good, or else goes into holdover (R387,
R389). -/
theorem refFail_inUse {d : Dev} {k : Fin 2} (hs : 2 ≤ d.pwr.step) (hh : inHoldover d = false) (ha : refActive d = k) :
    refFail k d =
      if refOk d (1 - k) then
        trace { wrf (refNoted d k 0) .clkRefStatus [] 4 4 0 with pwr := { d.pwr with refSwitch := some (1 - k) } }
          0x1C 0 0
      else enterHoldover (refNoted d k 0) := by
  have hk := refOk_other_refNoted d k 0
  have hh' := (inHoldover_refNoted d k 0).trans hh
  have ha' := (refActive_refNoted d k 0).trans ha
  rw [refNoted] at *
  simp [refFail, hk, hh', ha', hs.not_gt]

/-- A switch under way to a good input completes (R387). -/
theorem refSwitch_good {d : Dev} {j : Nat} (hj : d.pwr.refSwitch = some j) (hg : refOk d j = true) :
    refSwitch d = switchTo (traced d 0x1C 0 0) j := by
  simp [refSwitch, hj, hg]

theorem refSwitch_none {d : Dev} (h : d.pwr.refSwitch = none) : refSwitch d = d := by
  simp [refSwitch, h]

/-- With REVERT set, the device returns to the good primary from the backup (R387). -/
theorem refRevert_returns {d : Dev} (hr : rdb d .clkRefCtl [] 2 = true) (ha : refActive d = 1) (hg : refOk d 0 = true)
    (hh : inHoldover d = false) : refRevert d = switchTo d 0 :=
  if_pos ⟨hr, ha, hg, by simp [hh]⟩

theorem refRevert_stays {d : Dev} (h : rdb d .clkRefCtl [] 2 = false ∨ refActive d ≠ 1 ∨ refOk d 0 = false) :
    refRevert d = d :=
  if_neg fun ⟨hr, ha, hg, _⟩ => by simp [hr, ha, hg] at h

/-- A good input ends holdover (R389). -/
theorem holdoverRelock_good {d : Dev} {k : Nat} (hh : inHoldover d = true) (hg : refOk d k = true) :
    holdoverRelock k d = lockTo d k := if_pos ⟨hh, hg⟩

theorem holdoverRelock_idle {d : Dev} {k : Nat} (h : inHoldover d = false ∨ refOk d k = false) :
    holdoverRelock k d = d :=
  if_neg fun ⟨hh, hg⟩ => by simp [hh, hg] at h

/-- An input that becomes good is noted alone where no start-up waits for its first lock. -/
theorem refGood_noted {d : Dev} (h : d.pwr.step ≠ 1) (k : Nat) : refGood k d = refNoted d k 1 := by
  cases hf : d.pwr.found <;> simp [refGood, refNoted, hf, h]

/-- A start-up that waits for its first lock goes on (R390). -/
theorem refGood_starts {d : Dev} {i : StartupIn} (hf : d.pwr.found = some i) (hp : d.pwr.porHigh = true)
    (hs : d.pwr.step = 1) {k : Fin 2} (hl : rdb d .clkRefStatus [] 4 = false) :
    refGood k d = startSteps (lockTo (refNoted d k 1) k) i false := by
  have hn : rdb (refNoted d k 1) .clkRefStatus [] 4 = false := (rootLock_refNoted d k 1).trans hl
  rw [refNoted] at hn ⊢
  simp [refGood, hf, hp, hs, hn]

/-! ### A write of CLK_REF_CTL -/

theorem meets_clkRefCtl : MeetsReg (regAddr .clkRefCtl []) .clkRefCtl [] ∧ sleepDom (regAddr .clkRefCtl []) = none := by
  decide +kernel

/-- SEL is written under the lock too (RW in Table 15-7). -/
theorem sel_merge_clkRefCtl (lk : Bool) (old val : Nat) : bits (merge lk .clkRefCtl old val) 1 1 = bits val 1 1 := by
  cases lk <;> simp [merge, mergeFld, regRow, fl, putBits, bits, Nat.shiftRight_eq_div_pow] <;> omega

theorem writeReg_clkRefCtl (die : Nat) (ix : List Nat) (m val : Nat) (img : Option DmaRead) (low : Bool) (d : Dev) :
    writeReg die .clkRefCtl ix m val img low d = clkRefWrite m d := rfl

/-- The device as a write of CLK_REF_CTL finds it: counted, and reported where a lock keeps REVERT (R9). -/
def refCtlMet (d : Dev) (val : Nat) : Dev :=
  if lockHit (locked d .clkRefCtl []) .clkRefCtl (rd d .clkRefCtl) val then
    lockReject (offDie (regAddr .clkRefCtl [])) .clkRefCtl d.written
  else d.written

/-- A write of CLK_REF_CTL is judged with its fields merged, after what its lock reports. -/
theorem busWrite_clkRefCtl (val : Nat) (d : Dev) :
    busWrite (regAddr .clkRefCtl []) val d =
      clkRefWrite (merge (locked d .clkRefCtl []) .clkRefCtl (rd d .clkRefCtl) val) (refCtlMet d val) := by
  obtain ⟨⟨ha, ht, h1, h2⟩, hs⟩ := meets_clkRefCtl
  have ho : onlyRwl .clkRefCtl = false := by decide
  rw [busWrite_reg ha ht h1 h2]
  simp only [applyReg, asleepAt_of_sleepDom hs, locked_written, rd_written, ho, Bool.and_false, Option.isSome_none,
    Bool.false_eq_true, if_false, writeReg_clkRefCtl, refCtlMet]

/-- What a lock reports leaves the state of the inputs as it is. -/
theorem refOk_refCtlMet (d : Dev) (val k : Nat) : refOk (refCtlMet d val) k = refOk d k := by
  have h : rd (refCtlMet d val) .clkRefStatus = rd d .clkRefStatus := by
    unfold refCtlMet
    split
    · exact (reports_raise d.written (srcRel 255 0) 1 [] []).rd (by decide)
    · rfl
  rw [refOk, rdb, h]
  rfl

theorem clkRefWrite_bad {d : Dev} {val : Nat} (h : refOk d (bits val 1 1) = false) :
    clkRefWrite val d = sysReject d :=
  if_pos (by simp [h])

theorem clkRefWrite_good {d : Dev} {val : Nat} (h : refOk d (bits val 1 1) = true) :
    clkRefWrite val d =
      let stays := refActive d = bits val 1 1 ∧ (rdb d .clkRefStatus [] 4 = true ∨ inHoldover d = true)
      { untrace (wr d .clkRefCtl [] val) 0x1C 0 0 with
        pwr := { d.pwr with refSwitch := if stays then none else some (bits val 1 1) } } := by
  have hr : rd (wr d .clkRefCtl [] val) .clkRefStatus = rd d .clkRefStatus := rd_wr_other d val (by decide)
  simp only [clkRefWrite, h, refActive, inHoldover, rdf, rdb, hr]
  rfl

/-- A selection of a bad input is discarded and reported (R388, R400). -/
theorem busWrite_clkRefCtl_bad {d : Dev} {val : Nat} (h : refOk d (bits val 1 1) = false) :
    busWrite (regAddr .clkRefCtl []) val d = sysReject (refCtlMet d val) := by
  rw [busWrite_clkRefCtl, clkRefWrite_bad]
  rw [sel_merge_clkRefCtl, refOk_refCtlMet, h]

/-- A selection of a good input stands, and ends a switch away from it (R388). -/
theorem busWrite_clkRefCtl_good {d : Dev} {val : Nat} (hg : refOk d (bits val 1 1) = true)
    (hl : locked d .clkRefCtl [] = false) :
    busWrite (regAddr .clkRefCtl []) val d =
      let d1 := wr d.written .clkRefCtl [] (merge false .clkRefCtl (rd d .clkRefCtl) val)
      let stays := refActive d = bits val 1 1 ∧ (rdb d .clkRefStatus [] 4 = true ∨ inHoldover d = true)
      { untrace d1 0x1C 0 0 with pwr := { d1.pwr with refSwitch := if stays then none else some (bits val 1 1) } } := by
  have hm : refCtlMet d val = d.written := by simp [refCtlMet, hl, lockHit]
  rw [busWrite_clkRefCtl, hl, hm, clkRefWrite_good]
  · simp only [sel_merge_clkRefCtl]
    rfl
  · rw [sel_merge_clkRefCtl]
    exact hg

/-! ### The obligation -/

/-- Settles O55: each row meets one branch of its rule, and the bits that decide it are not those that it has written
before. -/
theorem referenceClocks : Obligations.ReferenceClocks := by
  intro s k hs
  refine ⟨fun hu => ?noted, fun hl hh ha hg => ?handsOver, fun hl hh ha hb => ?holdover, fun j hj hg => ?completes,
    fun hn => ?noSwitch, fun hr ha hg hh => ?returns, fun h => ?stays, fun val hr hb => ?discarded,
    fun val hr hg hl => ?selected, fun hh hg => ?relocks, fun h => ?noRelock, fun h => ?good,
    fun i hf hp h1 hl => ?starts⟩
  case noted => exact does_of_actPins rfl hs (refFail_unlocked (d := s.dev.fresh) hu k)
  case handsOver =>
    exact does_of_actPins rfl hs ((refFail_inUse (d := s.dev.fresh) hl hh ha).trans (if_pos hg))
  case holdover =>
    exact does_of_actPins rfl hs ((refFail_inUse (d := s.dev.fresh) hl hh ha).trans (if_neg (Bool.eq_false_iff.mp hb)))
  case completes => exact does_of_actPins rfl hs (refSwitch_good (d := s.dev.fresh) hj hg)
  case noSwitch => exact does_of_actPins rfl hs (refSwitch_none (d := s.dev.fresh) hn)
  case returns => exact does_of_actPins rfl hs (refRevert_returns (d := s.dev.fresh) hr ha hg hh)
  case stays => exact does_of_actPins rfl hs (refRevert_stays (d := s.dev.fresh) h)
  case discarded => exact does_of_actBar rfl hr (busWrite_clkRefCtl_bad (d := s.dev.fresh) hb)
  case selected => exact does_of_actBar rfl hr (busWrite_clkRefCtl_good (d := s.dev.fresh) hg hl)
  case relocks => exact does_of_actPins rfl hs (holdoverRelock_good (d := s.dev.fresh) hh hg)
  case noRelock => exact does_of_actPins rfl hs (holdoverRelock_idle (d := s.dev.fresh) h)
  case good => exact does_of_actPins rfl hs (refGood_noted (d := s.dev.fresh) h k)
  case starts => exact does_of_actPins rfl hs (refGood_starts (d := s.dev.fresh) hf hp h1 hl)

end Sys2Proof.Machine
end

section
/-! The whole machine: what a step does with the command at the front of the queue, where a step can fail, and that a
tripped device stays as it is (spec/00, spec/09 R244, spec/15 R398). -/
namespace Sys2Proof.Machine

/-! ### The queue and its front -/

theorem step_nil {s : State} (h : s.pending = []) : step s = .next { s with dev := tick s.dev } := by
  simp only [step, h]

theorem step_cons {s : State} {c : Instr} {r : List Instr} (h : s.pending = c :: r) :
    step s = exec c { s with pending := r } := by
  simp only [step, h]

/-- A command answers a next state with the queue as it was, or is a memory request beyond the addresses that exist. -/
theorem exec_next_or_fault (c : Instr) (s : State) :
    (∃ e : Dev, exec c s = .next { s with dev := e }) ∨
      (exec c s = .fault .noSuchAddress ∧ ∃ q, memReqOf c = some q ∧ memEnd < q.addr + q.len) := by
  obtain ⟨f, ⟨p, g, -, rfl⟩, hc⟩ | ⟨f, hc, -⟩ | ⟨op, q, f, hc, hq⟩ := exec_shape c s
  · exact .inl (hc ▸ actWhen_next p g s)
  · exact .inl ⟨_, hc.trans (actAlways_eq f s)⟩
  · rw [hc]
    rcases Nat.lt_or_ge memEnd (q.addr + q.len) with hb | hb
    · exact .inr ⟨memApply_beyond op q f s hb, q, hq, hb⟩
    · obtain ⟨g, hg⟩ := memApply_within op q f s hb
      exact .inl (hg ▸ act_next g s)

/-! ### After a thermal trip -/

/-- No cold reset waits in a queue. -/
abbrev NoColdReset (q : List Instr) : Prop := ∀ c ∈ q, c ≠ .porAssert ∧ ∀ r, c ≠ .brownout r

theorem tick_tripped {d : Dev} (h : d.pwr.tripped = true) : tick d = d := by
  simp [tick, clocked, h]

theorem Guarded.keeps_tripped {f : State → Host.Outcome State Fault Refusal} (hf : Guarded f) {s : State}
    (h : s.dev.pwr.tripped = true) : f s = .next s := by
  obtain ⟨p, g, hp, rfl⟩ := hf
  exact actWhen_off (hp _ h) g

/-- A tripped device keeps its state under every command that answers, but for the two cold resets. -/
theorem exec_tripped {c : Instr} {s t : State} (h : s.dev.pwr.tripped = true) (h1 : c ≠ .porAssert)
    (h2 : ∀ r, c ≠ .brownout r) (hc : exec c s = .next t) : t = s := by
  obtain ⟨f, hf, he⟩ | ⟨f, -, rfl | ⟨r, rfl⟩⟩ | ⟨op, q, f, he, -⟩ := exec_shape c s
  · rw [he, hf.keeps_tripped h] at hc
    exact (Host.Outcome.next.inj hc).symm
  · exact absurd rfl h1
  · exact absurd rfl (h2 r)
  · rcases Nat.lt_or_ge memEnd (q.addr + q.len) with hb | hb
    · rw [he, memApply_beyond op q f s hb] at hc
      exact nomatch hc
    · obtain ⟨g, hg⟩ := memApply_within op q f s hb
      rw [he, hg, (guarded_act g).keeps_tripped h] at hc
      exact (Host.Outcome.next.inj hc).symm

/-! ### The obligations -/

/-- Settles O1: the queue's front picks the branch of `step`. -/
theorem stepRunsFront : Obligations.StepRunsFront := fun _ _ _ h => step_cons h

/-- Settles O2: a TIME cycle always answers, and a command answers or is a memory request beyond the addresses. -/
theorem stepAnswersOrFaultsBeyondMemory : Obligations.StepAnswersOrFaultsBeyondMemory := by
  intro s
  cases hq : s.pending with
  | nil => exact .inl ⟨_, step_nil hq, hq⟩
  | cons c r =>
    rw [step_cons hq]
    rcases exec_next_or_fault c { s with pending := r } with ⟨e, he⟩ | ⟨hf, q, hm, hb⟩
    · exact .inl ⟨_, he, rfl⟩
    · exact .inr ⟨hf, c, r, q, rfl, hm, hb⟩

/-- Settles O3: on a tripped device a TIME cycle does nothing, and every command that waits keeps the state. -/
theorem tripLatches : Obligations.TripLatches := by
  rintro d s t rfl ht (hq : NoColdReset s.pending) hs
  change t.dev = s.dev ∧ NoColdReset t.pending
  cases hp : s.pending with
  | nil =>
    rw [step_nil hp, tick_tripped ht] at hs
    cases hs
    exact ⟨rfl, hq⟩
  | cons c r =>
    rw [hp] at hq
    obtain ⟨⟨h1, h2⟩, hr⟩ := List.forall_mem_cons.mp hq
    rw [step_cons hp] at hs
    rw [exec_tripped (s := { s with pending := r }) ht h1 h2 hs]
    exact ⟨rfl, hr⟩

end Sys2Proof.Machine
end

section
/-! Writes of registers: what each access type makes of a field, what a write of a register outside the pairs comes to, and
what the two halves of a pair do (spec/00 R7 to R11, spec/01 R18 to R21). -/
namespace Sys2Proof.Machine

/-! ### Fields of a register -/

theorem bits_putBits_same (x m l v : Nat) : bits (putBits x m l v) m l = v % 2 ^ (m + 1 - l) := by
  have hx : x % 2 ^ l < 2 ^ l := Nat.mod_lt _ (Nat.two_pow_pos _)
  rw [bits, putBits_eq_add, Nat.shiftRight_eq_div_pow, Nat.mul_add_div (Nat.two_pow_pos _), Nat.div_eq_of_lt hx,
    Nat.add_zero, Nat.mul_add_mod, Nat.mod_mod]

theorem bits_putBits_outside (x v : Nat) {m l m' l' : Nat} (h : m' < l ∨ m < l') :
    bits (putBits x m l v) m' l' = bits x m' l' := by
  refine Nat.eq_of_testBit_eq fun i => ?_
  simp only [testBit_bits]
  by_cases hi : i < m' + 1 - l'
  · rw [testBit_putBits_outside _ _ (by omega)]
  · simp [hi]

/-- Two fields share no bit. -/
abbrev Fld.Apart (f g : Fld) : Prop := f.msb < g.lsb ∨ g.msb < f.lsb

theorem regRow_flds_apart (r : Reg) : (regRow r).flds.Pairwise Fld.Apart := by
  cases r <;> decide

/-- What a write makes of a field (R7, R9). -/
def fldNext (lk : Bool) (old val : Nat) (f : Fld) : Nat :=
  match f.acc with
  | .rw | .wo => bits val f.msb f.lsb
  | .ro => bits old f.msb f.lsb
  | .w1c => bits old f.msb f.lsb - (bits old f.msb f.lsb &&& bits val f.msb f.lsb)
  | .w1s => bits old f.msb f.lsb ||| bits val f.msb f.lsb
  | .rwl => if lk then bits old f.msb f.lsb else bits val f.msb f.lsb

theorem fldNext_lt (lk : Bool) (old val : Nat) (f : Fld) : fldNext lk old val f < 2 ^ (f.msb + 1 - f.lsb) := by
  have ho := bits_lt old f.msb f.lsb
  have hv := bits_lt val f.msb f.lsb
  unfold fldNext
  split
  · exact hv
  · exact hv
  · exact ho
  · exact (Nat.sub_le ..).trans_lt ho
  · exact Nat.or_lt_two_pow ho hv
  · split
    · exact ho
    · exact hv

theorem mergeFld_eq (lk : Bool) (old val a : Nat) (f : Fld) :
    mergeFld lk old val a f = putBits a f.msb f.lsb (fldNext lk old val f) := rfl

theorem bits_mergeFld_same (lk : Bool) (old val a : Nat) (f : Fld) :
    bits (mergeFld lk old val a f) f.msb f.lsb = fldNext lk old val f := by
  rw [mergeFld_eq, bits_putBits_same, Nat.mod_eq_of_lt (fldNext_lt ..)]

/-- Merging fields leaves a field apart from each of them. -/
theorem bits_foldl_mergeFld_apart (lk : Bool) (old val : Nat) (f : Fld) (l : List Fld) (hf : ∀ g ∈ l, f.Apart g)
    (a : Nat) : bits (l.foldl (mergeFld lk old val) a) f.msb f.lsb = bits a f.msb f.lsb := by
  induction l generalizing a with
  | nil => rfl
  | cons g l ih =>
    obtain ⟨hg, hl⟩ := List.forall_mem_cons.mp hf
    rw [List.foldl_cons, ih hl, mergeFld_eq, bits_putBits_outside _ _ hg]

theorem bits_foldl_mergeFld (lk : Bool) (old val : Nat) (f : Fld) (l : List Fld) (hl : l.Pairwise Fld.Apart)
    (hf : f ∈ l) (a : Nat) : bits (l.foldl (mergeFld lk old val) a) f.msb f.lsb = fldNext lk old val f := by
  induction l generalizing a with
  | nil => exact nomatch hf
  | cons g l ih =>
    obtain ⟨hg, hl⟩ := List.pairwise_cons.mp hl
    rw [List.foldl_cons]
    rcases List.mem_cons.mp hf with rfl | hf
    · rw [bits_foldl_mergeFld_apart _ _ _ _ _ hg, bits_mergeFld_same]
    · exact ih hl hf _

/-- Every field of the merged value holds what its access type makes of it. -/
theorem bits_merge (r : Reg) (lk : Bool) (old val : Nat) {f : Fld} (hf : f ∈ (regRow r).flds) :
    bits (merge lk r old val) f.msb f.lsb = fldNext lk old val f :=
  bits_foldl_mergeFld lk old val f _ (regRow_flds_apart r) hf 0

/-- Settles O4: the fields of a register share no bit, so each keeps what its own merge puts there. -/
theorem writeMergesByAccessType : Obligations.WriteMergesByAccessType :=
  fun r _ lk old val hf _ _ => bits_merge r lk old val hf

/-! ### Writes of one register -/

theorem writeReg_plain {r : Reg} (h : plainReg r = true) (die : Nat) (ix : List Nat) (m val : Nat)
    (img : Option DmaRead) (low : Bool) (d : Dev) : writeReg die r ix m val img low d = wr d r ix (stripWo r m) := by
  unfold writeReg
  dsimp only
  split
  case h_45 => rfl
  all_goals exact absurd h (by decide)

/-- A write access as a lock meets it: counted, and reported where the lock keeps a field from changing (R9). -/
def lockMet (off : Nat) (r : Reg) (ix : List Nat) (val : Nat) (d : Dev) : Dev :=
  if lockHit (locked d r ix) r (rd d r ix) val then lockReject (offDie off) r d.written else d.written

theorem lockMet_unlocked {off : Nat} {r : Reg} {ix : List Nat} {d : Dev} (hl : locked d r ix = false) (val : Nat) :
    lockMet off r ix val d = d.written := by
  simp [lockMet, hl, lockHit]

/-! ### What a lock reports leaves the power domains alone -/

theorem sleepDom_lt {off n : Nat} (h : sleepDom off = some n) : n < 128 := by
  unfold sleepDom offDie at h
  dsimp only at h
  split_ifs at h <;> simp only [Option.some.injEq] at h <;> omega

theorem pdState_of_reports {A : List Nat} {d e : Dev} (h : Reports A d e) {n : Nat} (hn : n < 128)
    (hA : ∀ a ∈ A, a < 12352 ∨ 12384 ≤ a) : pdState e n = pdState d n := by
  have ha : regAddr .pwrDomState [n / 16] ∉ A := fun hm => by
    have h1 := hA _ hm
    simp [regAddr, regRow, dimOff] at h1
    omega
  rw [pdState, rdf, h.rd ha]
  rfl

theorem pdState_lockReject (die : Nat) (r : Reg) (d : Dev) {n : Nat} (hn : n < 128) :
    pdState (lockReject die r d) n = pdState d n := by
  have hrel (e : Dev) := pdState_of_reports (reports_raise e (srcRel 255 0) 1 [] []) hn (by decide)
  have hcoll (e : Dev) := pdState_of_reports (reports_raise e (srcColl die 0) 3 [] []) hn
    (by simp [srcColl, regAddr, regRow, dimOff, reportRegs])
  have hopt (e : Dev) := pdState_of_reports (reports_raise e (srcOpt die 0) 5 [] []) hn
    (by simp [srcOpt, regAddr, regRow, dimOff, reportRegs])
  unfold lockReject
  dsimp only
  split
  · rw [hcoll, hrel]
  · rw [hcoll, hrel]
  · rw [hcoll, hrel]
  · rw [hcoll, hrel]
  · rw [hcoll, hrel]
  · rw [hopt, hrel]
  · rw [hopt, hrel]
  · rw [hopt, hrel]
  · rw [hopt, hrel]
  · rw [hrel]

theorem asleepAt_lockReject (die : Nat) (r : Reg) (d : Dev) (off : Nat) :
    asleepAt (lockReject die r d) off = asleepAt d off := by
  unfold asleepAt
  cases h : sleepDom off with
  | none => rfl
  | some n => simp only [Option.filter_some, pdOn, pdState_lockReject die r d (sleepDom_lt h)]

theorem asleepAt_lockMet (off : Nat) (r : Reg) (ix : List Nat) (val : Nat) (d : Dev) :
    asleepAt (lockMet off r ix val d) off = asleepAt d off := by
  unfold lockMet
  split
  · rw [asleepAt_lockReject, asleepAt_written]
  · rfl

/-- A write of a register whose block is awake. -/
theorem busWrite_awake {off : Nat} {r : Reg} {ix : List Nat} {d : Dev} (hm : MeetsReg off r ix)
    (hs : asleepAt d off = none) (val : Nat) :
    busWrite off val d =
      if locked d r ix && onlyRwl r then lockMet off r ix val d
      else writeReg (offDie off) r ix (merge (locked d r ix) r (rd d r ix) val) val none (Config.freeBool d.draw)
        (lockMet off r ix val d) := by
  obtain ⟨ha, ht, h1, h2⟩ := hm
  have h := asleepAt_lockMet off r ix val d
  rw [hs, lockMet] at h
  rw [busWrite_reg ha ht h1 h2]
  simp only [applyReg, locked_written, rd_written, asleepAt_written, hs, Option.isSome_none, Bool.false_eq_true, if_false,
    h, lockMet]

theorem busWrite_locked {off : Nat} {r : Reg} {ix : List Nat} {d : Dev} (hm : MeetsReg off r ix)
    (hs : asleepAt d off = none) (hl : locked d r ix = true) (ho : onlyRwl r = true) (val : Nat) :
    busWrite off val d = lockMet off r ix val d := by
  rw [busWrite_awake hm hs, hl, ho]
  rfl

theorem busWrite_taken {off : Nat} {r : Reg} {ix : List Nat} {d : Dev} (hm : MeetsReg off r ix)
    (hs : asleepAt d off = none) (hl : (locked d r ix && onlyRwl r) = false) (val : Nat) :
    busWrite off val d =
      writeReg (offDie off) r ix (merge (locked d r ix) r (rd d r ix) val) val none (Config.freeBool d.draw)
        (lockMet off r ix val d) := by
  rw [busWrite_awake hm hs, hl]
  rfl

theorem busWrite_stores {off : Nat} {r : Reg} {ix : List Nat} {d : Dev} (hm : MeetsReg off r ix) (hp : plainReg r = true)
    (hs : asleepAt d off = none) (hl : locked d r ix = false) (val : Nat) :
    busWrite off val d = wr d.written r ix (stripWo r (merge false r (rd d r ix) val)) := by
  rw [busWrite_taken hm hs (by rw [hl]; rfl), writeReg_plain hp, hl, lockMet_unlocked hl]

theorem busWrite_held {off n : Nat} {r : Reg} {ix : List Nat} {d : Dev} (hm : MeetsReg off r ix)
    (hs : asleepAt d off = some n) (hl : locked d r ix = false) (val : Word) :
    busWrite off val.toNat d =
      { d.written with pwr := { d.pwr with heldWr := d.pwr.heldWr ++ [⟨n, off, false, val⟩] } } := by
  rw [busWrite_unlocked hm hl, writeOrHold, hs]

/-! ### Lock registers -/

theorem exec_blockLock {off : Nat} {v : Word} (h : isLockReg off = true) (hv : v.getLsbD 31 = true) (s : State) :
    exec (.blockLock off v) s = actBar off (busWrite off v.toNat) s := by
  change execBlockLock off v s = _
  simp only [execBlockLock, h, hv, Bool.and_self, if_true]

/-- Distance from the first to the last instance of dimensions. -/
def dimSpan (ds : List (Nat × Nat)) : Nat := (ds.map fun x => (x.1 - 1) * x.2).sum

theorem dimOff_take_drop (k : Nat) (ds : List (Nat × Nat)) (ix : List Nat) :
    dimOff ds ix = dimOff (ds.take k) (ix.take k) + dimOff (ds.drop k) (ix.drop k) := by
  induction k generalizing ds ix with
  | zero => simp [dimOff]
  | succ k ih =>
    cases ds with
    | nil => simp [dimOff]
    | cons x ds =>
      cases ix with
      | nil => simp [dimOff]
      | cons i ix => simp only [dimOff, List.take_succ_cons, List.drop_succ_cons, ih ds ix, Nat.add_assoc]

/-- The indices that an offset splits into are within their dimensions. -/
theorem dimOff_drop_le {ds : List (Nat × Nat)} {x : Nat} {ix : List Nat} (h : splitIx ds x = some ix) (k : Nat) :
    dimOff (ds.drop k) (ix.drop k) ≤ dimSpan (ds.drop k) := by
  induction ds generalizing x ix k with
  | nil => simp [dimOff]
  | cons c ds ih =>
    simp only [splitIx] at h
    split at h
    next hc =>
      obtain ⟨is, his, rfl⟩ := Option.map_eq_some_iff.mp h
      cases k with
      | zero =>
        have h1 : x / c.2 * c.2 ≤ (c.1 - 1) * c.2 := Nat.mul_le_mul_right _ (by omega)
        have h2 := ih his 0
        simp only [List.drop_zero, dimSpan, dimOff, List.map_cons, List.sum_cons] at h2 ⊢
        omega
      | succ k => exact ih his k
    next => exact nomatch h

theorem splitIx_of_findReg {l : List Reg} {off : Nat} {r : Reg} {ix : List Nat} (h : findReg l off = some (r, ix)) :
    ∃ x, splitIx (regRow r).dims x = some ix := by
  induction l with
  | nil => exact nomatch h
  | cons q l ih =>
    simp only [findReg] at h
    split at h
    · exact ih h
    · split at h
      next hs =>
        cases h
        exact ⟨_, hs⟩
      next => exact ih h

theorem splitIx_of_target {off : Nat} {r : Reg} {ix : List Nat} (h : target off = .reg r ix) :
    ∃ x, splitIx (regRow r).dims x = some ix := by
  unfold target at h
  split_ifs at h
  split at h
  next hd =>
    cases h
    unfold decodeReg at hd
    dsimp only at hd
    split_ifs at hd <;> exact splitIx_of_findReg hd
  next => exact nomatch h

/-- The lock bit of a block. -/
def lockFld (z : Nat) : Fld := ⟨31, 31, .w1s, z⟩

/-- A register outside the pairs has the lock bit, or lies below or above its block's lock register. -/
theorem lockFld_or_apart (r : Reg) (h1 : pairHiOf r = none) (h2 : pairLoOf r = none) :
    ∀ x ∈ (regRow r).lock, x.1 < (regRow r).base ∨ (regRow r).base + dimSpan ((regRow r).dims.drop x.2) < x.1 ∨
      lockFld 0 ∈ (regRow r).flds := by
  revert h1 h2
  cases r <;> decide

/-- The register at the offset of a lock register has the lock bit. -/
theorem lockFld_mem {off : Nat} {r : Reg} {ix : List Nat} (hm : MeetsReg off r ix) (h : isLockReg off = true) :
    lockFld 0 ∈ (regRow r).flds := by
  obtain ⟨-, ht, h1, h2⟩ := hm
  obtain ⟨x, hx⟩ := splitIx_of_target ht
  simp only [isLockReg, ht] at h
  split at h
  next l k hl =>
    have hspan := dimOff_drop_le hx k
    have hoff : (regRow r).base + dimOff (regRow r).dims ix = _ := beq_iff_eq.mp h
    rw [dimOff_take_drop k] at hoff
    rcases lockFld_or_apart r h1 h2 (l, k) hl with hb | hb | hf
    · dsimp only at hb
      omega
    · dsimp only at hb
      omega
    · exact hf
  next => exact nomatch h

/-- Clearing the WO fields leaves a field that is not one of them. -/
theorem bits_stripWo {r : Reg} {f : Fld} (hf : f ∈ (regRow r).flds) (ha : f.acc ≠ .wo) (v : Nat) :
    bits (stripWo r v) f.msb f.lsb = bits v f.msb f.lsb := by
  have : Std.Symm Fld.Apart := ⟨fun _ _ => Or.symm⟩
  have hap : ∀ g ∈ (regRow r).flds, g.acc = .wo → f.Apart g := fun g hg hw =>
    (regRow_flds_apart r).forall hf hg fun h => ha (h ▸ hw)
  unfold stripWo
  generalize (regRow r).flds = l at hap
  induction l generalizing v with
  | nil => rfl
  | cons g l ih =>
    obtain ⟨hg, hl⟩ := List.forall_mem_cons.mp hap
    rw [List.foldl_cons, ih _ hl]
    split
    next hw => rw [bits_putBits_outside _ _ (hg hw)]
    next => rfl

/-- A stored write of a word with bit 31 sets the lock bit. -/
theorem lockBit_stored {r : Reg} {ix : List Nat} (hf : lockFld 0 ∈ (regRow r).flds) (lk : Bool) (old : Nat) {v : Word}
    (hv : v.getLsbD 31 = true) (d : Dev) :
    rdb (wr d r ix (stripWo r (merge lk r old v.toNat))) r ix 31 = true := by
  have hm : bits (stripWo r (merge lk r old v.toNat)) 31 31 = bits old 31 31 ||| bits v.toNat 31 31 :=
    (bits_stripWo hf (by decide) _).trans (bits_merge r lk old v.toNat hf)
  have hb := congrArg (Nat.testBit · 0) hm
  have hv' : v.toNat.testBit 31 = true := hv
  simp only [testBit_bits, Nat.testBit_or, hv'] at hb
  rw [rdb, rd_wr_same, bit_eq_testBit, show 4294967296 = 2 ^ 32 from rfl, Nat.testBit_mod_two_pow]
  simpa using hb

/-! ### From an access to its effect -/

theorem exec_registerWrite_both (off : Nat) (v w : Word) (s : State) :
    exec (.registerWrite off (some v) (some w)) s = actBar off (busWrite off v.toNat ∘ busWrite off w.toNat) s := rfl

theorem exec_registerWrite_none (off : Nat) (s : State) : exec (.registerWrite off none none) s = actBar off id s := rfl

/-- The device after the two writes that may come in one cycle, Tailor's first (spec/01 R21). -/
def busWrites (off : Nat) (host tailor : Option Word) (d : Dev) : Dev :=
  let d := match tailor with
    | some v => busWrite off v.toNat d
    | none => d
  match host with
  | some v => busWrite off v.toNat d
  | none => d

theorem exec_registerWrite (off : Nat) (h w : Option Word) (s : State) :
    exec (.registerWrite off h w) s = actBar off (busWrites off h w) s := rfl

/-- The device after a read access, with its answer (R4, R11). -/
def busReadAnswer (off : Nat) (wide : Bool) (d : Dev) : Dev :=
  if wide then
    if aligned64 off then setBar (.ok (BitVec.ofNat 64 (busRead64 off d).1)) (busRead64 off d).2 else d
  else if aligned32 off then setBar (.ok (BitVec.ofNat 64 (busRead off d).1)) (busRead off d).2
  else d

theorem exec_pairLoRead (off : Nat) (wide : Bool) (s : State) :
    exec (.pairLoRead ⟨off, wide⟩) s = actBar off (busReadAnswer off wide) s := rfl


theorem barOn_early {off : Nat} {d : Dev} (h : d.pwr.step < 3 ∨ (d.pwr.step = 3 ∧ 0x800000 ≤ off)) :
    barOn off d = false := by
  have : ¬4 ≤ d.pwr.step ∧ ¬(d.pwr.step = 3 ∧ off < 0x800000) := by omega
  simp [barOn, this.1]
  omega

/-! ### Writes of one register -/

/-- Settles O5: a write of a register comes to its lock, its sleeping block or its effect, which for a plain register is
the store of its fields. -/
theorem registerWriteStores : Obligations.RegisterWriteStores := by
  intro s off v w r ix hs ha ht h1 h2
  have hm : MeetsReg off r ix := ⟨ha, ht, h1, h2⟩
  refine ⟨fun hp ha hl => ⟨?host, ?tailor, fun hl' ha' => ?both, fun hk hv => ?lockBit⟩,
    fun n ha hl => ⟨?held, fun hk hv => ?lockHeld⟩, fun hl ho ha => ?keeps,
    fun ha hl => ⟨fun hp => ?mixed, ?effect, fun hk hv => ?lockEffect⟩, ?nothing, fun t h w wide ht => ⟨?early, ?earlyRead⟩⟩
  case host => exact does_of_actBar rfl hs (busWrite_stores (d := s.dev.fresh) hm hp ha hl _)
  case tailor => exact does_of_actBar rfl hs (busWrite_stores (d := s.dev.fresh) hm hp ha hl _)
  case both =>
    have hw := busWrite_stores (d := s.dev.fresh) hm hp ha hl w.toNat
    refine does_of_actBar (exec_registerWrite_both off v w s) hs ((congrArg _ hw).trans ?_)
    exact busWrite_stores (d := wr s.dev.fresh.written r ix _) hm hp ha' hl' v.toNat
  case lockBit =>
    refine gives_of_actBar (exec_blockLock hk hv s) hs ?_
    rw [busWrite_stores (d := s.dev.fresh) hm hp ha hl]
    exact ⟨lockBit_stored (lockFld_mem hm hk) _ _ hv _, rfl⟩
  case held => exact does_of_actBar rfl hs (busWrite_held (d := s.dev.fresh) hm ha hl v)
  case lockHeld => exact does_of_actBar (exec_blockLock hk hv s) hs (busWrite_held (d := s.dev.fresh) hm ha hl v)
  case keeps =>
    refine does_of_actBar rfl hs ((busWrite_locked (d := s.dev.fresh) hm ha hl ho _).trans ?_)
    rw [lockMet, locked_fresh, hl]
  case mixed =>
    refine does_of_actBar rfl hs ((busWrite_taken (d := s.dev.fresh) hm ha hl _).trans ?_)
    rw [writeReg_plain hp]
    rfl
  case effect => exact does_of_actBar rfl hs (busWrite_taken (d := s.dev.fresh) hm ha hl _)
  case lockEffect => exact does_of_actBar (exec_blockLock hk hv s) hs (busWrite_taken (d := s.dev.fresh) hm ha hl _)
  case nothing => exact does_of_actBar (exec_registerWrite_none off s) hs rfl
  case early => exact (exec_registerWrite off h w t).trans (actWhen_off (barOn_early ht) _)
  case earlyRead => exact (exec_pairLoRead off wide t).trans (actWhen_off (barOn_early ht) _)

/-! ### Pairs -/

/-- At an offset that the device accepts stands the LO half of a pair, and its HI half behind it. -/
structure MeetsPair (off : Nat) (lo hi : Reg) (ix : List Nat) : Prop where
  hiOf : pairHiOf lo = some hi
  loOf : pairLoOf hi = some lo
  noHi : pairHiOf hi = none
  atLo : target off = .reg lo ix
  atHi : target (off + 4) = .reg hi ix

theorem w32_toNat (v : Word) : w32 v.toNat = v := by simp [w32]

/-- The write of a LO half is held (R10). -/
theorem busWrite_pairLo {off : Nat} {lo hi : Reg} {ix : List Nat} (ha : aligned32 off = true)
    (ht : target off = .reg lo ix) (hh : pairHiOf lo = some hi) (v : Word) (d : Dev) :
    busWrite off v.toNat d = { d.written with stage := tset d.stage (regAddr lo ix) v } := by
  simp only [busWrite, busWriteX, ha, ht, regWrite32, hh, w32_toNat]
  rfl

/-- What is held for the LO half of a pair, or else the LO half as it stands. -/
def stagedLo (d : Dev) (lo : Reg) (ix : List Nat) : Nat :=
  match tget? d.stage (regAddr lo ix) with
  | some w => w.toNat
  | none => rd d lo ix

/-- The write of a HI half applies both halves (R10). -/
theorem busWrite_pairHi {off : Nat} {lo hi : Reg} {ix : List Nat} (hm : MeetsPair off lo hi ix)
    (ha : aligned32 (off + 4) = true) (val : Nat) (d : Dev) :
    busWrite (off + 4) val d = applyPair (off + 4) lo hi ix (stagedLo d lo ix) val (unstage d.written (regAddr lo ix)) := by
  simp only [busWrite, busWriteX, ha, hm.atHi, regWrite32, hm.noHi, hm.loOf]
  rfl

theorem isRsvd_of_reg {off : Nat} {r : Reg} {ix : List Nat} (h : target off = .reg r ix) : isRsvd off = false := by
  simp [isRsvd, h]

/-- A 64-bit write of a pair applies both halves (R10). -/
theorem busWrite64_pair {off : Nat} {lo hi : Reg} {ix : List Nat} (hm : MeetsPair off lo hi ix)
    (ha : aligned64 off = true) (val : Nat) (d : Dev) :
    busWrite64 off val d =
      applyPair off lo hi ix (val % 2 ^ 32) (val / 2 ^ 32) (unstage (regwr d) (regAddr lo ix)) := by
  simp only [busWrite64, ha, isRsvd_of_reg hm.atLo, isRsvd_of_reg hm.atHi, hm.atLo, hm.hiOf]
  rfl

theorem writePair_plain {lo hi : Reg} (hp : plainPair lo = true) (hh : pairHiOf lo = some hi) (die : Nat) (ix : List Nat)
    (ml mh : Nat) (d : Dev) : writePair die lo ix ml mh d = wr (wr d lo ix ml) hi ix mh := by
  unfold writePair
  dsimp only
  split
  case h_6 => rw [hh]
  all_goals exact absurd hp (by decide)

/-- A plain pair whose block is not locked stores both halves. -/
theorem applyPair_stores {lo hi : Reg} {ix : List Nat} {d : Dev} (hp : plainPair lo = true) (hh : pairHiOf lo = some hi)
    (hl : locked d lo ix = false) (hro : (regRow lo).flds.all (fun f => f.acc == .ro) = false) (off vl vh : Nat) :
    applyPair off lo hi ix vl vh d =
      wr (wr d lo ix (merge false lo (rd d lo ix) vl)) hi ix (merge false hi (rd d hi ix) vh) := by
  simp only [applyPair, hl, hro, lockHit, Bool.false_and, Bool.or_self, Bool.false_eq_true, if_false,
    writePair_plain hp hh]

theorem exec_pairLoWrite {off : Nat} {lo hi : Reg} {ix : List Nat} (ht : target off = .reg lo ix)
    (hh : pairHiOf lo = some hi) (v : Word) (s : State) :
    exec (.pairLoWrite off v) s = actBar off (busWrite off v.toNat) s := by
  change execPairLoWrite off v s = _
  simp only [execPairLoWrite, isPairLo, ht, hh, Option.isSome_some, if_true]

theorem exec_pairHiWrite {off : Nat} {lo hi : Reg} {ix : List Nat} (hm : MeetsPair off lo hi ix) (v : Word) (s : State) :
    exec (.pairHiWrite (off + 4) v) s = actBar (off + 4) (busWrite (off + 4) v.toNat) s := by
  change execPairHiWrite (off + 4) v s = _
  simp only [execPairHiWrite, isPairHi, hm.atHi, hm.loOf, Option.isSome_some, if_true]

/-- A read of a LO half answers it and takes the snapshot of the HI half (R11). -/
theorem busRead_pairLo {off : Nat} {lo hi : Reg} {ix : List Nat} (ht : target off = .reg lo ix)
    (hh : pairHiOf lo = some hi) (d : Dev) :
    busRead off d =
      (regSeen d off lo ix, { d with snap := tset d.snap (regAddr hi ix) (w32 (regSeen d (regAddr hi ix) hi ix)) }) := by
  simp only [busRead, ht, hh]

/-- A read of a HI half answers its snapshot, which is used up (R11). -/
theorem busRead_pairHi {off : Nat} {hi : Reg} {ix : List Nat} {w : Word} {d : Dev} (ht : target off = .reg hi ix)
    (hn : pairHiOf hi = none) (hl : (pairLoOf hi).isSome = true) (hw : tget? d.snap (regAddr hi ix) = some w) :
    busRead off d = (w.toNat, { d with snap := tdel d.snap (regAddr hi ix) }) := by
  obtain ⟨lo, hlo⟩ := Option.isSome_iff_exists.mp hl
  simp only [busRead, ht, hn, hlo, hw]

/-- A 64-bit read of two registers answers both and leaves the device as it is (R11). -/
theorem busRead64_regs {off : Nat} {lo hi : Reg} {ix : List Nat} (hlo : target off = .reg lo ix)
    (hhi : target (off + 4) = .reg hi ix) (d : Dev) :
    busRead64 off d = (regSeen d (off + 4) hi ix * 2 ^ 32 + regSeen d off lo ix, d) := by
  simp only [busRead64, halfSeen, isRsvd_of_reg hlo, isRsvd_of_reg hhi, hlo, hhi]
  rfl

/-- Settles O8: a LO half is held or read with a snapshot, a HI half applies or answers both, and a 64-bit access meets
both at once. -/
theorem pairAccesses : Obligations.PairAccesses := by
  refine ⟨fun s off v u lo hi ix hs ha ht hh => ⟨?held, fun h1 h2 h3 h4 hp hl hro => ⟨?plainHi, fun ha => ?plain64⟩,
    fun h1 h2 h3 h4 => ⟨?hi, fun ha => ?wide⟩⟩, fun s off lo hi ix hs ha ht hh =>
    ⟨?readLo, fun w h1 h2 h3 h4 hw => ?readHi, fun ha h3 => ?read64⟩⟩
  case held => exact does_of_actBar (exec_pairLoWrite ht hh v s) hs (busWrite_pairLo ha ht hh v _)
  case plainHi =>
    have hm : MeetsPair off lo hi ix := ⟨hh, h1, h2, ht, h3⟩
    refine does_of_actBar (exec_pairHiWrite hm v s) hs ((busWrite_pairHi hm h4 v.toNat _).trans ?_)
    exact applyPair_stores (d := unstage s.dev.fresh.written (regAddr lo ix)) hp hh hl hro _ _ _
  case plain64 =>
    have hm : MeetsPair off lo hi ix := ⟨hh, h1, h2, ht, h3⟩
    refine does_of_actBar (exec_pair64Write off u s) hs ((busWrite64_pair hm ha u.toNat _).trans ?_)
    exact applyPair_stores (d := unstage (regwr s.dev.fresh) (regAddr lo ix)) hp hh hl hro _ _ _
  case hi =>
    have hm : MeetsPair off lo hi ix := ⟨hh, h1, h2, ht, h3⟩
    refine does_of_actBar (exec_pairHiWrite hm v s) hs ((busWrite_pairHi hm h4 v.toNat _).trans ?_)
    have hst : stagedLo s.dev.fresh lo ix =
        ((tget? s.dev.fresh.stage (regAddr lo ix)).map (·.toNat)).getD (rd s.dev.fresh lo ix) := by
      unfold stagedLo
      cases tget? s.dev.fresh.stage (regAddr lo ix) <;> rfl
    rw [hst]
    rfl
  case wide =>
    have hm : MeetsPair off lo hi ix := ⟨hh, h1, h2, ht, h3⟩
    exact does_of_actBar (exec_pair64Write off u s) hs (busWrite64_pair hm ha u.toNat _)
  case readLo =>
    refine gives_of_actBar (exec_read32 ha s) hs ?_
    rw [busRead_pairLo ht hh]
    rfl
  case readHi =>
    refine does_of_actBar (exec_read32 h4 s) hs ?_
    rw [busRead_pairHi (d := s.dev.fresh) h3 h1 h2 hw]
    rfl
  case read64 =>
    refine does_of_actBar (exec_read64 ha s) hs ?_
    rw [busRead64_regs ht h3]
    rfl

end Sys2Proof.Machine
end

section
/-! A report of a unit: one count, one status bit, one event, and nothing else of the unit's registers (spec/14 R404,
spec/16 R413, R414). -/
namespace Sys2Proof.Machine

/-! ### The status bit -/

theorem setBit_eq_putBits (x n : Nat) : setBit x n = putBits x n n 1 := by
  have hn : n + 1 - n = 1 := by omega
  simp only [setBit, bit, putBits, bits, hn, pow_one, beq_iff_eq]
  rcases Nat.mod_two_eq_zero_or_one (x >>> n) with h | h
  · simp [h]
  · have hle : 2 ^ n ≤ x := Nat.le_of_not_lt fun hlt => by
      rw [Nat.shiftRight_eq_zero x n hlt] at h
      exact absurd h (by decide)
    simp [h]
    omega

theorem stSet_eq_wrf (d : Dev) (x : Src) (b : Nat) : stSet d x b = wrf d x.st x.ix b b 1 := by
  rw [stSet, wrf, setBit_eq_putBits]

theorem rdb_wrf_bit (d : Dev) (r : Reg) (ix : List Nat) {b : Nat} (hb : b < 32) (v : Nat) :
    rdb (wrf d r ix b b v) r ix b = decide (v % 2 = 1) := by
  have h := congrArg (Nat.testBit · 0) (bits_putBits_same (rd d r ix) b b v)
  have hb1 : b + 1 - b = 1 := by omega
  simp only [testBit_bits, hb1, pow_one, Nat.add_zero, Nat.lt_one_iff, decide_true, Bool.true_and] at h
  rw [rdb, rd_wrf_same, bit_eq_testBit, show 4294967296 = 2 ^ 32 from rfl, Nat.testBit_mod_two_pow, h]
  simp [hb]

theorem rdb_stSet_same (d : Dev) (x : Src) {b : Nat} (hb : b < 32) : rdb (stSet d x b) x.st x.ix b = true := by
  rw [stSet_eq_wrf, rdb_wrf_bit _ _ _ hb]
  rfl

theorem rdb_stSet_other (d : Dev) (x : Src) {b k : Nat} (h : k ≠ b) :
    rdb (stSet d x b) x.st x.ix k = rdb d x.st x.ix k := by
  rw [stSet_eq_wrf, rdb_wrf_outside _ _ _ _ (by omega)]

theorem tget?_regs_wr_other (d : Dev) {r : Reg} {ix : List Nat} (v : Nat) {a : Nat} (h : a ≠ regAddr r ix) :
    tget? (wr d r ix v).regs a = tget? d.regs a := by
  simp only [wr, tget?_tput, if_neg h.symm]

/-! ### The count -/

theorem cntAt_cnt1_same (d : Dev) (x : Src) (n : Nat) :
    cntAt (cnt1 d x n) (x.cnt + 8 * n) = cntAt d (x.cnt + 8 * n) + 1 := by
  rw [cnt1, cntN, cntAt_cntAdd, if_pos rfl]
  rfl

theorem cntAt_cnt1_other (d : Dev) (x : Src) {n a : Nat} (h : a ≠ x.cnt + 8 * n) :
    cntAt (cnt1 d x n) a = cntAt d a := by
  rw [cnt1, cntN, cntAt_cntAdd, if_neg h.symm]

/-- Settles O50: a report is its count, its status bit and its event, and the first two leave all else alone. -/
theorem reportCountsAndMarks : Obligations.ReportCountsAndMarks := by
  intro d src n b args lanes hb
  refine ⟨rfl, rdb_stSet_same _ src hb, fun k hk => rdb_stSet_other _ src hk, fun _ => ?_, fun a ha => ?_,
    fun a ha => tget?_regs_wr_other _ _ ha, rfl⟩
  · exact (cntAt_stSet ..).trans (cntAt_cnt1_same d src n)
  · exact (cntAt_stSet ..).trans (cntAt_cnt1_other d src ha)

end Sys2Proof.Machine
end

section
/-! Stitch: from an instruction at which a group stands to its effect, and the rows of Table 08-8 (spec/08 R228 to R238,
spec/09 R248). -/
namespace Sys2Proof.Machine

/-! ### From a command to its effect -/

/-- A command that a device carries out which serves does what its change does to the device it finds. -/
theorem does_of_act {c : Instr} {s : State} {f g : Dev → Dev} (hc : exec c s = act f s) (hs : Running s)
    (hfg : f s.dev.fresh = g s.dev.fresh) : Does c s g := by
  unfold Does
  rw [hc, act_eq_of_running hs, hfg]

theorem gives_of_act {c : Instr} {s : State} {f : Dev → Dev} {P : Dev → Dev → Prop} (hc : exec c s = act f s)
    (hs : Running s) (hP : P s.dev.fresh (f s.dev.fresh)) : Gives c s P :=
  ⟨_, hc.trans (act_eq_of_running hs f), hP⟩

theorem takeMark_fst (d : Dev) (id die unit : Nat) :
    (takeMark d id die unit).1 =
      (d.rel.marks.find? (fun m => m.1 == id && m.2.1 == die && m.2.2.1 == unit)).map (·.2.2.2) := by
  unfold takeMark
  dsimp only
  cases d.rel.marks.find? _ <;> rfl

/-- That no injected effect is under way says nothing of the marks that wait. -/
theorem unmarked_fresh {d : Dev} {id die unit : Nat} (h : Unmarked d id die unit) : Unmarked d.fresh id die unit :=
  (takeMark_fst d.fresh id die unit).trans ((takeMark_fst d id die unit).symm.trans h)

/-- A group that stands at an instruction of an opcode runs it. -/
theorem onInstr_at {d : Dev} {op l g : Nat} {x : Grid} {k : Kernel} {y : Grp} {w : Nat} (h : AtInstr d op l g x k y w)
    (f : Dev → Grid → Kernel → Grp → Nat → Dev) : onInstr op l g f d = f d x k y w := by
  obtain ⟨hx, hk, hy, hw, hop, hbar, hreg, hiss, hon⟩ := h
  obtain ⟨v, hv, rfl⟩ := Option.map_eq_some_iff.mp hw
  simp only [onInstr, hx, hk, hy, hv, hop, hbar, hreg, hiss, hon, ne_eq, not_true_eq_false, Bool.false_eq_true,
    or_self, if_false, reduceCtorEq]

section
variable {c : Instr} {s : State} {op l g : Nat} {x : Grid} {k : Kernel} {y : Grp} {w : Nat}
  {f : Dev → Grid → Kernel → Grp → Nat → Dev}

theorem does_of_onInstr {e : Dev → Dev} (hc : exec c s = act (onInstr op l g f) s) (hs : Running s)
    (h : AtInstr s.dev op l g x k y w) (hfe : f s.dev.fresh x k y w = e s.dev.fresh) : Does c s e :=
  does_of_act hc hs ((onInstr_at (d := s.dev.fresh) h f).trans hfe)

theorem gives_of_onInstr {P : Dev → Dev → Prop} (hc : exec c s = act (onInstr op l g f) s) (hs : Running s)
    (h : AtInstr s.dev op l g x k y w) (hP : P s.dev.fresh (f s.dev.fresh x k y w)) : Gives c s P :=
  gives_of_act hc hs ((onInstr_at (d := s.dev.fresh) h f).symm ▸ hP)

/-- A row with a value for each lane writes it and goes on. -/
theorem rowDoes_of_aluRow {v : Nat → Grid → Grp → Option SegInfo → Nat → Nat → Nat} {e : Dev → Nat → Nat}
    (hc : exec c s = act (aluRow op l g v) s) (hs : Running s) (h : AtInstr s.dev op l g x k y w)
    (hv : ∀ i, v (laneFree s.dev i) x y (segInfo s.dev x) w i = e s.dev.fresh i) : RowDoes c s l y w e := by
  refine does_of_onInstr hc hs h ?_
  rw [← funext hv]
  rfl

end

/-- Settles O38: each row runs on the group that stands at it, and writes its function in the lanes whose guard holds. -/
theorem stitchInteger : Obligations.StitchInteger := by
  intro s l g x k y w hs
  refine ⟨fun h => ?iadd, fun h => ?isub, fun h => ?imul, fun h => ?and, fun h => ?or, fun h => ?xor, fun h => ?shl,
    fun h => ?shr, fun h => ?sar, fun h => ?movi, fun h => ?sval, fun h => ?sel, fun h => ?iadd64⟩
  case sel => exact does_of_onInstr rfl hs h rfl
  case iadd64 => exact does_of_onInstr rfl hs h rfl
  all_goals exact rowDoes_of_aluRow rfl hs h fun _ => rfl

/-! ### Control (spec/08 R231, R233) -/

theorem barRelease_releases {d : Dev} {l core : Nat} {x : Grid} (hx : findGrid d l = some x) :
    let mine := x.groups.filter (fun y => coreNo y.core == core)
    let i := x.cores.findIdx (fun q => coreNo q == core)
    mine ≠ [] → (∀ y ∈ mine, y.bar = true) → groupsOn (gridGroups x) x.cores.length i ≤ x.started.getD i 0 →
    barRelease l core d = mine.foldl (fun d y => goto d l { y with bar := false } (y.pc + 1)) d := by
  intro mine i h1 h2 h3
  simp only [barRelease, hx]
  exact if_pos ⟨h1, List.all_eq_true.mpr h2, h3⟩

theorem barRelease_waits {d : Dev} {l core : Nat} {x : Grid} (hx : findGrid d l = some x) :
    let mine := x.groups.filter (fun y => coreNo y.core == core)
    mine = [] ∨ (∃ y ∈ mine, y.bar = false) → barRelease l core d = d := by
  intro mine h
  simp only [barRelease, hx]
  refine if_neg fun ⟨h1, h2, _⟩ => ?_
  rcases h with h | ⟨y, hy, hb⟩
  · exact h1 h
  · exact absurd (List.all_eq_true.mp h2 y hy) (by simp [hb])

/-- Settles O40: each control row runs on the group that stands at it and takes one branch of its rule. -/
theorem stitchControl : Obligations.StitchControl := by
  intro s l g x k y w hs
  refine ⟨fun h => ?nop, fun h => ?exit, fun h => ⟨fun h1 => ?stays, fun h1 h2 => ?jumps, fun h1 h2 => ?splits⟩,
    fun h => ⟨fun h1 => ?barNone, fun h1 => ?bar⟩, fun core hx => ⟨fun h1 h2 h3 => ?release, fun h1 => ?barWaits⟩,
    fun h => ⟨fun h1 => ?fence, fun h1 => ?fenceWaits⟩, fun h => ⟨fun h1 => ?mwait, fun h1 => ?mwaitWaits⟩⟩
  case nop => exact does_of_onInstr rfl hs h rfl
  case exit => exact does_of_onInstr rfl hs h rfl
  case stays => exact does_of_onInstr rfl hs h (if_pos h1)
  case jumps => exact does_of_onInstr rfl hs h ((if_neg h1).trans (if_pos h2))
  case splits => exact does_of_onInstr rfl hs h ((if_neg h1).trans (if_neg h2))
  case barNone => exact does_of_onInstr rfl hs h (if_pos h1)
  case bar => exact does_of_onInstr rfl hs h (if_neg h1)
  case release => exact does_of_act rfl hs (barRelease_releases (d := s.dev.fresh) hx h1 h2 h3)
  case barWaits => exact does_of_act rfl hs (barRelease_waits (d := s.dev.fresh) hx h1)
  case fence => exact does_of_onInstr rfl hs h (if_pos h1)
  case fenceWaits => exact does_of_onInstr rfl hs h (if_neg h1)
  case mwait => exact does_of_onInstr rfl hs h (if_pos h1)
  case mwaitWaits => exact does_of_onInstr rfl hs h (if_neg h1)

@[simp] theorem fresh_segInfo (d : Dev) (x : Grid) : segInfo d.fresh x = segInfo d x := rfl

/-! ### Conversions (spec/06 R148 to R152, spec/08 R237) -/

/-- What CVT converts in a lane. -/
def cvtSrc (y : Grp) (w lane : Nat) : Fv := cvtIn (iTI w) (if iTI w = 6 then rg2 y lane (iA w) else rg y lane (iA w))

/-- Seed, step and first index of the bits that a stochastic conversion draws. -/
def cvtSeed (x : Grid) (i : Option SegInfo) : Nat × Nat × Nat :=
  match i with
  | some z => (((z.shard.hs.getD z.seg.hset ⟨[], none⟩).cur.getD 15 0).toNat, (z.shard.step + 1).toNat, z.first)
  | none => (x.srSeed.toNat, 0, 0)

/-- Rounding of CVT in a lane. -/
def cvtDir (x : Grid) (i : Option SegInfo) (y : Grp) (w lane : Nat) : Rm :=
  match iRM w with
  | 1 => .rtz
  | 2 => .sr (srBits (cvtSeed x i).1 (cvtSeed x i).2.1 ((cvtSeed x i).2.2 + 64 * y.g + lane) (tgetD y.srCnt lane 0))
  | _ => .rne

theorem cvtDir_eq (x : Grid) (i : Option SegInfo) (y : Grp) (w lane : Nat) :
    cvtDir x i y w lane =
      if iRM w = 1 then .rtz
      else if iRM w = 2 then
        .sr (srBits (cvtSeed x i).1 (cvtSeed x i).2.1 ((cvtSeed x i).2.2 + 64 * y.g + lane) (tgetD y.srCnt lane 0))
      else .rne := by
  unfold cvtDir
  split
  next h => rw [if_pos h]
  next h => rw [if_neg (by omega), if_pos h]
  next h1 h2 => rw [if_neg h1, if_neg h2]

/-- The free value of a lane in a conversion to 64 bits. -/
def laneFree2 (d : Dev) (lane : Nat) : Nat := laneFree d lane + 2 ^ 32 * (Config.freeWord (d.draw + 64 + lane)).toNat

/-- What CVT writes in a lane. -/
def cvtOut (d : Dev) (x : Grid) (i : Option SegInfo) (y : Grp) (w lane : Nat) : Nat :=
  match iTO w with
  | 5 => toInt 32 (cvtDir x i y w lane) (laneFree2 d lane % 2 ^ 32) (cvtSrc y w lane)
  | 6 => toInt 64 (cvtDir x i y w lane) (laneFree2 d lane) (cvtSrc y w lane)
  | _ =>
    if isMx (iTO w) then
      mxOut (iTO w) (mxScale (iTO w) (((onLanes y w).filter (fun j => j / 32 == lane / 32)).map (cvtSrc y w)))
        (cvtDir x i y w lane) (laneFree2 d lane) (cvtSrc y w lane)
    else match fmtOf (iTO w) with
      | some f => fenc f (cvtDir x i y w lane) (bit w 23 && (iTO w == 3 || iTO w == 4)) (cvtSrc y w lane)
      | none => laneFree2 d lane % 2 ^ 32

theorem cvtOut_int32 {w : Nat} (h : iTO w = 5) (d : Dev) (x : Grid) (i : Option SegInfo) (y : Grp) (lane : Nat) :
    cvtOut d x i y w lane = toInt 32 (cvtDir x i y w lane) (laneFree2 d lane % 2 ^ 32) (cvtSrc y w lane) := by
  simp only [cvtOut, h]

theorem cvtOut_int64 {w : Nat} (h : iTO w = 6) (d : Dev) (x : Grid) (i : Option SegInfo) (y : Grp) (lane : Nat) :
    cvtOut d x i y w lane = toInt 64 (cvtDir x i y w lane) (laneFree2 d lane) (cvtSrc y w lane) := by
  simp only [cvtOut, h]

theorem cvtOut_mx {w : Nat} (h : isMx (iTO w) = true) (h5 : iTO w ≠ 5) (h6 : iTO w ≠ 6) (d : Dev) (x : Grid)
    (i : Option SegInfo) (y : Grp) (lane : Nat) :
    cvtOut d x i y w lane =
      mxOut (iTO w) (mxScale (iTO w) (((onLanes y w).filter (fun j => j / 32 == lane / 32)).map (cvtSrc y w)))
        (cvtDir x i y w lane) (laneFree2 d lane) (cvtSrc y w lane) := by
  unfold cvtOut
  split
  · contradiction
  · contradiction
  · exact if_pos h

theorem cvtOut_fmt {w : Nat} {f : Fmt} (hf : fmtOf (iTO w) = some f) (h : isMx (iTO w) = false) (h5 : iTO w ≠ 5)
    (h6 : iTO w ≠ 6) (d : Dev) (x : Grid) (i : Option SegInfo) (y : Grp) (lane : Nat) :
    cvtOut d x i y w lane =
      fenc f (cvtDir x i y w lane) (bit w 23 && (iTO w == 3 || iTO w == 4)) (cvtSrc y w lane) := by
  unfold cvtOut
  split
  · contradiction
  · contradiction
  · simp only [h, hf, Bool.false_eq_true, if_false]

/-- A group whose lanes have converted: their counters advance where the rounding draws bits. -/
def cvtCounted (y : Grp) (w : Nat) (z : Grp) : Grp :=
  if iRM w = 2 then
    { z with srCnt := (onLanes y w).foldl (fun t lane => tput 0 t lane ((tgetD t lane 0 + 1) % 2 ^ 24)) z.srCnt }
  else z

theorem cvt_eq (l : Nat) (d : Dev) (x : Grid) (k : Kernel) (y : Grp) (w : Nat) :
    cvt l d x k y w = goto { d with draw := d.draw + 128 } l (cvtCounted y w ((onLanes y w).foldl (fun z lane =>
      if iTO w = 6 then setRg2 z lane (iD w) (cvtOut d x (segInfo d x) y w lane)
      else setRg z lane (iD w) (cvtOut d x (segInfo d x) y w lane)) y)) (y.pc + 1) :=
  rfl

section
variable {w l : Nat} {d : Dev} {x : Grid} {k : Kernel} {y : Grp} {v : Nat → Nat}

/-- A conversion to 32 bits or fewer writes D. -/
theorem cvt_narrow (h6 : iTO w ≠ 6) (hv : ∀ lane, cvtOut d x (segInfo d x) y w lane = v lane) :
    cvt l d x k y w = goto { d with draw := d.draw + 128 } l (cvtCounted y w (lanesSet y w v)) (y.pc + 1) := by
  rw [cvt_eq]
  simp only [if_neg h6, hv, lanesSet]

/-- A conversion to a 64-bit integer writes a pair. -/
theorem cvt_wide (h6 : iTO w = 6) (hv : ∀ lane, cvtOut d x (segInfo d x) y w lane = v lane) :
    cvt l d x k y w = goto { d with draw := d.draw + 128 } l
      (cvtCounted y w ((onLanes y w).foldl (fun z lane => setRg2 z lane (iD w) (v lane)) y)) (y.pc + 1) := by
  rw [cvt_eq]
  simp only [if_pos h6, hv]

end

/-- Settles O39: each floating row runs on the group that stands at it, and writes its function in the lanes whose guard
holds; CVT by the type that it converts to. -/
theorem stitchFloating : Obligations.StitchFloating := by
  intro s l g x k y w hs
  refine ⟨fun h => ?fadd, fun h => ?fmul, fun h => ?ffma, fun h => ?fmax, fun h => ?fmin, fun h => ?rcp, fun h => ?rsqrt,
    fun h => ?sqrt, fun h => ?exp2, fun h => ?log2, fun h => ?icmp, fun h => ?fcmp, fun h => ?cvt⟩
  case icmp => exact does_of_onInstr rfl hs h rfl
  case fcmp => exact does_of_onInstr rfl hs h rfl
  case cvt =>
    intro src seed dir count free next
    have hdir (lane : Nat) : cvtDir x (segInfo s.dev x) y w lane = dir lane := cvtDir_eq ..
    refine ⟨fun f hf hm h5 h6 => ?format, fun h5 => ?int32, fun h6 => ?int64, fun hm h5 h6 => ?mx⟩
    case format =>
      refine does_of_onInstr rfl hs h (cvt_narrow h6 fun lane => (cvtOut_fmt hf hm h5 h6 ..).trans ?_)
      exact congrArg (fenc f · _ _) (hdir lane)
    case int32 =>
      refine does_of_onInstr rfl hs h (cvt_narrow (by omega) fun lane => (cvtOut_int32 h5 ..).trans ?_)
      exact congrArg (toInt 32 · _ _) (hdir lane)
    case int64 =>
      refine does_of_onInstr rfl hs h (cvt_wide h6 fun lane => (cvtOut_int64 h6 ..).trans ?_)
      exact congrArg (toInt 64 · _ _) (hdir lane)
    case mx =>
      refine does_of_onInstr rfl hs h (cvt_narrow h6 fun lane => (cvtOut_mx hm h5 h6 ..).trans ?_)
      exact congrArg (mxOut _ _ · _ _) (hdir lane)
  all_goals exact rowDoes_of_aluRow rfl hs h fun _ => rfl

end Sys2Proof.Machine
end

section
/-! Stitch: scratchpad, stacked-memory and matrix instructions, and the responses of memory (spec/08 R235 to R238, spec/09
R248, R253, R254). -/
namespace Sys2Proof.Machine

/-! ### Lanes whose access lands nowhere -/

theorem any_isNone_of_exists {α : Type} {ls : List Nat} {f : Nat → Option α} (h : ∃ j ∈ ls, f j = none) :
    ls.any (fun j => (f j).isNone) = true := by
  obtain ⟨j, hj, hn⟩ := h
  exact List.any_eq_true.mpr ⟨j, hj, by rw [hn]; rfl⟩

theorem any_isNone_of_forall {α : Type} {ls : List Nat} {f : Nat → Option α} (h : ∀ j ∈ ls, f j ≠ none) :
    ls.any (fun j => (f j).isNone) = false := by
  refine List.any_eq_false.mpr fun j hj => ?_
  rw [Option.isNone_iff_eq_none]
  exact h j hj

/-! ### The check of scratchpad operands (spec/06 R145) -/

theorem spadCheck_clean {d : Dev} {q : Nat} (h : Unmarked d 0x09 (q / 16) (coreNo q)) :
    spadCheck d q .clean = (false, d) := by
  simp only [spadCheck, takeMark_none h]
  rfl

theorem spadCheck_ue {d : Dev} {q : Nat} (h : Unmarked d 0x09 (q / 16) (coreNo q)) :
    spadCheck d q .ue = (true, addSusp (raise d (srcCore (coreNo q)) 1) q (ovlLimit d)) := by
  simp only [spadCheck, takeMark_none h]
  rfl

/-! ### Scratchpad and stacked-memory accesses -/

section
variable {d : Dev} {l w : Nat} {x : Grid} {k : Kernel} {y : Grp}

theorem lds_faults (h : ∃ j ∈ onLanes y w, spadAt k y (segInfo d x) false (ldsAddr y w j) (szBytes w) = none) (e : Ecc) :
    lds l e d x k y w = stitchFault d l 1 y.g y.pc :=
  if_pos (any_isNone_of_exists h)

/-- LDS after a check that finds nothing uncorrectable. -/
theorem lds_checked {e : Ecc} {d1 : Dev}
    (h : ∀ j ∈ onLanes y w, spadAt k y (segInfo d x) false (ldsAddr y w j) (szBytes w) ≠ none)
    (hc : (if onLanes y w = [] then (false, d) else spadCheck d y.core e) = (false, d1)) :
    lds l e d x k y w =
      goto { d1 with draw := d1.draw + 64 } l ((onLanes y w).foldl (fun z lane => setLoaded z w lane
        (leVal (spadRd d1 y.core ((spadAt k y (segInfo d x) false (ldsAddr y w lane) (szBytes w)).getD 0) (szBytes w)))
        (laneFree d1 lane)) y) (y.pc + 1) := by
  simp only [lds, any_isNone_of_forall h, hc, Bool.false_eq_true, if_false]
  rfl

theorem check_none {e : Ecc} (h : onLanes y w = [] ∨ (e = .clean ∧ Unmarked d 0x09 (y.core / 16) (coreNo y.core))) :
    (if onLanes y w = [] then (false, d) else spadCheck d y.core e) = (false, d) := by
  rcases h with h | ⟨rfl, h⟩
  · exact if_pos h
  · rw [spadCheck_clean h, ite_self]

theorem sts_faults (h : ∃ j ∈ onLanes y w, spadAt k y (segInfo d x) true (ldsAddr y w j) (szBytes w) = none) :
    sts l d x k y w = stitchFault d l 1 y.g y.pc :=
  if_pos (any_isNone_of_exists h)

theorem sts_stores (h : ∀ j ∈ onLanes y w, spadAt k y (segInfo d x) true (ldsAddr y w j) (szBytes w) ≠ none) :
    sts l d x k y w =
      let i := segInfo d x
      goto ((onLanes y w).foldl (fun d lane => spadWr d y.core
        ((spadAt k y i true (ldsAddr y w lane) (szBytes w)).getD 0) (storeData y w lane)) d) l y (y.pc + 1) := by
  simp only [sts, any_isNone_of_forall h, Bool.false_eq_true, if_false]

theorem ldg_faults (h : ∃ j ∈ onLanes y w, ldgAddr x (segInfo d x) false y w j = none) :
    ldg l d x k y w = stitchFault d l 1 y.g y.pc :=
  if_pos (any_isNone_of_exists h)

/-- The requests of an LDG. -/
def ldgReqs (l : Nat) (x : Grid) (i : Option SegInfo) (y : Grp) (w : Nat) : List MemReq :=
  (onLanes y w).flatMap (fun j => reqParts ((ldgAddr x i false y w j).getD 0) (szBytes w)
    (fun pos m => .thread l y.g j (iD w) pos m y.pc) [])

theorem ldg_loads (h : ∀ j ∈ onLanes y w, ldgAddr x (segInfo d x) false y w j ≠ none) :
    ldg l d x k y w =
      let reqs := ldgReqs l x (segInfo d x) y w
      let d1 := reqs.foldl (fun d r => issue d 0 r) d
      let z := (onLanes y w).foldl (fun z j => setLoaded z w j 0 (laneFree d1 j)) y
      goto { d1 with draw := d1.draw + 64 } l { z with memWait := z.memWait + reqs.length } (y.pc + 1) := by
  simp only [ldg, any_isNone_of_forall h, Bool.false_eq_true, if_false]
  rfl

theorem stg_faults (h : ∃ j ∈ onLanes y w, ldgAddr x (segInfo d x) true y w j = none) :
    stg l d x k y w = stitchFault d l 1 y.g y.pc :=
  if_pos (any_isNone_of_exists h)

theorem stg_stores (h : ∀ j ∈ onLanes y w, ldgAddr x (segInfo d x) true y w j ≠ none) :
    stg l d x k y w =
      let reqs := (onLanes y w).flatMap (fun j => reqParts ((ldgAddr x (segInfo d x) true y w j).getD 0) (szBytes w)
        (fun _ _ => .store l y.g y.pc) (storeData y w j))
      goto (reqs.foldl (fun d r => issue d 1 r) (if onLanes y w = [] then d else clearRb d (segInfo d x))) l
        { y with memWait := y.memWait + reqs.length } (y.pc + 1) := by
  simp only [stg, any_isNone_of_forall h, Bool.false_eq_true, if_false]

/-! ### ATOM of one lane (spec/09 R254) -/

theorem atom_faults (h : ∃ j ∈ onLanes y w, (atomOf x (segInfo d x) y w j).isNone = true) :
    atom l d x k y w = stitchFault d l 1 y.g y.pc :=
  if_pos (List.any_eq_true.mpr h)

theorem atom_add {j : Nat} {z : Atom} (hl : onLanes y w = [j]) (hz : atomOf x (segInfo d x) y w j = some z)
    (hc : 5 ≤ z.code) :
    atom l d x k y w =
      let r : MemReq := ⟨.thread l y.g z.lane (iD w) 0 (szBytes w) y.pc, z.addr, (redOp z.code).2.1, z.data, []⟩
      let d1 := issue (clearRb d (segInfo d x)) (16 + z.code) r
      let v := setLoaded y w z.lane 0 (laneFree d1 z.lane)
      goto { d1 with draw := d1.draw + 64 } l { v with memWait := v.memWait + 1 } (y.pc + 1) := by
  simp only [atom, hl, hz, List.any_cons, List.any_nil, Option.isNone_some, Bool.or_false, Bool.false_eq_true, if_false,
    List.filterMap_cons, List.filterMap_nil, List.foldl_cons, List.foldl_nil, if_neg (Nat.not_lt.mpr hc),
    List.filter_cons, hc, decide_true, if_true, List.filter_nil, List.nil_append, reduceCtorEq, List.length_singleton]
  rfl

theorem atom_red {j : Nat} {z : Atom} (hl : onLanes y w = [j]) (hz : atomOf x (segInfo d x) y w j = some z)
    (hc : z.code < 5) :
    atom l d x k y w =
      let r : MemReq := ⟨.store l y.g y.pc, z.addr / 256 * 256, 256, z.data, [z.addr % 256]⟩
      let d1 := issue (clearRb d (segInfo d x)) (16 + z.code) r
      goto { d1 with draw := d1.draw + 64 } l { y with memWait := y.memWait + 1 } (y.pc + 1) := by
  simp only [atom, hl, hz, List.any_cons, List.any_nil, Option.isNone_some, Bool.or_false, Bool.false_eq_true, if_false,
    List.filterMap_cons, List.filterMap_nil, List.foldl_cons, List.foldl_nil, if_pos hc, mergeRed,
    List.filter_cons, Nat.not_le.mpr hc, decide_false, List.filter_nil, reduceCtorEq, List.length_singleton]

/-! ### Matrix instructions -/

theorem mma_lands {v : List (BitVec 32)} {i : Option SegInfo}
    (h : ∀ r ∈ (mmaRanges w v).zip [false, false, true, false, false], r.1.2 ≠ 0 → spadAt k y i r.2 r.1.1 r.1.2 ≠ none) :
    ((mmaRanges w v).zip [false, false, true, false, false]).any (fun r =>
      decide (r.1.2 ≠ 0) && (spadAt k y i r.2 r.1.1 r.1.2).isNone) = false := by
  refine List.any_eq_false.mpr fun r hr => ?_
  simp only [Bool.and_eq_true, decide_eq_true_eq, Option.isNone_iff_eq_none, not_and]
  exact h r hr

/-- What an MMA takes from the registers of lane 0. -/
def mmaRegs (y : Grp) (w : Nat) : List (BitVec 32) :=
  [rg y 0 (iA w), rg y 0 (iB w), rg y 0 (iC w), rg y 0 (iD w), rg y 0 (iD w + 1)].map w32

theorem mma_queued (hn : onLanes y w ≠ [])
    (h : ∀ r ∈ (mmaRanges w (mmaRegs y w)).zip [false, false, true, false, false], r.1.2 ≠ 0 →
      spadAt k y (segInfo d x) r.2 r.1.1 r.1.2 ≠ none)
    (hm : Unmarked d 0x09 (y.core / 16) (coreNo y.core)) :
    mma l .clean d x k y w = goto d l { y with mma := y.mma ++ [(BitVec.ofNat 64 w, mmaRegs y w)] } (y.pc + 1) := by
  have hr := mma_lands h
  unfold mmaRegs at hr
  simp only [mma, if_neg hn, hr, spadCheck_clean hm, Bool.false_eq_true, if_false]
  rfl

theorem mma_ue (hn : onLanes y w ≠ [])
    (h : ∀ r ∈ (mmaRanges w (mmaRegs y w)).zip [false, false, true, false, false], r.1.2 ≠ 0 →
      spadAt k y (segInfo d x) r.2 r.1.1 r.1.2 ≠ none)
    (hm : Unmarked d 0x09 (y.core / 16) (coreNo y.core)) :
    mma l .ue d x k y w =
      stitchFault (addSusp (raise d (srcCore (coreNo y.core)) 1) y.core (ovlLimit d)) l 2 y.g y.pc := by
  have hr := mma_lands h
  unfold mmaRegs at hr
  simp only [mma, if_neg hn, hr, spadCheck_ue hm, Bool.false_eq_true, if_false, if_true]

end

theorem mmaComplete_oldest {d : Dev} {l g : Nat} {x : Grid} {k : Kernel} {y : Grp} {q : BitVec 64}
    {v : List (BitVec 32)} {r : List (BitVec 64 × List (BitVec 32))} (hx : findGrid d l = some x)
    (hk : tget? d.opt.kernels x.kernel = some k) (hy : x.groups.find? (fun y => y.g == g) = some y)
    (hm : y.mma = (q, v) :: r) :
    mmaComplete l g d = setGrp (mmaFinal d k y (segInfo d x) q.toNat v) l { y with mma := r } := by
  simp only [mmaComplete, hx, hk, hy, hm]

/-! ### Responses of stacked memory -/

/-- The device once a response has left for its requester. -/
def Dev.responded (d : Dev) (rest : List MemResp) : Dev := { d with mem := { d.mem with resps := rest } }

section
variable {d : Dev} {l g m : Nat} {x : Grid} {y : Grp} {e : MemResp} {rest : List MemResp}
  (ht : takeAt d.mem.resps m = some (e, rest)) (hb : e.bad = false)
include ht hb

theorem memResponse_thread {lane r pos cnt idx : Nat} (hs : e.r.src = .thread l g lane r pos cnt idx)
    (hx : findGrid d l = some x) (hy : x.groups.find? (fun y => y.g == g) = some y) :
    memResponse m d =
      let z := putBytes y lane r pos (slice e.data (e.r.offs.headD 0) cnt)
      setGrp (d.responded rest) l { z with memWait := z.memWait - 1 } := by
  have hx' : findGrid (d.responded rest) l = some x := hx
  rw [Dev.responded] at *
  simp [memResponse, ht, hs, hx', hb, answered, hy]

theorem memResponse_store {idx : Nat} (hs : e.r.src = .store l g idx) (hx : findGrid d l = some x)
    (hy : x.groups.find? (fun y => y.g == g) = some y) :
    memResponse m d = setGrp (d.responded rest) l { y with memWait := y.memWait - 1 } := by
  have hx' : findGrid (d.responded rest) l = some x := hx
  rw [Dev.responded] at *
  simp [memResponse, ht, hs, hx', hb, answered, hy]

theorem memResponse_tile {t slot chunk op : Nat} (hs : e.r.src = .tile t slot chunk op) (ho : e.op ≠ 25) :
    memResponse m d = { d.responded rest with
      coll := { d.coll with spills := d.coll.spills.map (fun y => if y.id = op then { y with wait := y.wait - 1 } else y) } } := by
  simp [memResponse, ht, hs, hb, ho, Dev.responded]

end

theorem memResponse_scrub {d : Dev} {m : Nat} {e : MemResp} {rest : List MemResp}
    (ht : takeAt d.mem.resps m = some (e, rest)) (hs : e.r.src = .scrub) : memResponse m d = d.responded rest := by
  simp only [memResponse, ht, hs, Dev.responded]

/-- Settles O41: each memory row runs on the group that stands at it, and faults, or makes the accesses of its lanes; a
response that is sound reaches its requester. -/
theorem stitchMemory : Obligations.StitchMemory := by
  intro s l g x k y w hs
  refine ⟨fun h => ⟨fun h1 e => ?ldsFault, fun e h1 h2 => ?lds⟩, fun h => ⟨fun h1 => ?stsFault, fun h1 => ?sts⟩,
    fun h => ⟨fun h1 => ?ldgFault, fun h1 => ?ldg⟩, fun h => ⟨fun h1 => ?stgFault, fun h1 => ?stg⟩,
    fun h => ⟨fun h1 => ?atomFault, fun j z h1 h2 h3 => ?add, fun j z h1 h2 h3 => ?red⟩,
    fun h => ⟨fun e h1 => ?mmaNone, fun h1 => ?mma⟩, fun v q r hx hk hy hm => ?complete,
    fun m e rest ht hb => ⟨fun lane r pos cnt idx h1 hx hy => ?thread, fun idx h1 hx hy => ?store,
      fun t slot chunk op h1 ho => ?tile, fun h1 => ?scrub⟩, fun m hm => ?noResponse⟩
  case ldsFault => exact does_of_onInstr rfl hs h (lds_faults (d := s.dev.fresh) h1 e)
  case lds => exact does_of_onInstr rfl hs h (lds_checked (d := s.dev.fresh) h1 (check_none (h2.imp_right (.imp_right unmarked_fresh))))
  case stsFault => exact does_of_onInstr rfl hs h (sts_faults (d := s.dev.fresh) h1)
  case sts => exact does_of_onInstr rfl hs h (sts_stores (d := s.dev.fresh) h1)
  case ldgFault => exact does_of_onInstr rfl hs h (ldg_faults (d := s.dev.fresh) h1)
  case ldg => exact does_of_onInstr rfl hs h (ldg_loads (d := s.dev.fresh) h1)
  case stgFault => exact does_of_onInstr rfl hs h (stg_faults (d := s.dev.fresh) h1)
  case stg => exact does_of_onInstr rfl hs h (stg_stores (d := s.dev.fresh) h1)
  case atomFault => exact does_of_onInstr rfl hs h (atom_faults (d := s.dev.fresh) h1)
  case add => exact does_of_onInstr rfl hs h (atom_add (d := s.dev.fresh) h1 h2 h3)
  case red => exact does_of_onInstr rfl hs h (atom_red (d := s.dev.fresh) h1 h2 h3)
  case mmaNone => exact does_of_onInstr rfl hs h (if_pos h1)
  case mma =>
    intro v h2 h3
    exact ⟨does_of_onInstr rfl hs h (mma_queued (d := s.dev.fresh) h1 h2 (unmarked_fresh h3)),
      does_of_onInstr rfl hs h (mma_ue (d := s.dev.fresh) h1 h2 (unmarked_fresh h3))⟩
  case complete => exact does_of_act rfl hs (mmaComplete_oldest (d := s.dev.fresh) hx hk hy hm)
  case thread => exact does_of_act rfl hs (memResponse_thread (d := s.dev.fresh) ht hb h1 hx hy)
  case store => exact does_of_act rfl hs (memResponse_store (d := s.dev.fresh) ht hb h1 hx hy)
  case tile => exact does_of_act rfl hs (memResponse_tile (d := s.dev.fresh) ht hb h1 ho)
  case scrub => exact does_of_act rfl hs (memResponse_scrub (d := s.dev.fresh) ht h1)
  case noResponse =>
    refine does_of_act rfl hs ?_
    have hm' : takeAt s.dev.fresh.mem.resps m = none := hm
    simp only [memResponse, hm']

end Sys2Proof.Machine
end

section
/-! Stitch: an instruction leaves the lanes alone in which it does not act (spec/08 R231, R232). -/
namespace Sys2Proof.Machine

/-! ### A register of a lane -/

theorem rg_setRg (y : Grp) (j d v : Nat) {lane r : Nat} (hd : d < 64) (hr : r < 64) :
    rg (setRg y j d v) lane r = if lane = j ∧ r = d then v % 2 ^ 32 else rg y lane r := by
  have hk : j * 64 + d = lane * 64 + r ↔ lane = j ∧ r = d := by omega
  simp only [rg, setRg, tgetD_tput, hk]
  split <;> simp [w32]

theorem iD_lt (w : Nat) : iD w < 64 := bits_lt w 55 50

theorem rg_foldl_setRg (f : Nat → Nat) {d lane r : Nat} (hd : d < 64) (hr : r < 64) (ls : List Nat) (y : Grp) :
    rg (ls.foldl (fun z j => setRg z j d (f j)) y) lane r =
      if lane ∈ ls ∧ r = d then f lane % 2 ^ 32 else rg y lane r := by
  induction ls generalizing y with
  | nil => simp
  | cons j ls ih =>
    rw [List.foldl_cons, ih, rg_setRg _ _ _ _ hd hr]
    by_cases h : r = d <;> by_cases hl : lane ∈ ls <;> by_cases hj : lane = j <;> simp [h, hl, hj]

/-- Writing registers of lanes leaves the rest of the group alone. -/
theorem foldl_setRg_frame (f : Nat → Nat) (d : Nat) (ls : List Nat) (y : Grp) :
    ∃ t, ls.foldl (fun z j => setRg z j d (f j)) y = { y with regs := t } := by
  induction ls generalizing y with
  | nil => exact ⟨y.regs, rfl⟩
  | cons j ls ih => exact (ih (setRg y j d (f j))).imp fun _ h => h

/-- Leaving a path changes no register and no predicate. -/
theorem settle_keeps (n : Nat) (y : Grp) : (settle n y).regs = y.regs ∧ (settle n y).preds = y.preds := by
  induction n generalizing y with
  | zero => exact ⟨rfl, rfl⟩
  | succ n ih =>
    unfold settle
    split
    · exact ⟨rfl, rfl⟩
    · split
      · exact ih _
      · exact ⟨rfl, rfl⟩

/-! ### Lanes left alone -/

/-- The lanes of `out` keep their registers and predicates. -/
def LanesKept (out : Nat → Prop) (y z : Grp) : Prop :=
  z.g = y.g ∧ ∀ lane < 64, out lane → (∀ r < 64, rg z lane r = rg y lane r) ∧
    ∀ p < 8, tgetD z.preds (lane * 8 + p) false = tgetD y.preds (lane * 8 + p) false

section
variable {out : Nat → Prop} {y z u : Grp} {j : Nat}

theorem LanesKept.of_eq (hg : z.g = y.g) (hr : z.regs = y.regs) (hp : z.preds = y.preds) : LanesKept out y z :=
  ⟨hg, fun _ _ _ => ⟨fun _ _ => by rw [rg, rg, hr], fun _ _ => by rw [hp]⟩⟩

theorem LanesKept.refl (out : Nat → Prop) (y : Grp) : LanesKept out y y := .of_eq rfl rfl rfl

theorem LanesKept.trans (h1 : LanesKept out y z) (h2 : LanesKept out z u) : LanesKept out y u := by
  obtain ⟨g1, k1⟩ := h1
  obtain ⟨g2, k2⟩ := h2
  refine ⟨g2.trans g1, fun lane hl ho => ⟨fun r hr => ?_, fun p hp => ?_⟩⟩
  · exact ((k2 lane hl ho).1 r hr).trans ((k1 lane hl ho).1 r hr)
  · exact ((k2 lane hl ho).2 p hp).trans ((k1 lane hl ho).2 p hp)

/-- Steps in lanes outside `out` keep the lanes of `out`. -/
theorem lanesKept_foldl {f : Grp → Nat → Grp} {ls : List Nat} (hls : ∀ j ∈ ls, ¬out j)
    (hf : ∀ z j, ¬out j → LanesKept out z (f z j)) (y : Grp) : LanesKept out y (ls.foldl f y) := by
  induction ls generalizing y with
  | nil => exact .refl out y
  | cons j ls ih =>
    obtain ⟨hj, hls⟩ := List.forall_mem_cons.mp hls
    exact (hf y j hj).trans (ih hls _)

theorem lanesKept_setRg (hj : ¬out j) {d : Nat} (hd : d < 64) (y : Grp) (v : Nat) : LanesKept out y (setRg y j d v) := by
  refine ⟨rfl, fun lane _ ho => ⟨fun r hr => ?_, fun _ _ => rfl⟩⟩
  rw [rg_setRg _ _ _ _ hd hr, if_neg]
  rintro ⟨rfl, -⟩
  exact hj ho

theorem lanesKept_setRg2 (hj : ¬out j) {d : Nat} (hd : d < 63) (y : Grp) (v : Nat) : LanesKept out y (setRg2 y j d v) :=
  (lanesKept_setRg hj (by omega) y _).trans (lanesKept_setRg hj (by omega) _ _)

theorem lanesKept_setLoaded (hj : ¬out j) {w : Nat} (hw : szBytes w = 8 → iD w < 63) (y : Grp) (v fr : Nat) :
    LanesKept out y (setLoaded y w j v fr) := by
  unfold setLoaded
  dsimp only
  split
  next h => exact lanesKept_setRg2 hj (hw h) y v
  next => exact lanesKept_setRg hj (iD_lt w) y _

theorem lanesKept_preds {ls : List Nat} (hls : ∀ j ∈ ls, ¬out j) {q : Nat} (hq : q < 8) (f : Nat → Bool) (y : Grp) :
    LanesKept out y { y with preds := ls.foldl (fun t j => tput false t (j * 8 + q) (f j)) y.preds } := by
  refine ⟨rfl, fun lane _ ho => ⟨fun _ _ => rfl, fun p hp => ?_⟩⟩
  dsimp only
  generalize y.preds = t
  induction ls generalizing t with
  | nil => rfl
  | cons j ls ih =>
    obtain ⟨hj, hls⟩ := List.forall_mem_cons.mp hls
    rw [List.foldl_cons, ih hls, tgetD_tput, if_neg]
    intro h
    have : lane = j := by omega
    exact hj (this ▸ ho)

end

/-- The lanes in which an instruction does not act. -/
abbrev LaneOff (y : Grp) (w lane : Nat) : Prop := lane ∉ active y ∨ guardOf y w lane = false

theorem not_laneOff_of_mem {y : Grp} {w j : Nat} (h : j ∈ onLanes y w) : ¬LaneOff y w j := by
  obtain ⟨ha, hg⟩ := List.mem_filter.mp h
  rintro (h | h)
  · exact h ha
  · rw [hg] at h
    exact nomatch h

/-! ### Rows that go on to the next instruction -/

/-- The group goes on to the next instruction, the lanes of `out` as they were. -/
def GoesOn (out : Nat → Prop) (l : Nat) (y : Grp) (e : Dev) : Prop :=
  ∃ d z, e = goto d l z (y.pc + 1) ∧ LanesKept out y z

theorem goesOn {out : Nat → Prop} {l : Nat} {y z : Grp} (h : LanesKept out y z) (d : Dev) :
    GoesOn out l y (goto d l z (y.pc + 1)) := ⟨d, z, rfl, h⟩

section
variable {c : Instr} {s : State} {op l g : Nat} {x : Grid} {k : Kernel} {y : Grp} {w : Nat}

theorem goesOn_of_aluRow {v : Nat → Grid → Grp → Option SegInfo → Nat → Nat → Nat}
    (hc : exec c s = act (aluRow op l g v) s) (hs : Running s) (h : AtInstr s.dev op l g x k y w) :
    Gives c s (fun _ e => GoesOn (LaneOff y w) l y e) :=
  gives_of_onInstr hc hs h
    (goesOn (lanesKept_foldl (fun _ => not_laneOff_of_mem) (fun z _ hj => lanesKept_setRg hj (iD_lt w) z _) y) _)

theorem goesOn_of_cmpRow {f : Nat → Nat → Nat → Bool} (hc : exec c s = act (cmpRow op l g f) s) (hs : Running s)
    (h : AtInstr s.dev op l g x k y w) : Gives c s (fun _ e => GoesOn (LaneOff y w) l y e) := by
  refine gives_of_onInstr hc hs h (goesOn ?_ _)
  split
  · exact .refl _ y
  · exact lanesKept_preds (fun _ => not_laneOff_of_mem) (Nat.mod_lt _ (by decide)) _ y

theorem goesOn_iadd64 (hs : Running s) (h : AtInstr s.dev 0x1C l g x k y w) (hd : iD w < 63) :
    Gives (.iadd64 l g) s (fun _ e => GoesOn (LaneOff y w) l y e) :=
  gives_of_onInstr rfl hs h
    (goesOn (lanesKept_foldl (fun _ => not_laneOff_of_mem) (fun z _ hj => lanesKept_setRg2 hj hd z _) y) _)

theorem lanesKept_cvtCounted (out : Nat → Prop) (y : Grp) (w : Nat) (z : Grp) : LanesKept out z (cvtCounted y w z) := by
  unfold cvtCounted
  split
  · exact .of_eq rfl rfl rfl
  · exact .refl out z

theorem goesOn_cvt (hs : Running s) (h : AtInstr s.dev 0x26 l g x k y w) (hd : iTO w = 6 → iD w < 63) :
    Gives (.cvt l g) s (fun _ e => GoesOn (LaneOff y w) l y e) := by
  refine gives_of_onInstr rfl hs h ?_
  rw [cvt_eq]
  refine goesOn ((lanesKept_foldl (fun _ => not_laneOff_of_mem) (fun z j hj => ?_) y).trans
    (lanesKept_cvtCounted _ y w _)) _
  split
  next h6 => exact lanesKept_setRg2 hj (hd h6) z _
  next => exact lanesKept_setRg hj (iD_lt w) z _

theorem goesOn_sel (hs : Running s) (h : AtInstr s.dev 0x1B l g x k y w) :
    Gives (.sel l g) s (fun _ e => GoesOn (fun lane => lane ∉ active y) l y e) :=
  gives_of_onInstr rfl hs h
    (goesOn (lanesKept_foldl (fun _ hj h => h hj) (fun z _ hj => lanesKept_setRg hj (iD_lt w) z _) y) _)

theorem spadCheck_ok {d : Dev} {q : Nat} {e : Ecc} (he : e ≠ .ue) (h : Unmarked d 0x09 (q / 16) (coreNo q)) :
    (spadCheck d q e).1 = false := by
  simp only [spadCheck, takeMark_none h]
  cases e
  case ue => exact absurd rfl he
  all_goals rfl

theorem goesOn_lds {e : Ecc} (hs : Running s) (h : AtInstr s.dev 0x30 l g x k y w) (hd : szBytes w = 8 → iD w < 63)
    (hl : ∀ j ∈ onLanes y w, spadAt k y (segInfo s.dev x) false (ldsAddr y w j) (szBytes w) ≠ none)
    (hc : onLanes y w = [] ∨ (e ≠ .ue ∧ Unmarked s.dev 0x09 (y.core / 16) (coreNo y.core))) :
    Gives (.lds l g e) s (fun _ e => GoesOn (LaneOff y w) l y e) := by
  have hck : (if onLanes y w = [] then (false, s.dev.fresh) else spadCheck s.dev.fresh y.core e).1 = false := by
    rcases hc with hc | ⟨he, hm⟩
    · rw [if_pos hc]
    · split
      · rfl
      · exact spadCheck_ok he (unmarked_fresh hm)
  refine gives_of_onInstr rfl hs h ?_
  rw [lds_checked (d := s.dev.fresh) hl (Prod.ext hck rfl)]
  exact goesOn (lanesKept_foldl (fun _ => not_laneOff_of_mem) (fun z j hj => lanesKept_setLoaded hj hd z _ _) y) _

theorem goesOn_ldg (hs : Running s) (h : AtInstr s.dev 0x32 l g x k y w) (hd : szBytes w = 8 → iD w < 63)
    (hl : ∀ j ∈ onLanes y w, ldgAddr x (segInfo s.dev x) false y w j ≠ none) :
    Gives (.ldg l g) s (fun _ e => GoesOn (LaneOff y w) l y e) := by
  refine gives_of_onInstr rfl hs h ?_
  rw [ldg_loads (d := s.dev.fresh) hl]
  refine goesOn ?_ _
  exact (lanesKept_foldl (fun _ => not_laneOff_of_mem) (fun z j hj => lanesKept_setLoaded hj hd z _ _) y).trans
    (.of_eq rfl rfl rfl)

end

/-- Settles O36: every row writes its lanes one after another, and no write of a lane reaches another. -/
theorem laneWritesAreGuarded : Obligations.LaneWritesAreGuarded := by
  refine ⟨fun y w f lane r _ hr => ⟨rg_foldl_setRg f (iD_lt w) hr _ y, ?frame⟩, settle_keeps,
    fun s l g x k y w hs => ⟨?rows, fun h => goesOn_sel hs h, fun e h hd hl hc => goesOn_lds hs h hd hl hc,
      fun h hd hl => goesOn_ldg hs h hd hl⟩⟩
  case frame =>
    obtain ⟨t, ht⟩ := foldl_setRg_frame f (iD w) (onLanes y w) y
    rw [lanesSet, ht]
    exact ⟨rfl, rfl, rfl⟩
  case rows =>
    simp only [List.forall_mem_cons, List.not_mem_nil, false_implies, implies_true, and_true]
    refine ⟨fun h _ => ?sval, fun h _ => ?iadd, fun h _ => ?isub, fun h _ => ?imul, fun h _ => ?and, fun h _ => ?or,
      fun h _ => ?xor, fun h _ => ?shl, fun h _ => ?shr, fun h _ => ?sar, fun h _ => ?icmp, fun h _ => ?movi,
      fun h hd => ?iadd64, fun h _ => ?fadd, fun h _ => ?fmul, fun h _ => ?ffma, fun h _ => ?fmax, fun h _ => ?fmin,
      fun h _ => ?fcmp, fun h hd => ?cvt, fun h _ => ?rcp, fun h _ => ?rsqrt, fun h _ => ?sqrt, fun h _ => ?exp2,
      fun h _ => ?log2⟩
    case icmp => exact goesOn_of_cmpRow rfl hs h
    case fcmp => exact goesOn_of_cmpRow rfl hs h
    case iadd64 => exact goesOn_iadd64 hs h (hd (.inl trivial))
    case cvt => exact goesOn_cvt hs h fun h6 => hd (.inr ⟨trivial, h6⟩)
    all_goals exact goesOn_of_aluRow rfl hs h

end Sys2Proof.Machine
end

section
/-! Host commands: from a command that passes the general checks to its effect (spec/14 R352, R353, R357); then kernels and
launches (spec/08 R229, R230, R238). -/
namespace Sys2Proof.Machine

/-! ### From a host command to its effect -/

theorem unmarked_of_marks {d e : Dev} {id die unit : Nat} (h : Unmarked d id die unit) (he : e.rel.marks = d.rel.marks) :
    Unmarked e id die unit := by
  change (takeMark e id die unit).1 = none
  rw [takeMark_fst, he, ← takeMark_fst]
  exact h

theorem unmarked_takeCmd {d : Dev} {id die unit : Nat} (hm : Unmarked d id die unit) (h : CmdHdr) :
    Unmarked (takeCmd d.fresh h) id die unit := unmarked_of_marks hm rfl

section
variable {c : Instr} {s : State} {h : CmdHdr} {opc : Nat} {acc : Accept} {ps : List (Option Nat)} {f g : Dev → Reply → Dev}

/-- A command that passes the general checks does its function on the device that has taken it up. -/
theorem cmdDoes_of_runCmd (hc : exec c s = act (fun d => runCmd d h opc acc ps true f) s) (hs : Running s)
    (hp : Passes s.dev h opc acc ps)
    (hfg : f (takeCmd s.dev.fresh h) (replyOf s.dev.fresh h opc) = g (takeCmd s.dev.fresh h) (replyOf s.dev.fresh h opc)) :
    CmdDoes c h opc s g :=
  does_of_act hc hs ((runCmd_passes hp.fresh f).trans hfg)

/-- The device that has taken up a command, its check code finding what the row brings. -/
def Dev.cmdReading (d : Dev) (h : CmdHdr) : Dev :=
  { takeCmd d.fresh h with mem := { (takeCmd d.fresh h).mem with flaws := h.flaws } }

theorem cmdReads_of_runCmd
    (hc : exec c s = act (fun d => runCmd d h opc acc ps true (fun d rp => withFlaws h.flaws (fun d => f d rp) d)) s)
    (hs : Running s) (hp : Passes s.dev h opc acc ps)
    (hfg : f (s.dev.cmdReading h) (replyOf s.dev.fresh h opc) = g (s.dev.cmdReading h) (replyOf s.dev.fresh h opc)) :
    CmdReads c h opc s g :=
  cmdDoes_of_runCmd hc hs hp (congrArg (fun d : Dev => { d with mem := { d.mem with flaws := [] } }) hfg)

/-- A command with a parameter block, the block read and no injection meeting the read. -/
theorem cmdDoes_of_block {α : Type} {parse : List Byte → Option α} {b : List Byte} {v : α} {f : α → Dev → Reply → Dev}
    (hc : exec c s = act (fun d => runCmd d h opc acc ps true (withBlock parse (.ok b) f)) s) (hs : Running s)
    (hp : Passes s.dev h opc acc ps) (hm : Unmarked s.dev 0x20 0 0) (hb : parse b = some v)
    (hfg : f v (takeCmd s.dev.fresh h) (replyOf s.dev.fresh h opc) =
      g (takeCmd s.dev.fresh h) (replyOf s.dev.fresh h opc)) : CmdDoes c h opc s g := by
  refine cmdDoes_of_runCmd hc hs hp (Eq.trans ?_ hfg)
  rw [withBlock_ok (unmarked_takeCmd hm h), hb]

/-- A command whose parameter block is none. -/
theorem cmdDoes_of_badBlock {α : Type} {parse : List Byte → Option α} {b : List Byte} {f : α → Dev → Reply → Dev}
    (hc : exec c s = act (fun d => runCmd d h opc acc ps true (withBlock parse (.ok b) f)) s) (hs : Running s)
    (hp : Passes s.dev h opc acc ps) (hm : Unmarked s.dev 0x20 0 0) (hb : parse b = none) :
    CmdDoes c h opc s (fun d rp => refuseGen d rp 0x09) := by
  refine cmdDoes_of_runCmd hc hs hp ?_
  rw [withBlock_ok (unmarked_takeCmd hm h), hb]

end

/-! ### KERNEL_LOAD -/

theorem kernelLoad_busy {d : Dev} {k : Nat} (hb : kernelBusy d k = true) (regs spad slots len : Nat) (code : DmaRead)
    (rp : Reply) : kernelLoad k regs spad slots len code d rp = optReject d rp 0x3C [] :=
  if_pos hb

/-- What KERNEL_LOAD checks of its code and parameters (R229). -/
structure CodeFits (regs spad len : Nat) (b : List Byte) : Prop where
  whole : len % 8 = 0
  some : 1 ≤ len / 8
  most : len / 8 ≤ 8192
  regsLo : 8 ≤ regs
  regsHi : regs ≤ 64
  regsBy8 : regs % 8 = 0
  spadBy256 : spad % 256 = 0
  good : firstBad regs (len / 8) 0 (elemsOf 8 b (len / 8)) = none

theorem kernelLoad_fits {d : Dev} {k regs spad len : Nat} {b : List Byte} (hm : Unmarked d 0x20 0 0)
    (hb : kernelBusy d k = false) (hf : CodeFits regs spad len b) (slots : Nat) (rp : Reply) :
    kernelLoad k regs spad slots len (.ok b) d rp =
      let ws := elemsOf 8 b (len / 8)
      match optFit { d with opt := { d.opt with kernels := tdel d.opt.kernels k } } (alignUp (8 * (len / 8)) 256) with
      | none => optReject d rp 0x22 []
      | some a => complete (memPut { d with opt := { d.opt with
          kernels := tset d.opt.kernels k ⟨regs, spad, slots, ws.map (BitVec.ofNat 64), a⟩ } } a (bytesOf 8 ws)) rp 0 [] := by
  obtain ⟨h1, h2, h3, h4, h5, h6, h7, h8⟩ := hf
  have hok : ¬(len % 8 ≠ 0 ∨ len / 8 = 0 ∨ 8192 < len / 8 ∨ regs < 8 ∨ 64 < regs ∨ regs % 8 ≠ 0 ∨ spad % 256 ≠ 0) := by
    omega
  simp only [kernelLoad, hb, Bool.false_eq_true, if_false, dmaGet_ok hm, hok, h8] <;> rfl

/-! ### STITCH_LAUNCH and the end of a grid -/

theorem stitchLaunch_noKernel {d : Dev} {p : LaunchParams} (hk : tget? d.opt.kernels p.k.toNat = none) (rp : Reply) :
    stitchLaunch p d rp = complete (raise d (srcOpt (placeDie p.place.toNat) 0) 3) rp 0x3D [] := by
  simp only [stitchLaunch, hk]

theorem stitchLaunch_kernel {d : Dev} {p : LaunchParams} {k : Kernel} (hk : tget? d.opt.kernels p.k.toNat = some k)
    (h1 : 1 ≤ p.g.toNat) (h2 : p.g.toNat ≤ 2 ^ 26) (hb : usesBar k = false) (rp : Reply) :
    stitchLaunch p d rp =
      let die := placeDie p.place.toNat
      let cs := placed d p.place.toNat
      if cs = [] then complete (raise d (srcOpt die 0) 3) rp 0x09 []
      else if cs.any (fun q => residency d q k == 0) = true then complete (raise d (srcOpt die 0) 3) rp 0x3E []
      else
        let limit := if p.limitUs = 0 then natMax 1 (rdf d .optCtl [] 19 0) else p.limitUs.toNat
        cnt1 (launchGrid d p.k.toNat p.g.toNat cs p.srSeed p.wins limit (.host rp) die) (srcOpt die 0) 11 := by
  have h0 : p.g.toNat ≠ 0 := by omega
  simp only [stitchLaunch, hk, hb, h0, Nat.not_lt.mpr h2, false_or, Bool.false_eq_true, false_and, if_false]

/-- The device without a launch. -/
def Dev.launchGone (d : Dev) (l : Nat) : Dev :=
  { d with opt := { d.opt with launches := d.opt.launches.filter (fun y => y.id != l) } }

theorem stitchGridEnd_host {d : Dev} {l : Nat} {x : Grid} {rp : Reply} (hx : findGrid d l = some x) (hw : x.why = .host rp)
    (hd : gridGroups x ≤ x.done) (hq : allReqs d = []) (hr : allResps d = []) :
    stitchGridEnd l d = complete (d.launchGone l) rp 0 [] := by
  simp only [stitchGridEnd, hx, hq, hr, hw, List.any_nil, Bool.false_eq_true, or_self, or_false,
    if_neg (Nat.not_lt.mpr hd), Dev.launchGone]

theorem stitchGridEnd_runs {d : Dev} {l : Nat} {x : Grid} (hx : findGrid d l = some x) (hd : x.done < gridGroups x) :
    stitchGridEnd l d = d := by
  simp only [stitchGridEnd, hx, hd, true_or, if_true]

theorem stitchWatchdog_host {d : Dev} {l : Nat} {x : Grid} {rp : Reply} (hx : findGrid d l = some x)
    (hw : x.why = .host rp) :
    stitchWatchdog l d =
      complete (fillAll (raise (d.launchGone l) (srcOpt x.die 0) 2)) rp 3
        (packFields [(8, 4), (32, (x.groups.head?.map (·.g)).getD 0), (13, (x.groups.head?.map (·.pc)).getD 0)]) := by
  simp only [stitchWatchdog, hx, hw, stitchFault, Dev.launchGone]
  cases x.groups.head? <;> rfl

/-- Settles O37: KERNEL_LOAD and STITCH_LAUNCH make their checks in order; a launch ends once nothing of it is left. -/
theorem kernelsAndLaunches : Obligations.KernelsAndLaunches := by
  intro s h hs hm
  refine ⟨fun k regs spad slots len b hp => ⟨fun hb => ?busy, ?load⟩, fun b hp hb => ?badBlock,
    fun b p hp hb => ⟨fun hk => ?noKernel, fun k hk h1 h2 hu => ?launch⟩,
    fun l x rp hx hw => ⟨fun hd hq hr => ?gridEnd, fun hd => ?runs, ?watchdog⟩, fun l hx => ⟨?noGrid, ?noWatchdog⟩⟩
  case busy => exact cmdReads_of_runCmd rfl hs hp (kernelLoad_busy (d := s.dev.cmdReading h) hb ..)
  case load =>
    intro n ws hb h1 h2 h3 h4 h5 h6 h7 h8
    exact cmdReads_of_runCmd rfl hs hp
      (kernelLoad_fits (d := s.dev.cmdReading h) (unmarked_of_marks hm rfl) hb ⟨h1, h2, h3, h4, h5, h6, h7, h8⟩ ..)
  case badBlock => exact cmdDoes_of_badBlock rfl hs hp hm hb
  case noKernel => exact cmdDoes_of_block rfl hs hp hm hb (stitchLaunch_noKernel (d := takeCmd s.dev.fresh h) hk _)
  case launch => exact cmdDoes_of_block rfl hs hp hm hb (stitchLaunch_kernel (d := takeCmd s.dev.fresh h) hk h1 h2 hu _)
  case gridEnd => exact does_of_act rfl hs (stitchGridEnd_host (d := s.dev.fresh) hx hw hd hq hr)
  case runs => exact does_of_act rfl hs (stitchGridEnd_runs (d := s.dev.fresh) hx hd)
  case watchdog => exact does_of_act rfl hs (stitchWatchdog_host (d := s.dev.fresh) hx hw)
  case noGrid =>
    have hx' : findGrid s.dev.fresh l = none := hx
    exact does_of_act rfl hs (by simp only [stitchGridEnd, hx'])
  case noWatchdog =>
    have hx' : findGrid s.dev.fresh l = none := hx
    exact does_of_act rfl hs (by simp only [stitchWatchdog, hx'])

end Sys2Proof.Machine
end

section
/-! Stacked memory: what the check code finds in sound sectors, and what each request does at its stack (spec/09 R244 to
R257). -/
namespace Sys2Proof.Machine

/-! ### Sound sectors -/

theorem sectors_start (k : Nat) : sectors (64 * k) 1 = [k] := by
  have h1 : 64 * k / 64 = k := by omega
  simp [sectors, h1]

theorem poisoned_start (d : Dev) (k : Nat) : poisoned d (64 * k) 1 = d.mem.poison.contains k := by
  simp [poisoned, sectors_start]

/-- A sector without poison at a stack where no injection waits. -/
abbrev Sound (d : Dev) (k : Nat) : Prop :=
  poisoned d (64 * k) 1 = false ∧ Unmarked d 0x0C (memStack d (64 * k) / 3) (memStack d (64 * k))

theorem sectorCheck_sound {d : Dev} {k : Nat} (hf : d.mem.flaws = []) (h : Sound d k) :
    sectorCheck d (64 * k) .clean = (false, d) := by
  obtain ⟨hp, hm⟩ := h
  have hm' := takeMark_none hm
  unfold memStack at hm'
  simp [sectorCheck, hf, hm', hp, eccLanes]

theorem sectorsCheck_sound {d : Dev} (hf : d.mem.flaws = []) {ks : List Nat} (hk : ∀ k ∈ ks, Sound d k) {es : List Ecc}
    (he : ∀ e ∈ es, e = .clean) : sectorsCheck d ks es = (false, d) := by
  induction ks generalizing es with
  | nil => rfl
  | cons k ks ih =>
    obtain ⟨h1, h2⟩ := List.forall_mem_cons.mp hk
    have hc : es.headD .clean = .clean := by
      cases es with
      | nil => rfl
      | cons e es => exact he e (List.mem_cons_self ..)
    simp only [sectorsCheck, hc, sectorCheck_sound hf h1, ih h2 fun e h => he e (List.mem_of_mem_tail h), Bool.or_self]

theorem MemClean.sound {d : Dev} {a n : Nat} (h : MemClean d a n) : ∀ k ∈ sectors a n, Sound d k := by
  obtain ⟨hp, -, hm⟩ := h
  intro k hk
  have := List.any_eq_false.mp hp k hk
  exact ⟨by rw [poisoned_start]; simpa using this, hm k hk⟩

/-- A range that is sound passes its check, and the check changes nothing (R257). -/
theorem memCheck_clean {d : Dev} {a n : Nat} (h : MemClean d a n) {es : List Ecc} (he : ∀ e ∈ es, e = .clean) :
    memCheck d a n es = (false, d) := by
  obtain ⟨hp, hf, hm⟩ := h
  exact sectorsCheck_sound hf (MemClean.sound ⟨hp, hf, hm⟩) he

/-! ### From a request to its effect -/

/-- The device whose request leaves its queue. -/
def Dev.taken (d : Dev) (op : Nat) (r : MemReq) : Dev := memTake d.fresh op r

theorem memClean_taken {d : Dev} {a n : Nat} (h : MemClean d a n) (op : Nat) (r : MemReq) : MemClean (d.taken op r) a n := by
  obtain ⟨hp, hf, hm⟩ := h
  exact ⟨hp, hf, fun k hk => unmarked_of_marks (hm k hk) rfl⟩

theorem memClean_cnt1 {d : Dev} {a n : Nat} (h : MemClean d a n) (x : Src) (k : Nat) : MemClean (cnt1 d x k) a n := by
  obtain ⟨hp, hf, hm⟩ := h
  exact ⟨hp, hf, fun k hk => unmarked_of_marks (hm k hk) rfl⟩

section
variable {c : Instr} {s : State} {op : Nat} {r : MemReq} {f : Dev → Dev}

theorem memApply_eq_act (hr : r.addr + r.len ≤ memEnd) (f : Dev → Dev) (s : State) :
    memApply op r f s = act (fun d => if reqWaits d op r then d else f (memTake d op r)) s :=
  if_neg (Nat.not_lt.mpr hr)

theorem does_of_memApply {g : Dev → Dev} (hc : exec c s = memApply op r f s) (hs : Running s) (hr : MemFree s.dev op r)
    (hfg : f (s.dev.taken op r) = g s.dev.fresh) : Does c s g := by
  obtain ⟨hb, hw⟩ := hr
  have hw' : ¬reqWaits s.dev.fresh op r = true := Bool.eq_false_iff.mp hw
  exact does_of_act (hc.trans (memApply_eq_act hb f s)) hs ((if_neg hw').trans hfg)

theorem gives_of_memApply {P : Dev → Dev → Prop} (hc : exec c s = memApply op r f s) (hs : Running s)
    (hr : MemFree s.dev op r) (hP : P s.dev.fresh (f (s.dev.taken op r))) : Gives c s P := by
  obtain ⟨hb, hw⟩ := hr
  have hw' : ¬reqWaits s.dev.fresh op r = true := Bool.eq_false_iff.mp hw
  exact gives_of_act (hc.trans (memApply_eq_act hb f s)) hs ((if_neg hw').symm ▸ hP)

/-- A request that still has to wait does nothing (R248). -/
theorem idles_of_memApply (hc : exec c s = memApply op r f s) (hs : Running s) (hr : r.addr + r.len ≤ memEnd)
    (hw : reqWaits s.dev op r = true) : Idles c s :=
  does_of_act (hc.trans (memApply_eq_act hr f s)) hs (if_pos hw)

end

/-- Every stacked-memory command applies its request, and faults beyond the addresses that exist (R244). -/
theorem exec_beyond {c : Instr} {q : MemReq} (hq : memReqOf c = some q) (hb : memEnd < q.addr + q.len) (s : State) :
    exec c s = .fault .noSuchAddress := by
  cases c
  case memRead | memWrite | redF32 | redBf16 | redBf16w | redI32 | redI64 | addF32 | addBf16 | addI32 | addI64 | cnt |
      rdclr =>
    cases hq
    exact memApply_beyond _ _ _ s hb
  all_goals exact nomatch hq

/-! ### Answers -/

/-- An answer is a flight on channel P. -/
theorem answer_frame (d : Dev) (m : MemResp) : ∃ sw draw, answer d m = { d with sw := sw, draw := draw } := by
  unfold answer
  split
  · exact ⟨_, _, rfl⟩
  · unfold freePlane
    dsimp only
    split <;> exact ⟨_, _, rfl⟩

@[simp] theorem respond_mem (d : Dev) (op : Nat) (r : MemReq) (b : List Byte) (bad : Bool) :
    (respond d op r b bad).mem = d.mem := by
  obtain ⟨_, _, h⟩ := answer_frame d ⟨op, r, b, bad, 0, if bad then poisonIn d r.addr r.len else none⟩
  rw [respond, h]

/-! ### Bytes stored and zeroed -/

theorem slice_self (b : List Byte) : slice b 0 b.length = b := by
  simp [slice]

/-- A write stores its data, all of it. -/
theorem storedOf_eq {r : MemReq} (hl : r.data.length ≤ r.len - r.offs.headD 0) (ho : r.offs = [] → r.data.length = r.len) :
    storedOf r = r.data := by
  have hn : natMin (r.len - r.offs.headD 0) (if r.offs = [] then r.len else r.data.length) = r.data.length := by
    unfold natMin
    by_cases h : r.offs = []
    · simp [h, ho h]
    · rw [if_neg h]
      split
      · omega
      · rfl
  rw [storedOf, hn, slice_self]

theorem tget?_filter_key {α : Type} (p : Nat → Bool) (t : Tab α) (k : Nat) :
    tget? (t.filter fun e => p e.1) k = if p k then tget? t k else none := by
  induction t with
  | nil => simp
  | cons e t ih =>
    obtain ⟨j, v⟩ := e
    by_cases hp : p j = true
    · rw [List.filter_cons_of_pos (by simpa using hp), tget?, tget?, ih]
      by_cases hj : j = k
      · subst hj
        simp [hp]
      · simp [hj]
    · rw [List.filter_cons_of_neg (by simpa using hp), ih, tget?]
      by_cases hj : j = k
      · subst hj
        simp [hp]
      · simp [hj]

theorem byte_memZero (d : Dev) (a n k : Nat) :
    tgetD (memZero d a n).mem.bytes k 0 = if a ≤ k ∧ k < a + n then 0 else tgetD d.mem.bytes k 0 := by
  have h := tget?_filter_key (fun j => decide (j < a) || decide (a + n ≤ j)) d.mem.bytes k
  rw [tgetD, memZero, h]
  by_cases hk : a ≤ k ∧ k < a + n
  · rw [if_pos hk, if_neg]
    · rfl
    · simp
      omega
  · rw [if_neg hk, if_pos]
    · rfl
    · simp
      omega

/-- A store of a requester with no held writes, and what other bytes read. -/
theorem byte_memStore {d : Dev} {q : Requester} (h : overOf d q = none) (a : Nat) (b : List Byte) (k : Nat) :
    tgetD (memStore d q a b).mem.bytes k 0 =
      if a ≤ k ∧ k < a + b.length then b.getD (k - a) 0 else tgetD d.mem.bytes k 0 := by
  simp only [memStore, h, memWr, tgetD_twrite]

/-- A store behind held writes leaves memory as it is (spec/06 R169). -/
theorem bytes_memStore_held {d : Dev} {q : Requester} (h : (overOf d q).isSome = true) (a : Nat) (b : List Byte) :
    (memStore d q a b).mem.bytes = d.mem.bytes := by
  obtain ⟨x, hx⟩ := Option.isSome_iff_exists.mp h
  simp only [memStore, hx]

/-! ### What each access does -/

section
variable {d : Dev} {r : MemReq} {es : List Ecc}

theorem memReadAct_clean (hc : MemClean d r.addr r.len) (he : ∀ e ∈ es, e = .clean) (hs : r.src ≠ .scrub) :
    memReadAct r es d = respond (cnt1 d (srcMem 0) 7) 0 r (memSee d r.src r.addr r.len) false := by
  rw [memReadAct, if_neg hs, memCheck_clean (memClean_cnt1 hc ..) he]
  rfl

theorem memWriteAct_clean (hl : r.data.length ≤ r.len - r.offs.headD 0) (ho : r.offs = [] → r.data.length = r.len)
    (he : ∀ e ∈ es, e = .clean) (hf : d.mem.flaws = [])
    (hk : ∀ k ∈ partSectors (r.addr + r.offs.headD 0) r.data.length, Sound d k) :
    memWriteAct r es d =
      respond (memStore (cnt1 d (srcMem 0) 8) r.src (r.addr + r.offs.headD 0) r.data) 1 r [] false := by
  have hk' : ∀ k ∈ partSectors (r.addr + r.offs.headD 0) r.data.length, Sound (cnt1 d (srcMem 0) 8) k := fun k h =>
    ⟨(hk k h).1, unmarked_of_marks (hk k h).2 rfl⟩
  rw [memWriteAct, storedOf_eq hl ho]
  simp only [dataAt, sectorsCheck_sound (d := cnt1 d (srcMem 0) 8) hf hk' he]

theorem rdclrAct_clean (hc : MemClean d r.addr r.len) (he : ∀ e ∈ es, e = .clean) :
    rdclrAct r es d =
      memZero (respond (cnt1 d (srcMem 0) 7) 26 r (memRd d r.addr r.len) false) r.addr r.len := by
  rw [rdclrAct, memCheck_clean (memClean_cnt1 hc ..) he]
  rfl

theorem cntApply_clean (hc : MemClean d r.addr r.len) (he : ∀ e ∈ es, e = .clean) {t slot chunk op : Nat}
    (hs : r.src = .tile t slot chunk op) :
    cntApply r es d =
      let n := leAt r.data 0 4
      answer (respond (memWr d r.addr (leBytes 4 (mem32 d r.addr + n))) 25 r [] false)
        ⟨25, { r with src := .core (leAt r.data 4 1) slot chunk }, [], false, n, none⟩ := by
  rw [cntApply, memCheck_clean hc he]
  simp only [Bool.false_eq_true, if_false, hs]

end

/-- Settles O42: a request at the front of its queue does its access, one that waits nothing, and one beyond the addresses
faults. -/
theorem memoryAccesses : Obligations.MemoryAccesses := by
  intro s r es hs
  refine ⟨fun c q hq hb => exec_beyond hq hb s, fun hr hc he hn => ?read,
    fun hr => ⟨fun h => ?readWaits, fun h => ?writeWaits, fun h => ?cntWaits, fun h => ?rdclrWaits⟩, ?write,
    fun hr hc he => ?rdclr, fun hr hc he t slot chunk op hn => ?cnt⟩
  case read => exact does_of_memApply rfl hs hr (memReadAct_clean (memClean_taken hc ..) he hn)
  case readWaits => exact idles_of_memApply rfl hs hr h
  case writeWaits => exact idles_of_memApply (r := r) rfl hs hr h
  case cntWaits => exact idles_of_memApply rfl hs hr h
  case rdclrWaits => exact idles_of_memApply rfl hs hr h
  case write =>
    intro at_ hr hl ho he hk hf
    have hk' : ∀ k ∈ partSectors at_ r.data.length, Sound (s.dev.taken 1 r) k := fun k h =>
      ⟨(hk k h).1, unmarked_of_marks (hk k h).2 rfl⟩
    refine gives_of_memApply (r := r) rfl hs hr ?_
    rw [memWriteAct_clean (d := s.dev.taken 1 r) hl ho he hf hk']
    refine ⟨fun hn a => ?_, fun hh => ?_, rfl⟩
    · rw [respond_mem]
      exact byte_memStore (d := cnt1 (s.dev.taken 1 r) (srcMem 0) 8) hn _ _ a
    · rw [respond_mem]
      exact bytes_memStore_held (d := cnt1 (s.dev.taken 1 r) (srcMem 0) 8) hh _ _
  case rdclr =>
    refine gives_of_memApply rfl hs hr ?_
    rw [rdclrAct_clean (memClean_taken hc 26 r) he]
    refine ⟨fun a => ?_, rfl⟩
    rw [byte_memZero, respond_mem]
    rfl
  case cnt => exact does_of_memApply rfl hs hr (cntApply_clean (memClean_taken hc ..) he hn)

end Sys2Proof.Machine
end

section
/-! Stacked memory: what a report leaves of counters and marks, what the check of a sector that holds an error does, and the
reductions (spec/09 R251 to R257). -/
namespace Sys2Proof.Machine

/-! ### Reports leave marks alone, and other counters -/

/-- The counters that a report itself may add to: lost records, and drops of the management port and of the error log. -/
def reportCnts : List Nat := [(srcHif 0).cnt + 8 * 4, (srcHif 0).cnt + 8 * 7, (srcRel 255 0).cnt + 8 * 7]

/-- The marks of injections and every counter outside `reportCnts` are as before. -/
structure Quiet (d e : Dev) : Prop where
  cnt : ∀ a, a ∉ reportCnts → cntAt e a = cntAt d a
  marks : e.rel.marks = d.rel.marks

theorem Quiet.of_eq {d e : Dev} (hc : e.cnt = d.cnt) (hm : e.rel.marks = d.rel.marks) : Quiet d e :=
  ⟨fun a _ => by rw [cntAt, cntAt, hc], hm⟩

theorem Quiet.refl (d : Dev) : Quiet d d := .of_eq rfl rfl

theorem Quiet.trans {d e f : Dev} (h : Quiet d e) (k : Quiet e f) : Quiet d f :=
  ⟨fun a ha => (k.cnt a ha).trans (h.cnt a ha), k.marks.trans h.marks⟩

/-- A count in `reportCnts` and a status bit. -/
theorem quiet_count {d : Dev} {x : Src} {n b : Nat} (h : x.cnt + 8 * n ∈ reportCnts) : Quiet d (stSet (cnt1 d x n) x b) := by
  refine ⟨fun a ha => ?_, rfl⟩
  rw [cntAt_stSet, cntAt_cnt1_other]
  rintro rfl
  exact ha h

theorem quiet_storePush (d : Dev) (e : Event) : Quiet d (storePush d e) := by
  unfold storePush
  split
  · exact .of_eq rfl rfl
  · exact (quiet_count (d := d) (x := srcHif 0) (n := 4) (b := 4) (by decide)).trans (.of_eq rfl rfl)

theorem quiet_mgmtPush (d : Dev) (t : Nat) (b : List Byte) : Quiet d (mgmtPush d t b).2 := by
  unfold mgmtPush
  dsimp only
  split <;> exact .of_eq rfl rfl

theorem quiet_coalesce (d : Dev) (e : Event) : Quiet d (coalesce d e).2 := by
  unfold coalesce
  dsimp only
  repeat' split
  all_goals exact .of_eq rfl rfl

theorem quiet_record0 (d : Dev) (e : Event) : Quiet d (record0 d e) := by
  unfold record0
  dsimp only
  refine (quiet_storePush d e).trans ?_
  split
  · split
    · exact quiet_mgmtPush ..
    · exact (quiet_mgmtPush ..).trans (quiet_count (by decide))
  · exact .refl _

theorem quiet_emit0 (d : Dev) (code die unit : Nat) (args : List (Nat × Nat)) : Quiet d (emit0 d code die unit args) := by
  have hd : Quiet d { d with draw := d.draw + 1 } := .of_eq rfl rfl
  unfold emit0
  refine (hd.trans (quiet_coalesce _ (mkEvent d code die unit args []))).trans ?_
  dsimp only
  split
  · exact quiet_record0 ..
  · exact .refl _

/-- What the management port makes of a record. -/
theorem quiet_mgmtOut (d : Dev) (e : Event) :
    Quiet d (if rdb d .mgmtCtl [] 31 then
      let (ok, d) := mgmtPush d 2 (eventBytes e)
      if ok then d else emit0 (stSet (cnt1 d (srcHif 0) 7) (srcHif 0) 7) 0x1307 0 0 []
    else d) := by
  split
  · dsimp only
    split
    · exact quiet_mgmtPush ..
    · exact ((quiet_mgmtPush ..).trans (quiet_count (by decide))).trans (quiet_emit0 ..)
  · exact .refl d

theorem quiet_log (d : Dev) (l : List Event) : Quiet d { d with rel := { d.rel with log := l } } := .of_eq rfl rfl

theorem quiet_recordOut (d : Dev) (e : Event) : Quiet d (recordOut d e) := by
  refine (quiet_mgmtOut d e).trans ?_
  unfold recordOut
  generalize (if rdb d .mgmtCtl [] 31 then _ else d : Dev) = x
  dsimp only
  split
  · split
    · exact .of_eq rfl rfl
    · exact ((quiet_log x _).trans (quiet_count (x := srcRel 255 0) (n := 7) (by decide))).trans (quiet_emit0 ..)
  · exact .refl x

theorem quiet_event (d : Dev) (code die unit : Nat) (args : List (Nat × Nat)) (lanes : List Nat) :
    Quiet d (event d code die unit args lanes) := by
  have hd : Quiet d { d with draw := d.draw + 1 } := .of_eq rfl rfl
  unfold event
  refine (hd.trans (quiet_coalesce _ (mkEvent d code die unit args lanes))).trans ?_
  dsimp only
  split
  · exact (quiet_storePush ..).trans (quiet_recordOut ..)
  · exact .refl _

theorem marks_raise (d : Dev) (x : Src) (n : Nat) (args : List (Nat × Nat)) (lanes : List Nat) :
    (raise d x n args lanes).rel.marks = d.rel.marks := (quiet_event ..).marks

/-- A report adds 1 to its own counter. -/
theorem cntAt_raise (d : Dev) (x : Src) (n : Nat) (args : List (Nat × Nat)) (lanes : List Nat) {a : Nat}
    (ha : a ∉ reportCnts) :
    cntAt (raise d x n args lanes) a = cntAt d a + if x.cnt + 8 * n = a then 1 else 0 := by
  refine ((quiet_event ..).cnt a ha).trans ?_
  rw [cntAt_stSet, cnt1, cntN, cntAt_cntAdd]
  split
  next h => subst h; rfl
  next => simp

/-! ### The check of a sector -/

/-- What a check of sectors leaves as it was. -/
structure SectorKept (d e : Dev) : Prop where
  bytes : e.mem.bytes = d.mem.bytes
  flaws : e.mem.flaws = d.mem.flaws
  hash : rd e .memHashSeed = rd d .memHashSeed
  marks : e.rel.marks = d.rel.marks
  opt : e.opt = d.opt
  ue : rdb d .memStatus [] 1 = true → rdb e .memStatus [] 1 = true

theorem SectorKept.refl (d : Dev) : SectorKept d d := ⟨rfl, rfl, rfl, rfl, rfl, id⟩

theorem SectorKept.trans {d e f : Dev} (h : SectorKept d e) (k : SectorKept e f) : SectorKept d f :=
  ⟨k.bytes.trans h.bytes, k.flaws.trans h.flaws, k.hash.trans h.hash, k.marks.trans h.marks, k.opt.trans h.opt,
    k.ue ∘ h.ue⟩

theorem rdb_memStatus_raise (d : Dev) (st n : Nat) (args : List (Nat × Nat)) (k : Nat) (hn : n < 32) :
    rdb (raise d (srcMem st) n args) .memStatus [] k = if k = n then true else rdb d .memStatus [] k := by
  have h : rdb (raise d (srcMem st) n args) .memStatus [] k =
      rdb (stSet (cnt1 d (srcMem st) n) (srcMem st) n) .memStatus [] k := by
    rw [rdb, rdb]
    exact congrArg (bit · k) ((reports_event ..).rd (by decide))
  rw [h]
  split
  next hk =>
    subst hk
    exact rdb_stSet_same _ (srcMem st) hn
  next hk => exact rdb_stSet_other (cnt1 d (srcMem st) n) (srcMem st) hk

theorem sectorKept_raise (d : Dev) (st n : Nat) (hn : n < 32) (args : List (Nat × Nat)) :
    SectorKept d (raise d (srcMem st) n args) := by
  have h := reports_raise d (srcMem st) n args []
  refine ⟨by rw [h.mem], by rw [h.mem], h.rd (by simp [srcMem, regAddr, regRow, dimOff, reportRegs]), marks_raise .., ?_,
    fun hu => ?_⟩
  · obtain ⟨_, _, _, _, _, _, he, _⟩ := h
    rw [he]
  · rw [rdb_memStatus_raise _ _ _ _ _ hn, hu, ite_self]

/-- Address of the counter of uncorrectable errors. -/
def ueCnt : Nat := (srcMem 0).cnt + 8

theorem sectorKept_binError (d : Dev) (cls die : Nat) : SectorKept d (binError d cls die) := ⟨rfl, rfl, rfl, rfl, rfl, id⟩

theorem mem_binError (d : Dev) (cls die : Nat) : (binError d cls die).mem = d.mem := rfl

theorem ueCnt_binError (d : Dev) (die : Nat) : cntAt (binError d 2 die) ueCnt = cntAt d ueCnt := by
  have h : cntAt (binError d 2 die) ueCnt = cntAt (cntAdd d _ 1) ueCnt := rfl
  rw [h, cntAt_cntAdd, if_neg]
  simp only [ueCnt, srcMem]
  split_ifs <;> decide

theorem ueCnt_raise (d : Dev) (st n : Nat) (args : List (Nat × Nat)) :
    cntAt (raise d (srcMem st) n args) ueCnt = cntAt d ueCnt + if n = 1 then 1 else 0 := by
  have hk : (srcMem st).cnt + 8 * n = ueCnt ↔ n = 1 := by
    simp only [ueCnt, srcMem]
    omega
  rw [cntAt_raise _ _ _ _ _ (by decide)]
  simp only [hk]

/-- A change of the traces of injections alone. -/
theorem trace_frame (d : Dev) (id a b : Nat) : ∃ t, trace d id a b = { d with rel := { d.rel with traces := t } } := by
  unfold trace
  split <;> exact ⟨_, rfl⟩

theorem retrace_frame (d : Dev) (id a b : Nat) :
    ∃ i, retrace d id a b = { d with rel := { d.rel with injected := i } } := by
  unfold retrace
  split <;> exact ⟨_, rfl⟩

/-- A sector after a check that found it bad, before the report: poisoned, if it was not. -/
def sectorHit (d : Dev) (k : Nat) (e : Ecc) : Dev :=
  if 2 ≤ eccLanes e none then
    trace (poisonAt (if poisoned d (64 * k) 1 then d else untrace d 0x0C (64 * k / 64) 0) (64 * k) 1) 0x0C (64 * k / 64) 0
  else retrace d 0x0C (64 * k / 64) 0

theorem sectorHit_frame (d : Dev) (k : Nat) (e : Ecc) :
    ∃ p r, sectorHit d k e = { d with mem := { d.mem with poison := p }, rel := r } ∧ r.marks = d.rel.marks ∧
      ∀ j, p.contains j = (d.mem.poison.contains j || (e == .ue && j == k)) := by
  cases e
  case ue =>
    have hu : sectorHit d k .ue =
        trace (poisonAt (if poisoned d (64 * k) 1 then d else untrace d 0x0C (64 * k / 64) 0) (64 * k) 1) 0x0C
          (64 * k / 64) 0 := if_pos (by decide)
    rw [hu]
    generalize hx : (if poisoned d (64 * k) 1 then d else untrace d 0x0C (64 * k / 64) 0 : Dev) = x
    obtain ⟨r, rfl, hr⟩ : ∃ r, x = { d with rel := r } ∧ r.marks = d.rel.marks := by
      rw [← hx]
      split
      · exact ⟨_, rfl, rfl⟩
      · exact ⟨_, rfl, rfl⟩
    obtain ⟨t, ht⟩ := trace_frame (poisonAt { d with rel := r } (64 * k) 1) 0x0C (64 * k / 64) 0
    rw [ht]
    refine ⟨_, _, rfl, hr, fun j => ?_⟩
    by_cases hk : d.mem.poison.contains k = true <;> by_cases hj : j = k <;>
      simp_all [poisonAt, sectors_start]
  all_goals
    obtain ⟨i, hi⟩ := retrace_frame d 0x0C (64 * k / 64) 0
    refine ⟨_, _, hi, rfl, fun j => ?_⟩
    simp

/-- What a check of one sector leaves behind. -/
structure SectorFound (d : Dev) (k : Nat) (bad : Bool) (e : Dev) : Prop where
  kept : SectorKept d e
  poison : ∀ j, e.mem.poison.contains j = (d.mem.poison.contains j || (bad && j == k))
  count : cntAt e ueCnt = cntAt d ueCnt + if bad then 1 else 0
  status : bad = true → rdb e .memStatus [] 1 = true

theorem sectorKept_sectorHit (d : Dev) (k : Nat) (e : Ecc) : SectorKept d (sectorHit d k e) := by
  obtain ⟨p, r, hx, hr, -⟩ := sectorHit_frame d k e
  rw [hx]
  exact ⟨rfl, rfl, rfl, hr, rfl, id⟩

theorem ueCnt_sectorHit (d : Dev) (k : Nat) (e : Ecc) : cntAt (sectorHit d k e) ueCnt = cntAt d ueCnt := by
  obtain ⟨p, r, hx, -, -⟩ := sectorHit_frame d k e
  rw [hx]
  rfl

/-- A sector that a check finds bad is poisoned from then on. -/
theorem poison_sectorHit (d : Dev) {k : Nat} {e : Ecc} (hb : (poisoned d (64 * k) 1 || e == .ue) = true) (j : Nat) :
    (sectorHit d k e).mem.poison.contains j = (d.mem.poison.contains j || j == k) := by
  obtain ⟨p, r, hx, -, hp⟩ := sectorHit_frame d k e
  rw [hx]
  refine (hp j).trans ?_
  rw [poisoned_start] at hb
  by_cases hj : j = k
  · subst hj
    simpa using hb
  · simp [beq_false_of_ne hj]

/-- A sector with an uncorrectable error, new or old, is poisoned, counted and reported (R257). -/
theorem sectorFound_bad (d : Dev) {k : Nat} {e : Ecc} (hb : (poisoned d (64 * k) 1 || e == .ue) = true) (st : Nat) :
    SectorFound d k true (raise (sectorHit d k e) (srcMem st) 1) where
  kept := (sectorKept_sectorHit d k e).trans (sectorKept_raise _ st 1 (by decide) [])
  poison j := by rw [(reports_raise ..).mem, poison_sectorHit d hb, Bool.true_and]
  count := by rw [ueCnt_raise, ueCnt_sectorHit, if_pos rfl, if_pos rfl]
  status _ := by rw [rdb_memStatus_raise _ _ _ _ _ (by decide), if_pos rfl]

theorem sectorFound_none (d : Dev) (k : Nat) : SectorFound d k false d where
  kept := .refl d
  poison j := by simp
  count := by simp
  status h := nomatch h

/-- A corrected error before it is noted against its lane. -/
def sectorMended (d : Dev) (a : Nat) (e : Ecc) : Dev :=
  let pc := memPc d a
  binError (raise { d with draw := d.draw + 1 } (srcMem (pc / 64)) 0
    [(1, pc / 64), (1, pc % 64), (1, eccLane d e), (5, a)]) 2 (pc / 64 / 3)

/-- A corrected error is counted, and nothing of it is uncorrectable (R261). -/
theorem sectorFound_mended (d : Dev) (k : Nat) (e : Ecc) : SectorFound d k false (sectorMended d (64 * k) e) where
  kept := by
    have hd : SectorKept d { d with draw := d.draw + 1 } := ⟨rfl, rfl, rfl, rfl, rfl, id⟩
    exact (hd.trans (sectorKept_raise _ _ 0 (by decide) _)).trans (sectorKept_binError ..)
  poison j := by
    rw [sectorMended, mem_binError, (reports_raise ..).mem, Bool.false_and, Bool.or_false]
  count := by
    rw [sectorMended, ueCnt_binError, ueCnt_raise]
    rfl
  status h := nomatch h

theorem SectorFound.laneErr {d e : Dev} {k : Nat} {bad : Bool} (h : SectorFound d k bad e) (t : Tab (List Nat)) :
    SectorFound d k bad { e with mem := { e.mem with laneErr := t } } where
  kept := h.kept.trans ⟨rfl, rfl, rfl, rfl, rfl, id⟩
  poison := h.poison
  count := h.count
  status := h.status

/-- The check of a sector at a stack where no injection waits finds it bad where it is poisoned or the check code says
so. -/
theorem sectorCheck_found {d : Dev} {k : Nat} (hf : d.mem.flaws = [])
    (hm : Unmarked d 0x0C (memStack d (64 * k) / 3) (memStack d (64 * k))) (e : Ecc) :
    ∃ f, sectorCheck d (64 * k) e = (poisoned d (64 * k) 1 || e == .ue, f) ∧
      SectorFound d k (poisoned d (64 * k) 1 || e == .ue) f := by
  have hm' := takeMark_none hm
  unfold memStack at hm'
  have he : (if e = .clean then ((d.mem.flaws.find? (fun x => x.1 == 64 * k / 64)).map (·.2)).getD .clean else e) = e := by
    rw [hf]
    split
    next h => exact h.symm
    next => rfl
  have hue : 2 ≤ eccLanes e none ↔ e = .ue := by cases e <;> simp [eccLanes]
  by_cases hb : poisoned d (64 * k) 1 = true ∨ e = .ue
  · have hb' : (poisoned d (64 * k) 1 || e == .ue) = true := by simpa using hb
    rw [hb']
    refine ⟨_, ?_, sectorFound_bad d hb' (memPc d (64 * k) / 64)⟩
    simp only [sectorCheck, he, hm', hue, hb, if_true, sectorHit]
  · have hb' : (poisoned d (64 * k) 1 || e == .ue) = false := by simpa using hb
    rw [hb']
    simp only [sectorCheck, he, hm', hue, hb, if_false]
    split
    · refine ⟨_, rfl, ?_⟩
      split
      · exact sectorFound_mended d k e
      · exact (sectorFound_mended d k e).laneErr _
    · exact ⟨d, rfl, sectorFound_none d k⟩

/-! ### The check of several sectors -/

/-- The i-th of the sectors holds an uncorrectable error, new or old. -/
def sectorBad (d : Dev) (ks : List Nat) (es : List Ecc) (i : Nat) : Bool :=
  poisoned d (64 * ks.getD i 0) 1 || es.getD i .clean == .ue

/-- What a check of several sectors comes to. -/
structure SectorsFound (d : Dev) (ks : List Nat) (es : List Ecc) (flag : Bool) (e : Dev) : Prop where
  isBad : flag = (List.range ks.length).any (sectorBad d ks es)
  kept : SectorKept d e
  grows : ∀ j, d.mem.poison.contains j = true → e.mem.poison.contains j = true
  poison : ∀ i < ks.length, sectorBad d ks es i = true → e.mem.poison.contains (ks.getD i 0) = true
  count : cntAt e ueCnt = cntAt d ueCnt + BitVec.ofNat 48 ((List.range ks.length).filter (sectorBad d ks es)).length
  status : flag = true → rdb e .memStatus [] 1 = true

theorem memStack_congr {d e : Dev} (h : rd e .memHashSeed = rd d .memHashSeed) (a : Nat) : memStack e a = memStack d a := by
  rw [memStack, memPc, h]
  rfl

/-- A check of one sector says nothing of the others. -/
theorem sectorBad_succ {d e : Dev} {k : Nat} {ks : List Nat} {b : Bool} (hk : k ∉ ks) (h : SectorFound d k b e)
    (es : List Ecc) : ∀ i < ks.length, sectorBad d (k :: ks) es (i + 1) = sectorBad e ks es.tail i := by
  intro i hi
  have hne : ks.getD i 0 ≠ k := fun he => hk (he ▸ List.getD_eq_getElem ks 0 hi ▸ List.getElem_mem hi)
  rw [sectorBad, sectorBad, poisoned_start, poisoned_start, List.getD_cons_succ, h.poison, beq_false_of_ne hne, Bool.and_false,
    Bool.or_false]
  cases es <;> simp

theorem range_any_succ (n : Nat) (p : Nat → Bool) :
    (List.range (n + 1)).any p = (p 0 || (List.range n).any (fun i => p (i + 1))) := by
  rw [List.range_succ_eq_map, List.any_cons, List.any_map]
  rfl

theorem range_filter_succ (n : Nat) (p : Nat → Bool) :
    ((List.range (n + 1)).filter p).length = (if p 0 then 1 else 0) + ((List.range n).filter (fun i => p (i + 1))).length := by
  rw [List.range_succ_eq_map, List.filter_cons, List.filter_map, apply_ite List.length, List.length_cons, List.length_map]
  split
  · exact Nat.add_comm ..
  · exact (Nat.zero_add _).symm

theorem sectorsCheck_found {d : Dev} (hf : d.mem.flaws = []) {ks : List Nat} (hn : ks.Nodup)
    (hm : ∀ k ∈ ks, Unmarked d 0x0C (memStack d (64 * k) / 3) (memStack d (64 * k))) (es : List Ecc) :
    ∃ flag e, sectorsCheck d ks es = (flag, e) ∧ SectorsFound d ks es flag e := by
  induction ks generalizing d es with
  | nil => exact ⟨false, d, rfl, rfl, .refl d, fun _ => id, fun _ hi => absurd hi (Nat.not_lt_zero _), by simp, nofun⟩
  | cons k ks ih =>
    obtain ⟨hk, hn⟩ := List.nodup_cons.mp hn
    obtain ⟨h1, h2⟩ := List.forall_mem_cons.mp hm
    obtain ⟨e, he, fe⟩ := sectorCheck_found hf h1 (es.headD .clean)
    have hb0 : sectorBad d (k :: ks) es 0 = (poisoned d (64 * k) 1 || es.headD .clean == .ue) := by
      cases es <;> rfl
    rw [← hb0] at he fe
    have hm' : ∀ j ∈ ks, Unmarked e 0x0C (memStack e (64 * j) / 3) (memStack e (64 * j)) := fun j hj => by
      rw [memStack_congr fe.kept.hash]
      exact unmarked_of_marks (h2 j hj) fe.kept.marks
    obtain ⟨flag, f, hs, ff⟩ := ih (fe.kept.flaws.trans hf) hn hm' es.tail
    have hb := sectorBad_succ hk fe es
    have hany : (List.range ks.length).any (fun i => sectorBad d (k :: ks) es (i + 1)) = flag := by
      rw [ff.isBad]
      refine Bool.eq_iff_iff.mpr ?_
      simp only [List.any_eq_true, List.mem_range]
      exact exists_congr fun i => and_congr_right fun hi => by rw [hb i hi]
    refine ⟨sectorBad d (k :: ks) es 0 || flag, f, by simp only [sectorsCheck, he, hs], ?_, fe.kept.trans ff.kept,
      fun j hj => ff.grows j (by rw [fe.poison, hj, Bool.true_or]), ?_, ?_, fun h => ?_⟩
    · rw [List.length_cons, range_any_succ, hany]
    · intro i hi hbi
      cases i with
      | zero => exact ff.grows k (by rw [fe.poison, hbi]; simp)
      | succ i =>
        have hi' : i < ks.length := Nat.lt_of_succ_lt_succ hi
        exact ff.poison i hi' ((hb i hi').symm.trans hbi)
    · have hfil : (List.range ks.length).filter (fun i => sectorBad d (k :: ks) es (i + 1)) =
          (List.range ks.length).filter (sectorBad e ks es.tail) :=
        List.filter_congr fun i hi => hb i (List.mem_range.mp hi)
      rw [List.length_cons, range_filter_succ, hfil, ff.count, fe.count, BitVec.ofNat_add, ← BitVec.add_assoc]
      cases sectorBad d (k :: ks) es 0 <;> rfl
    · cases hf0 : flag with
      | true => exact ff.status hf0
      | false =>
        rw [hf0, Bool.or_false] at h
        exact ff.kept.ue (fe.status h)

theorem sectors_nodup (a n : Nat) : (sectors a n).Nodup := by
  unfold sectors
  split
  · exact List.nodup_nil
  · exact List.nodup_range.map fun _ _ h => Nat.add_left_cancel h

/-! ### Reductions -/

/-- A reduction whose sectors are sound adds its elements (R251, R252). -/
theorem redApply_clean {d : Dev} {r : MemReq} {es : List Ecc} (hc : MemClean d r.addr r.len) (he : ∀ e ∈ es, e = .clean)
    (code : Nat) :
    redApply code r es d =
      let d1 := cnt1 d (srcMem 0) (if code < 5 then 9 else 10)
      respond (redSum r (redOp code).1 (redOp code).2.1 (redOp code).2.2 d1) (16 + code) r
        (if code < 5 then [] else memSee d r.src r.addr r.len) false := by
  rw [redApply, memCheck_clean (memClean_cnt1 hc ..) he]
  rfl

/-- A reduction with an uncorrectable error in a sector answers it, no more (R255). -/
theorem redApply_bad {d e : Dev} {r : MemReq} {es : List Ecc} {code : Nat}
    (h : memCheck (cnt1 d (srcMem 0) (if code < 5 then 9 else 10)) r.addr r.len es = (true, e)) :
    redApply code r es d = respond e (16 + code) r [] true := by
  rw [redApply, h]
  rfl

/-- An answer to a requester that has a tile flies there. -/
theorem answer_flies {d : Dev} {m : MemResp} {t : Nat} (ht : reqTile d m.r.src = some t) :
    ∃ f ∈ (answer d m).sw.flights, f.load = .memP m := by
  rw [answer, ht]
  exact ⟨_, List.mem_append_right _ (List.mem_singleton_self _), rfl⟩

/-- What R255 asks of a reduction that finds an uncorrectable error. -/
def RedRefused (op : Nat) (r : MemReq) (es : List Ecc) (d e : Dev) : Prop :=
  let ks := sectors r.addr r.len
  e.mem.bytes = d.mem.bytes ∧
  (∀ i < ks.length, sectorBad d ks es i = true → poisoned e (64 * ks.getD i 0) 1 = true) ∧
  cntAt e ueCnt = cntAt d ueCnt + BitVec.ofNat 48 ((List.range ks.length).filter (sectorBad d ks es)).length ∧
  rdb e .memStatus [] 1 = true ∧
  (∀ t, reqTile d r.src = some t → ∃ f ∈ e.sw.flights, ∃ m : MemResp,
    f.load = .memP m ∧ m.op = op ∧ m.r = r ∧ m.bad = true)

theorem redApply_refused {d : Dev} {r : MemReq} {es : List Ecc} (hf : d.mem.flaws = [])
    (hm : ∀ k ∈ sectors r.addr r.len, Unmarked d 0x0C (memStack d (64 * k) / 3) (memStack d (64 * k)))
    (hb : ∃ i < (sectors r.addr r.len).length, sectorBad d (sectors r.addr r.len) es i = true) (code : Nat) :
    RedRefused (16 + code) r es d (redApply code r es d) := by
  generalize hd1 : cnt1 d (srcMem 0) (if code < 5 then 9 else 10) = d1
  have hm1 : ∀ k ∈ sectors r.addr r.len, Unmarked d1 0x0C (memStack d1 (64 * k) / 3) (memStack d1 (64 * k)) :=
    fun k hk => by
      rw [← hd1]
      exact unmarked_of_marks (hm k hk) rfl
  have hf1 : d1.mem.flaws = [] := by rw [← hd1]; exact hf
  obtain ⟨flag, e, he, fe⟩ := sectorsCheck_found hf1 (sectors_nodup _ _) hm1 es
  have hbad : sectorBad d1 (sectors r.addr r.len) es = sectorBad d (sectors r.addr r.len) es := by rw [← hd1]; rfl
  have hcnt : cntAt d1 ueCnt = cntAt d ueCnt := by
    rw [← hd1, cntAt_cnt1_other]
    simp only [ueCnt, srcMem]
    split <;> decide
  have hflag : flag = true := by
    obtain ⟨i, hi, hbi⟩ := hb
    rw [fe.isBad, hbad]
    exact List.any_eq_true.mpr ⟨i, List.mem_range.mpr hi, hbi⟩
  rw [hflag] at he
  rw [redApply_bad (by rw [hd1]; exact he)]
  obtain ⟨sw, draw, ha⟩ := answer_frame e ⟨16 + code, r, [], true, 0, poisonIn e r.addr r.len⟩
  have hr : respond e (16 + code) r [] true = { e with sw := sw, draw := draw } := ha
  refine ⟨?_, fun i hi hbi => ?_, ?_, ?_, fun t ht => ?_⟩
  · rw [respond_mem, fe.kept.bytes, ← hd1]
    rfl
  · rw [poisoned_start, respond_mem]
    exact fe.poison i hi (hbad.symm ▸ hbi)
  · rw [hr, ← hbad, ← hcnt]
    exact fe.count
  · rw [hr]
    exact fe.status hflag
  · have ht' : reqTile e r.src = some t := by
      have ho : e.opt = d.opt := by rw [fe.kept.opt, ← hd1]; rfl
      simp only [← ht, reqTile, ho]
    obtain ⟨f, hfm, hfl⟩ := answer_flies (m := ⟨16 + code, r, [], true, 0, poisonIn e r.addr r.len⟩) ht'
    exact ⟨f, hfm, _, hfl, rfl, rfl, rfl⟩

theorem gives_refused {c : Instr} {s : State} {r : MemReq} {es : List Ecc} {code : Nat}
    (hc : exec c s = memApply (16 + code) r (redApply code r es) s) (hs : Running s) (hr : MemFree s.dev (16 + code) r)
    (hf : s.dev.mem.flaws = [])
    (hm : ∀ k ∈ sectors r.addr r.len, Unmarked s.dev 0x0C (memStack s.dev (64 * k) / 3) (memStack s.dev (64 * k)))
    (hb : ∃ i < (sectors r.addr r.len).length, sectorBad s.dev (sectors r.addr r.len) es i = true) :
    Gives c s (RedRefused (16 + code) r es) := by
  have hm' : ∀ k ∈ sectors r.addr r.len, Unmarked (s.dev.taken (16 + code) r) 0x0C
      (memStack (s.dev.taken (16 + code) r) (64 * k) / 3) (memStack (s.dev.taken (16 + code) r) (64 * k)) :=
    fun k hk => unmarked_of_marks (hm k hk) rfl
  obtain ⟨h1, h2, h3, h4, h5⟩ := redApply_refused (d := s.dev.taken (16 + code) r) hf hm' hb code
  exact gives_of_memApply hc hs hr ⟨h1, h2, h3, h4, h5⟩

/-- Settles O43: every reduction is one operation over its element's format, and refuses on an uncorrectable error. -/
theorem memoryReductions : Obligations.MemoryReductions := by
  intro s r es hs
  refine ⟨fun hc he => ?sound, fun hf => ?refused⟩
  case sound =>
    have h (op code : Nat) := redApply_clean (es := es) (memClean_taken hc op r) he code
    exact ⟨fun hr => does_of_memApply rfl hs hr (h 16 0), fun hr => does_of_memApply rfl hs hr (h 17 1),
      fun hr => does_of_memApply rfl hs hr (h 18 2), fun hr => does_of_memApply rfl hs hr (h 19 3),
      fun hr => does_of_memApply rfl hs hr (h 20 4), fun hr => does_of_memApply rfl hs hr (h 21 5),
      fun hr => does_of_memApply rfl hs hr (h 22 6), fun hr => does_of_memApply rfl hs hr (h 23 7),
      fun hr => does_of_memApply rfl hs hr (h 24 8)⟩
  case refused =>
    intro ks bad hm hb
    have h {c : Instr} {code : Nat} (hc : exec c s = memApply (16 + code) r (redApply code r es) s)
        (hr : MemFree s.dev (16 + code) r) : Gives c s (RedRefused (16 + code) r es) :=
      gives_refused hc hs hr hf hm hb
    simp only [List.forall_mem_cons, List.not_mem_nil, false_implies, implies_true, and_true]
    exact ⟨h (code := 0) rfl, h (code := 1) rfl, h (code := 2) rfl, h (code := 3) rfl, h (code := 4) rfl,
      h (code := 5) rfl, h (code := 6) rfl, h (code := 7) rfl, h (code := 8) rfl⟩

end Sys2Proof.Machine
end

section
/-! # Policing: the command register (spec/05) -/
namespace Sys2Proof.Machine

theorem meets_polCmd (die : Fin 4) : MeetsReg (viaDie die .polCmd) .polCmd [] ∧ sleepDom (viaDie die .polCmd) = none ∧
    offDie (viaDie die .polCmd) = die := by
  revert die
  decide +kernel

/-- A write of POL_CMD does what its value says (R130). -/
theorem busWrite_polCmd (die : Fin 4) (val : Nat) (d : Dev) :
    busWrite (viaDie die .polCmd) val d = polCmdWrite die val d.written := by
  obtain ⟨hm, hs, hd⟩ := meets_polCmd die
  rw [busWrite_lockFree_awake hm hs rfl, hd]
  rfl

/-- The value of a POL_CMD that writes entry `k`. -/
theorem polCmd_opWrite (k : BitVec 14) : bits (2 ^ 16 + k.toNat) 13 0 = k.toNat ∧ bit (2 ^ 16 + k.toNat) 16 = true := by
  have := k.isLt
  simp only [bits, bit, Nat.shiftRight_eq_div_pow, beq_iff_eq]
  omega

/-- The value of a POL_CMD that reads entry `k`. -/
theorem polCmd_opRead (k : BitVec 14) (clr : Bool) :
    bits (b2n clr * 2 ^ 17 + k.toNat) 13 0 = k.toNat ∧ bit (b2n clr * 2 ^ 17 + k.toNat) 16 = false ∧
      bit (b2n clr * 2 ^ 17 + k.toNat) 17 = clr := by
  have := k.isLt
  cases clr <;> simp [bits, bit, b2n, Nat.shiftRight_eq_div_pow] <;> omega

theorem polCmdWrite_write (die : Fin 4) (k : BitVec 14) (d : Dev) :
    polCmdWrite die (2 ^ 16 + k.toNat) d =
      if (polData d).en = true ∧ (rdb d .polCmd [] 31 = true ∨ rateOf (polData d).pir.toNat < rateOf (polData d).cir.toNat ∨
          (polData d).cbs.toNat < 8329 ∨ (polData d).pbs.toNat < 8329) then raise d (srcPol die) 0
      else
        let w := polWrite d k.toNat (polData d)
        if rdb d .polCmd [] 31 then w
        else wrf { w with pol := { w.pol with cmd := some (die.val, true, false, k.toNat) } } .polCmd [] 31 31 1 := by
  obtain ⟨hk, hop⟩ := polCmd_opWrite k
  simp only [polCmdWrite, hk, hop, if_true, Bool.and_eq_true, Bool.or_eq_true, Bool.not_eq_true', bucketsOk_eq_false]

theorem polCmdWrite_read {d : Dev} (hb : rdb d .polCmd [] 31 = false) (die : Fin 4) (k : BitVec 14) (clr : Bool) :
    polCmdWrite die (b2n clr * 2 ^ 17 + k.toNat) d =
      wrf { d with pol := { d.pol with cmd := some (die.val, false, clr, k.toNat) } } .polCmd [] 31 31 1 := by
  obtain ⟨hk, hop, hc⟩ := polCmd_opRead k clr
  simp only [polCmdWrite, hk, hop, hc, hb, Bool.false_eq_true, if_false]


/-! ### The end of a command -/

theorem rd_polShow (d : Dev) {lo hi r : Reg} {die : Nat} (c : BitVec 48) (hl : regAddr lo [die] ≠ regAddr r [])
    (hh : regAddr hi [die] ≠ regAddr r []) : rd (polShow d lo hi die c) r = rd d r := by
  rw [polShow, rd_wr_other _ _ hh, rd_wr_other _ _ hl]

/-- The three words of POL_DATA, as a read leaves them. -/
def polShown (d : Dev) (c : Policer) : Dev :=
  wr (wr (wr d .polData0 [] (b2n c.en * 2 ^ 31 + b2n c.aware * 2 ^ 30 + c.redAct.toNat * 2 ^ 26 + c.yelAct.toNat * 2 ^ 24
    + c.cbs.toNat)) .polData1 [] c.pbs.toNat) .polData2 [] (c.pir.toNat * 2 ^ 16 + c.cir.toNat)

theorem polData_polShown (d : Dev) (c : Policer) : polData (polShown d c) = c := by
  obtain ⟨en, aware, redAct, yelAct, cbs, pbs, pir, cir⟩ := c
  have h0 : rd (polShown d ⟨en, aware, redAct, yelAct, cbs, pbs, pir, cir⟩) .polData0 = (b2n en * 2 ^ 31 + b2n aware * 2 ^ 30 +
      redAct.toNat * 2 ^ 26 + yelAct.toNat * 2 ^ 24 + cbs.toNat) % 4294967296 := by
    rw [polShown, rd_wr_other _ _ (by decide), rd_wr_other _ _ (by decide), rd_wr_same]
  have h1 : rd (polShown d ⟨en, aware, redAct, yelAct, cbs, pbs, pir, cir⟩) .polData1 = pbs.toNat % 4294967296 := by
    rw [polShown, rd_wr_other _ _ (by decide), rd_wr_same]
  have h2 : rd (polShown d ⟨en, aware, redAct, yelAct, cbs, pbs, pir, cir⟩) .polData2 =
      (pir.toNat * 2 ^ 16 + cir.toNat) % 4294967296 := by
    rw [polShown, rd_wr_same]
  have := redAct.isLt; have := yelAct.isLt; have := cbs.isLt; have := pbs.isLt; have := pir.isLt; have := cir.isLt
  have he : b2n en < 2 := by cases en <;> decide
  have hw : b2n aware < 2 := by cases aware <;> decide
  have hb (b : Bool) : (b2n b == 1) = b := by cases b <;> rfl
  simp only [polData, h0, h1, h2, bit, bits, Nat.shiftRight_eq_div_pow, Policer.mk.injEq]
  refine ⟨?_, ?_, ?_, ?_, ?_, ?_, ?_, ?_⟩
  · refine (congrArg (· == 1) ?_).trans (hb en)
    omega
  · refine (congrArg (· == 1) ?_).trans (hb aware)
    omega
  all_goals
    apply BitVec.eq_of_toNat_eq
    simp only [BitVec.toNat_ofNat]
    omega

/-- Nothing but registers differs. -/
def RegsOnly (d e : Dev) : Prop := ∃ t, e = { d with regs := t }

theorem RegsOnly.trans {d e f : Dev} (h : RegsOnly d e) (h' : RegsOnly e f) : RegsOnly d f := by
  obtain ⟨t, rfl⟩ := h
  obtain ⟨t', rfl⟩ := h'
  exact ⟨t', rfl⟩

theorem regsOnly_wr (d : Dev) (r : Reg) (ix : List Nat) (v : Nat) : RegsOnly d (wr d r ix v) := ⟨_, rfl⟩

theorem regsOnly_wrf (d : Dev) (r : Reg) (ix : List Nat) (m l v : Nat) : RegsOnly d (wrf d r ix m l v) := regsOnly_wr ..

theorem regsOnly_polShow (d : Dev) (lo hi : Reg) (die : Nat) (c : BitVec 48) : RegsOnly d (polShow d lo hi die c) :=
  (regsOnly_wr ..).trans (regsOnly_wr ..)

/-- One die's counters of an entry, as a read shows them. -/
def polDieShown (k : Nat) (d : Dev) (die : Nat) : Dev :=
  let x := if rdb d .pmcCtl [] 3 then tgetD d.pmc.snapPol (die * 16384 + k) ⟨0, 0, 0, 0, 0, 0⟩ else polDie d die k
  polShow (polShow (polShow d .polCntGLo .polCntGHi die x.green) .polCntYLo .polCntYHi die x.yellow)
    .polCntRLo .polCntRHi die x.red

theorem polRead_eq (d : Dev) (k : Nat) : polRead d k = [0, 1, 2, 3].foldl (polDieShown k) (polShown d (polOf d k)) := rfl

theorem polData_polShow (d : Dev) {lo hi : Reg} {die : Nat} (c : BitVec 48)
    (h : ∀ r ∈ [Reg.polData0, .polData1, .polData2], regAddr lo [die] ≠ regAddr r [] ∧ regAddr hi [die] ≠ regAddr r []) :
    polData (polShow d lo hi die c) = polData d := by
  simp only [List.forall_mem_cons] at h
  obtain ⟨⟨h0, h0'⟩, ⟨h1, h1'⟩, ⟨h2, h2'⟩, -⟩ := h
  simp only [polData, rd_polShow _ _ h0 h0', rd_polShow _ _ h1 h1', rd_polShow _ _ h2 h2']

theorem polData_polDieShown (k : Nat) (d : Dev) {die : Nat} (h : die < 4) : polData (polDieShown k d die) = polData d := by
  have ha : ∀ r ∈ [Reg.polData0, .polData1, .polData2], ∀ c ∈ [Reg.polCntGLo, .polCntGHi, .polCntYLo, .polCntYHi, .polCntRLo,
      .polCntRHi], regAddr c [die] ≠ regAddr r [] := by
    revert die
    decide
  unfold polDieShown
  rw [polData_polShow _ _ fun r hr => ⟨ha r hr _ (by decide), ha r hr _ (by decide)⟩,
    polData_polShow _ _ fun r hr => ⟨ha r hr _ (by decide), ha r hr _ (by decide)⟩,
    polData_polShow _ _ fun r hr => ⟨ha r hr _ (by decide), ha r hr _ (by decide)⟩]

/-- A read shows the entry in POL_DATA (R131), and writes registers alone. -/
theorem polRead_shows (d : Dev) (k : Nat) : polData (polRead d k) = polOf d k ∧ RegsOnly d (polRead d k) := by
  have h (l : List Nat) (hl : ∀ x ∈ l, x < 4) (e : Dev) :
      polData (l.foldl (polDieShown k) e) = polData e ∧ RegsOnly e (l.foldl (polDieShown k) e) := by
    induction l generalizing e with
    | nil => exact ⟨rfl, e.regs, rfl⟩
    | cons x l ih =>
      obtain ⟨h1, h2⟩ := ih (fun y hy => hl y (List.mem_cons_of_mem _ hy)) (polDieShown k e x)
      have hx : RegsOnly e (polDieShown k e x) :=
        ((regsOnly_polShow ..).trans (regsOnly_polShow ..)).trans (regsOnly_polShow ..)
      exact ⟨h1.trans (polData_polDieShown k e (hl x List.mem_cons_self)), hx.trans h2⟩
  have h0 : RegsOnly d (polShown d (polOf d k)) := ((regsOnly_wr ..).trans (regsOnly_wr ..)).trans (regsOnly_wr ..)
  obtain ⟨h1, h2⟩ := h [0, 1, 2, 3] (by decide) (polShown d (polOf d k))
  rw [polRead_eq]
  exact ⟨h1.trans (polData_polShown ..), h0.trans h2⟩

/-- The counters of an entry are cleared where the command asks for it (R137). -/
def polCleared (d : Dev) (die k : Nat) (clr : Bool) : Dev :=
  if clr then setPolDie d die k { polDie d die k with green := 0, yellow := 0, red := 0 } else d

theorem polCmdComplete_read {d : Dev} {die k : Nat} {clr : Bool} (hc : d.pol.cmd = some (die, false, clr, k)) :
    polCmdComplete d =
      let e := polCleared (polRead d k) die k clr
      wrf { e with pol := { e.pol with cmd := none } } .polCmd [] 31 31 0 := by
  simp only [polCmdComplete, hc]
  rfl

theorem polCleared_frame (d : Dev) (die k : Nat) (clr : Bool) :
    polCleared d die k clr = { d with pol := { d.pol with dies := (polCleared d die k clr).pol.dies } } := by
  cases clr <;> rfl

theorem polDie_polCleared (d : Dev) (die k : Nat) :
    polDie (polCleared d die k true) die k = { polDie d die k with green := 0, yellow := 0, red := 0 } := by
  simp [polCleared, setPolDie, polDie]

/-- The command that reads an entry ends with the entry shown, BUSY clear and nothing else changed. -/
theorem polCmdComplete_shows {d : Dev} {die k : Nat} {clr : Bool} (hc : d.pol.cmd = some (die, false, clr, k)) :
    let e := polCmdComplete d
    rdb e .polCmd [] 31 = false ∧ e.pol.cmd = none ∧ polData e = polOf d k ∧ polOf e k = polOf d k ∧
    (clr = true → (polDie e die k).green = 0 ∧ (polDie e die k).yellow = 0 ∧ (polDie e die k).red = 0) ∧
    (clr = false → e.pol.dies = d.pol.dies) ∧
    e = { d with regs := e.regs, pol := { d.pol with cmd := none, dies := e.pol.dies } } := by
  intro e
  have he : e = wrf { polCleared (polRead d k) die k clr with
      pol := { (polCleared (polRead d k) die k clr).pol with cmd := none } } .polCmd [] 31 31 0 := polCmdComplete_read hc
  obtain ⟨hd, t, hx⟩ := polRead_shows d k
  rw [hx] at he hd
  have hp : e.pol = { (polCleared { d with regs := t } die k clr).pol with cmd := none } := by rw [he, wrf_pol]
  refine ⟨?_, by rw [hp], ?_, ?_, ?_, ?_, ?_⟩
  · rw [he]
    exact rdb_wrf_bit _ _ _ (by decide) 0
  · have hr (r : Reg) (h : regAddr .polCmd [] ≠ regAddr r []) : rd e r = rd { d with regs := t } r := by
      rw [he, rd_wrf_other _ _ _ _ h, polCleared_frame]
      rfl
    rw [← hd, polData, hr _ (by decide), hr _ (by decide), hr _ (by decide)]
    rfl
  · rw [polOf, hp]
    cases clr <;> rfl
  · rintro rfl
    have h := polDie_polCleared { d with regs := t } die k
    have hq : polDie e die k = polDie (polCleared { d with regs := t } die k true) die k := by rw [polDie, hp]; rfl
    rw [hq, h]
    exact ⟨rfl, rfl, rfl⟩
  · rintro rfl
    rw [hp]
    rfl
  · have hw : RegsOnly _ e := he ▸ regsOnly_wrf ..
    obtain ⟨t', hw⟩ := hw
    rw [hw, polCleared_frame]

/-- Settles O10: a write of POL_CMD writes or reads an entry as its OP says, and BUSY stands until the command completes. -/
theorem policerCommands : Obligations.PolicerCommands := by
  intro s die k hr
  refine ⟨does_of_actBar rfl hr ?write, fun clr hb => does_of_actBar rfl hr ?read, fun clr hc => ?complete⟩
  case write => exact (busWrite_polCmd die _ _).trans (polCmdWrite_write ..)
  case read => exact (busWrite_polCmd die _ _).trans (polCmdWrite_read (d := s.dev.fresh.written) hb ..)
  case complete => exact gives_of_act rfl hr.1 (polCmdComplete_shows (d := s.dev.fresh) hc)

end Sys2Proof.Machine
end

section
/-! # Ports (spec/04) -/
namespace Sys2Proof.Machine

theorem portBypass_drained {d : Dev} {p : Nat} (h : portState d p = 2) (hd : d.rt.toDisable.contains p = false)
    (he : egressEmpty d p = true) (hw : waitsFor d p = false) :
    portBypass p d = stopTraining (event (setPortState d p 3) 0x0480 (p / 128) (p % 128) [(2, p)] [p]) p :=
  if_pos ⟨h, by rw [hd]; rfl, he, by rw [hw]; rfl⟩

theorem portBypass_idle {d : Dev} {p : Nat} (h : portState d p ≠ 2) : portBypass p d = d := if_neg fun hc => h hc.1

theorem portDisabledDrained_drained {d : Dev} {p : Nat} (hd : d.rt.toDisable.contains p = true) (he : egressEmpty d p = true)
    (hw : waitsFor d p = false) : portDisabledDrained p d = setDisabled d p :=
  if_pos ⟨hd, he, by rw [hw]; rfl⟩

theorem portDisabledDrained_idle {d : Dev} {p : Nat} (hd : d.rt.toDisable.contains p = false) :
    portDisabledDrained p d = d := if_neg fun hc => by rw [hd] at hc; exact Bool.noConfusion hc.1

theorem portDeadRelease_dead {d : Dev} {p : Nat} (h : portState d p = 2) (hl : linkUp d p = false) :
    portDeadRelease p d = releasePort d p := if_pos ⟨h, by rw [hl]; rfl⟩

theorem portDeadRelease_idle {d : Dev} {p : Nat} (h : portState d p ≠ 2) : portDeadRelease p d = d :=
  if_neg fun hc => h hc.1

theorem portRestored_ready {d : Dev} {p : Nat} (h : portState d p = 4) (hl : linkUp d p = true)
    (hr : (linkSt d p).lcfRcvd = true) :
    portRestored p d = event (setPortState d p 1) 0x0481 (p / 128) (p % 128) [(2, p)] [p] := if_pos ⟨h, hl, hr⟩

theorem portRestored_idle {d : Dev} {p : Nat} (h : portState d p ≠ 4) : portRestored p d = d := if_neg fun hc => h hc.1

/-- Settles O12: each move under its condition, and idle elsewhere. -/
theorem portStateMoves : Obligations.PortStateMoves := by
  intro s p hs
  refine ⟨fun h hd he hw => ?bypass, fun h => ?noBypass, fun hd he hw => ?disabled, fun hd => ?notDisabled,
    fun h hl => ?dead, fun h => ?notDead, fun h hl hr => ?restored, fun h => ?notRestored⟩
  case bypass => exact does_of_act rfl hs (portBypass_drained (d := s.dev.fresh) h hd he hw)
  case noBypass => exact does_of_act rfl hs (portBypass_idle (d := s.dev.fresh) h)
  case disabled => exact does_of_act rfl hs (portDisabledDrained_drained (d := s.dev.fresh) hd he hw)
  case notDisabled => exact does_of_act rfl hs (portDisabledDrained_idle (d := s.dev.fresh) hd)
  case dead => exact does_of_act rfl hs (portDeadRelease_dead (d := s.dev.fresh) h hl)
  case notDead => exact does_of_act rfl hs (portDeadRelease_idle (d := s.dev.fresh) h)
  case restored => exact does_of_act rfl hs (portRestored_ready (d := s.dev.fresh) h hl hr)
  case notRestored => exact does_of_act rfl hs (portRestored_idle (d := s.dev.fresh) h)

end Sys2Proof.Machine
end

section
/-! # Forwarding tables (spec/02): staging -/
namespace Sys2Proof.Machine

section
variable {c : Instr} {s : State} {h : CmdHdr} {opc : Nat} {acc : Accept} {ps : List (Option Nat)} {f g : Dev → Reply → Dev}
variable {ok : Bool}

/-- A command whose parameters pass a check of their own. -/
theorem cmdDoes_of_checked (hc : exec c s = act (fun d => runCmd d h opc acc ps ok f) s) (hok : ok = true) (hs : Running s)
    (hp : Passes s.dev h opc acc ps)
    (hfg : f (takeCmd s.dev.fresh h) (replyOf s.dev.fresh h opc) = g (takeCmd s.dev.fresh h) (replyOf s.dev.fresh h opc)) :
    CmdDoes c h opc s g := by
  subst hok
  exact cmdDoes_of_runCmd hc hs hp hfg

end

theorem parity_lt (d : Dev) : parity d < 2 := Nat.mod_lt _ (by decide)

/-- With no commit under way a staging command is done at once (R56). -/
theorem sequence_stages {d e : Dev} {op : StageOp} {die st : Nat} (he : stageOp d die op = (st, e)) (hh : holding d = false)
    (hop : ∀ t, op ≠ .commit t) (rp : Reply) : sequence d ⟨op, some rp, die, none⟩ = complete e rp st [] := by
  cases op with
  | commit t => exact absurd rfl (hop t)
  | _ => simp only [sequence, numbered, hh, Bool.false_eq_true, if_false, completeOpt, he]

/-! ### The key of an entry -/

/-- The valid bits of an entry are its two highest. -/
theorem two_pow_valid {a : Nat} (h : a < 2) : 2 ^ (63 - a) % 2 ^ 62 = 0 ∧ 2 ^ (63 - (1 - a)) % 2 ^ 62 = 0 := by
  obtain rfl | rfl : a = 0 ∨ a = 1 := by omega
  · decide
  · decide

/-- An entry's key is the one it was made of, whatever of its valid bits is set. -/
theorem emKey_emMake {tt part ep tg v : Nat} (st hit : Bool) (hp : part < 4096) (he : ep < 16777216) (ht : tt < 2)
    (hg : tg < 512) (hv : v % 2 ^ 62 = 0) : emKey (emMake st hit tt part ep tg + v) = (part, ep) := by
  have hs : b2n st < 2 := by cases st <;> decide
  have hh : b2n hit < 2 := by cases hit <;> decide
  have h1 : bits (emMake st hit tt part ep tg + v) 53 42 = part := by
    rw [emMake, bits, Nat.shiftRight_eq_div_pow]
    omega
  have h2 : bits (emMake st hit tt part ep tg + v) 41 18 = ep := by
    rw [emMake, bits, Nat.shiftRight_eq_div_pow]
    omega
  exact Prod.ext h1 h2

/-! ### The copy of the next parity -/

theorem ite_next_even {α : Sort*} (d : Dev) (a b : α) :
    (if 1 - parity d = 0 then a else b) = if parity d = 0 then b else a := by
  obtain h | h : parity d = 0 ∨ parity d = 1 := by have := parity_lt d; omega
  · simp [h]
  · simp [h]

section
variable {d : Dev} (hs : d.fwd.staged < 16384) (die : Nat)
include hs

theorem stageOp_grp (k : BitVec 16) (c : GrpCopy) :
    stageOp d die (.grp k c) = (0, Dev.staged { d with fwd := { d.fwd with
      grps := tput ⟨⟨false, 0, 0⟩, ⟨false, 0, 0⟩⟩ d.fwd.grps k.toNat
        (if parity d = 0 then { grpOf d k.toNat with odd := c } else { grpOf d k.toNat with even := c }) } } (.grp k)) := by
  simp only [stageOp, Nat.not_le.mpr hs, if_false, ite_next_even, Dev.staged]

theorem stageOp_part (k : BitVec 12) (c : PartCfg) :
    stageOp d die (.part k c) = (0, Dev.staged (setPart d k.toNat
      (if parity d = 0 then { partOf d k.toNat with odd := c } else { partOf d k.toNat with even := c })) (.part k)) := by
  simp only [stageOp, Nat.not_le.mpr hs, if_false, ite_next_even, Dev.staged]

theorem stageOp_bundle (k : BitVec 8) (l : List (BitVec 16)) :
    stageOp d die (StageOp.bundle k l) = (0, Dev.staged { d with fwd := { d.fwd with
      bundles := tput ⟨[], []⟩ d.fwd.bundles k.toNat (if parity d = 0 then { bundleOf d k.toNat with odd := l }
        else { bundleOf d k.toNat with even := l }) } } (.bundle k)) := by
  simp only [stageOp, Nat.not_le.mpr hs, if_false, ite_next_even, Dev.staged]

theorem stageOp_emDel {part : BitVec 12} {ep : BitVec 24} {w : Nat}
    (hw : emFind d d.fwd.em part.toNat ep.toNat (1 - parity d) = some w) :
    stageOp d die (.emDel part ep) =
      (0, Dev.staged (setEm d (emClear d.fwd.em w (1 - parity d))) (.em part ep)) := by
  simp only [stageOp, Nat.not_le.mpr hs, if_false, hw, Dev.staged]

/-- The entry that a staging command makes of its operand. -/
def emStaged (d : Dev) (x : Nat) : Nat :=
  emMake (emStatic x) false (emTarget x).1 (emKey x).1 (emKey x).2 (emTarget x).2 + 2 ^ (63 - (1 - parity d))

omit hs in
theorem emKey_emStaged (d : Dev) (x : Nat) : emKey (emStaged d x) = emKey x := by
  have hk : (emKey x).1 < 4096 := Nat.mod_lt _ (by decide)
  have hk' : (emKey x).2 < 16777216 := Nat.mod_lt _ (by decide)
  have ht : (emTarget x).1 < 2 := Nat.mod_lt _ (by decide)
  have ht' : (emTarget x).2 < 512 := Nat.mod_lt _ (by decide)
  exact emKey_emMake _ _ hk hk' ht ht' (two_pow_valid (parity_lt d)).2

/-- An endpoint of a key that stands nowhere takes the free way of table 0. -/
theorem stageOp_emSet {entry : BitVec 64} {w : Nat}
    (hk : ∀ x ∈ emSlots d (emKey entry.toNat).1 (emKey entry.toNat).2, emKey (emAt d.fwd.em x) ≠ emKey entry.toNat)
    (hw : freeWay d.fwd.em (emBucket d 0 (emKey entry.toNat).1 (emKey entry.toNat).2) = some w) :
    stageOp d die (.emSet entry) = (0, Dev.staged (setEm d (emPut d.fwd.em w (emStaged d entry.toNat)))
      (.em (BitVec.ofNat 12 (emKey entry.toNat).1) (BitVec.ofNat 24 (emKey entry.toNat).2))) := by
  have h1 : (emSlots d (emKey entry.toNat).1 (emKey entry.toNat).2).find? (fun s => emKey (emAt d.fwd.em s) == emKey entry.toNat
      && emValid (emAt d.fwd.em s) (1 - parity d) && !emValid (emAt d.fwd.em s) (1 - (1 - parity d))) = none :=
    List.find?_eq_none.mpr fun x hx => by simp [hk x hx]
  have h2 : emFind d d.fwd.em (emKey entry.toNat).1 (emKey entry.toNat).2 (1 - parity d) = none :=
    List.find?_eq_none.mpr fun x hx => by simp [hk x hx]
  have h3 : emPlace d d.fwd.em (emStaged d entry.toNat) = some (emPut d.fwd.em w (emStaged d entry.toNat)) := by
    simp only [emPlace, emKey_emStaged, hw]
  rw [emStaged] at h3
  simp only [stageOp, Nat.not_le.mpr hs, if_false, h1, h2, h3, Dev.staged, emStaged]

end

/-- Settles O13: each staging command changes the next parity's copy, counts one and completes OK. -/
theorem tableStaging : Obligations.TableStaging := by
  intro s h hs hh hst
  refine ⟨fun entry w hp hok hk hw => ?emSet, fun part ep w hp hw => ?emDel, fun g valid part m hp hm => ?grp,
    fun part learnEn ageMax rate m hp hm => ?part, fun b n l hp hm hn => ?bundle⟩
  case emSet =>
    exact cmdDoes_of_checked rfl hok hs hp
      (sequence_stages (stageOp_emSet (d := takeCmd s.dev.fresh h) hst _ hk hw) hh (fun _ => nofun) _)
  case emDel =>
    exact cmdDoes_of_runCmd rfl hs hp
      (sequence_stages (stageOp_emDel (d := takeCmd s.dev.fresh h) hst _ hw) hh (fun _ => nofun) _)
  case grp =>
    refine cmdDoes_of_runCmd rfl hs hp ?_
    simp only [dmaGet_ok (unmarked_takeCmd hm h)]
    exact sequence_stages (stageOp_grp (d := takeCmd s.dev.fresh h) hst _ _ _) hh (fun _ => nofun) _
  case part =>
    refine cmdDoes_of_runCmd rfl hs hp ?_
    simp only [dmaGet_ok (unmarked_takeCmd hm h)]
    exact sequence_stages (stageOp_part (d := takeCmd s.dev.fresh h) hst _ _ _) hh (fun _ => nofun) _
  case bundle =>
    refine cmdDoes_of_checked rfl (decide_eq_true hn) hs hp ?_
    simp only [dmaGet_ok (unmarked_takeCmd hm h)]
    exact sequence_stages (stageOp_bundle (d := takeCmd s.dev.fresh h) hst _ _ _) hh (fun _ => nofun) _

end Sys2Proof.Machine
end

section
/-! # Forwarding tables (spec/02): reads, commits and settling -/
namespace Sys2Proof.Machine

theorem mem_of_tget? {α : Type} {t : Tab α} {k : Nat} {v : α} (h : tget? t k = some v) : (k, v) ∈ t := by
  induction t with
  | nil => exact nomatch h
  | cons e t ih =>
    obtain ⟨j, w⟩ := e
    simp only [tget?] at h
    split at h
    next hj =>
      obtain rfl : w = v := Option.some.inj h
      exact hj ▸ List.mem_cons_self
    next => exact List.mem_cons_of_mem _ (ih h)

theorem sequence_commit (d : Dev) (t : Option (BitVec 32)) (rp : Reply) (die : Nat) :
    sequence d ⟨.commit t, some rp, die, none⟩ =
      if d.fwd.commit.isSome || d.fwd.settling then
        { d with fwd := { d.fwd with held := d.fwd.held ++ [⟨.commit t, some rp, die, some (commitTick d t, activeDom d)⟩] } }
      else { d with fwd := { d.fwd with commit := some ⟨commitTick d t, activeDom d, some rp⟩ } } := rfl

theorem flipEpoch_armed {d : Dev} {c : Commit} (hc : d.fwd.commit = some c) : flipEpoch d = bundleAborts (epochFlip d) := by
  rw [flipEpoch, hc]

theorem flipEpoch_idle {d : Dev} (hc : d.fwd.commit = none) : flipEpoch d = d := by rw [flipEpoch, hc]

/-- A flip breaks no context where none is live (R58). -/
theorem bundleAborts_dead {d : Dev} (h : ∀ x ∈ d.coll.ctxs, live x.2 = false) : bundleAborts d = d := by
  unfold bundleAborts
  refine List.foldlRecOn _ _ (motive := fun e => e = d) rfl ?_
  rintro e rfl s -
  dsimp only
  cases hc : ctxOf e s with
  | none => rfl
  | some c => simp [h _ (mem_of_tget? hc)]

theorem settleFlood_frame (l : List Changed) (d : Dev) : ∃ t, settleFlood l d = { d with fwd := { d.fwd with flood := t } } := by
  have hone (d : Dev) (p : BitVec 12) (die : Nat) : ∃ t,
      (if (tget? d.fwd.flood (die * 4096 + p.toNat)).isSome then setFlood d die p.toNat (floodTok d die p.toNat) else d) =
        { d with fwd := { d.fwd with flood := t } } := by
    split
    · exact ⟨_, rfl⟩
    · exact ⟨_, rfl⟩
  induction l generalizing d with
  | nil => exact ⟨_, rfl⟩
  | cons c l ih =>
    cases c with
    | part p =>
      obtain ⟨t0, h0⟩ := hone d p 0
      obtain ⟨t1, h1⟩ := hone { d with fwd := { d.fwd with flood := t0 } } p 1
      obtain ⟨t2, h2⟩ := hone { d with fwd := { d.fwd with flood := t1 } } p 2
      obtain ⟨t3, h3⟩ := hone { d with fwd := { d.fwd with flood := t2 } } p 3
      obtain ⟨t, h⟩ := ih { d with fwd := { d.fwd with flood := t3 } }
      refine ⟨t, ?_⟩
      simp only [settleFlood, h0, h1, h2, h3, h]
    | _ => exact ih d

/-- The device past a flip of its epoch. -/
def Dev.flipped (d : Dev) (fl : Tab Bucket) (pos : Nat) : Dev :=
  { wr d .fwdEpoch [] ((rd d .fwdEpoch + 1) % 2 ^ 32) with
    fwd := { d.fwd with flood := fl, commit := none, settling := true, staged := 0, scrubPos := pos } }

/-- A flip whose commit waits for no answer advances the epoch, counts no staged operation, and begins to settle. -/
theorem epochFlip_quiet {d : Dev} {c : Commit} (hc : d.fwd.commit = some c) (hr : c.reply = none) :
    ∃ fl pos, epochFlip d = d.flipped fl pos := by
  obtain ⟨fl, hf⟩ := settleFlood_frame d.fwd.changed d
  simp only [epochFlip, hc, hr, completeOpt, hf]
  exact ⟨fl, _, rfl⟩

theorem rd_flipped (d : Dev) (fl : Tab Bucket) (pos : Nat) : rd (d.flipped fl pos) .fwdEpoch = (rd d .fwdEpoch + 1) % 2 ^ 32 := by
  refine (rd_wr_same d .fwdEpoch [] _).trans ?_
  omega

theorem held_settleOne (d : Dev) (c : Changed) : (settleOne d c).fwd.held = d.fwd.held := by
  cases c <;> rfl

theorem held_settle (d : Dev) (l : List Changed) : (l.foldl settleOne d).fwd.held = d.fwd.held := by
  induction l generalizing d with
  | nil => rfl
  | cons c l ih => exact (ih _).trans (held_settleOne d c)

theorem settlingEnd_settles {d : Dev} (h : d.fwd.settling = true) (hh : d.fwd.held = []) :
    settlingEnd d =
      let d1 := d.fwd.changed.foldl settleOne d
      { d1 with fwd := { d1.fwd with settling := false, changed := [] } } := by
  have h0 : (d.fwd.changed.foldl settleOne d).fwd.held = [] := (held_settle ..).trans hh
  simp only [settlingEnd, h, if_true, h0, List.length_nil, releaseHeld]

theorem settlingEnd_idle {d : Dev} (h : d.fwd.settling = false) : settlingEnd d = d := by
  simp only [settlingEnd, h, Bool.false_eq_true, if_false]

/-- Settles O14. -/
theorem tableReadsAndCommits : Obligations.TableReadsAndCommits := by
  intro s h hs
  refine ⟨fun part ep hp => ?emRead, fun g addr hp => ?grpRead, fun tick tickv hp => ?commit, fun c hc => ?flip,
    fun c hc hr hl => ?quietFlip, fun hc => ?noFlip, fun hset hh => ?settle, fun hset => ?settled⟩
  case emRead => exact cmdDoes_of_runCmd rfl hs hp rfl
  case grpRead => exact cmdDoes_of_runCmd rfl hs hp rfl
  case commit => exact cmdDoes_of_runCmd rfl hs hp (sequence_commit ..)
  case flip => exact does_of_act rfl hs (flipEpoch_armed (d := s.dev.fresh) hc)
  case quietFlip =>
    refine gives_of_act rfl hs ?_
    obtain ⟨fl, pos, he⟩ := epochFlip_quiet (d := s.dev.fresh) hc hr
    have hb : bundleAborts (s.dev.fresh.flipped fl pos) = s.dev.fresh.flipped fl pos := bundleAborts_dead hl
    rw [flipEpoch_armed (d := s.dev.fresh) hc, he, hb]
    exact ⟨rd_flipped .., rfl, rfl, rfl, rfl, rfl, rfl, rfl, fun a ha => tget?_regs_wr_other _ _ ha, rfl⟩
  case noFlip => exact does_of_act rfl hs (flipEpoch_idle (d := s.dev.fresh) hc)
  case settle => exact does_of_act rfl hs (settlingEnd_settles (d := s.dev.fresh) hset hh)
  case settled => exact does_of_act rfl hs (settlingEnd_idle (d := s.dev.fresh) hset)

end Sys2Proof.Machine
end

section
/-! # Forwarding tables (spec/02): upkeep of the endpoint table -/
namespace Sys2Proof.Machine

theorem emFind_nil (d : Dev) (part ep a : Nat) : emFind d [] part ep a = none :=
  List.find?_eq_none.mpr fun x _ => by
    have h : emAt [] x = 0 := rfl
    simp [h, emValid, bit]

/-- A learn request that names a port of 2^18. No port has that number, but nothing in the state bounds the number that a
request holds, and an entry of this target overflows into the address below its key. -/
def overflowingLearn : LearnReq := ⟨0, 0, 2 ^ 18⟩

/-- A device that runs, with an empty endpoint table and the overflowing request first on die 0. -/
def overflowingState : State :=
  { State.reset with dev := { State.reset.dev with
      pwr := { State.reset.dev.pwr with step := 8, porHigh := true, perstHigh := true }
      fwd := { State.reset.dev.fwd with learnQ := [[overflowingLearn]] } } }

/-- Refutes O15: the entry of the overflowing request has another key than the request, so it takes a way of another bucket
(slot 3084) than the one that was free for the request's key (slot 0). -/
theorem not_tableUpkeep : ¬ Obligations.TableUpkeep := by
  intro h
  obtain ⟨hl, -⟩ := h overflowingState (by decide)
  have hw : freeWay overflowingState.dev.fwd.em
      (emBucket overflowingState.dev 0 overflowingLearn.part.toNat overflowingLearn.src.toNat) = some 0 := by decide +kernel
  have hd := hl 0 overflowingLearn [] 0 rfl (fun a => emFind_nil ..) hw
  have he := hd.symm.trans (act_eq_of_running (s := overflowingState) (by decide) (learnInsert 0))
  injection he with he
  exact absurd (congrArg (fun s => s.dev.fwd.em.map (·.1)) he) (by decide +kernel)

end Sys2Proof.Machine
end

section
/-! # Partitions and held frames (spec/02) -/
namespace Sys2Proof.Machine

theorem abortWhere_empty {d : Dev} (h : d.coll.ctxs = []) (q : Ctx → Bool) (reason : Nat) : abortWhere d q reason = d := by
  simp only [abortWhere, h, List.filter_nil, List.map_nil, List.foldl_nil]

/-- A partition's STATE is set, and where it leaves LIVE no context is there to abort (R38). -/
theorem setPartState_sets {d : Dev} {p : Nat} {st : BitVec 2} (h : (partOf d p).st ≠ 1 ∨ st = 1 ∨ d.coll.ctxs = []) :
    setPartState d p st.toNat = setPart d p { partOf d p with st := st } := by
  have hst : BitVec.ofNat 2 st.toNat = st := by simp
  have h1 : st.toNat ≠ 1 ↔ st ≠ 1 := ⟨fun h he => h (by rw [he]; rfl), fun h he => h (BitVec.eq_of_toNat_eq he)⟩
  simp only [setPartState, hst, h1]
  split
  next hc =>
    obtain ⟨ho, hn⟩ := hc
    exact abortWhere_empty (d := setPart d p _) ((h.resolve_left fun hx => hx ho).resolve_left hn) _ _
  next => rfl

theorem partDrained_empty {d : Dev} {p : Nat} (h : (partOf d p).st = 2) (ho : ∀ die : Fin 4, partOcc d p die = 0) :
    partDrained p d = event (setPart d p { partOf d p with st := 0 }) 0x0180 255 0 [(2, p)] := by
  refine if_pos ⟨h, List.all_eq_true.mpr fun die hd => ?_⟩
  exact beq_iff_eq.mpr (ho ⟨die, List.mem_range.mp hd⟩)

theorem partDrained_idle {d : Dev} {p : Nat} (h : (partOf d p).st ≠ 2) : partDrained p d = d := if_neg fun hc => h hc.1

theorem floodRelease_fits {d : Dev} {id : Nat} {i : Ing} (hi : findIng d id = some i) (hw : i.floodWait = true)
    (hc : floodCost d i.frame ≤ floodTok d (i.port / 128) i.frame.hdr.part.toNat) :
    floodRelease id d = setIng (setFlood d (i.port / 128) i.frame.hdr.part.toNat
      (floodTok d (i.port / 128) i.frame.hdr.part.toNat - floodCost d i.frame)) { i with floodWait := false } := by
  simp only [floodRelease, hi]
  exact if_pos ⟨hw, hc⟩

theorem foreignDequeue_takes {d : Dev} {die : Nat} (h : ∀ i ∈ d.sw.ing, i.hold = .foreign → i.port / 128 ≠ die) :
    foreignDequeue die d =
      { d with fwd := { d.fwd with foreignQ := lset d.fwd.foreignQ die ((d.fwd.foreignQ.getD die []).drop 1) } } := by
  have hf : d.sw.ing.find? (fun i => i.hold == .foreign && i.port / 128 == die) = none :=
    List.find?_eq_none.mpr fun i hi => by simpa using h i hi
  simp only [foreignDequeue, hf]

/-- Settles O16. -/
theorem partitionsAndHeldFrames : Obligations.PartitionsAndHeldFrames := by
  intro s hs
  refine ⟨fun h part st hp hst hl => ?state, fun part h ho => ?drained, fun part h => ?busy,
    fun id i hi hw hc => ?flood, fun die h => ?foreign⟩
  case state =>
    exact cmdDoes_of_checked rfl (bne_iff_ne.mpr hst) hs hp
      (congrArg (complete · _ 0 []) (setPartState_sets (d := takeCmd s.dev.fresh h) hl))
  case drained => exact does_of_act rfl hs (partDrained_empty (d := s.dev.fresh) h ho)
  case busy => exact does_of_act rfl hs (partDrained_idle (d := s.dev.fresh) h)
  case flood => exact does_of_act rfl hs (floodRelease_fits (d := s.dev.fresh) hi hw hc)
  case foreign => exact does_of_act rfl hs (foreignDequeue_takes (d := s.dev.fresh) h)

end Sys2Proof.Machine
end

section
/-! # Frames received (spec/02, spec/03) -/
namespace Sys2Proof.Machine

/-! ### What no injection and no stall leaves alone -/

theorem takeMark_no_marks {d : Dev} (h : d.rel.marks = []) (id die unit : Nat) : takeMark d id die unit = (none, d) := by
  rw [takeMark, h]
  rfl

theorem laneMark_no_marks {d : Dev} (h : d.rel.marks = []) (id p : Nat) : laneMark d id p = (false, d) := by
  unfold laneMark
  refine List.foldlRecOn _ _ (motive := fun x => x = (false, d)) rfl ?_
  rintro _ rfl l -
  simp [takeMark_no_marks h]

theorem unstallDie_no_stall {d : Dev} (h : ∀ i ∈ d.sw.ing, inStall i = false) (die : Nat) : unstallDie d die = d := by
  have hs : stalledOf d die = [] := List.filter_eq_nil_iff.mpr fun i hi => by simp [h i hi]
  rw [unstallDie, hs]
  rfl

theorem asReceived_whole {d : Dev} {f : Frame} (hm : d.rel.marks = []) (hl : frameLen d f ≤ 8266) (p : Nat) :
    asReceived d p f = (f, d) := by
  simp only [asReceived, Nat.sub_eq_zero_of_le hl, if_true, laneMark_no_marks hm, Bool.false_eq_true, if_false]

/-! ### Cells of a frame -/

/-- A frame that has been taken in: its record, and the device with it. -/
structure TakenIn (d : Dev) (p : Nat) (f : Frame) (x : Ing × Dev) : Prop where
  frame : x.1.frame = f
  port : x.1.port = p
  ready : x.1.hold = .ready
  late : x.1.late = false
  regs : x.2.regs = d.regs
  fwd : x.2.fwd = d.fwd
  ing : x.2.sw.ing = d.sw.ing ++ [x.1]

theorem ing_claimCells (n : Nat) (d : Dev) (p v : Nat) : (claimCells n d p v).sw.ing = d.sw.ing := by
  induction n generalizing d with
  | zero => rfl
  | succ n ih =>
    unfold claimCells
    split
    · exact ih _
    · rfl

theorem TakenIn.claimCells {d e : Dev} {p : Nat} {f : Frame} {i : Ing} (h : TakenIn d p f (i, e)) (n q v : Nat) :
    TakenIn d p f (i, claimCells n e q v) := by
  obtain ⟨sw, hc⟩ := claimCells_frame n e q v
  have hi := ing_claimCells n e q v
  exact { h with
    regs := by rw [hc]; exact h.regs
    fwd := by rw [hc]; exact h.fwd
    ing := hi.trans h.ing }

theorem takenIn_newIng {d e : Dev} {p : Nat} {f : Frame} (hr : e.regs = d.regs) (hf : e.fwd = d.fwd) (hi : e.sw.ing = d.sw.ing)
    (v res shr guard : Nat) : TakenIn d p f (newIng e p v f res shr guard) :=
  ⟨rfl, rfl, rfl, rfl, hr, hf, congrArg (· ++ _) hi⟩

/-- Shared cells are claimed, or the claim waits, once the frame is in. -/
theorem TakenIn.claims {d e : Dev} {p : Nat} {f : Frame} {i : Ing} (h : TakenIn d p f (i, e)) (c : Bool) (n q v k part : Nat) :
    let e1 := if c then holdClaims e k part else e
    TakenIn d p f (i, if e1.sw.capHold.any (·.1 == k) then e1 else Machine.claimCells n e1 q v) := by
  intro e1
  have h1 : TakenIn d p f (i, e1) := by
    cases c
    · exact h
    · exact { h with }
  split
  · exact h1
  · exact h1.claimCells n q v

theorem takenIn_takeIn (d : Dev) (p v : Nat) (f : Frame) (cells : Nat) : TakenIn d p f (takeIn d p v f cells) := by
  let x := pvSt (pruneHolds d) p v
  let res := natMin cells (reserveOf (pruneHolds d) p v - x.resUsed)
  let e := setPv (pruneHolds d) p v
    { x with resUsed := x.resUsed + res, shrUsed := x.shrUsed + (cells - res), rcvd := x.rcvd + cells }
  have h : TakenIn d p f (newIng e p v f res (cells - res) 0) :=
    takenIn_newIng (d := d) (e := e) rfl rfl rfl ..
  exact h.claims (!isForeign (newIng e p v f res (cells - res) 0).2 f && capped (newIng e p v f res (cells - res) 0).2
    f.hdr.part.toNat (p / 128)) cells p v (8 * p + v) f.hdr.part.toNat

theorem isForeign_regs {d e : Dev} (h : e.regs = d.regs) (f : Frame) : isForeign e f = isForeign d f := by
  unfold isForeign rdf rd
  rw [h]

theorem portState_regs {d e : Dev} (h : e.regs = d.regs) (p : Nat) : portState e p = portState d p := by
  unfold portState rdf rd
  rw [h]

/-! ### The reception -/

theorem frameReceive_lcf {d : Dev} {p : Nat} {f : Frame} (hl : linkUp d p = true)
    (he : f.etype.toNat = rdf d .swLcf (tix (p / 8)) 31 16) : frameReceive p f d = lcfReceive p (lcfOf f) d := by
  simp only [frameReceive, hl, Bool.not_true, Bool.false_eq_true, if_false, he, if_true]

/-- A frame of whole length with credit enters the pipeline of its tile (R31, R76). -/
theorem frameReceive_whole {d : Dev} {p : Nat} {f : Frame} (hl : linkUp d p = true) (hm : d.rel.marks = []) (hs : ∀ i ∈ d.sw.ing, inStall i = false)
    (hn : frameLen d f ≤ 8266) (he : f.etype.toNat ≠ rdf d .swLcf (tix (p / 8)) 31 16)
    (hc : (pvSt d p (vcOf d f)).rcvd + frameCells d f ≤ (pvSt d p (vcOf d f)).adv) :
    frameReceive p f d =
      pipeline (takeIn d p (vcOf d f) f (frameCells d f)).2 (takeIn d p (vcOf d f) f (frameCells d f)).1 := by
  obtain ⟨-, -, hr, -, -, -, hi⟩ := takenIn_takeIn d p (vcOf d f) f (frameCells d f)
  have hst : tileStalled (takeIn d p (vcOf d f) f (frameCells d f)).2 (p / 8) = false := by
    rw [tileStalled, hi, List.any_append, List.any_eq_false.mpr fun i hi => by simp [hs i hi]]
    simp [inStall, hr]
  simp only [frameReceive, hl, Bool.not_true, Bool.false_eq_true, if_false, he, unstallDie_no_stall hs,
    asReceived_whole hm hn, laneMark_no_marks hm, Nat.not_lt.mpr hc, decide_false, Bool.or_self, false_and, hst]

section
variable {d e : Dev} {i : Ing} {f : Frame} {p : Nat} (hx : TakenIn d p f (i, e))
include hx

theorem pipeline_badHcrc (hf : isForeign d f = false) (hh : f.hdr.hcrc ≠ hcrcOf f.hdr) :
    pipeline e i = discardIng (raise (stSet (cnt1 e (srcFwd (p / 128)) 0) (srcFwd (p / 128)) 0) (srcSw (p / 8)) 0) i := by
  obtain ⟨hfr, hp, -, -, hr, -, -⟩ := hx
  dsimp only at hfr hp hr
  have hf' : isForeign e f = false := (isForeign_regs hr f).trans hf
  simp only [pipeline, hfr, hp, hf', Bool.false_eq_true, if_false, hh, ne_eq, not_false_eq_true, if_true]

theorem pipeline_notLive (hf : isForeign d f = false) (hh : f.hdr.hcrc = hcrcOf f.hdr) (hs : portState d p ≠ 3)
    (hl : (partOf d f.hdr.part.toNat).st ≠ 1) : pipeline e i = discardIng (raise e (srcSw (p / 8)) 2) i := by
  obtain ⟨hfr, hp, -, hla, hr, hw, -⟩ := hx
  dsimp only at hfr hp hr hla hw
  have hf' : isForeign e f = false := (isForeign_regs hr f).trans hf
  have hs' : portState e p ≠ 3 := by rwa [portState_regs hr]
  have hl' : (partOf e f.hdr.part.toNat).st ≠ 1 := by unfold partOf; rwa [hw]
  simp only [pipeline, hfr, hp, hf', Bool.false_eq_true, if_false, hh, ne_eq, not_true_eq_false, hs', hla, hl',
    Bool.false_and, Bool.not_false, not_false_eq_true, and_self, true_or, if_true]

theorem pipeline_foreign (hf : isForeign d f = true) (hg : f.fcs = .good)
    (hq : (d.fwd.foreignQ.getD (p / 128) []).length < 64) :
    pipeline e i = foreignPush (cnt1 e (srcFwd (p / 128)) 2) i := by
  obtain ⟨hfr, hp, -, -, hr, hw, -⟩ := hx
  dsimp only at hfr hp hr hw
  have hf' : isForeign e f = true := (isForeign_regs hr f).trans hf
  have hq' : ((cnt1 e (srcFwd (p / 128)) 2).fwd.foreignQ.getD (p / 128) []).length < 64 := by
    rw [cnt1_fwd, hw]
    exact hq
  simp only [pipeline, hfr, hf', hg, if_true, foreignIn, hp, hq']

end

/-- Settles O17: a frame with credit is taken in, and the pipeline judges it. -/
theorem framesReceived : Obligations.FramesReceived := by
  intro s p f hs hl hm hst hn
  have hx := takenIn_takeIn s.dev.fresh p (vcOf s.dev f) f (frameCells s.dev f)
  refine ⟨fun he => does_of_act rfl hs (frameReceive_lcf (d := s.dev.fresh) hl he), fun he hc => ?_⟩
  have hw := frameReceive_whole (d := s.dev.fresh) hl hm hst hn he hc
  refine ⟨does_of_act rfl hs hw, fun hf hh => ?hcrc, fun hf hh hp hl => ?notLive, fun hf hg hq => ?foreign⟩
  case hcrc => exact does_of_act rfl hs (hw.trans (pipeline_badHcrc hx hf hh))
  case notLive => exact does_of_act rfl hs (hw.trans (pipeline_notLive hx hf hh hp hl))
  case foreign =>
    have hv : vcOf s.dev.fresh f = 0 := if_pos hf
    rw [hv] at hw
    exact does_of_act rfl hs (hw.trans (pipeline_foreign (takenIn_takeIn ..) hf hg hq))

end Sys2Proof.Machine
end

section
/-! # Link-control frames (spec/03 R74, R75) -/
namespace Sys2Proof.Machine

/-! ### The credit state of a port's channels -/

theorem pvSt_setPv_at (d : Dev) (p v w : Nat) (x : Pv) : pvSt (setPv d p v x) p w = if v = w then x else pvSt d p w := by
  rw [pvSt, setPv, tgetD_tput, pvSt]
  simp only [Nat.add_left_cancel_iff]

/-- One change of several channels of a port. -/
def pvMap (p : Nat) (g : Nat → Pv → Pv) (l : List Nat) (d : Dev) : Dev :=
  l.foldl (fun d v => setPv d p v (g v (pvSt d p v))) d

theorem pvMap_frame (p : Nat) (g : Nat → Pv → Pv) (l : List Nat) (d : Dev) :
    ∃ t, pvMap p g l d = { d with sw := { d.sw with pv := t } } := by
  induction l generalizing d with
  | nil => exact ⟨d.sw.pv, rfl⟩
  | cons v l ih => exact ih (setPv d p v (g v (pvSt d p v)))

theorem pvSt_pvMap (p : Nat) (g : Nat → Pv → Pv) {l : List Nat} (hl : l.Nodup) (d : Dev) (w : Nat) :
    pvSt (pvMap p g l d) p w = if w ∈ l then g w (pvSt d p w) else pvSt d p w := by
  induction l generalizing d with
  | nil => simp [pvMap]
  | cons v l ih =>
    obtain ⟨hv, hl⟩ := List.nodup_cons.mp hl
    refine (ih hl (setPv d p v (g v (pvSt d p v)))).trans ?_
    simp only [pvSt_setPv_at]
    by_cases h : v = w
    · subst h
      simp [hv]
    · simp [h, Ne.symm h]

theorem pvMap_other (p : Nat) (g : Nat → Pv → Pv) {l : List Nat} (hl : ∀ v ∈ l, v < 8) (d : Dev) {k : Nat} (hk : k / 8 ≠ p) :
    tget? (pvMap p g l d).sw.pv k = tget? d.sw.pv k := by
  induction l generalizing d with
  | nil => rfl
  | cons v l ih =>
    obtain ⟨hv, hl⟩ := List.forall_mem_cons.mp hl
    refine (ih hl (setPv d p v (g v (pvSt d p v)))).trans ?_
    have hne : 8 * p + v ≠ k := by omega
    simp only [setPv, tget?_tput, hne, if_false]

/-! ### The queues of a port -/

theorem egrQ_setEgrQ_at (d : Dev) (p v w : Nat) (q : List Egr) :
    egrQ (setEgrQ d p v q) p w = if v = w then q else egrQ d p w := by
  rw [egrQ, setEgrQ, tgetD_tput, egrQ]
  simp only [Nat.add_left_cancel_iff]

theorem egr_setEgrQ_other (d : Dev) {p v : Nat} (q : List Egr) (hv : v < 8) {k : Nat} (hk : k / 8 ≠ p) :
    tget? (setEgrQ d p v q).sw.egr k = tget? d.sw.egr k := by
  have hne : 8 * p + v ≠ k := by omega
  simp only [setEgrQ, tget?_tput, hne, if_false]

theorem mem_byGrant {x e : Egr} {l : List Egr} (h : x ∈ byGrant e l) : x = e ∨ x ∈ l := by
  induction l with
  | nil => exact .inl (List.mem_singleton.mp h)
  | cons y l ih =>
    unfold byGrant at h
    split at h
    · exact List.mem_cons.mp h
    · obtain rfl | h := List.mem_cons.mp h
      · exact .inr List.mem_cons_self
      · exact (ih h).imp id (List.mem_cons_of_mem _)

/-- Nothing but egress queues differs. -/
def QueuesOnly (d e : Dev) : Prop := ∃ t, e = { d with sw := { d.sw with egr := t } }

theorem QueuesOnly.setEgrQ {d e : Dev} (h : QueuesOnly d e) (p v : Nat) (q : List Egr) : QueuesOnly d (setEgrQ e p v q) := by
  obtain ⟨t, rfl⟩ := h
  exact ⟨_, rfl⟩

/-- Nothing but the queues of port `p` differs. -/
structure QueuesOf (p : Nat) (d e : Dev) : Prop where
  only : QueuesOnly d e
  other : ∀ k, k / 8 ≠ p → tget? e.sw.egr k = tget? d.sw.egr k

theorem QueuesOf.refl (p : Nat) (d : Dev) : QueuesOf p d d := ⟨⟨d.sw.egr, rfl⟩, fun _ _ => rfl⟩

theorem QueuesOf.setEgrQ {p v : Nat} {d e : Dev} (h : QueuesOf p d e) (hv : v < 8) (q : List Egr) :
    QueuesOf p d (setEgrQ e p v q) where
  only := h.only.setEgrQ p v q
  other k hk := (egr_setEgrQ_other e q hv hk).trans (h.other k hk)

/-- A copy of queue `v` stands where it belongs. -/
def Placed (d : Dev) (p v : Nat) (x : Egr) : Prop :=
  ∀ i, x.ing.bind (findIng d) = some i → demoted i = true → (∀ ses, x.via ≠ .mirror ses) →
    v = egrVc d i ⟨0, [p], 0, x.via⟩ p

theorem egrVc_lt {d : Dev} (h : ∀ i ∈ d.sw.ing, i.vcIn < 8) {x : Egr} {i : Ing} (hi : x.ing.bind (findIng d) = some i)
    {p v : Nat} (hm : ∀ ses, x.via ≠ .mirror ses) : egrVc d i ⟨0, [p], v, x.via⟩ p < 8 := by
  obtain ⟨id, -, hf⟩ := Option.bind_eq_some_iff.mp hi
  have hvc := i.frame.hdr.vc.isLt
  unfold egrVc
  dsimp only
  split
  next ses hs => exact absurd hs (hm ses)
  next =>
    split
    · exact h i (List.mem_of_find?_eq_some hf)
    · exact hvc

/-- The queues of a port, each set to a list. -/
theorem egrQ_foldl_setEgrQ (p : Nat) (g : Nat → List Egr) (l : List Nat) (d : Dev) (w : Nat) :
    egrQ (l.foldl (fun d v => setEgrQ d p v (g v)) d) p w = if w ∈ l then g w else egrQ d p w := by
  induction l generalizing d with
  | nil => rfl
  | cons v l ih =>
    refine (ih _).trans ?_
    rw [egrQ_setEgrQ_at]
    by_cases hw : w ∈ l
    · simp [hw]
    · by_cases h : v = w
      · simp [h]
      · simp [hw, h, Ne.symm h]

/-- The copies of a port's queues are sorted by place: those that stand there stay, and the others join it by their grants. -/
def sortQueues (p : Nat) (all : List (Nat × Nat × Egr)) (d : Dev) : Dev :=
  (all.filter (fun x => x.1 != x.2.1)).foldl (fun d x =>
    setEgrQ d p x.2.1 (byGrant { x.2.2 with demoteSkip := x.2.1 != 7 } (egrQ d p x.2.1)))
    ((List.range 8).foldl (fun d v => setEgrQ d p v ((all.filter (fun x => x.1 == v && x.2.1 == v)).map (·.2.2))) d)

/-- Each copy is sorted to where it belongs. -/
theorem placeDemoted_sorts (d : Dev) (p : Nat) :
    ∃ all, placeDemoted d p = sortQueues p all d ∧
      ((∀ i ∈ d.sw.ing, i.vcIn < 8) → ∀ y ∈ all, y.2.1 < 8 ∧ Placed d p y.2.1 y.2.2) := by
  unfold placeDemoted
  refine ⟨_, rfl, fun h y hy => ?_⟩
  obtain ⟨v, hv, hy⟩ := List.mem_flatMap.mp hy
  obtain ⟨x, -, rfl⟩ := List.mem_map.mp hy
  have hv : v < 8 := List.mem_range.mp hv
  dsimp only
  split
  next ses hs => exact ⟨hv, fun i hi hd hm => absurd hs (hm ses)⟩
  next i hi hm =>
    split
    next hd =>
      refine ⟨egrVc_lt h hi fun ses hs => hm ses hs, fun j hj _ _ => ?_⟩
      obtain rfl : i = j := Option.some.inj (hi.symm.trans hj)
      rfl
    next hd => exact ⟨hv, fun j hj hd' _ => absurd (Option.some.inj (hi.symm.trans hj) ▸ hd') hd⟩
  next hi _ => exact ⟨hv, fun j hj => nomatch hi.symm.trans hj⟩

theorem sortQueues_placed {d : Dev} {p : Nat} {P : Nat → Egr → Prop}
    (hP : ∀ v x b, P v x → P v { x with demoteSkip := b }) {all : List (Nat × Nat × Egr)}
    (ha : ∀ y ∈ all, y.2.1 < 8 ∧ P y.2.1 y.2.2) :
    (∀ v < 8, ∀ x ∈ egrQ (sortQueues p all d) p v, P v x) ∧ QueuesOf p d (sortQueues p all d) := by
  unfold sortQueues
  generalize hs : (List.range 8).foldl (fun d v =>
    setEgrQ d p v ((all.filter (fun x => x.1 == v && x.2.1 == v)).map (·.2.2))) d = d1
  have hk : ∀ v < 8, ∀ x ∈ egrQ d1 p v, P v x := by
    intro v hv x hx
    rw [← hs, egrQ_foldl_setEgrQ, if_pos (List.mem_range.mpr hv)] at hx
    obtain ⟨y, hy, rfl⟩ := List.mem_map.mp hx
    obtain ⟨hy, hyv⟩ := List.mem_filter.mp hy
    obtain ⟨-, h2⟩ : y.1 = v ∧ y.2.1 = v := by simpa using hyv
    exact h2 ▸ (ha y hy).2
  have hq : QueuesOf p d d1 := by
    rw [← hs]
    exact List.foldlRecOn _ _ (motive := QueuesOf p d) (.refl p d) fun e he v hv => he.setEgrQ (List.mem_range.mp hv) _
  refine List.foldlRecOn _ _ (motive := fun e => (∀ v < 8, ∀ x ∈ egrQ e p v, P v x) ∧ QueuesOf p d e) ⟨hk, hq⟩ ?_
  rintro e ⟨he, hqe⟩ y hy
  obtain ⟨hlt, hp⟩ := ha y (List.mem_filter.mp hy).1
  refine ⟨fun v hv x hx => ?_, hqe.setEgrQ hlt _⟩
  rw [egrQ_setEgrQ_at] at hx
  split at hx
  next hyv =>
    subst hyv
    obtain rfl | hx := mem_byGrant hx
    · exact hP _ _ _ hp
    · exact he _ hv x hx
  next => exact he v hv x hx

/-- Once placed, each demoted copy of the port stands in the queue where it belongs, and other queues are as they were. -/
theorem placeDemoted_places {d : Dev} (h : ∀ i ∈ d.sw.ing, i.vcIn < 8) (p : Nat) :
    (∀ v < 8, ∀ x ∈ egrQ (placeDemoted d p) p v, Placed d p v x) ∧ QueuesOf p d (placeDemoted d p) := by
  obtain ⟨all, hs, ha⟩ := placeDemoted_sorts d p
  rw [hs]
  exact sortQueues_placed (fun _ _ _ h => h) (ha h)

/-- Nothing but queues changes as copies are placed. -/
theorem placeDemoted_only (d : Dev) (p : Nat) : QueuesOnly d (placeDemoted d p) := by
  obtain ⟨all, hs, -⟩ := placeDemoted_sorts d p
  rw [hs, sortQueues]
  refine List.foldlRecOn _ _ (motive := QueuesOnly d) ?_ fun e he y _ => he.setEgrQ _ _ _
  exact List.foldlRecOn _ _ (motive := QueuesOnly d) ⟨d.sw.egr, rfl⟩ fun e he v _ => he.setEgrQ _ _ _

/-! ### Frames received -/

/-- The credit that a link-control frame gives a channel. -/
def lcfCredit (l : Lcf) (v : Nat) (x : Pv) : Pv := { x with cg := l.cg.getD v 0 }

/-- The device with the credit of a link-control frame and the link's first frame noted. -/
def lcfTaken (p : Nat) (l : Lcf) (d : Dev) : Dev :=
  let e := pvMap p (lcfCredit l) (List.range 8) d
  { e with sw := { e.sw with link := tset d.sw.link p { linkSt d p with
      lcfRcvd := true
      vc7 := if l.init ∨ !(linkSt d p).lcfRcvd then l.cg.getD 7 0 != 0 else (linkSt d p).vc7 } } }

theorem lcfReceive_good {d : Dev} {p : Nat} {l : Lcf} (hl : linkUp d p = true) (hg : l.fcs = .good) (hv : l.ver = 1) :
    lcfReceive p l d =
      if l.init ∨ !(linkSt d p).lcfRcvd then placeDemoted (lcfTaken p l d) p else lcfTaken p l d := by
  obtain ⟨t, ht⟩ := pvMap_frame p (lcfCredit l) (List.range 8) d
  have hk : linkSt (pvMap p (lcfCredit l) (List.range 8) d) p = linkSt d p := by rw [ht]; rfl
  have hs : (pvMap p (lcfCredit l) (List.range 8) d).sw.link = d.sw.link := by rw [ht]
  simp only [pvMap, lcfCredit] at hk hs
  simp only [lcfReceive, hl, Bool.not_true, Bool.false_eq_true, if_false, hg, hv, ne_eq, not_true_eq_false, lcfTaken, pvMap, lcfCredit, hk, hs]

theorem lcfReceive_ver {d : Dev} {p : Nat} {l : Lcf} (hl : linkUp d p = true) (hg : l.fcs = .good) (hv : l.ver ≠ 1) :
    lcfReceive p l d = d := by
  simp only [lcfReceive, hl, Bool.not_true, Bool.false_eq_true, if_false, hg, hv, ne_eq, not_false_eq_true, if_true]

theorem lcfReceive_bad {d : Dev} {p : Nat} {l : Lcf} (hl : linkUp d p = true) (hg : l.fcs = .bad) :
    lcfReceive p l d = raise d (srcSw (p / 8)) 0 := by
  simp [lcfReceive, hl, hg]

theorem lcfReceive_stomped {d : Dev} {p : Nat} {l : Lcf} (hl : linkUp d p = true) (hg : l.fcs = .stomped) :
    lcfReceive p l d = raise (cnt1 d (srcSw (p / 8)) 8) (srcSw (p / 8)) 0 := by
  simp [lcfReceive, hl, hg]

theorem lcfTaken_frame (p : Nat) (l : Lcf) (d : Dev) :
    ∃ pv link, lcfTaken p l d = { d with sw := { d.sw with pv := pv, link := link } } := by
  obtain ⟨t, ht⟩ := pvMap_frame p (lcfCredit l) (List.range 8) d
  rw [lcfTaken, ht]
  exact ⟨_, _, rfl⟩

theorem pv_lcfTaken (p : Nat) (l : Lcf) (d : Dev) :
    (lcfTaken p l d).sw.pv = (pvMap p (lcfCredit l) (List.range 8) d).sw.pv := by
  unfold lcfTaken
  dsimp only

theorem pvSt_lcfTaken (p : Nat) (l : Lcf) (d : Dev) {v : Nat} (hv : v < 8) :
    pvSt (lcfTaken p l d) p v = lcfCredit l v (pvSt d p v) := by
  have h := pvSt_pvMap p (lcfCredit l) (List.nodup_range (n := 8)) d v
  rw [if_pos (List.mem_range.mpr hv), pvSt] at h
  rw [pvSt, pv_lcfTaken, h]

theorem linkSt_lcfTaken (p : Nat) (l : Lcf) (d : Dev) :
    linkSt (lcfTaken p l d) p = { linkSt d p with
      lcfRcvd := true
      vc7 := if l.init ∨ !(linkSt d p).lcfRcvd then l.cg.getD 7 0 != 0 else (linkSt d p).vc7 } := by
  simp only [linkSt, lcfTaken, tgetD_tset, if_true]

/-- What R74 asks of a link-control frame that is received. -/
def LcfTaken (p : Nat) (l : Lcf) (d e : Dev) : Prop :=
  (∀ v < 8, (pvSt e p v).cg = l.cg.getD v 0 ∧ (pvSt e p v).sent = (pvSt d p v).sent ∧
    (pvSt e p v).grant = (pvSt d p v).grant ∧ (pvSt e p v).rcvd = (pvSt d p v).rcvd) ∧
  (linkSt e p).lcfRcvd = true ∧ (linkSt e p).initSent = (linkSt d p).initSent ∧
  ((linkSt e p).vc7 = if l.init = true ∨ (linkSt d p).lcfRcvd = false then l.cg.getD 7 0 != 0 else (linkSt d p).vc7) ∧
  (∀ k, k / 8 ≠ p → tget? e.sw.pv k = tget? d.sw.pv k) ∧
  (∀ q, q ≠ p → tget? e.sw.link q = tget? d.sw.link q)

theorem lcfTaken_taken (p : Nat) (l : Lcf) (d : Dev) : LcfTaken p l d (lcfTaken p l d) := by
  refine ⟨fun v hv => ?_, ?_, ?_, ?_, fun k hk => ?_, fun q hq => ?_⟩
  · rw [pvSt_lcfTaken p l d hv]
    exact ⟨rfl, rfl, rfl, rfl⟩
  · rw [linkSt_lcfTaken]
  · rw [linkSt_lcfTaken]
  · simp only [linkSt_lcfTaken, Bool.not_eq_true']
  · rw [pv_lcfTaken]
    exact pvMap_other p (lcfCredit l) (fun v hv => List.mem_range.mp hv) d hk
  · simp only [lcfTaken, tget?_tset, Ne.symm hq, if_false]

/-- A demoted copy belongs in VC7 where the link grants VC7 cells, and else where it came in. -/
theorem egrVc_lcfTaken {p : Nat} {l : Lcf} {d : Dev} (h : l.init = true ∨ (linkSt d p).lcfRcvd = false) {i : Ing}
    (hd : demoted i = true) {via : Via} (hm : ∀ ses, via ≠ .mirror ses) :
    egrVc (lcfTaken p l d) i ⟨0, [p], 0, via⟩ p = if l.cg.getD 7 0 ≠ 0 then 7 else i.vcIn := by
  have hl : l.init = true ∨ (!(linkSt d p).lcfRcvd) = true := h.imp_right fun h => by rw [h]; rfl
  have h7 : i.frame.hdr.vc.toNat = 7 := by
    have h1 : i.frame.hdr.vc = 7 := beq_iff_eq.mp (Bool.and_eq_true_iff.mp hd).1
    rw [h1]
    rfl
  cases via with
  | mirror ses => exact absurd rfl (hm ses)
  | _ =>
    simp only [egrVc, linkSt_lcfTaken, hd, hl, if_true, Bool.true_and, h7]
    by_cases hc : l.cg.getD 7 0 = 0 <;> simp

theorem LcfTaken.queues {p : Nat} {l : Lcf} {d e f : Dev} (h : LcfTaken p l d e)
    (hq : QueuesOnly e f) : LcfTaken p l d f := by
  obtain ⟨t, rfl⟩ := hq
  exact h

/-- A good link-control frame gives its credit, and a frame of INT or the link's first places the demoted copies. -/
theorem lcfReceive_gives {d : Dev} {p : Nat} {l : Lcf} (hl : linkUp d p = true) (hg : l.fcs = .good) (hv : l.ver = 1) :
    let e := lcfReceive p l d
    LcfTaken p l d e ∧
    (l.init = false ∧ (linkSt d p).lcfRcvd = true → e.sw.egr = d.sw.egr) ∧
    (l.init = true ∨ (linkSt d p).lcfRcvd = false → (∀ i ∈ d.sw.ing, i.vcIn < 8) →
      (∀ v < 8, ∀ x ∈ egrQ e p v, ∀ i, x.ing.bind (findIng d) = some i → demoted i = true → (∀ ses, x.via ≠ .mirror ses) →
        v = if l.cg.getD 7 0 ≠ 0 then 7 else i.vcIn) ∧
      (∀ k, k / 8 ≠ p → tget? e.sw.egr k = tget? d.sw.egr k)) ∧
    e = { d with sw := { d.sw with pv := e.sw.pv, link := e.sw.link, egr := e.sw.egr } } := by
  intro e
  have he : e = _ := lcfReceive_good hl hg hv
  have ht := lcfTaken_taken p l d
  obtain ⟨pv, link, hf⟩ := lcfTaken_frame p l d
  have hvc {i : Ing} := egrVc_lcfTaken (p := p) (l := l) (d := d) (i := i)
  generalize lcfTaken p l d = x at he ht hf hvc
  by_cases hi : l.init = true ∨ (linkSt d p).lcfRcvd = false
  · have hi' : l.init = true ∨ (!(linkSt d p).lcfRcvd) = true := hi.imp_right fun h => by rw [h]; rfl
    rw [if_pos hi'] at he
    have hp := placeDemoted_only x p
    refine ⟨he ▸ ht.queues hp, fun hn => ?_, fun _ hlt => ?_, ?_⟩
    · obtain ⟨h1, h2⟩ := hn
      rw [h1, h2] at hi
      simp at hi
    · have hing : x.sw.ing = d.sw.ing := by rw [hf]
      have hfind : findIng x = findIng d := by
        funext id
        rw [findIng, findIng, hing]
      obtain ⟨hpl, -, hot⟩ := placeDemoted_places (d := x) (by rw [hing]; exact hlt) p
      rw [he]
      refine ⟨fun v hv y hy i hyi hd hm => ?_, fun k hk => (hot k hk).trans (by rw [hf])⟩
      rw [hpl v hv y hy i (hfind ▸ hyi) hd hm]
      exact hvc hi hd hm
    · obtain ⟨t, hp⟩ := hp
      rw [he, hp, hf]
  · have hi' : ¬(l.init = true ∨ (!(linkSt d p).lcfRcvd) = true) := by simpa using hi
    rw [if_neg hi'] at he
    refine ⟨he ▸ ht, fun _ => by rw [he, hf], fun h => absurd h hi, by rw [he, hf]⟩

/-! ### Frames sent -/

/-- A grant is advertised. -/
def advertised (x : Pv) : Pv := { x with adv := x.grant }

theorem mem_lcfVcs (d : Dev) (p : Nat) {v : Nat} (hv : v < 8) : v ∈ lcfVcs d p ↔ ¬(v = 0 ∧ vc0Held d p = true) := by
  simp [lcfVcs, hv]
  tauto

theorem lcfStart_sends (d : Dev) (p : Nat) :
    let e := lcfStart d p
    (∀ v < 8, (pvSt e p v).adv = (if v = 0 ∧ vc0Held d p = true then (pvSt d p v).adv else (pvSt d p v).grant) ∧
      (pvSt e p v).grant = (pvSt d p v).grant ∧ (pvSt e p v).cg = (pvSt d p v).cg) ∧
    (linkSt e p).initSent = true ∧ (linkSt e p).lcfAt = d.now ∧ (linkSt e p).lcfRcvd = (linkSt d p).lcfRcvd ∧
    (∃ x, tget? e.sw.tx p = some x ∧ x.shaped = false ∧ x.frame = lcfFrame d p
      ⟨1, !(linkSt d p).initSent, (List.range 8).map (fun v => BitVec.ofNat 16 (pvSt e p v).adv), .good⟩) ∧
    (∀ k, k / 8 ≠ p → tget? e.sw.pv k = tget? d.sw.pv k) ∧
    (∀ q, q ≠ p → tget? e.sw.link q = tget? d.sw.link q ∧ tget? e.sw.tx q = tget? d.sw.tx q) ∧
    e = { d with sw := { d.sw with pv := e.sw.pv, link := e.sw.link, tx := e.sw.tx } } := by
  intro e
  have hmem : ∀ v ∈ lcfVcs d p, v < 8 := fun v hv => List.mem_range.mp (List.mem_filter.mp hv).1
  have hnd : (lcfVcs d p).Nodup := List.nodup_range.filter _
  obtain ⟨t, ht⟩ := pvMap_frame p (fun _ => advertised) (lcfVcs d p) d
  have hpv (v : Nat) := pvSt_pvMap p (fun _ => advertised) hnd d v
  have hother {k : Nat} (hk : k / 8 ≠ p) := pvMap_other p (fun _ => advertised) hmem d hk
  have he : e = { d with sw := { d.sw with
      pv := t
      link := tset d.sw.link p { linkSt d p with initSent := true, lcfAt := d.now, lcfDue := false }
      tx := tset d.sw.tx p { ownEgr { d with sw := { d.sw with pv := t } } (lcfFrame d p ⟨1, !(linkSt d p).initSent,
        (List.range 8).map (fun v => BitVec.ofNat 16 (pvSt { d with sw := { d.sw with pv := t } } p v).adv), .good⟩) with
          shaped := false } } } := by
    have hfold : (lcfVcs d p).foldl (fun d v => setPv d p v { pvSt d p v with adv := (pvSt d p v).grant }) d =
        { d with sw := { d.sw with pv := t } } := ht
    simp only [e, lcfStart, hfold]
    rfl
  rw [ht] at hpv hother
  have hpe (v : Nat) : pvSt e p v = pvSt { d with sw := { d.sw with pv := t } } p v := by rw [he]; rfl
  refine ⟨fun v hv => ?_, ?_, ?_, ?_, ?_, fun k hk => ?_, fun q hq => ?_, by rw [he]⟩
  · rw [hpe, hpv v]
    by_cases hv0 : v = 0 ∧ vc0Held d p = true
    · rw [if_neg (by rw [mem_lcfVcs d p hv]; exact fun h => h hv0), if_pos hv0]
      exact ⟨rfl, rfl, rfl⟩
    · rw [if_pos ((mem_lcfVcs d p hv).mpr hv0), if_neg hv0]
      exact ⟨rfl, rfl, rfl⟩
  · simp only [he, linkSt, tgetD_tset, if_true]
  · simp only [he, linkSt, tgetD_tset, if_true]
  · simp only [he, linkSt, tgetD_tset, if_true]
  · simp only [hpe]
    rw [he]
    exact ⟨_, (tget?_tset ..).trans (if_pos rfl), rfl, rfl⟩
  · rw [he]
    exact hother hk
  · rw [he]
    simp only [tget?_tset, Ne.symm hq, if_false, and_self]

/-- A link-control frame is due, and its port and LANE domain may send it. -/
structure LcfMaySend (d : Dev) (p : Nat) : Prop where
  up : linkUp d p = true
  state : portState d p ≠ 3
  lanes : ∀ x ∈ portLanes d p, rdb d .lnCtl (lix x) 30 = false
  on : pdOn d (80 + p / 32) = true
  due : (linkSt d p).initSent = false ∨ natMax 1 (rdf d .swLcf (tix (p / 8)) 15 8) ≤ unadvertised d p ∨
    12 * natMax 1 (rdf d .swLcf (tix (p / 8)) 7 0) ≤ d.now - (linkSt d p).lcfAt

theorem lcfSend_may {d : Dev} {p : Nat} (h : LcfMaySend d p) :
    lcfSend p d = if (tget? d.sw.tx p).isNone then lcfStart d p
      else { d with sw := { d.sw with link := tset d.sw.link p { linkSt d p with lcfDue := true } } } := by
  obtain ⟨h1, h2, h3, h4, h5⟩ := h
  have hr : lcfReady d p = true := by simpa [lcfReady, or_assoc] using h5
  have h3' : (portLanes d p).all (fun l => !rdb d .lnCtl (lix l) 30) = true :=
    List.all_eq_true.mpr fun x hx => by rw [h3 x hx]; rfl
  have h2' : (portState d p != 3) = true := bne_iff_ne.mpr h2
  simp only [lcfSend, h1, h2', h3', h4, hr, Bool.and_self, if_true]

/-- Settles O18. -/
theorem linkControlFrames : Obligations.LinkControlFrames := by
  intro s p l hs hl
  refine ⟨fun hg hv => ?good, fun hg hv => ?ver, fun hb => ?bad, fun hb => ?stomped, fun h2 h3 h4 h5 => ?send⟩
  case good =>
    obtain ⟨⟨h1, h2, h3, h4, h5, h6⟩, h7, h8, h9⟩ := lcfReceive_gives (d := s.dev.fresh) hl hg hv
    exact gives_of_act rfl hs ⟨h1, h2, h3, h4, h5, h6, h7, h8, h9⟩
  case ver => exact does_of_act rfl hs (lcfReceive_ver (d := s.dev.fresh) hl hg hv)
  case bad => exact does_of_act rfl hs (lcfReceive_bad (d := s.dev.fresh) hl hb)
  case stomped => exact does_of_act rfl hs (lcfReceive_stomped (d := s.dev.fresh) hl hb)
  case send =>
    have hsend := lcfSend_may (d := s.dev.fresh) ⟨hl, h2, h3, h4, h5⟩
    refine ⟨fun ht => gives_of_act rfl hs ?_, fun ht => does_of_act rfl hs ?_⟩
    · have hn : (tget? s.dev.fresh.sw.tx p).isNone = true := Option.isNone_iff_eq_none.mpr ht
      rw [hsend, if_pos hn]
      exact lcfStart_sends s.dev.fresh p
    · have hn : ¬(tget? s.dev.fresh.sw.tx p).isNone = true := fun h => ht (Option.isNone_iff_eq_none.mp h)
      rw [hsend, if_neg hn]

end Sys2Proof.Machine
end

section
/-! # Frames sent (spec/04 R110, R120; spec/05 R134) -/
namespace Sys2Proof.Machine

theorem frameTxStart_vc0 {d : Dev} {p : Nat} {x : Egr} (hc : canStart d p = true) (hx : headOf d p 0 = some x) :
    frameTxStart p d = startVc d p 0 := by
  simp only [frameTxStart, hc, Bool.not_true, Bool.false_eq_true, if_false, pickVc, hx, Option.isSome_some, if_true]

theorem frameTxStart_idle {d : Dev} {p : Nat} (hc : canStart d p = false) : frameTxStart p d = d := by
  simp only [frameTxStart, hc, Bool.not_false, if_true]

/-- The end of a frame that holds no ingress cells and no launch slot answers its command. -/
theorem endEgr_plain {e : Egr} (hi : e.ing = none) (hl : e.launch = none) (d : Dev) (st : Nat) :
    endEgr d e st = completeOpt d e.reply st [] := by
  have hg : letGo d e = d := by simp [letGo, hi]
  simp only [endEgr, hg, hi, hl]
  cases e.via <;> rfl

theorem frameTxEnd_sent {d : Dev} {p : Nat} {e : Egr} (he : tget? d.sw.tx p = some e) (hs : e.swatch = none)
    (hi : e.ing = none) (hl : e.launch = none) :
    frameTxEnd p d =
      let d1 := completeOpt { d with sw := { d.sw with tx := tdel d.sw.tx p } } e.reply 0 []
      let d2 := if isLcf d1 p e.frame then d1
        else { d1 with sw := { d1.sw with link := tset d1.sw.link p { linkSt d1 p with idleAt := d1.now } } }
      if (linkSt d2 p).lcfDue = true ∧ linkUp d2 p = true ∧ pdOn d2 (80 + p / 32) = true then lcfStart d2 p else d2 := by
  have hw : swSent d p e = d := by rw [swSent, hs]
  simp only [frameTxEnd, he, hw, endEgr_plain hi hl, Bool.and_eq_true, and_assoc]

theorem frameTxEnd_idle {d : Dev} {p : Nat} (he : tget? d.sw.tx p = none) : frameTxEnd p d = d := by
  rw [frameTxEnd, he]

/-- A held mirror copy of a frame that is still in its cells joins its session's queue (R134). -/
theorem mirrorCopySend_joins {d : Dev} {ses id : Nat} {x : MirHeld} {i : Ing}
    (hx : d.rt.mirHeld.find? (fun h => h.session == ses) = some x) (hw : mirWay d ses = true)
    (hr : mirCells d ses + frameCells d x.frame ≤ rdf d .mirMaxcells [ses] 15 0) (hi : x.ing = some id)
    (hf : findIng d id = some i) :
    mirrorCopySend ses d =
      let d1 := { d with rt := { d.rt with mirHeld := removeFirst (fun h => h.session == ses) d.rt.mirHeld } }
      mirTake (setIng d1 (addCopy { i with out := i.out - 1 } [mirPort d ses] (mirVc d ses) (.mirror ses)))
        ses (i.port / 8) (frameCells d x.frame) := by
  have hr' : mirRoom d ses (frameCells d x.frame) = true := decide_eq_true hr
  have hf' : findIng { d with rt := { d.rt with mirHeld := removeFirst (fun h => h.session == ses) d.rt.mirHeld } } id =
    some i := hf
  simp only [mirrorCopySend, hx, hw, hr', Bool.and_self, if_true, hi, hf']
  rfl

/-- Settles O19. -/
theorem framesSent : Obligations.FramesSent := by
  intro s p hs
  refine ⟨fun x hc hx => ?start, fun hc => ?idle, fun e he hsw hi hl => ?sent, fun he => ?quiet,
    fun ses x i hx hw hr id hi hf => ?mirror⟩
  case start => exact does_of_act rfl hs (frameTxStart_vc0 (d := s.dev.fresh) hc hx)
  case idle => exact does_of_act rfl hs (frameTxStart_idle (d := s.dev.fresh) hc)
  case sent => exact does_of_act rfl hs (frameTxEnd_sent (d := s.dev.fresh) he hsw hi hl)
  case quiet => exact does_of_act rfl hs (frameTxEnd_idle (d := s.dev.fresh) he)
  case mirror => exact does_of_act rfl hs (mirrorCopySend_joins (d := s.dev.fresh) hx hw hr hi hf)

end Sys2Proof.Machine
end

section
/-! # Order fences, depth samples and broadcasts (spec/04 R102, R110, R111, R114) -/
namespace Sys2Proof.Machine

/-! ### Order fences -/

theorem fence_flips {d : Dev} {die idx id : Nat} {ds : List Nat} (h : fenceAt d idx = some (idx, id, ds)) (hn : die ∉ ds) :
    orderFenceRequest die idx d = { flipCur d die idx with rt := { (flipCur d die idx).rt with
      fences := d.rt.fences.map (fun f => if f.1 = idx then (idx, id, ds ++ [die]) else f) } } := by
  have hc : ds.contains die = false := by simpa using hn
  simp only [orderFenceRequest, h, hc, Bool.false_eq_true, if_false]
  rfl

theorem curOf_flipCur (d : Dev) (die idx : Nat) : curOf (flipCur d die idx) die idx = 1 - curOf d die idx := by
  rw [curOf, flipCur, tgetD_tput, if_pos rfl]

theorem cur_flipCur_other (d : Dev) {die idx k : Nat} (h : k ≠ die * 65536 + idx) :
    tget? (flipCur d die idx).rt.cur k = tget? d.rt.cur k := by
  simp only [flipCur, tget?_tput, Ne.symm h, if_false]

theorem fence_idle {d : Dev} {idx : Nat} (h : fenceAt d idx = none) (die : Nat) : orderFenceRequest die idx d = d := by
  rw [orderFenceRequest, h]

/-- The device with the fence of an index taken away and its frame free to go. -/
def fenceClosed (d : Dev) (idx id : Nat) : Dev :=
  let e := { d with rt := { d.rt with fences := d.rt.fences.filter (fun f => f.1 != idx) } }
  match findIng d id with
  | some i => setIng e { i with hold := .ready }
  | none => e

theorem fenceClosed_frame (d : Dev) (idx id : Nat) :
    ∃ ing, fenceClosed d idx id = { d with
      rt := { d.rt with fences := d.rt.fences.filter (fun f => f.1 != idx) }, sw := { d.sw with ing := ing } } := by
  unfold fenceClosed
  split
  · exact ⟨_, rfl⟩
  · exact ⟨d.sw.ing, rfl⟩

theorem mem_ing_fenceClosed {d : Dev} {idx id : Nat} {j : Ing} (hj : j ∈ (fenceClosed d idx id).sw.ing) :
    j ∈ d.sw.ing ∨ j.hold = .ready := by
  unfold fenceClosed at hj
  split at hj
  · obtain ⟨i, hi, rfl⟩ := List.mem_map.mp hj
    split
    · exact .inr rfl
    · exact .inl hi
  · exact .inl hj

/-- A fence closes, and nothing else moves where no frame waits in order or in a stalled slice. -/
theorem orderRelease_closes {d : Dev} {idx id : Nat} {ds : List Nat} (h : fenceAt d idx = some (idx, id, ds))
    (hs : ∀ i ∈ d.sw.ing, inStall i = false ∧ i.hold ≠ .orderQ) (hc : fenceClear d idx ds = true) :
    orderRelease idx d = fenceClosed d idx id := by
  have hs' : ∀ i ∈ (fenceClosed d idx id).sw.ing, inStall i = false ∧ i.hold ≠ .orderQ := by
    intro i hi
    obtain hi | hi := mem_ing_fenceClosed hi
    · exact hs i hi
    · simp [inStall, hi]
  have hn : nextOrder (fenceClosed d idx id) idx = none := by
    have hf : (fenceClosed d idx id).sw.ing.filter (fun i => i.hold == .orderQ &&
        flowHash (fenceClosed d idx id) i.frame.hdr % 65536 == idx) = [] :=
      List.filter_eq_nil_iff.mpr fun i hi => by simp [(hs' i hi).2]
    rw [nextOrder, hf]
    rfl
  have hu (die : Nat) := unstallDie_no_stall (fun i hi => (hs' i hi).1) die
  have he : orderRelease idx d = [0, 1, 2, 3].foldl unstallDie (match nextOrder (fenceClosed d idx id) idx with
      | some i => setIng (openFence (fenceClosed d idx id) i idx).2 (openFence (fenceClosed d idx id) i idx).1
      | none => fenceClosed d idx id) := by
    rw [orderRelease, h]
    exact if_pos hc
  rw [he, hn]
  simp only [List.foldl, hu]

theorem orderRelease_waits {d : Dev} {idx id : Nat} {ds : List Nat} (h : fenceAt d idx = some (idx, id, ds))
    (hc : fenceClear d idx ds = false) : orderRelease idx d = d := by
  simp only [orderRelease, h, hc, Bool.false_eq_true, if_false]

theorem findIng_setIng (d : Dev) (x : Ing) (j : Nat) :
    findIng (setIng d x) j = (findIng d j).map (fun i => if i.id = x.id then x else i) := by
  have hp : (fun i : Ing => i.id == j) ∘ (fun i => if i.id = x.id then x else i) = fun i => i.id == j := by
    funext i
    by_cases h : i.id = x.id <;> simp [h]
  rw [findIng, setIng, List.find?_map, hp, findIng]

theorem findIng_fenceClosed (d : Dev) (idx id : Nat) :
    (∀ i, findIng d id = some i → findIng (fenceClosed d idx id) id = some { i with hold := .ready }) ∧
      ∀ j, j ≠ id → findIng (fenceClosed d idx id) j = findIng d j := by
  generalize he : { d with rt := { d.rt with fences := d.rt.fences.filter (fun f => f.1 != idx) } } = e
  have hed (j : Nat) : findIng e j = findIng d j := by rw [← he]; rfl
  cases hi : findIng d id with
  | none =>
    have hc : fenceClosed d idx id = e := by rw [fenceClosed, hi, he]
    rw [hc]
    exact ⟨fun i h => absurd h (Option.some_ne_none i).symm, fun j _ => hed j⟩
  | some i =>
    have hid : i.id = id := by simpa using List.find?_some hi
    have hc : fenceClosed d idx id = setIng e { i with hold := .ready } := by rw [fenceClosed, hi, he]
    have hf (j : Nat) : findIng (fenceClosed d idx id) j =
        (findIng d j).map (fun k => if k.id = id then { i with hold := .ready } else k) := by
      rw [hc, findIng_setIng, hed, ← hid]
    refine ⟨fun x hx => ?_, fun j hj => ?_⟩
    · obtain rfl : i = x := Option.some.inj hx
      rw [hf, hi, Option.map_some, if_pos hid]
    · rw [hf]
      cases hj' : findIng d j with
      | none => rfl
      | some k =>
        have hk : k.id = j := by simpa using List.find?_some hj'
        rw [Option.map_some, if_neg (hk ▸ hj)]

/-! ### Depth samples -/

/-- Depths and warmth alone differ. -/
def DepthsOnly (d e : Dev) : Prop := ∃ depth warm, e = { d with rt := { d.rt with depth := depth, warm := warm } }

/-- The depths of a port's channels, sampled. -/
def portSampled (p : Nat) (d : Dev) : Dev :=
  (List.range 8).foldl (fun d v =>
    { d with rt := { d.rt with depth := tput 0 d.rt.depth (8 * p + v) (depthNow d p v) } }) d

/-- A port's sample: its depths, and a count where it is in service. -/
def portSample (d : Dev) (p : Nat) : Dev :=
  let e := portSampled p d
  if inService e p then { e with rt := { e.rt with warm := tput 0 e.rt.warm p (tgetD e.rt.warm p 0 + 1) } } else e

theorem depthSample_eq (t : Nat) (d : Dev) :
    depthSample t d =
      let e := (((List.range 8).map (8 * t + ·)).filter (fun p => decide (0 < portW d p))).foldl portSample d
      (e.fwd.bundles.map (·.1)).foldl noteWarm
        { e with rt := { e.rt with sent := e.rt.sent.filter (fun e => e.1 % 512 / 8 != t) } } := by
  rfl

theorem DepthsOnly.depthNow {d e : Dev} (h : DepthsOnly d e) (p v : Nat) : Machine.depthNow e p v = Machine.depthNow d p v := by
  obtain ⟨_, _, rfl⟩ := h
  rfl

theorem DepthsOnly.trans {d e f : Dev} (h : DepthsOnly d e) (h' : DepthsOnly e f) : DepthsOnly d f := by
  obtain ⟨_, _, rfl⟩ := h
  obtain ⟨_, _, rfl⟩ := h'
  exact ⟨_, _, rfl⟩

/-- A depth of port `p` is taken. -/
def depthTaken (p : Nat) (d : Dev) (v : Nat) : Dev :=
  { d with rt := { d.rt with depth := tput 0 d.rt.depth (8 * p + v) (depthNow d p v) } }

theorem depthsOnly_depthTaken (p : Nat) (d : Dev) (v : Nat) : DepthsOnly d (depthTaken p d v) := ⟨_, _, rfl⟩

theorem tgetD_congr {α : Type} {t u : Tab α} {k : Nat} (h : tget? t k = tget? u k) (x : α) : tgetD t k x = tgetD u k x :=
  congrArg (·.getD x) h

/-- What the samples of some channels leave in the depth table. -/
theorem depth_foldl_depthTaken (p : Nat) (l : List Nat) (d : Dev) :
    DepthsOnly d (l.foldl (depthTaken p) d) ∧ (l.foldl (depthTaken p) d).rt.warm = d.rt.warm ∧
    (∀ k, (∀ v ∈ l, k ≠ 8 * p + v) → tget? (l.foldl (depthTaken p) d).rt.depth k = tget? d.rt.depth k) ∧
    ∀ v ∈ l, tgetD (l.foldl (depthTaken p) d).rt.depth (8 * p + v) 0 = depthNow d p v := by
  induction l generalizing d with
  | nil => exact ⟨⟨_, _, rfl⟩, rfl, fun _ _ => rfl, nofun⟩
  | cons v l ih =>
    obtain ⟨h1, h2, h3, h4⟩ := ih (depthTaken p d v)
    have h0 := depthsOnly_depthTaken p d v
    refine ⟨h0.trans h1, h2, fun k hk => ?_, fun w hw => ?_⟩
    · obtain ⟨hv, hl⟩ := List.forall_mem_cons.mp hk
      refine (h3 k hl).trans ?_
      simp only [depthTaken, tget?_tput, Ne.symm hv, if_false]
    · by_cases hl : w ∈ l
      · exact (h4 w hl).trans (h0.depthNow p w)
      · obtain rfl : w = v := (List.mem_cons.mp hw).resolve_right hl
        have h5 := h3 (8 * p + w) fun x hx he => hl (Nat.add_left_cancel he ▸ hx)
        exact (tgetD_congr h5 0).trans ((tgetD_tput ..).trans (if_pos rfl))

/-- What the sample of a port leaves of the depth and the warmth tables. -/
theorem portSample_spec (d : Dev) (p : Nat) :
    DepthsOnly d (portSample d p) ∧
    (∀ k, k / 8 ≠ p → tget? (portSample d p).rt.depth k = tget? d.rt.depth k) ∧
    (∀ v < 8, tgetD (portSample d p).rt.depth (8 * p + v) 0 = depthNow d p v) ∧
    (∀ q, q ≠ p → tget? (portSample d p).rt.warm q = tget? d.rt.warm q) := by
  obtain ⟨h1, h2, h3, h4⟩ := depth_foldl_depthTaken p (List.range 8) d
  have h3' : ∀ k, k / 8 ≠ p → tget? (portSampled p d).rt.depth k = tget? d.rt.depth k := fun k hk => h3 k fun v hv => by
    have := List.mem_range.mp hv
    omega
  have h4' : ∀ v < 8, tgetD (portSampled p d).rt.depth (8 * p + v) 0 = depthNow d p v :=
    fun v hv => h4 v (List.mem_range.mpr hv)
  have h2' : (portSampled p d).rt.warm = d.rt.warm := h2
  have h1' : DepthsOnly d (portSampled p d) := h1
  unfold portSample
  generalize portSampled p d = e at h1' h2' h3' h4'
  dsimp only
  split
  · refine ⟨h1'.trans ⟨_, _, rfl⟩, h3', h4', fun q hq => ?_⟩
    simp only [tget?_tput, Ne.symm hq, if_false, h2']
  · exact ⟨h1', h3', h4', fun q _ => by rw [h2']⟩

theorem foldl_portSample_spec {ps : List Nat} (hn : ps.Nodup) (d : Dev) :
    DepthsOnly d (ps.foldl portSample d) ∧
    (∀ k, k / 8 ∉ ps → tget? (ps.foldl portSample d).rt.depth k = tget? d.rt.depth k) ∧
    (∀ p ∈ ps, ∀ v < 8, tgetD (ps.foldl portSample d).rt.depth (8 * p + v) 0 = depthNow d p v) ∧
    (∀ q, q ∉ ps → tget? (ps.foldl portSample d).rt.warm q = tget? d.rt.warm q) := by
  induction ps generalizing d with
  | nil => exact ⟨⟨_, _, rfl⟩, fun _ _ => rfl, nofun, fun _ _ => rfl⟩
  | cons p ps ih =>
    obtain ⟨hp, hn⟩ := List.nodup_cons.mp hn
    obtain ⟨g1, g2, g3, g4⟩ := portSample_spec d p
    obtain ⟨h1, h2, h3, h4⟩ := ih hn (portSample d p)
    refine ⟨g1.trans h1, fun k hk => ?_, fun q hq v hv => ?_, fun q hq => ?_⟩
    · obtain ⟨hkp, hk⟩ := not_or.mp (List.mem_cons.not.mp hk)
      exact (h2 k hk).trans (g2 k hkp)
    · obtain rfl | hq := List.mem_cons.mp hq
      · have hk := h2 (8 * q + v) (by rwa [show (8 * q + v) / 8 = q by omega])
        exact (tgetD_congr hk 0).trans (g3 v hv)
      · exact (h3 q hq v hv).trans (g1.depthNow q v)
    · obtain ⟨hqp, hq⟩ := not_or.mp (List.mem_cons.not.mp hq)
      exact (h4 q hq).trans (g4 q hqp)

theorem noteWarm_frame (l : List Nat) (d : Dev) : ∃ t, l.foldl noteWarm d = { d with rt := { d.rt with warmB := t } } := by
  refine List.foldlRecOn _ _ (motive := fun e : Dev => ∃ t, e = { d with rt := { d.rt with warmB := t } })
    ⟨d.rt.warmB, rfl⟩ ?_
  rintro e ⟨t, rfl⟩ b -
  unfold noteWarm
  split
  · exact ⟨_, rfl⟩
  · exact ⟨_, rfl⟩

/-- A tile's sample gives the depth of each channel of its ports (R102). -/
theorem depthSample_spec (t : Nat) (d : Dev) :
    let e := depthSample t d
    (∀ k < 8, ∀ v < 8, 0 < portW d (8 * t + k) → tgetD e.rt.depth (8 * (8 * t + k) + v) 0 = depthNow d (8 * t + k) v) ∧
    (∀ k, k / 64 ≠ t → tget? e.rt.depth k = tget? d.rt.depth k) ∧
    (∀ q, q / 8 ≠ t → tget? e.rt.warm q = tget? d.rt.warm q) ∧
    e = { d with rt := { d.rt with depth := e.rt.depth, warm := e.rt.warm, warmB := e.rt.warmB, sent := e.rt.sent } } := by
  intro e
  have he : e = _ := depthSample_eq t d
  generalize hps : ((List.range 8).map (8 * t + ·)).filter (fun p => decide (0 < portW d p)) = ps at he
  have hn : ps.Nodup := hps ▸ (List.nodup_range.map fun _ _ h => Nat.add_left_cancel h).filter _
  have hmem (p : Nat) : p ∈ ps ↔ (∃ k < 8, 8 * t + k = p) ∧ 0 < portW d p := by simp [← hps]
  have htile : ∀ p ∈ ps, p / 8 = t := fun p hp => by
    obtain ⟨⟨k, hk, rfl⟩, -⟩ := (hmem p).mp hp
    omega
  obtain ⟨h1, h2, h3, h4⟩ := foldl_portSample_spec hn d
  dsimp only at he
  generalize ps.foldl portSample d = x at h1 h2 h3 h4 he
  obtain ⟨wb, hw⟩ := noteWarm_frame (x.fwd.bundles.map (·.1))
    { x with rt := { x.rt with sent := x.rt.sent.filter (fun e => e.1 % 512 / 8 != t) } }
  have he' := he.trans hw
  refine ⟨fun k hk v hv hp => ?_, fun k hk => ?_, fun q hq => ?_, ?_⟩
  · rw [he']
    exact h3 _ ((hmem _).mpr ⟨⟨k, hk, rfl⟩, hp⟩) v hv
  · rw [he']
    exact h2 k fun hm => hk (by have := htile _ hm; omega)
  · rw [he']
    exact h4 q fun hm => hq (htile q hm)
  · obtain ⟨depth, warm, rfl⟩ := h1
    rw [he']

/-- Settles O20. -/
theorem fencesSamplesBroadcasts : Obligations.FencesSamplesBroadcasts := by
  refine ⟨fun s idx hs => ⟨fun die id ds hf hn => ?flip, fun die hf => ?noFence, fun id ds hf hi => ⟨fun hc => ?close,
    fun hc => ?waits⟩⟩, fun s t hs => ⟨?sample, fun k u => ⟨fun hu => ?sent, fun h0 hu => ?refused, fun hu => ?tile,
    fun n hu => ?router⟩⟩⟩
  case flip =>
    refine gives_of_act rfl hs ?_
    rw [fence_flips (d := s.dev.fresh) hf hn]
    exact ⟨curOf_flipCur .., fun k hk => cur_flipCur_other _ hk, rfl, rfl⟩
  case noFence => exact does_of_act rfl hs (fence_idle (d := s.dev.fresh) hf die)
  case close =>
    refine gives_of_act rfl hs ?_
    rw [orderRelease_closes (d := s.dev.fresh) hf hi hc]
    obtain ⟨h1, h2⟩ := findIng_fenceClosed s.dev.fresh idx.toNat id
    obtain ⟨ing, he⟩ := fenceClosed_frame s.dev.fresh idx.toNat id
    refine ⟨?_, by rw [he], h1, h2, by rw [he]⟩
    rw [he]
    exact List.find?_eq_none.mpr fun x hx => by simpa using (List.mem_filter.mp hx).2
  case waits => exact does_of_act rfl hs (orderRelease_waits (d := s.dev.fresh) hf hc)
  case sample => exact gives_of_act rfl hs (depthSample_spec t s.dev.fresh)
  case sent => exact does_of_act rfl hs (if_pos hu)
  case refused => exact does_of_act rfl hs (if_neg (by rw [not_or]; exact ⟨not_not.mpr h0, Bool.eq_false_iff.mp hu⟩))
  case tile =>
    match u with
    | none | some (.mesh _) | some (.pre _) | some (.seam _ _) => rfl
    | some (.core n) => exact absurd rfl (hu n)
  case router => rw [hu]; rfl

end Sys2Proof.Machine
end

section
/-! # Mesh and Seam (spec/03 R79 to R84, spec/04 R107) -/
namespace Sys2Proof.Machine

/-! ### Entering the mesh -/

theorem meshInject_enters {d : Dev} {t : Nat} {x : Cand} (h : oldest d t (cands d t) = some x) (hg : outGranted d t x = false) :
    meshInject t d = inject (tookGrant (tookTurn d t (candInput x)) t (candPvs d x)) t x := by
  simp only [meshInject, h, hg, Bool.false_eq_true, if_false]

theorem meshInject_yields {d : Dev} {t : Nat} {x : Cand} (h : oldest d t (cands d t) = some x) (hg : outGranted d t x = true) :
    meshInject t d = d := by
  simp only [meshInject, h, hg, if_true]

theorem meshInject_none {d : Dev} {t : Nat} (h : cands d t = []) : meshInject t d = d := by
  simp only [meshInject, h, oldest, List.foldl_nil]

/-- An operand that is not spilled flies to its cores (R79). -/
theorem injectOper_flies {d : Dev} {t : Nat} {o : OutOp} {c : Ctx} (hc : ctxOf d o.p.slot = some c)
    (hk : ∀ k, findChunk c o.p.chunk = some k → k.spilled = false) :
    injectOper d t o =
      (operCores c o.p).foldl (fun d q =>
        let x := pickPlane d t (meshNo (coreTile q))
        launchFlight x.2 t 0 x.1 (ageOf x.2 t o.at_) (.partial_ o.p (coreNo q)) [meshNo (coreTile q)])
        { d with coll := { d.coll with outq := removeFirst (fun x => x == o) d.coll.outq } } := by
  have hc' : ctxOf { d with coll := { d.coll with outq := removeFirst (fun x => x == o) d.coll.outq } } o.p.slot = some c := hc
  cases hf : findChunk c o.p.chunk with
  | none => simp only [injectOper, hc', hf, Bool.false_eq_true, if_false]
  | some k => simp only [injectOper, hc', hf, hk k hf, Bool.false_eq_true, if_false]

/-! ### One hop of an operand -/

section
variable {d : Dev} {id : Nat} {f : Flight} {p : Partial} {core : Nat}

theorem meshFlitRoute_clean (hf : findFlight d id = some f)
    (hm : (takeMark d 6 (tileOfN f.tile / 16) (tileOfN f.tile % 16)).1 = none) :
    meshFlitRoute id .clean d = routeWon d f := by
  simp only [meshFlitRoute, hf, takeMark_none hm, Option.getD_none, Nat.add_zero, if_true]

theorem meshFlitRoute_ue (hf : findFlight d id = some f)
    (hm : (takeMark d 6 (tileOfN f.tile / 16) (tileOfN f.tile % 16)).1 = none) :
    meshFlitRoute id .ue d =
      let t := tileOfN f.tile
      deviceFault (raise d (srcMesh (t / 16) (t % 16)) 1) 1 (t / 16) (t % 16) := by
  simp only [meshFlitRoute, hf, takeMark_none hm, Option.getD_none, Nat.add_zero, OfNat.ofNat_ne_zero, OfNat.ofNat_ne_one,
    if_false]

theorem routeWon_waits (h : asleep d f = true ∨ outbid d f = true) : routeWon d f = d := by
  have h' : (asleep d f || outbid d f) = true := Bool.or_eq_true_iff.mpr h
  rw [routeWon, if_pos h']

theorem routeWon_goes (ha : asleep d f = false) (ho : outbid d f = false) : routeWon d f = routeOn (tookOutputs d f) f := by
  rw [routeWon, ha, ho]
  rfl

theorem routeOn_arrives (hl : f.load = .partial_ p core) (hg : goal f = f.tile) :
    routeOn d f = stageOperand (leave d f) core p := by
  simp only [routeOn, hl, hg, if_true, arrive]

variable {b : Nat}

/-- An operand steps to the neighbour that R107 chooses while a credit is free. -/
theorem routeOn_hops (hl : f.load = .partial_ p core) (hg : goal f ≠ f.tile) (hc : f.chan = 0)
    (hb : adaptive d f.plane f.tile (goal f) = some b) (hgo : mayGo d f.plane 0 f.tile b (partFlits d p) = true) :
    routeOn d f = moveTo (leave d f) f b f.dests none 0 := by
  simp only [routeOn, hl, hg, if_false, nextHop, hc, if_true, hb, loadFlits, hgo]

theorem routeOn_stays (hl : f.load = .partial_ p core) (hg : goal f ≠ f.tile) (hc : f.chan = 0)
    (hb : adaptive d f.plane f.tile (goal f) = some b) (hgo : mayGo d f.plane 0 f.tile b (partFlits d p) = false) :
    routeOn d f = d := by
  simp only [routeOn, hl, hg, if_false, nextHop, hc, if_true, hb, loadFlits, hgo, Bool.false_eq_true]

/-- A flight that may not go asks no output. -/
theorem tookOutputs_stays (hl : f.load = .partial_ p core) (hg : goal f ≠ f.tile) (hc : f.chan = 0)
    (hb : adaptive d f.plane f.tile (goal f) = some b) (hgo : mayGo d f.plane 0 f.tile b (partFlits d p) = false) :
    tookOutputs d f = d := by
  have hw : wants d f = [] := by
    simp only [wants, hl, hg, if_false, nextHop, hc, if_true, hb, loadFlits, hgo, Bool.false_eq_true]
  rw [tookOutputs, hw]
  rfl

theorem meshEscape_escapes (hf : findFlight d id = some f) (hc : f.chan = 0)
    (hw : natMax 1 (rdf d .meshCtl [dieOfN f.tile] 7 0) ≤ 2 * (d.now - f.since)) :
    meshEscape id d =
      cnt1 { d with sw := { d.sw with flights := d.sw.flights.map (fun f => if f.id = id then { f with chan := 1 } else f) } }
        (srcMesh (dieOfN f.tile) 0) 6 := by
  rw [meshEscape, hf]
  exact if_pos ⟨hc, hw⟩

theorem meshEscape_idle (hf : findFlight d id = some f)
    (h : f.chan ≠ 0 ∨ 2 * (d.now - f.since) < natMax 1 (rdf d .meshCtl [dieOfN f.tile] 7 0)) : meshEscape id d = d := by
  rw [meshEscape, hf]
  refine if_neg fun hc => ?_
  obtain h | h := h
  · exact h hc.1
  · exact absurd hc.2 (Nat.not_le.mpr h)

end

/-! ### Seam flits -/

/-- The device with the flit taken off the wires of its far end. -/
def seamOff (die link : Nat) (d : Dev) : Dev :=
  setSeam d (seamFar die link) link
    { seamSt d (seamFar die link) link with wires := (seamSt d (seamFar die link) link).wires.drop 1 }

section
variable {d : Dev} {die link : Nat} {f : SeamFlit} (hm : (takeMark d 7 die link).1 = none)
include hm

/-- A flit that no injection meets is dropped while a replay is awaited, taken where its CRC is good, and kept where it is
not. -/
theorem seamFlitReceive_unmarked :
    seamFlitReceive die link f d =
      let x := seamSt (seamOff die link d) die link
      let good := decide (seamCrc f = f.side.toNat % 2 ^ 32)
      if x.waiting && !(good && seamType f == 2) && !(!good && (x.failed.map seamSeq == some (seamSeq f))) then
        seamOff die link d
      else if good then seamGood die link f (seamOff die link d)
      else seamBad die link f (seamOff die link d) := by
  simp only [seamFlitReceive, takeMark_none hm]
  rfl

/-- A flit that passes its CRC is acknowledged and returns its credits (R82). -/
theorem seamFlitReceive_good (hc : seamCrc f = f.side.toNat % 2 ^ 32)
    (hw : (seamSt (seamOff die link d) die link).waiting = false ∨ seamType f = 2)
    (hn : (seamSt (seamOff die link d) die link).failed = none) (ht : seamType f ≠ 3) :
    seamFlitReceive die link f d =
      let y := seamAcked (seamSt (seamOff die link d) die link) (seamAck f)
      let c := bits f.side.toNat 45 43
      setSeam (seamOff die link d) die link { y with
        used := tput 0 y.used c (tgetD y.used c 0 - bits f.side.toNat 42 38), waiting := false,
        rxSeq := if seamType f = 0 ∨ seamType f = 2 then seamSeq f else y.rxSeq } := by
  have hg : seamFlitReceive die link f d = seamGood die link f (seamOff die link d) := by
    rw [seamFlitReceive_unmarked hm]
    dsimp only
    rw [decide_eq_true hc, if_neg, if_pos rfl]
    obtain h | h := hw
    · simp [h]
    · simp [h]
  rw [hg]
  simp only [seamGood, hn, ht, Bool.false_eq_true, if_false]

/-- A flit that follows a failed one is dropped until a replay starts (R83). -/
theorem seamFlitReceive_dropped (hc : seamCrc f = f.side.toNat % 2 ^ 32)
    (hw : (seamSt (seamOff die link d) die link).waiting = true) (ht : seamType f ≠ 2) :
    seamFlitReceive die link f d = seamOff die link d := by
  rw [seamFlitReceive_unmarked hm]
  dsimp only
  rw [decide_eq_true hc, if_pos]
  simp [hw, ht]

/-- A flit that fails its CRC is kept and counted, and a NAK goes back (R83). -/
theorem seamFlitReceive_bad (hc : seamCrc f ≠ f.side.toNat % 2 ^ 32)
    (hw : (seamSt (seamOff die link d) die link).waiting = true →
      (seamSt (seamOff die link d) die link).failed.map seamSeq = some (seamSeq f)) :
    seamFlitReceive die link f d = seamBad die link f (seamOff die link d) := by
  rw [seamFlitReceive_unmarked hm]
  dsimp only
  rw [decide_eq_false hc, if_neg, if_neg Bool.false_ne_true]
  cases hx : (seamSt (seamOff die link d) die link).waiting with
  | false => simp
  | true => simp [hw hx]

end

/-! ### Repair of a Seam's wires -/

/-- Without what was injected the wire's errors would not have reached THRESH. -/
def onlyInjected (d : Dev) (die link wire : Nat) : Bool :=
  decide (((wireErrs d die link wire).filter (fun e => !e.2)).length < natMax 1 (rdf d .seamRepairCtl [die] 7 0))

/-- A repair counts as injected where, without what was injected, it would not have been due (R409). -/
def repairMarked (die link wire : Nat) (d : Dev) : Dev :=
  { d with rel := { d.rel with injected := wireDue d die link wire && onlyInjected d die link wire } }

theorem injected_ite {d : Dev} (hi : d.rel.injected = false) (b : Bool) :
    (if b then { d with rel := { d.rel with injected := true } } else d) = { d with rel := { d.rel with injected := b } } := by
  cases b
  · have he : d = { d with rel := { d.rel with injected := false } } := by rw [← hi]
    exact he
  · rfl

section
variable {d : Dev} {die link w : Nat} (hi : d.rel.injected = false)
include hi

/-- The mark of a repair is as the model sets it. -/
theorem repairMarked_eq :
    (if decide (((wireErrs d die link w).filter (fun e => !e.2)).length < natMax 1 (rdf d .seamRepairCtl [die] 7 0)) &&
        wireDue d die link w then { d with rel := { d.rel with injected := true } } else d) = repairMarked die link w d := by
  rw [injected_ite hi, Bool.and_comm]
  rfl

theorem seamRepair_clock (h : 536 ≤ w) : seamRepair die link w d = seamFail (repairMarked die link w d) die link := by
  simp only [seamRepair, repairMarked_eq hi, h, if_true]

omit hi in
theorem seamRepair_idle (h : w < 536) (hd : wireDue d die link w = false) : seamRepair die link w d = d := by
  simp only [seamRepair, hd, Bool.and_false, Bool.false_eq_true, if_false, Nat.not_le.mpr h, Bool.not_false, if_true]

theorem seamRepair_ninth (h : w < 536) (hd : wireDue d die link w = true) (h8 : 8 ≤ (seamSt d die link).mapped.length) :
    seamRepair die link w d = seamFail (repairMarked die link w d) die link := by
  have hd' : wireDue (repairMarked die link w d) die link w = true := hd
  simp only [seamRepair, repairMarked_eq hi, Nat.not_le.mpr h, if_false, hd', Bool.not_true, Bool.false_eq_true, h8, if_true]

/-- A wire whose errors reach THRESH is mapped onto a spare, and the traffic resumes (R84). -/
theorem seamRepair_maps (h : w < 536) (hd : wireDue d die link w = true) (h8 : (seamSt d die link).mapped.length < 8) :
    seamRepair die link w d =
      let x := seamSt d die link
      let tm := if (repairMarked die link w d).rel.injected then x.tempMap ++ [w] else x.tempMap
      let y := { x with wireErr := tdel x.wireErr w, mapped := x.mapped ++ [w], tempMap := tm }
      let d1 := setSeam (repairMarked die link w d) die link y
      seamResume (raise (wrf d1 .seamState [die, link] 3 0 (x.mapped.length + 1)) (srcMesh die link) 2
        [(1, link), (2, w)]) die link := by
  have hd' : wireDue (repairMarked die link w d) die link w = true := hd
  have hj : (repairMarked die link w d).rel.injected =
      decide (((wireErrs d die link w).filter (fun e => !e.2)).length < natMax 1 (rdf d .seamRepairCtl [die] 7 0)) := by
    simp only [repairMarked, hd, Bool.true_and, onlyInjected]
  simp only [hj]
  simp only [seamRepair, repairMarked_eq hi, Nat.not_le.mpr h, Nat.not_le.mpr h8, if_false, hd', Bool.not_true,
    Bool.false_eq_true]

end

/-- Settles O21. -/
theorem meshAndSeam : Obligations.MeshAndSeam := by
  refine ⟨fun s hs => ⟨fun t o c ho hc hk hg => ?operand, fun t i c ho => ⟨fun hg => ?copy, fun hg => ?yields⟩,
    fun t h => ?nothing, fun id f p core hf hl hm => ⟨fun h => ?waits, fun ha ho hg => ?arrives,
      fun b ha ho hg hc hb => ⟨fun hgo => ?hops, fun hgo => ?stays⟩, ?ue⟩,
    fun id f hf => ⟨fun hc hw => ?escapes, fun h => ?noEscape⟩⟩,
    fun s die link hs => ⟨fun f hm => ⟨fun hc hw hn ht => ?good, fun hc hw ht => ?dropped, fun hc hw => ?bad⟩,
      fun ack => does_of_act rfl hs rfl, fun wire => ⟨fun h => ?clock, fun h hd => ?idle, fun h hd h8 => ?maps,
        fun h hd h8 => ?ninth⟩⟩⟩
  case operand =>
    exact does_of_act rfl hs ((meshInject_enters (d := s.dev.fresh) ho hg).trans
      (injectOper_flies (d := tookTurn s.dev.fresh t 8) hc hk))
  case copy => exact does_of_act rfl hs (meshInject_enters (d := s.dev.fresh) ho hg)
  case yields => exact does_of_act rfl hs (meshInject_yields (d := s.dev.fresh) ho hg)
  case nothing => exact does_of_act rfl hs (meshInject_none (d := s.dev.fresh) h)
  case waits =>
    exact does_of_act rfl hs ((meshFlitRoute_clean (d := s.dev.fresh) hf (unmarked_fresh hm)).trans (routeWon_waits (d := s.dev.fresh) h))
  case arrives =>
    exact does_of_act rfl hs ((meshFlitRoute_clean (d := s.dev.fresh) hf (unmarked_fresh hm)).trans
      ((routeWon_goes (d := s.dev.fresh) ha ho).trans (routeOn_arrives hl hg)))
  case hops =>
    exact does_of_act rfl hs ((meshFlitRoute_clean (d := s.dev.fresh) hf (unmarked_fresh hm)).trans
      ((routeWon_goes (d := s.dev.fresh) ha ho).trans (routeOn_hops hl hg hc hb hgo)))
  case stays =>
    have ht := tookOutputs_stays (d := s.dev.fresh) hl hg hc hb hgo
    have hg' := routeWon_goes (d := s.dev.fresh) ha ho
    rw [ht] at hg'
    exact does_of_act rfl hs ((meshFlitRoute_clean (d := s.dev.fresh) hf (unmarked_fresh hm)).trans
      (hg'.trans (routeOn_stays (d := s.dev.fresh) hl hg hc hb hgo)))
  case ue => exact does_of_act rfl hs (meshFlitRoute_ue (d := s.dev.fresh) hf (unmarked_fresh hm))
  case escapes => exact does_of_act rfl hs (meshEscape_escapes (d := s.dev.fresh) hf hc hw)
  case noEscape => exact does_of_act rfl hs (meshEscape_idle (d := s.dev.fresh) hf h)
  case good => exact does_of_act rfl hs (seamFlitReceive_good (d := s.dev.fresh) (unmarked_fresh hm) hc hw hn ht)
  case dropped => exact does_of_act rfl hs (seamFlitReceive_dropped (d := s.dev.fresh) (unmarked_fresh hm) hc hw ht)
  case bad => exact does_of_act rfl hs (seamFlitReceive_bad (d := s.dev.fresh) (unmarked_fresh hm) hc hw)
  case clock => exact does_of_act rfl hs (seamRepair_clock (d := s.dev.fresh) rfl h)
  case idle => exact does_of_act rfl hs (seamRepair_idle (d := s.dev.fresh) h hd)
  case maps => exact does_of_act rfl hs (seamRepair_maps (d := s.dev.fresh) rfl h hd h8)
  case ninth => exact does_of_act rfl hs (seamRepair_ninth (d := s.dev.fresh) rfl h hd h8)

end Sys2Proof.Machine
end

section
/-! # Lanes (spec/11 R290 to R304, R318) -/
namespace Sys2Proof.Machine

section
variable {d : Dev} {l : Nat}

/-! ### Codewords and loss of lock -/

/-- The ages of a lane's uncorrectable codewords, one codeword on. -/
def ucwAged (x : LaneSt) : List Nat := ((x.ucwAge.map (· + 1)).filter (· < 8192)).take 256

/-- A codeword is counted by its symbol errors, 16 or more of them making it uncorrectable (R291). -/
theorem fecCodeword_up (hs : laneState d l = 5) (hq : rdb d .lnState (lix l) 3 = false)
    (hm : (takeMark d 3 (l / 128) (l % 128)).1 = none) (errs : Nat) :
    fecCodeword l errs d =
      if errs = 0 then setLane (cnt1 d (srcLn l) 4) l { laneSt d l with ucwRun := 0, ucwAge := ucwAged (laneSt d l) }
      else if errs < 16 then
        setLane (binError (cntN (cnt1 (cnt1 d (srcLn l) 4) (srcLn l) 5) (srcLn l) 6 errs) 3 (l / 128)) l
          { laneSt d l with ucwRun := 0, ucwAge := ucwAged (laneSt d l) }
      else setLane (cnt1 (cnt1 d (srcLn l) 4) (srcLn l) 7) l
        { laneSt d l with ucwRun := (laneSt d l).ucwRun + 1, ucwAge := 0 :: ucwAged (laneSt d l) } := by
  simp only [fecCodeword, hs, hq, ne_eq, not_true_eq_false, Bool.false_eq_true, or_self, if_false, takeMark_none hm,
    Option.getD_none, Nat.add_zero]
  rfl

theorem fecCodeword_idle (hs : laneState d l ≠ 5) (errs : Nat) : fecCodeword l errs d = d := if_pos (.inl hs)

theorem ucwLinkDown_down (hq : rdb d .lnState (lix l) 3 = false)
    (h : 8 ≤ (laneSt d l).ucwRun ∨ natMax 1 (rdf d .lnThresh (tix (l / 8)) 7 0) ≤ (laneSt d l).ucwAge.length) :
    ucwLinkDown l d = portDown d (portOf d l) 2 := if_pos ⟨by rw [hq]; rfl, h⟩

theorem ucwLinkDown_idle (h : rdb d .lnState (lix l) 3 = true ∨ ((laneSt d l).ucwRun < 8 ∧
    (laneSt d l).ucwAge.length < natMax 1 (rdf d .lnThresh (tix (l / 8)) 7 0))) : ucwLinkDown l d = d := by
  refine if_neg ?_
  rintro ⟨hq, hu⟩
  obtain h | ⟨h1, h2⟩ := h
  · rw [h] at hq
    exact Bool.noConfusion hq
  · omega

/-- The strand carries one of the lane's four bit streams. -/
def strandUsed (d : Dev) (l strand : Nat) : Prop :=
  if strand = 4 then (laneSt d l).claim ≠ none else (laneSt d l).claim ≠ some strand

theorem strandUsed_of_fin {strand : Fin 5} (h : if strand = 4 then (laneSt d l).claim ≠ none
    else (laneSt d l).claim ≠ some strand.val) : strandUsed d l strand := by
  have h4 : strand.val = 4 ↔ strand = 4 := ⟨fun h => Fin.ext h, fun h => by rw [h]; rfl⟩
  simpa only [strandUsed, h4] using h

theorem cdrLoss_used {strand : Nat} (hu : strandUsed d l strand) : cdrLoss l strand d = laneCause d l 1 := by
  unfold strandUsed at hu
  unfold cdrLoss
  dsimp only
  by_cases h4 : strand = 4
  · rw [if_pos h4] at hu
    have hs : (laneSt d l).claim.isSome = true := Option.isSome_iff_ne_none.mpr hu
    rw [if_pos h4, if_pos hs]
  · rw [if_neg h4] at hu
    rw [if_neg h4, if_pos (bne_iff_ne.mpr hu)]

theorem laneCause_up (hs : laneState d l = 5) (cause : Nat) : laneCause d l cause = portDown d (portOf d l) cause := if_pos hs

theorem laneCause_training (h1 : 1 < laneState d l) (h2 : laneState d l ≤ 4) (cause : Nat) :
    laneCause d l cause = trainFail d l cause := by
  have h5 : laneState d l ≠ 5 := by omega
  simp only [laneCause, h5, if_false, h1, h2, and_self, if_true]

theorem holdExpiry_held (hs : laneState d l = 6) :
    holdExpiry l d = if mayTrain d (portOf d l) then toWait d l else toDown d l := if_pos hs

theorem holdExpiry_idle (hs : laneState d l ≠ 6) : holdExpiry l d = d := if_neg hs

/-! ### Training -/

theorem fomWindowEnd_idle (h : laneState d l < 2 ∨ rdb d .lnState (lix l) 3 = true) (wins : List StrandWin)
    (signs : List (List Int)) : fomWindowEnd l wins signs d = d :=
  if_pos (h.imp_right .inr)

theorem fomWindowEnd_aligned (hq : rdb d .lnState (lix l) 3 = false) (hs : laneState d l = 4 ∨ laneState d l = 5)
    (wins : List StrandWin) (signs : List (List Int)) :
    fomWindowEnd l wins signs d =
      let foms := (List.range 5).map (fun k => if rxFailed d l k then 0
        else winFom (rdf d .lnCtl (lix l) 7 0) (wins.getD k default))
      let d1 := sendTraining (latchFom d l foms signs) l
      if laneState d l = 5 then weakCheck d1 l foms else d1 := by
  obtain h | h := hs
  · simp [fomWindowEnd, h, hq, winFoms]
  · simp [fomWindowEnd, h, hq, winFoms]

/-- A frame of the partner counts in training alone. -/
theorem training_listens {f : TrainFrame} (hg : goodTraining f = true) (h2 : 2 ≤ laneState d l) (h4 : laneState d l ≤ 4) :
    ¬((!goodTraining f) = true ∨ laneState d l < 2 ∨ 4 < laneState d l) := by
  rw [hg]
  rintro (h | h | h)
  · exact Bool.noConfusion h
  · omega
  · omega

theorem trainingFrameReceive_matches {f : TrainFrame} (hg : goodTraining f = true) (h2 : 2 ≤ laneState d l)
    (h4 : laneState d l ≤ 4) (hw : f.width.toNat = lnW d (portOf d l)) :
    trainingFrameReceive l f d =
      let x := laneSt d l
      let cold := cnt1 (setTaps d l []) (srcLn l) 9
      let d1 := if x.checked then d else if x.key = some (f.serial, f.lane) then cnt1 d (srcLn l) 8
        else { setLane cold l { laneSt cold l with freq := Config.freeWord cold.draw } with draw := cold.draw + 1 }
      wrf (setLane d1 l { laneSt d1 l with checked := true, partnerFom := f.minfom.toNat, partner := some (f.serial, f.lane) })
        .lnSpare (lix l) 7 4 f.rxmap.toNat := by
  simp only [trainingFrameReceive, training_listens hg h2 h4, if_false, hw, ne_eq, not_true_eq_false, beq_iff_eq]

theorem trainingFrameReceive_width {f : TrainFrame} (hg : goodTraining f = true) (h2 : 2 ≤ laneState d l)
    (h4 : laneState d l ≤ 4) (hw : f.width.toNat ≠ lnW d (portOf d l)) :
    trainingFrameReceive l f d = trainFail d l 7 := by
  simp only [trainingFrameReceive, training_listens hg h2 h4, if_false, hw, ne_eq, not_false_eq_true, if_true]

theorem trainingFrameReceive_bad {f : TrainFrame} (h : f.marker ≠ trainMarker ∨ f.crc.toNat ≠ trainCrc f) :
    trainingFrameReceive l f d = d := by
  have hg : goodTraining f = false := by
    unfold goodTraining
    obtain h | h := h
    · rw [beq_false_of_ne h, Bool.false_and]
    · rw [beq_false_of_ne h, Bool.and_false]
  exact if_pos (.inl (by rw [hg]; rfl))

theorem trainTimeout_fails (h : laneState d l = 3 ∨ (laneState d l = 2 ∧ (failing d l).length ≠ 1)) :
    trainTimeout l d = trainFail d l 10 := by
  obtain h | ⟨h, hn⟩ := h
  · simp [trainTimeout, h]
  · unfold trainTimeout
    simp only [h]
    split
    next k hk => exact absurd (congrArg List.length hk) hn
    next => rfl

theorem trainTimeout_maps {k : Nat} (h : laneState d l = 2) (hk : failing d l = [k]) : trainTimeout l d = mapSpare d l k := by
  simp [trainTimeout, h, hk]

theorem alignDone_aligned (hn : portLanes d l ≠ []) (ha : ∀ j ∈ portLanes d l, laneState d j = 4) (skewed : Bool) :
    alignDone l skewed d =
      if skewed then (portLanes d l).foldl (fun d j => trainFail d j 8) d
      else
        let d1 := (portLanes d l).foldl (fun d j => setLnState (setLane d j { laneSt d j with
          upAt := some d.now, ucwRun := 0, ucwAge := [], weak := [] }) j 5) d
        event (startCredits d1 l) 0x0E80 (l / 128) (l % 128) [(2, l)] [l] := by
  have h1 : (portLanes d l).isEmpty = false := Bool.eq_false_iff.mpr fun h => hn (List.isEmpty_iff.mp h)
  have h2 : (portLanes d l).all (fun l => laneState d l == 4) = true :=
    List.all_eq_true.mpr fun j hj => beq_iff_eq.mpr (ha j hj)
  simp only [alignDone, h1, h2, Bool.not_true, Bool.or_self, Bool.false_eq_true, if_false]

theorem alignDone_idle (h : ∃ j ∈ portLanes d l, laneState d j ≠ 4) (skewed : Bool) : alignDone l skewed d = d := by
  have h2 : (portLanes d l).all (fun l => laneState d l == 4) = false := by
    obtain ⟨j, hj, hs⟩ := h
    exact List.all_eq_false.mpr ⟨j, hj, by simpa using hs⟩
  simp only [alignDone, h2, Bool.not_false, Bool.or_true, if_true]

end

/-- Settles O22. -/
theorem lanes : Obligations.Lanes := by
  refine ⟨fun s l hs => ⟨fun errs h5 hq hm => ?codeword, fun errs h5 => ?notUp, fun hq h => ?ucw, fun h => ?noUcw,
    fun strand hu => ⟨fun h5 => ?cdrUp, fun h1 h4 => ?cdrTraining⟩, fun h6 => ?hold, fun h6 => ?notHold⟩,
    fun s l hs => ⟨fun wins signs h => ?quiet, fun wins signs hq h => ?window, fun f hg h2 h4 hw => ?frame,
      fun f hg h2 h4 hw => ?width, fun f hb => ?badFrame, fun h => ?timeout, fun k h hk => ?map,
      fun hn ha => ⟨?skewed, ?up⟩, fun h k => ?notAligned⟩⟩
  case codeword =>
    refine gives_of_act rfl hs ?_
    rw [fecCodeword_up (d := s.dev.fresh) h5 hq (unmarked_fresh hm)]
    refine ⟨fun h => if_pos h, fun h0 h16 => ?_, fun h16 => ?_⟩
    · rw [if_neg (by omega), if_pos h16]
      rfl
    · rw [if_neg (by omega), if_neg (by omega)]
      rfl
  case notUp => exact does_of_act rfl hs (fecCodeword_idle (d := s.dev.fresh) h5 errs)
  case ucw => exact does_of_act rfl hs (ucwLinkDown_down (d := s.dev.fresh) hq h)
  case noUcw => exact does_of_act rfl hs (ucwLinkDown_idle (d := s.dev.fresh) h)
  case cdrUp =>
    have hu' : strandUsed s.dev.fresh l strand := strandUsed_of_fin (d := s.dev) hu
    exact does_of_act rfl hs ((cdrLoss_used hu').trans (laneCause_up (d := s.dev.fresh) h5 1))
  case cdrTraining =>
    have hu' : strandUsed s.dev.fresh l strand := strandUsed_of_fin (d := s.dev) hu
    exact does_of_act rfl hs ((cdrLoss_used hu').trans (laneCause_training (d := s.dev.fresh) h1 h4 1))
  case hold => exact does_of_act rfl hs (holdExpiry_held (d := s.dev.fresh) h6)
  case notHold => exact does_of_act rfl hs (holdExpiry_idle (d := s.dev.fresh) h6)
  case quiet => exact does_of_act rfl hs (fomWindowEnd_idle (d := s.dev.fresh) h wins signs)
  case window => exact does_of_act rfl hs (fomWindowEnd_aligned (d := s.dev.fresh) hq h wins signs)
  case frame => exact does_of_act rfl hs (trainingFrameReceive_matches (d := s.dev.fresh) hg h2 h4 hw)
  case width => exact does_of_act rfl hs (trainingFrameReceive_width (d := s.dev.fresh) hg h2 h4 hw)
  case badFrame => exact does_of_act rfl hs (trainingFrameReceive_bad hb)
  case timeout => exact does_of_act rfl hs (trainTimeout_fails (d := s.dev.fresh) h)
  case map => exact does_of_act rfl hs (trainTimeout_maps (d := s.dev.fresh) h hk)
  case skewed => exact does_of_act rfl hs (alignDone_aligned (d := s.dev.fresh) hn ha true)
  case up => exact does_of_act rfl hs (alignDone_aligned (d := s.dev.fresh) hn ha false)
  case notAligned => exact does_of_act rfl hs (alignDone_idle (d := s.dev.fresh) h k)

end Sys2Proof.Machine
end

section
/-! # Tx-quiet, Rx-quiet, wake and RETRAIN (spec/11 R305, R306, R463) -/
namespace Sys2Proof.Machine

/-! ### A register of a die's tiles is met at its address -/

/-- An address below a tile's counters is none of them. -/
theorem isCnt_dieTile_low {i j x : Nat} (hi : i < 4) (hj : j < 16) (hx : x < 0x900) :
    isCnt (0x800000 + i * 0x800000 + j * 0x10000 + x) = false := by
  simp only [isCnt, cntBlocks, splitIx, List.any_cons, List.any_nil, List.nil_append, List.cons_append,
    Bool.or_eq_false_iff, Bool.or_false]
  and_intros <;> simp <;> omega

theorem meets_dieTile {i j x : Nat} {r : Reg} {ix : List Nat} (hi : i < 4) (hj : j < 16) (hx : x < 0x10000) (h4 : x % 4 = 0)
    (hc : isCnt (0x800000 + i * 0x800000 + j * 0x10000 + x) = false)
    (hc' : isCnt (0x800000 + i * 0x800000 + j * 0x10000 + x - 4) = false)
    (hf : findReg dieTileRegs (0x800000 + i * 0x800000 + j * 0x10000 + x) = some (r, ix))
    (h1 : pairHiOf r = none) (h2 : pairLoOf r = none) :
    MeetsReg (0x800000 + i * 0x800000 + j * 0x10000 + x) r ix := by
  generalize ho : 0x800000 + i * 0x800000 + j * 0x10000 + x = off at hc hc' hf ⊢
  have hr : 0x800000 ≤ off ∧ off < 0x2800000 := by omega
  have hin : (off - 0x800000) % 0x800000 < 0x100000 := by omega
  have hcan : canonOff off = off := by
    simp only [canonOff, if_pos hr]
    exact if_neg (by omega)
  have hdec : decodeReg off = some (r, ix) := by
    simp only [decodeReg, hcan, if_neg (Nat.not_lt.mpr hr.1), if_pos hr.2, if_pos hin, hf]
  refine ⟨?aligned, ?target, h1, h2⟩
  case aligned => simp [aligned32]; omega
  case target => simp [target, hc, hc', hdec]

/-- A register stands before none of the list's others whose range the address misses. -/
theorem findReg_skip {pre post : List Reg} {r : Reg} {off : Nat} {ix : List Nat}
    (hpre : ∀ q ∈ pre, off < (regRow q).base ∨ splitIx (regRow q).dims (off - (regRow q).base) = none)
    (hb : (regRow r).base ≤ off) (h : splitIx (regRow r).dims (off - (regRow r).base) = some ix) :
    findReg (pre ++ r :: post) off = some (r, ix) := by
  induction pre with
  | nil => simp [findReg, h, Nat.not_lt.mpr hb]
  | cons q qs ih =>
    obtain ⟨hq, hqs⟩ := List.forall_mem_cons.mp hpre
    rcases hq with hq | hq <;> simp [findReg, hq, ih hqs]

theorem findReg_lnCtl {i j k : Nat} (hi : i < 4) (hj : j < 16) (hk : k < 8) :
    findReg dieTileRegs (regAddr .lnCtl [i, j, k]) = some (.lnCtl, [i, j, k]) := by
  refine findReg_skip (pre := [.swTileCtl, .swCtMap, .swShr, .swLcf, .swStatus, .swRsv, .rtPort, .shpC0, .shpC1, .shpC2,
    .shpPort, .schWeight, .shpStatus, .preCtl, .preStatus, .lnPort, .lnTileStatus, .lnThresh, .lnState]) ?_ ?_ ?_
  · simp [regAddr, dimOff, regRow, splitIx]; omega
  · simp [regAddr, regRow]
  · simp [regAddr, dimOff, regRow, splitIx]; omega

theorem meets_lnCtl (l : Fin 512) : MeetsReg (regAddr .lnCtl (lix l)) .lnCtl (lix l) := by
  have hi : l.val / 128 < 4 := by omega
  have hj : l.val / 8 % 16 < 16 := by omega
  have hf := findReg_lnCtl hi hj (Nat.mod_lt l.val (by omega : 0 < 8))
  have ha : regAddr .lnCtl (lix l) = 0x800000 + l.val / 128 * 0x800000 + l.val / 8 % 16 * 0x10000 + (4 + l.val % 8 * 0x100) := by
    simp only [regAddr, regRow, dimOff, lix]
    omega
  have hc : isCnt (0x800000 + l.val / 128 * 0x800000 + l.val / 8 % 16 * 0x10000 + (4 + l.val % 8 * 0x100)) = false :=
    isCnt_dieTile_low hi hj (by omega)
  have hc' : isCnt (0x800000 + l.val / 128 * 0x800000 + l.val / 8 % 16 * 0x10000 + (4 + l.val % 8 * 0x100) - 4) = false := by
    rw [show 0x800000 + l.val / 128 * 0x800000 + l.val / 8 % 16 * 0x10000 + (4 + l.val % 8 * 0x100) - 4 =
      0x800000 + l.val / 128 * 0x800000 + l.val / 8 % 16 * 0x10000 + l.val % 8 * 0x100 by omega]
    exact isCnt_dieTile_low hi hj (by omega)
  rw [ha]
  exact meets_dieTile hi hj (by omega) (by omega) hc hc' (ha ▸ hf) rfl rfl

/-- A write of a register that no lock touches takes its effect, or is held while its block sleeps. -/
theorem busWrite_lockFree {off : Nat} {r : Reg} {ix : List Nat} (hm : MeetsReg off r ix) (hr : lockFree r = true) (val : Word)
    (d : Dev) :
    busWrite off val.toNat d = writeOrHold d off (locked d r ix) val
      (writeReg (offDie off) r ix (merge false r (rd d r ix) val.toNat) val.toNat none (Config.freeBool d.draw) d.written) := by
  obtain ⟨ha, ht, h1, h2⟩ := hm
  have ho : onlyRwl r = false := by simpa using (Bool.and_eq_true_iff.mp hr).2
  rw [busWrite_reg ha ht h1 h2]
  unfold writeOrHold
  cases hs : asleepAt d off with
  | none =>
    have hs' : asleepAt d.written off = none := hs
    simp [applyReg, hs', lockHit_lockFree hr, ho, merge_lockFree hr]
  | some n =>
    have hs' : asleepAt d.written off = some n := hs
    simp only [applyReg, hs', lockHit_lockFree hr, ho, Bool.and_false, Bool.false_eq_true, if_false, w32, BitVec.ofNat_toNat,
      BitVec.setWidth_eq]
    rfl

/-! ### LN_CTL with RETRAIN -/

theorem merge_lnCtl (old val : Nat) :
    bits (merge false .lnCtl old val) 15 0 = bits val 15 0 := by
  simp [merge, mergeFld, regRow, fl, putBits, bits]
  omega

theorem wrf_mod (d : Dev) (r : Reg) (ix : List Nat) (m l v : Nat) :
    wrf d r ix m l (v % 2 ^ (m + 1 - l)) = wrf d r ix m l v := by
  simp only [wrf, putBits, Nat.mod_mod]

theorem wrf_lnCtl_merge (d : Dev) (ix : List Nat) (old val : Nat) :
    wrf d .lnCtl ix 15 0 (merge false .lnCtl old val) = wrf d .lnCtl ix 15 0 (bits val 15 0) := by
  rw [← merge_lnCtl old val]
  exact (wrf_mod d .lnCtl ix 15 0 _).symm

theorem portOf_wrf_lnCtl (d : Dev) (l k v : Nat) : portOf (wrf d .lnCtl (lix l) 15 0 v) k = portOf d k := by
  have h : ∀ j, lnW (wrf d .lnCtl (lix l) 15 0 v) j = lnW d j := fun j => by
    unfold lnW
    rw [rd_wrf_other]
    simp only [regAddr, regRow, dimOff, lix, tix]
    omega
  unfold portOf
  simp only [h]

theorem bit_merge_lnCtl (old val : Nat) : bit (merge false .lnCtl old val) 31 = bit val 31 := by
  rw [bit, bit]
  congr 1
  simp [merge, mergeFld, regRow, fl, putBits, bits]
  omega

/-- LN_CTL with RETRAIN stores its settings and restarts the training of the lane's port. -/
theorem lnCtlWrite_retrain (d : Dev) (l old val : Nat) (hv : bit val 31 = true) :
    lnCtlWrite l (merge false .lnCtl old val) d =
      retrainPort (portOf d l) (wrf d .lnCtl (lix l) 15 0 (bits val 15 0)) := by
  unfold lnCtlWrite
  rw [wrf_lnCtl_merge, bit_merge_lnCtl, hv, if_pos rfl, portOf_wrf_lnCtl]

theorem busWrite_lnCtl (l : Fin 512) {val : Word} (hv : val.getLsbD 31 = true) (d : Dev) :
    busWrite (regAddr .lnCtl (lix l)) val.toNat d =
      writeOrHold d (regAddr .lnCtl (lix l)) (locked d .lnCtl (lix l)) val
        (retrainPort (portOf d l) (wrf d.written .lnCtl (lix l) 15 0 (bits val.toNat 15 0))) := by
  have hl : 8 * (16 * (l.val / 128) + l.val / 8 % 16) + l.val % 8 = l.val := by omega
  have hb : bit val.toNat 31 = true := by rw [bit_eq_testBit]; exact hv
  rw [busWrite_lockFree (meets_lnCtl l) rfl]
  congr 1
  have h := lnCtlWrite_retrain d.written l (rd d .lnCtl (lix l)) val.toNat hb
  simp only [writeReg, lix, List.getD_cons_zero, List.getD_cons_succ, hl]
  exact h

/-! ### The quiet states -/

section Quiet
variable (d : Dev) (l : Nat)

theorem txQuietEnter_spec :
    (rdb d .lnQuiet (lix l) 31 = true ∧ laneState d l = 5 ∧ egressEmpty d (portOf d l) = true ∧
        6 * natMax 1 (rdf d .lnQuiet (lix l) 19 0) ≤ 5 * (d.now - (linkSt d (portOf d l)).idleAt) ∧
        unadvertised d (portOf d l) = 0 →
      rdb (txQuietEnter l d) .lnCtl (lix l) 30 = true ∧ txQuietEnter l d = wrf d .lnCtl (lix l) 30 30 1) ∧
    (¬(rdb d .lnQuiet (lix l) 31 = true ∧ laneState d l = 5 ∧ egressEmpty d (portOf d l) = true ∧
        6 * natMax 1 (rdf d .lnQuiet (lix l) 19 0) ≤ 5 * (d.now - (linkSt d (portOf d l)).idleAt) ∧
        unadvertised d (portOf d l) = 0) → txQuietEnter l d = d) := by
  simp only [txQuietEnter, idleLong, decide_eq_true_eq]
  refine ⟨fun h => ?_, fun h => if_neg h⟩
  rw [if_pos h]
  exact ⟨by rw [rdb_wrf_bit _ _ _ (by decide)]; rfl, rfl⟩

theorem txWake_spec :
    (egressEmpty d (portOf d l) = false ∨
        natMax 1 (rdf d .swLcf (tix (portOf d l / 8)) 15 8) ≤ unadvertised d (portOf d l) ∨
        (∃ x ∈ d.time.launches, x.port = portOf d l) →
      rdb (txWake l d) .lnCtl (lix l) 30 = false ∧ txWake l d = wrf d .lnCtl (lix l) 30 30 0) ∧
    (egressEmpty d (portOf d l) = true → unadvertised d (portOf d l) = 0 → d.time.launches = [] → txWake l d = d) := by
  simp only [txWake, Bool.or_eq_true, Bool.not_eq_true', decide_eq_true_eq, List.any_eq_true, beq_iff_eq, or_assoc]
  refine ⟨fun h => ?_, fun h1 h2 h3 => if_neg ?_⟩
  · rw [if_pos h]
    exact ⟨by rw [rdb_wrf_bit _ _ _ (by decide)]; rfl, rfl⟩
  · have hm : 1 ≤ natMax 1 (rdf d .swLcf (tix (portOf d l / 8)) 15 8) := by unfold natMax; split <;> omega
    simp only [h1, h2, h3, List.not_mem_nil, false_and, exists_false, or_false, reduceCtorEq, false_or]
    omega

theorem rxQuietEnter_spec :
    (rdb d .lnQuiet (lix l) 30 = true → laneState d l = 5 →
      rdb (rxQuietEnter l d) .lnState (lix l) 3 = true ∧ laneState (rxQuietEnter l d) l = 5 ∧
        rxQuietEnter l d = wrf d .lnState (lix l) 3 3 1) ∧
    (rdb d .lnQuiet (lix l) 30 = false ∨ laneState d l ≠ 5 → rxQuietEnter l d = d) := by
  unfold rxQuietEnter
  refine ⟨fun h1 h2 => ?_, fun h => if_neg fun ⟨h1, h2⟩ => h.elim (by simp [h1]) (· h2)⟩
  rw [if_pos ⟨h1, h2⟩]
  refine ⟨by rw [rdb_wrf_bit _ _ _ (by decide)]; rfl, ?_, rfl⟩
  rw [laneState, rdf_wrf_outside _ _ _ _ (by decide)]
  exact h2

theorem rxWake_spec :
    rdb (rxWake l d) .lnState (lix l) 3 = false ∧ laneState (rxWake l d) l = laneState d l ∧
      rxWake l d = wrf d .lnState (lix l) 3 3 0 := by
  refine ⟨?_, rdf_wrf_outside _ _ _ _ (by decide), rfl⟩
  rw [rxWake, rdb_wrf_bit _ _ _ (by decide)]
  rfl

end Quiet

/-- What the row asks of a write of LN_CTL. -/
def retrainWrite (l : Fin 512) (val : Word) (d : Dev) : Dev :=
  if val.getLsbD 31 then
    writeOrHold d (regAddr .lnCtl (lix l)) (locked d .lnCtl (lix l)) val
      (retrainPort (portOf d l) (wrf d.written .lnCtl (lix l) 15 0 (bits val.toNat 15 0)))
  else d

theorem retrainWrite_eq (l : Fin 512) (val : Word) (d : Dev) :
    (if val.getLsbD 31 then busWrite (regAddr .lnCtl (lix l)) val.toNat d else d) = retrainWrite l val d := by
  unfold retrainWrite
  split
  · next hv => exact busWrite_lnCtl l hv d
  · rfl

theorem exec_laneRetrain (l : Fin 512) (val : Word) (s : State) :
    exec (.laneRetrain l val) s = actBar (regAddr .lnCtl (lix l)) (retrainWrite l val) s := by
  have h : exec (.laneRetrain l val) s = execLaneRetrain l val s := rfl
  rw [h]
  unfold execLaneRetrain
  exact congrArg (actBar _ · s) (funext (retrainWrite_eq l val))

/-- Settles O23: each quiet row is one conditional write of a field; RETRAIN restarts the training of the lane's port. -/
theorem quietAndRetrain : Obligations.QuietAndRetrain := by
  unfold Obligations.QuietAndRetrain
  intro s l hs
  exact ⟨gives_of_act rfl hs (txQuietEnter_spec s.dev.fresh l), gives_of_act rfl hs (txWake_spec s.dev.fresh l),
    gives_of_act rfl hs (rxQuietEnter_spec s.dev.fresh l), gives_of_act rfl hs (rxWake_spec s.dev.fresh l),
    fun val hr => does_of_actBar (exec_laneRetrain l val s) hr rfl⟩

end Sys2Proof.Machine
end

section
/-! # Time: increments, steps, loads, switches and the timestamp queue (spec/13 R333 to R336, R341) -/
namespace Sys2Proof.Machine

theorem reports_raiseAt (d : Dev) (x : Src) (n b : Nat) (args : List (Nat × Nat)) (lanes : List Nat) :
    Reports (regAddr x.st x.ix :: reportRegs) d (raiseAt d x n b args lanes) := by
  unfold raiseAt
  refine ((reports_cntN _ d x n 1).trans (reports_stSet _ x b (by simp))).trans ?_
  exact (reports_event ..).mono (fun a ha => List.mem_cons_of_mem _ ha)

theorem Reports.time {A : List Nat} {d e : Dev} (h : Reports A d e) : e.time = d.time := by
  obtain ⟨_, _, _, _, _, _, rfl, _⟩ := h; rfl

/-! ### The increment -/

theorem meets_timeInc (i : Fin 2) :
    MeetsPair (regAddr .timeIncLo [i.val]) .timeIncLo .timeIncHi [i.val] ∧ aligned64 (regAddr .timeIncLo [i.val]) = true := by
  refine ⟨⟨rfl, rfl, rfl, ?_, ?_⟩, ?_⟩ <;> revert i <;> decide +kernel

/-- A pair that no lock touches takes its effect with the merged halves. -/
theorem applyPair_lockFree {lo hi : Reg} {ix : List Nat} (hl : lockFree lo = true) (hh : lockFree hi = true)
    (hro : (regRow lo).flds.all (fun f => f.acc == .ro) = false) (off vl vh : Nat) (d : Dev) :
    applyPair off lo hi ix vl vh d =
      writePair (offDie off) lo ix (merge false lo (rd d lo ix) vl) (merge false hi (rd d hi ix) vh) d := by
  have ho : onlyRwl lo = false := by simpa using (Bool.and_eq_true_iff.mp hl).2
  simp only [applyPair, lockHit_lockFree hl, lockHit_lockFree hh, ho, hro, merge_lockFree hl, merge_lockFree hh,
    Bool.and_false, Bool.false_and, Bool.or_self, Bool.false_eq_true, if_false]

theorem busWrite64_timeInc (i : Fin 2) (val : Nat) (d : Dev) :
    busWrite64 (regAddr .timeIncLo [i.val]) val d =
      wr (wr (unstage (regwr d) (regAddr .timeIncLo [i.val])) .timeIncLo [i.val]
        (merge false .timeIncLo (rd (unstage (regwr d) (regAddr .timeIncLo [i.val])) .timeIncLo [i.val]) (val % 2 ^ 32)))
        .timeIncHi [i.val]
        (merge false .timeIncHi (rd (unstage (regwr d) (regAddr .timeIncLo [i.val])) .timeIncHi [i.val]) (val / 2 ^ 32)) := by
  rw [busWrite64_pair (meets_timeInc i).1 (meets_timeInc i).2, applyPair_lockFree rfl rfl rfl, writePair_plain rfl rfl]

theorem merge_timeIncLo (old val : Nat) : merge false .timeIncLo old val = val % 2 ^ 32 := by
  simp [merge, mergeFld, regRow, fl, putBits, bits]

theorem merge_timeIncHi (old val : Nat) : merge false .timeIncHi old val = val % 16 := by
  simp [merge, mergeFld, regRow, fl, putBits, bits]

theorem busWrite64_timeInc_spec (i : Fin 2) (val : Nat) (d : Dev) (e : Dev)
    (he : e = busWrite64 (regAddr .timeIncLo [i.val]) val d) :
    rd e .timeIncLo [i.val] = val % 2 ^ 32 ∧ rdf e .timeIncHi [i.val] 3 0 = val / 2 ^ 32 % 16 ∧
      e.time = d.time ∧ e = { d with regs := e.regs, cnt := e.cnt, stage := e.stage } := by
  have ha : regAddr .timeIncHi [i.val] ≠ regAddr .timeIncLo [i.val] := by simp [regAddr, regRow, dimOff]
  rw [busWrite64_timeInc, merge_timeIncLo, merge_timeIncHi] at he
  subst he
  refine ⟨?_, ?_, rfl, rfl⟩
  · rw [rd_wr_other _ _ ha, rd_wr_same]
    omega
  · rw [rdf, rd_wr_same]
    simp only [bits, Nat.shiftRight_zero]
    omega

/-! ### Steps, loads and the queue -/

theorem meets_timeAdj (i : Fin 2) :
    MeetsReg (regAddr .timeAdj [i.val]) .timeAdj [i.val] ∧ sleepDom (regAddr .timeAdj [i.val]) = none := by
  revert i
  decide +kernel

theorem meets_timeCtl : MeetsReg (regAddr .timeCtl []) .timeCtl [] ∧ sleepDom (regAddr .timeCtl []) = none := by
  decide +kernel

theorem meets_timeTsqCtl (die : Fin 4) :
    MeetsReg (regAddr .timeTsqCtl [die.val]) .timeTsqCtl [die.val] ∧ sleepDom (regAddr .timeTsqCtl [die.val]) = none := by
  revert die
  decide +kernel

theorem busWrite_timeAdj (i : Fin 2) (val : Nat) (d : Dev) :
    busWrite (regAddr .timeAdj [i.val]) val d = timeStep i val d.written :=
  busWrite_lockFree_awake (meets_timeAdj i).1 (meets_timeAdj i).2 rfl val d

theorem busWrite_tsqPop (die : Fin 4) (d : Dev) :
    busWrite (regAddr .timeTsqCtl [die.val]) (2 ^ 31) d = tsqPop die d.written :=
  busWrite_lockFree_awake (meets_timeTsqCtl die).1 (meets_timeTsqCtl die).2 rfl (2 ^ 31) d

theorem timeSetLoad_taken {d : Dev} {i : Nat} (h : d.time.setPend.contains i = true) (ha : i ≠ activeDom d)
    (hb : boundTo d i = false) :
    timeSetLoad i d =
      let ns := rd d .timeSetHi [i] * 2 ^ 32 + rd d .timeSetLo [i]
      let d1 := setDom { d with time := { d.time with setPend := d.time.setPend.filter (· != i) } } i ⟨ns, 0⟩
      if rdf d .timePpsCtl [] 30 30 = i ∧ ns % 10 ^ 9 = 0 then ppsOutEdge d1 else d1 := by
  have hl : loads d i = true := by
    simp only [loads, h, hb, bne_iff_ne.mpr ha, Bool.not_false, Bool.and_self]
  have hr (x : Dom) : rdf (setDom { d with time := { d.time with setPend := d.time.setPend.filter (· != i) } } i x)
      .timePpsCtl [] 30 30 = rdf d .timePpsCtl [] 30 30 := by
    unfold setDom
    split <;> rfl
  simp only [timeSetLoad, h, hl, if_true, hr]
  rfl

theorem timeSetLoad_refused {d : Dev} {i : Nat} (h : d.time.setPend.contains i = true)
    (hb : i = activeDom d ∨ boundTo d i = true) :
    timeSetLoad i d =
      raiseAt { d with time := { d.time with setPend := d.time.setPend.filter (· != i) } } (srcTime 255 0) 7 4 [] [] := by
  have hl : loads d i = false := by rcases hb with hb | hb <;> simp [loads, hb]
  simp only [timeSetLoad, h, hl, if_true, Bool.false_eq_true, if_false]
  rfl

theorem applySteps_one {d : Dev} {i : Nat} {st : Int} (h : d.time.adj = [(i, st)]) :
    applySteps d = setDom { d with time := { d.time with adj := [] } } i
      { dom d i with ns := ofInt 64 (((dom d i).ns : Int) + st) } := by
  rw [applySteps, h]
  rfl

/-! ### The switch -/

theorem activeDom_wrf (d : Dev) {m l : Nat} (v : Nat) (h : 0 < l) : activeDom (wrf d .timeCtl [] m l v) = activeDom d :=
  rdf_wrf_outside _ _ _ _ (.inl h)

/-- A write of TIME_CTL that switches: its lock bit is merged, then the switch is armed or rejected. -/
theorem busWrite_timeCtl (d : Dev) :
    ∃ v, busWrite (regAddr .timeCtl []) 4 d = switchGo (wrf d.written .timeCtl [] 31 31 v) := by
  rw [busWrite_lockFree_awake meets_timeCtl.1 meets_timeCtl.2 rfl 4 d]
  simp only [writeReg]
  rw [if_pos (by decide)]
  exact ⟨_, rfl⟩

theorem rd_timeSwitchAt_wrf (d : Dev) (m l v : Nat) : rd (wrf d .timeCtl [] m l v) .timeSwitchAt = rd d .timeSwitchAt :=
  rd_wrf_other _ _ _ _ (by decide)

theorem nsNow_of_time {d e : Dev} (h : e.time = d.time) (ha : activeDom e = activeDom d) : nsNow e = nsNow d := by
  simp only [nsNow, dom, h, ha]

theorem switchGo_armed {d : Dev} (hp : d.time.pend = none)
    (ht : tickReached (nsNow d) (BitVec.ofNat 32 (rd d .timeSwitchAt)) = false) :
    switchGo d = wrf { d with time := { d.time with pend := some (BitVec.ofNat 32 (rd d .timeSwitchAt), activeDom d) } }
      .timeCtl [] 1 1 1 := by
  simp [switchGo, hp, ht]

theorem switchGo_refused {d : Dev}
    (h : d.time.pend.isSome = true ∨ tickReached (nsNow d) (BitVec.ofNat 32 (rd d .timeSwitchAt)) = true) :
    switchGo d = timeReject d := by
  simp only [switchGo, if_pos h]

theorem reports_timeReject (d : Dev) : Reports (regAddr .timeStatus [] :: reportRegs) d (timeReject d) := by
  unfold timeReject
  exact reports_raiseAt ..

theorem activeDom_timeReject (d : Dev) : activeDom (timeReject d) = activeDom d := by
  simp only [activeDom, rdf]
  rw [(reports_timeReject d).rd (by decide)]

theorem activeDom_written (d : Dev) (v : Nat) : activeDom (wrf d.written .timeCtl [] 31 31 v) = activeDom d := by
  rw [activeDom_wrf _ _ (by decide)]
  simp only [activeDom, rdf, rd_written]

theorem rd_timeSwitchAt_written (d : Dev) (v : Nat) :
    rd (wrf d.written .timeCtl [] 31 31 v) .timeSwitchAt = rd d .timeSwitchAt := by
  rw [rd_timeSwitchAt_wrf, rd_written]

/-- A field written along with the count of the access changes registers and counters alone. -/
theorem wrf_written_frame (d : Dev) (r : Reg) (ix : List Nat) (m l v : Nat) :
    ∃ t c, wrf d.written r ix m l v = { d with regs := t, cnt := c, draw := d.draw + 1 } := ⟨_, _, rfl⟩

theorem time_written (d : Dev) (v : Nat) : (wrf d.written .timeCtl [] 31 31 v).time = d.time := by
  obtain ⟨t, c, h⟩ := wrf_written_frame d .timeCtl [] 31 31 v
  rw [h]

theorem switchGo_armed_spec {d e : Dev} (hp : d.time.pend = none)
    (ht : tickReached (nsNow d) (BitVec.ofNat 32 (rd d .timeSwitchAt)) = false) (he : e = switchGo d) :
    e.time = { d.time with pend := some (BitVec.ofNat 32 (rd d .timeSwitchAt), activeDom d) } ∧
      rdb e .timeCtl [] 1 = true ∧ activeDom e = activeDom d ∧ ∃ t, e = { d with time := e.time, regs := t } := by
  rw [switchGo_armed hp ht] at he
  have hr := regsOnly_wrf { d with time := { d.time with pend := some (BitVec.ofNat 32 (rd d .timeSwitchAt), activeDom d) } }
    .timeCtl [] 1 1 1
  have h1 : rdb e .timeCtl [] 1 = true := by rw [he, rdb_wrf_bit _ _ _ (by decide)]; rfl
  have h2 : activeDom e = activeDom d := by rw [he, activeDom_wrf _ _ (by decide)]; rfl
  rw [← he] at hr
  obtain ⟨t, ht⟩ := hr
  exact ⟨by rw [ht], h1, h2, t, by rw [ht]⟩

theorem busWrite_timeCtl_armed {d e : Dev} (hp : d.time.pend = none)
    (ht : tickReached (nsNow d) (BitVec.ofNat 32 (rd d .timeSwitchAt)) = false)
    (he : e = busWrite (regAddr .timeCtl []) 4 d) :
    e.time = { d.time with pend := some (BitVec.ofNat 32 (rd d .timeSwitchAt), activeDom d) } ∧
      rdb e .timeCtl [] 1 = true ∧ activeDom e = activeDom d ∧
      e = { d with time := e.time, regs := e.regs, cnt := e.cnt, draw := d.draw + 1 } := by
  obtain ⟨v, hv⟩ := busWrite_timeCtl d
  have ha := activeDom_written d v
  have hs := rd_timeSwitchAt_written d v
  have htm := time_written d v
  obtain ⟨t, c, hw⟩ := wrf_written_frame d .timeCtl [] 31 31 v
  generalize wrf d.written .timeCtl [] 31 31 v = u at hv ha hs htm hw
  obtain ⟨h1, h2, h3, t', h4⟩ := switchGo_armed_spec (d := u) (by rw [htm]; exact hp)
    (by rw [nsNow_of_time htm ha, hs]; exact ht) (he.trans hv)
  refine ⟨by rw [h1, htm, hs, ha], h2, h3.trans ha, ?_⟩
  rw [h4, hw]

theorem busWrite_timeCtl_refused {d : Dev}
    (h : d.time.pend.isSome = true ∨ tickReached (nsNow d) (BitVec.ofNat 32 (rd d .timeSwitchAt)) = true) :
    (busWrite (regAddr .timeCtl []) 4 d).time = d.time ∧ activeDom (busWrite (regAddr .timeCtl []) 4 d) = activeDom d := by
  obtain ⟨v, hv⟩ := busWrite_timeCtl d
  have ha := activeDom_written d v
  have hs := rd_timeSwitchAt_written d v
  have htm := time_written d v
  generalize wrf d.written .timeCtl [] 31 31 v = u at hv ha hs htm
  rw [hv, switchGo_refused (d := u) (by rw [htm, nsNow_of_time htm ha, hs]; exact h), activeDom_timeReject, ha]
  exact ⟨(reports_timeReject u).time.trans htm, rfl⟩

/-- Settles O47: each row is one write of a time register or one change of the time state, and each completes. -/
theorem timeDomains : Obligations.TimeDomains := by
  unfold Obligations.TimeDomains
  intro s i hs
  refine ⟨fun val hr => ?inc, fun st hr => ?adj, fun d st h => applySteps_one h, fun h ha hb => ?load, fun h hb => ?refused,
    fun h => ?idle, ⟨fun hr hp ht => ?armed, fun h => ?rejected⟩, fun p hp => ?switched, fun hp => ?unswitched,
    fun die hr => ?pop, fun val st die c hc => ?complete⟩
  case inc => exact gives_of_actBar rfl hr (busWrite64_timeInc_spec i val.toNat s.dev.fresh _ rfl)
  case adj => exact does_of_actBar rfl hr (busWrite_timeAdj i st.toNat s.dev.fresh)
  case load => exact does_of_act rfl hs (timeSetLoad_taken (d := s.dev.fresh) h ha hb)
  case refused => exact does_of_act rfl hs (timeSetLoad_refused (d := s.dev.fresh) h hb)
  case idle => exact does_of_act rfl hs (if_neg (by rw [show s.dev.fresh.time = s.dev.time from rfl, h]; decide))
  case armed => exact gives_of_actBar rfl hr (busWrite_timeCtl_armed (d := s.dev.fresh) hp ht rfl)
  case rejected =>
    by_cases hb : barOn (regAddr .timeCtl []) s.dev = true
    · exact ⟨_, actWhen_eq hb _, busWrite_timeCtl_refused (d := s.dev.fresh) h⟩
    · exact ⟨s.dev, actWhen_off (by simpa using hb) _, rfl, rfl⟩
  case switched =>
    refine does_of_act rfl hs ?_
    rw [timeSwitched, show s.dev.fresh.time.pend = some p from hp]
  case unswitched =>
    refine does_of_act rfl hs ?_
    rw [timeSwitched, show s.dev.fresh.time.pend = none from hp]
  case pop => exact does_of_actBar rfl hr (busWrite_tsqPop die s.dev.fresh)
  case complete =>
    simp only [List.mem_cons, List.not_mem_nil, or_false] at hc
    rcases hc with rfl | rfl | rfl | rfl | rfl | rfl <;> exact actWhen_next _ _ s

end Sys2Proof.Machine
end

section
/-! # Thimbles, laser bias, source transactions and feed probes (spec/12 R320 to R326, R331) -/
namespace Sys2Proof.Machine

theorem Reports.oe {A : List Nat} {d e : Dev} (h : Reports A d e) : e.oe = d.oe := by
  obtain ⟨_, _, _, _, _, _, rfl, _⟩ := h; rfl

theorem Reports.rdf {A : List Nat} {d e : Dev} (h : Reports A d e) {r : Reg} {ix : List Nat} (ha : regAddr r ix ∉ A)
    (m l : Nat) : rdf e r ix m l = rdf d r ix m l := by
  simp only [Machine.rdf, h.rd ha]

theorem oe_wrf (d : Dev) (r : Reg) (ix : List Nat) (m l v : Nat) : (wrf d r ix m l v).oe = d.oe := rfl

/-- A field holds what was written, if it fits. -/
theorem rdf_wrf_fits (d : Dev) (r : Reg) (ix : List Nat) {m l v : Nat} (hm : m < 32) (hv : v < 2 ^ (m + 1 - l)) :
    rdf (wrf d r ix m l v) r ix m l = v := by
  refine Nat.eq_of_testBit_eq fun i => ?_
  have h := congrArg (Nat.testBit · i) (bits_putBits_same (rd d r ix) m l v)
  simp only [testBit_bits, Nat.mod_eq_of_lt hv] at h
  simp only [rdf, rd_wrf_same, testBit_bits, show 4294967296 = 2 ^ 32 from rfl, Nat.testBit_mod_two_pow]
  rw [← h]
  by_cases hi : i < m + 1 - l
  · simp only [hi, decide_true, Bool.true_and, show l + i < 32 by omega]
  · simp only [hi, decide_false, Bool.false_and]

theorem rdf_wrf_other (d : Dev) {r r' : Reg} {ix ix' : List Nat} (m l v m' l' : Nat) (h : regAddr r ix ≠ regAddr r' ix') :
    rdf (wrf d r ix m l v) r' ix' m' l' = rdf d r' ix' m' l' := by
  simp only [rdf, rd_wrf_other d m l v h]

/-! ### Laser bias -/

theorem meets_elsBias (m : Fin 8) (i : Fin 9) :
    MeetsReg (regAddr .elsBias [m.val, i.val]) .elsBias [m.val, i.val] ∧
      sleepDom (regAddr .elsBias [m.val, i.val]) = none := by
  revert m i
  decide +kernel

theorem meets_elsCtl (m : Fin 8) :
    MeetsReg (regAddr .elsCtl [m.val]) .elsCtl [m.val] ∧ sleepDom (regAddr .elsCtl [m.val]) = none := by
  revert m
  decide +kernel

theorem merge_elsBias (old val : Nat) : bits (merge false .elsBias old val) 15 0 = bits val 15 0 := by
  simp [merge, mergeFld, regRow, fl, putBits, bits]

/-- A write of a register that no lock touches, in a block that never sleeps, takes its effect. -/
theorem busWriteX_lockFree_awake {off : Nat} {r : Reg} {ix : List Nat} (hm : MeetsReg off r ix)
    (hs : sleepDom off = none) (hr : lockFree r = true) (val : Nat) (img : Option DmaRead) (low : Bool) (d : Dev) :
    busWriteX off val img low d =
      writeReg (offDie off) r ix (merge false r (rd d r ix) val) val img low (regwr d) := by
  obtain ⟨ha, ht, h1, h2⟩ := hm
  have ho : onlyRwl r = false := by simpa using (Bool.and_eq_true_iff.mp hr).2
  rw [busWriteX_reg ha ht h1 h2]
  simp [applyReg, asleepAt_of_sleepDom hs, lockHit_lockFree hr, ho, merge_lockFree hr, regwr]

theorem busWriteX_elsBias (m : Fin 8) (i : Fin 9) (val : Nat) (low : Bool) (d : Dev) :
    busWriteX (regAddr .elsBias [m.val, i.val]) val none low d = biasWrite (regwr d) m i (bits val 15 0) low := by
  rw [busWriteX_lockFree_awake (meets_elsBias m i).1 (meets_elsBias m i).2 rfl, ← merge_elsBias (rd d .elsBias [m.val, i.val])]
  simp only [writeReg, List.getD_cons_zero, List.getD_cons_succ]

section Bias
variable {d : Dev} {m : Fin 8} {i : Fin 9} {v : Nat} {low : Bool}

theorem ageCheck_below (h : rdf d .elsBias [m.val, i.val] 15 0 * 100 < natMin 100 (rdf d .elsCtl [m.val] 15 8) * elsCap d m i) :
    ageCheck d m i = d := by
  unfold ageCheck
  exact if_neg fun ⟨_, h1, _⟩ => by omega

theorem ageCheck_aged (h : d.oe.aged.contains (9 * m.val + i.val) = true) : ageCheck d m i = d := by
  unfold ageCheck
  exact if_neg fun ⟨_, _, h1⟩ => by rw [h] at h1; exact absurd h1 (by decide)

theorem capCheck_free (h : rdf d .elsBias [m.val, i.val] 15 0 < elsCap d m i ∨ low = false) :
    capCheck d m i low = { d with oe := { d.oe with capped := d.oe.capped.filter (· != 9 * m.val + i.val) } } := by
  unfold capCheck
  exact if_neg fun ⟨_, h1, h2⟩ => h.elim (fun h => by omega) (fun h => by simp [h] at h2)

theorem elsCap_wrf (d : Dev) (m i v : Nat) : elsCap (wrf d .elsBias [m, i] 15 0 v) m i = elsCap d m i :=
  rdf_wrf_outside _ _ _ _ (.inr (by decide))

theorem elsCap_lt (d : Dev) (m i : Nat) : elsCap d m i < 2 ^ 16 := bits_lt ..

theorem pct_wrf_elsBias (d : Dev) (m : Fin 8) (i : Fin 9) (v : Nat) :
    rdf (wrf d .elsBias [m.val, i.val] 15 0 v) .elsCtl [m.val] 15 8 = rdf d .elsCtl [m.val] 15 8 := by
  refine rdf_wrf_other _ _ _ _ _ _ ?_
  simp only [regAddr, regRow, dimOff]
  omega

/-- A bias below the level of an aged source stands, with its module no longer counted at its cap. -/
theorem biasWrite_below (hv : v ≤ elsCap d m i)
    (ha : 100 * v < natMin 100 (rdf d .elsCtl [m.val] 15 8) * elsCap d m i) (hl : v < elsCap d m i ∨ low = false) :
    biasWrite d m i v low = wrf { d with oe := { d.oe with capped := d.oe.capped.filter (· != 9 * m.val + i.val) } }
      .elsBias [m.val, i.val] 15 0 v := by
  have hc := elsCap_lt d m i
  have hmin : natMin v (elsCap d m i) = v := if_pos hv
  have hr : rdf (wrf d .elsBias [m.val, i.val] 15 0 v) .elsBias [m.val, i.val] 15 0 = v :=
    rdf_wrf_fits _ _ _ (by decide) (by omega)
  simp only [biasWrite, if_neg (Nat.not_lt.mpr hv), hmin]
  rw [ageCheck_below (by rw [hr, pct_wrf_elsBias, elsCap_wrf]; omega), capCheck_free (by rw [hr, elsCap_wrf]; exact hl)]
  rfl

/-- A bias above its cap is clamped and reported. -/
theorem biasWrite_clamped (hv : elsCap d m i < v) (ha : d.oe.aged.contains (9 * m.val + i.val) = true) :
    biasWrite d m i v false =
      let d1 := wrf (raise d (srcEls m) 1) .elsBias [m.val, i.val] 15 0 (elsCap d m i)
      { d1 with oe := { d1.oe with capped := d1.oe.capped.filter (· != 9 * m.val + i.val) } } := by
  have hmin : natMin v (elsCap d m i) = elsCap d m i := if_neg (by omega)
  have hoe : (raise d (srcEls m) 1).oe = d.oe := (reports_raise d (srcEls m) 1 [] []).oe
  simp only [biasWrite, if_pos hv, hmin]
  rw [ageCheck_aged (by rw [oe_wrf, hoe]; exact ha), capCheck_free (.inr rfl)]

theorem busWriteX_elsBias_clamped {val : Nat} (hv : elsCap d m i < bits val 15 0)
    (ha : d.oe.aged.contains (9 * m.val + i.val) = true) :
    busWriteX (regAddr .elsBias [m.val, i.val]) val none false d =
      let d1 := wrf (raise (cnt1 d (srcRel 255 0) 9) (srcEls m) 1) .elsBias [m.val, i.val] 15 0 (elsCap d m i)
      { d1 with oe := { d1.oe with capped := d1.oe.capped.filter (· != 9 * m.val + i.val) } } := by
  have hc : elsCap (regwr d) m i = elsCap d m i := rfl
  rw [busWriteX_elsBias, biasWrite_clamped (d := regwr d) (by rw [hc]; exact hv) ha, hc, regwr]

end Bias

/-! ### Thimbles -/

section Thimbles
variable {d : Dev} {n f : Nat}

theorem thimbleProbe_opens (h0 : thim d n f = 0) (hl : feedLit d n (f / 4) = true) (hp : noProbe d = false)
    (hm : (fibreLanes n f).any (fun l => mayTrain d (portOf d l)) = true) :
    thimbleProbe n f d = cnt1 (setThim d n f 1) (srcOe n n) 5 := by
  rw [thimbleProbe, if_pos hl, startProbe, if_pos ⟨h0, by rw [hp]; rfl, hm⟩]

theorem thimbleProbe_idle (h : feedLit d n (f / 4) = false ∨ noProbe d = true ∨
      (fibreLanes n f).any (fun l => mayTrain d (portOf d l)) = false ∨ thim d n f ≠ 0) : thimbleProbe n f d = d := by
  unfold thimbleProbe startProbe
  split
  · next hl =>
    refine if_neg fun ⟨h0, hp, hm⟩ => ?_
    rcases h with h | h | h | h
    · rw [h] at hl; exact absurd hl (by decide)
    · rw [h] at hp; exact absurd hp (by decide)
    · rw [h] at hm; exact absurd hm (by decide)
    · exact h h0
  · rfl

end Thimbles

/-! ### Source transactions -/

theorem elsState_unreported (m : Fin 8) : regAddr .elsState [m.val] ∉ regAddr (srcEls m).st (srcEls m).ix :: reportRegs := by
  revert m
  decide

section Bus
variable {d : Dev} {m : Fin 8} {cmd reg data : Nat} {rs : List (Option (BitVec 16))}

theorem elsBus_answered (hr : reg = cmd % 128) (hm : Unmarked d 0x18 (if m.val < 4 then 1 else 3) m) (hc : bit cmd 7 = true)
    {v : BitVec 16} (hf : (rs.take 4).find? (·.isSome) = some (some v)) :
    elsBus m cmd reg data rs d =
      { d with oe := { d.oe with busFails := tdel d.oe.busFails m, busData := tput 0 d.oe.busData m v } } := by
  simp only [elsBus, ne_eq, hr, not_true, if_false, takeMark_none hm, Option.isSome_none, Bool.false_eq_true, hf, hc, if_true]

theorem elsBus_fails (hr : reg = cmd % 128) (hm : Unmarked d 0x18 (if m.val < 4 then 1 else 3) m)
    (hf : (rs.take 4).find? (·.isSome) = none) :
    elsBus m cmd reg data rs d =
      let k := tgetD d.oe.busFails m 0 + 1
      let d1 := raise { d with oe := { d.oe with busFails := tput 0 d.oe.busFails m k } } (srcEls m) 0
      if 16 ≤ k ∧ rdf d .elsState [m.val] 1 0 ≠ 0 then wrf d1 .elsState [m.val] 1 0 3 else d1 := by
  have hs (t : Tab Nat) : rdf (raise { d with oe := { d.oe with busFails := t } } (srcEls m) 0) .elsState [m.val] 1 0 =
      rdf d .elsState [m.val] 1 0 :=
    (reports_raise _ (srcEls m) 0 [] []).rdf (elsState_unreported m) 1 0
  simp only [elsBus, ne_eq, hr, not_true, if_false, takeMark_none hm, Option.isSome_none, Bool.false_eq_true, hf, hs]

end Bus

/-! ### Feeds -/

section Feeds
variable {d : Dev} {n g : Nat}

theorem feedKill_dark (hk : (feedOf d n g).killed = false) (ho : rdb d .elsCtl [n / 2] (4 * (n % 2) + g) = true) :
    feedKill n g d = raise (holdRings (setFeed d n g ⟨false, false, true⟩) (fun n' g' => n' == n && g' == g))
      (srcOe n (4 * n + g)) 3 := by
  simp only [feedKill, hk, ho, Bool.not_true, Bool.or_self, Bool.false_eq_true, if_false]

theorem feedKill_idle (hk : (feedOf d n g).killed = true) : feedKill n g d = d := by
  simp only [feedKill, hk, Bool.true_or, if_true]

theorem feedProbe_sent (hk : (feedOf d n g).killed = true) (hp : (feedOf d n g).probing = false) (hn : noProbe d = false) :
    feedProbe n g d = cnt1 (setFeed d n g { feedOf d n g with probing := true }) (srcOe n n) 6 := by
  simp only [feedProbe, hk, hp, hn, Bool.not_false, Bool.and_self, if_true]

theorem feedProbe_idle (hn : noProbe d = true) : feedProbe n g d = d := by
  simp only [feedProbe, hn, Bool.not_true, Bool.and_false, Bool.false_eq_true, if_false]

theorem feedProbeEnd_lit (hp : (feedOf d n g).probing = true) :
    feedProbeEnd n g true d =
      (List.range 4).foldl (fun d k => startProbe d n (4 * g + k)) (setFeed d n g ⟨true, false, false⟩) := by
  simp only [feedProbeEnd, hp, Bool.not_true, Bool.false_eq_true, if_false, if_true]

theorem feedProbeEnd_dark (hp : (feedOf d n g).probing = true) :
    feedProbeEnd n g false d = setFeed d n g { feedOf d n g with probing := false } := by
  simp only [feedProbeEnd, hp, Bool.not_true, Bool.false_eq_true, if_false]

theorem feedProbeEnd_idle (hp : (feedOf d n g).probing = false) (light : Bool) : feedProbeEnd n g light d = d := by
  simp only [feedProbeEnd, hp, Bool.not_false, if_true]

end Feeds

theorem busWrite_elsCtl (m : Fin 8) (val : Nat) (d : Dev) :
    busWrite (regAddr .elsCtl [m.val]) val d =
      outEn (wr d.written .elsCtl [m.val] (merge false .elsCtl (rd d .elsCtl [m.val]) val)) m (rdf d .elsCtl [m.val] 7 0)
        (bits (merge false .elsCtl (rd d .elsCtl [m.val]) val) 7 0) :=
  busWrite_lockFree_awake (meets_elsCtl m).1 (meets_elsCtl m).2 rfl val d

theorem exec_elsAlert (m : Fin 8) (alarm : BitVec 16) (s : State) :
    exec (.elsAlert m alarm) s = act (fun d => raise d (srcEls m) 4 [(2, alarm.toNat)]) s := rfl

/-- Settles O46: each Thimble, bias, bus and feed row is one guarded change, read off its definition. -/
theorem lightSafety : Obligations.LightSafety := by
  unfold Obligations.LightSafety
  refine ⟨?thimbles, ?sources⟩
  case thimbles =>
    intro s n f hs
    refine ⟨fun h0 hl hp hm => ?p1, fun h => ?p2, fun h => ?e1, fun h => ?e2, fun h0 hm => ?r1, fun h => ?r2, fun h => ?k1,
      fun h => ?k2, fun h => ?l1, fun h => ?l2, fun h => ?t1, fun h => ?t2, fun c hc => ?complete⟩
    case p1 => exact does_of_act rfl hs (thimbleProbe_opens (d := s.dev.fresh) h0 hl hp hm)
    case p2 => exact does_of_act rfl hs (thimbleProbe_idle (d := s.dev.fresh) h)
    case e1 => exact does_of_act rfl hs (if_pos h)
    case e2 => exact does_of_act rfl hs (if_neg h)
    case r1 => exact does_of_act rfl hs (if_pos ⟨h0, hm⟩)
    case r2 => exact does_of_act rfl hs (if_neg fun ⟨h0, hm⟩ => h.elim (· h0) (fun h => Bool.false_ne_true (h.symm.trans hm)))
    case k1 => exact does_of_act rfl hs (if_pos h)
    case k2 => exact does_of_act rfl hs (if_neg h)
    case l1 => exact does_of_act rfl hs (if_pos h)
    case l2 => exact does_of_act rfl hs (if_neg fun h' => by
      have h : thim s.dev n f = 0 ∨ thim s.dev n f = 3 := h
      have h' : thim s.dev n f = 1 ∨ thim s.dev n f = 2 := h'
      omega)
    case t1 => exact does_of_act rfl hs (if_neg (not_not.mpr h))
    case t2 => exact does_of_act rfl hs (if_pos h)
    case complete =>
      simp only [List.mem_cons, List.not_mem_nil, or_false] at hc
      rcases hc with rfl | rfl | rfl | rfl | rfl | rfl <;> exact actWhen_next _ _ s
  case sources =>
    intro s m hs
    refine ⟨fun i val low => ⟨fun hr hv ha hl => ?below, fun hr hv h0 ha => ?clamped⟩, fun val hr => ?ctl,
      fun cmd reg data rs h => ?noBus, fun cmd reg data rs hd hreg hm => ⟨fun v hc hf => ?answered, fun hf => ?fails⟩,
      fun alarm => ?alert, fun n g => ⟨fun hk ho => ?kill, fun hk => ?killed, fun hk hp hn => ?probe, fun hn => ?noprobe,
        fun hp => ⟨?lit, ?dark⟩, fun hp light => ?ended⟩, fun j val low light cmd reg data rs n g c hc => ?complete⟩
    case below =>
      refine does_of_actBar rfl hr ((busWriteX_elsBias m i val.toNat low s.dev.fresh).trans ?_)
      exact biasWrite_below (d := regwr s.dev.fresh) hv ha hl
    case clamped =>
      exact does_of_actBar rfl hr (busWriteX_elsBias_clamped (d := s.dev.fresh) hv ha)
    case ctl => exact does_of_actBar rfl hr (busWrite_elsCtl m val.toNat s.dev.fresh)
    case noBus =>
      refine does_of_act rfl hs ?_
      split
      · next hd => exact if_pos (h.resolve_left (fun h' => Bool.false_ne_true (h'.symm.trans hd)))
      · rfl
    case answered =>
      refine does_of_act rfl hs ((if_pos hd).trans ?_)
      exact elsBus_answered (d := s.dev.fresh) hreg (unmarked_fresh hm) (by rw [bit_eq_testBit]; exact hc) hf
    case fails =>
      refine does_of_act rfl hs ((if_pos hd).trans ?_)
      exact elsBus_fails (d := s.dev.fresh) hreg (unmarked_fresh hm) hf
    case alert => exact does_of_act (exec_elsAlert m alarm s) hs rfl
    case kill => exact does_of_act rfl hs (feedKill_dark (d := s.dev.fresh) hk ho)
    case killed => exact does_of_act rfl hs (feedKill_idle (d := s.dev.fresh) hk)
    case probe => exact does_of_act rfl hs (feedProbe_sent (d := s.dev.fresh) hk hp hn)
    case noprobe => exact does_of_act rfl hs (feedProbe_idle (d := s.dev.fresh) hn)
    case lit => exact does_of_act rfl hs (feedProbeEnd_lit (d := s.dev.fresh) hp)
    case dark => exact does_of_act rfl hs (feedProbeEnd_dark (d := s.dev.fresh) hp)
    case ended => exact does_of_act rfl hs (feedProbeEnd_idle (d := s.dev.fresh) hp light)
    case complete =>
      simp only [List.mem_cons, List.not_mem_nil, or_false] at hc
      rcases hc with rfl | rfl | rfl | rfl | rfl | rfl | rfl
      · exact actWhen_next _ _ s
      · exact actWhen_next _ _ s
      · exact actWhen_next _ _ s
      · rw [exec_elsAlert]
        exact actWhen_next _ _ s
      · exact actWhen_next _ _ s
      · exact actWhen_next _ _ s
      · exact actWhen_next _ _ s

end Sys2Proof.Machine
end

section
/-! # Ring sweeps, tone windows and received power (spec/12 R312 to R319) -/
namespace Sys2Proof.Machine

/-! ### What a sensor sample leaves alone -/

theorem regAddr_ring (tx : Bool) (n r : Nat) :
    regAddr (ringReg tx) [n, r] = 0x2801000 + (if tx then 0 else 0x400) + n * 0x20000 + r * 4 := by
  cases tx <;> simp [regAddr, ringReg, regRow, dimOff] <;> omega

/-- A property that every write of a ring and of the group's temperature keeps, a sensor sample keeps. -/
theorem sensorSample_ind {P : Dev → Prop} {d : Dev} {n g t : Nat} (hd : P (wrf d .oeTemp [n] (8 * g + 7) (8 * g) t))
    (hw : ∀ (e : Dev) (tx : Bool) (i v : Nat), i < 36 → P e → P (wrf e (ringReg tx) [n, 36 * g + i] 15 0 v)) :
    P (sensorSample d n g t) := by
  unfold sensorSample
  refine List.foldlRecOn (motive := P) _ _ hd fun e he tx _ => ?_
  refine List.foldlRecOn (motive := P) _ _ he fun e he i hi => ?_
  dsimp only
  split
  · exact hw _ _ _ _ (List.mem_range.mp hi) he
  · exact hw _ _ _ _ (List.mem_range.mp hi) he
  · exact he

theorem regsOnly_sensorSample (d : Dev) (n g t : Nat) : RegsOnly d (sensorSample d n g t) :=
  sensorSample_ind (regsOnly_wrf ..) fun _ _ _ _ _ he => he.trans (regsOnly_wrf ..)

/-- A register that is neither a temperature nor a ring reads as before a sensor sample. -/
theorem rd_sensorSample (d : Dev) {n g : Nat} (t : Nat) (hn : n < 16) (hg : g < 4) {r : Reg} {ix : List Nat}
    (h : regAddr r ix < 0x2800000 ∨ 0x2A00000 ≤ regAddr r ix) : rd (sensorSample d n g t) r ix = rd d r ix := by
  refine sensorSample_ind (P := fun e => rd e r ix = rd d r ix) ?_ fun e tx i v hi he => ?_
  · refine rd_wrf_other _ _ _ _ ?_
    simp only [regAddr, regRow, dimOff] at h ⊢
    omega
  · refine (rd_wrf_other _ _ _ _ ?_).trans he
    rw [regAddr_ring]
    split <;> omega

theorem tlrHolds_sensorSample (d : Dev) (n g t : Nat) : tlrHolds (sensorSample d n g t) = tlrHolds d := by
  obtain ⟨u, h⟩ := regsOnly_sensorSample d n g t
  rw [h]
  rfl

theorem ringLock_sensorSample (d : Dev) (n g t : Nat) (m : Nat) (tx : Bool) (f c : Nat) :
    ringLock (sensorSample d n g t) m tx f c = ringLock d m tx f c := by
  obtain ⟨u, h⟩ := regsOnly_sensorSample d n g t
  rw [h]
  rfl

theorem rel_sensorSample (d : Dev) (n g t : Nat) : (sensorSample d n g t).rel = d.rel := by
  obtain ⟨u, h⟩ := regsOnly_sensorSample d n g t
  rw [h]

theorem pdOn_sensorSample (d : Dev) {n g : Nat} (t : Nat) (hn : n < 16) (hg : g < 4) :
    pdOn (sensorSample d n g t) (80 + n) = pdOn d (80 + n) := by
  have h : rd (sensorSample d n g t) .pwrDomState [(80 + n) / 16] = rd d .pwrDomState [(80 + n) / 16] := by
    refine rd_sensorSample d t hn hg (.inl ?_)
    simp only [regAddr, regRow, dimOff]
    omega
  simp only [pdOn, pdState, rdf, h]

theorem takeMarkArg_none {d : Dev} {id die unit arg : Nat} (h : d.rel.marks.contains (id, die, unit, arg) = false) :
    takeMarkArg d id die unit arg = (false, d) := by
  simp only [takeMarkArg, h, Bool.false_eq_true, if_false]

/-! ### Sweeps -/

section Sweep
variable {d : Dev} {n f c : Nat} {tx rx : Bool} {res : List Resonance} {t : Nat}

theorem ringSweepDone_idle (h : sweeping d n tx f c rx = false ∨ pdOn d (80 + n) = false) :
    ringSweepDone n tx f c res t rx d = d := by
  unfold ringSweepDone
  refine if_pos ?_
  rcases h with h | h <;> rw [h]
  · rfl
  · exact Bool.or_true _

theorem ringSweepDone_locks {h k : Nat} (hs : sweeping d n tx f c rx = true) (hp : pdOn d (80 + n) = true)
    (hl : sweepLock (cnt1 (sensorSample d n (f / 4) t) (srcOe n n) 4) n c (ascending res) t = some (h, k)) :
    ringSweepDone n tx f c res t rx d =
      wr (setRingLock (cnt1 (sensorSample d n (f / 4) t) (srcOe n n) 4) n tx f c ⟨h, t, k, 0, 0, 0⟩)
        (ringReg tx) [n, 9 * f + c] (2 * 2 ^ 29 + h) := by
  simp only [ringSweepDone, hs, hp, Bool.not_true, Bool.or_self, Bool.false_eq_true, if_false, hl]

theorem ringSweepDone_fails (hs : sweeping d n tx f c rx = true) (hp : pdOn d (80 + n) = true)
    (hl : sweepLock (cnt1 (sensorSample d n (f / 4) t) (srcOe n n) 4) n c (ascending res) t = none) :
    ringSweepDone n tx f c res t rx d =
      let d1 := cnt1 (sensorSample d n (f / 4) t) (srcOe n n) 4
      let x := ringLock d n tx f c
      if x.fails + 1 = 3 then
        raise (setRingState (setRingLock d1 n tx f c { x with fails := 0 }) n tx f c 4)
          (srcOe n (64 + 16 * n + f)) 1 [] (fibreLanes n f)
      else setRingState (setRingLock d1 n tx f c { x with fails := x.fails + 1 }) n tx f c 1 := by
  have hx : ringLock (cnt1 (sensorSample d n (f / 4) t) (srcOe n n) 4) n tx f c = ringLock d n tx f c :=
    ringLock_sensorSample ..
  simp only [ringSweepDone, hs, hp, Bool.not_true, Bool.or_self, Bool.false_eq_true, if_false, hl, hx]

end Sweep

/-! ### Tone windows -/

section Window
variable {d : Dev} {n f c heater t : Nat} {tx rx : Bool} {tone : Option Nat}

/-- The window of a ring that is neither locked nor held samples its sensor alone. -/
theorem toneWindowEnd_unlocked (h2 : ringState (sensorSample d n (f / 4) t) n tx f c ≠ 2)
    (h3 : ringState (sensorSample d n (f / 4) t) n tx f c ≠ 3) :
    toneWindowEnd n tx f c tone heater t rx d = sensorSample d n (f / 4) t := if_pos ⟨h2, h3⟩

variable (hst : ringState (sensorSample d n (f / 4) t) n tx f c = 2 ∨ ringState (sensorSample d n (f / 4) t) n tx f c = 3)
include hst

theorem toneWindowEnd_dark (hl : fibreLit (sensorSample d n (f / 4) t) n tx f rx = false) :
    toneWindowEnd n tx f c tone heater t rx d = holdRing (sensorSample d n (f / 4) t) n tx f c := by
  simp only [toneWindowEnd, hl, Bool.not_false, if_true]
  exact if_neg fun ⟨h2, h3⟩ => hst.elim h2 h3

theorem toneWindowEnd_alone (hl : fibreLit (sensorSample d n (f / 4) t) n tx f rx = true) (ht : tlrHolds d = true) :
    toneWindowEnd n tx f c tone heater t rx d = ffAlone (sensorSample d n (f / 4) t) n tx f c := by
  simp only [toneWindowEnd, hl, tlrHolds_sensorSample, ht, Bool.not_true, Bool.false_eq_true, if_false, if_true]
  exact if_neg fun ⟨h2, h3⟩ => hst.elim h2 h3

end Window

section Verdict
variable {d e : Dev} {n f c heater t : Nat} {tx rx : Bool}

theorem groupTemp_wrf_ring (e : Dev) (n g : Nat) (tx : Bool) (m l r v : Nat) :
    groupTemp (wrf e (ringReg tx) [n, r] m l v) n g = groupTemp e n g := by
  unfold groupTemp
  rw [rdf_wrf_other]
  rw [regAddr_ring]
  simp only [regAddr, regRow, dimOff]
  split <;> omega

theorem oeCtl_wrf_ring (e : Dev) (n : Nat) (tx : Bool) (r m l v m' l' : Nat) :
    rdf (wrf e (ringReg tx) [n, r] m l v) .oeCtl [n] m' l' = rdf e .oeCtl [n] m' l' := by
  rw [rdf_wrf_other]
  rw [regAddr_ring]
  simp only [regAddr, regRow, dimOff]
  split <;> omega

theorem outOfOrder_corrected (e : Dev) (n f c : Nat) (tx : Bool) (heater : Nat) (x y : RingLock) :
    outOfOrder (setRingLock (wrf e (ringReg tx) [n, 9 * f + c] 15 0 heater) n tx f c y) n f heater x =
      outOfOrder e n f heater x := by
  have hc : rdf (setRingLock (wrf e (ringReg tx) [n, 9 * f + c] 15 0 heater) n tx f c y) .oeCtl [n] 15 0 =
      rdf e .oeCtl [n] 15 0 := oeCtl_wrf_ring ..
  have ht : groupTemp (setRingLock (wrf e (ringReg tx) [n, 9 * f + c] 15 0 heater) n tx f c y) n (f / 4) =
      groupTemp e n (f / 4) := groupTemp_wrf_ring ..
  unfold outOfOrder
  rw [hc, ht]

/-- What a window's correction makes of a ring's lock. -/
def toneLock (e : Dev) (n f : Nat) (x : RingLock) (heater wrong : Nat) : RingLock :=
  { x with wrong := wrong, corr := heater - ffTerm x (groupTemp e n (f / 4)) }

/-- What lets a tone window come to a verdict: a lit ring, locked or held, of a running engine, and no mark. -/
structure WindowRuns (d : Dev) (n f c t : Nat) (tx rx : Bool) : Prop where
  engine : n < 16
  fibre : f < 16
  state : ringState (sensorSample d n (f / 4) t) n tx f c = 2 ∨ ringState (sensorSample d n (f / 4) t) n tx f c = 3
  lit : fibreLit (sensorSample d n (f / 4) t) n tx f rx = true
  tailor : tlrHolds d = false
  awake : pdOn d (80 + n) = true
  unmarked : d.rel.marks.contains (0x14, n / 4, n, 9 * f + c) = false

variable (h : WindowRuns d n f c t tx rx)
include h

theorem WindowRuns.open : ¬(ringState (sensorSample d n (f / 4) t) n tx f c ≠ 2 ∧
    ringState (sensorSample d n (f / 4) t) n tx f c ≠ 3) := fun ⟨h2, h3⟩ => h.state.elim h2 h3

theorem WindowRuns.mark : takeMarkArg (sensorSample d n (f / 4) t) 0x14 (n / 4) n (9 * f + c) =
    (false, sensorSample d n (f / 4) t) := takeMarkArg_none (by rw [rel_sensorSample]; exact h.unmarked)

theorem WindowRuns.on : pdOn (sensorSample d n (f / 4) t) (80 + n) = true := by
  have := h.fibre
  rw [pdOn_sensorSample d t h.engine (by omega), h.awake]

omit h in
theorem ringLock_corrected : ringLock (wrf (sensorSample d n (f / 4) t) (ringReg tx) [n, 9 * f + c] 15 0 heater) n tx f c =
    ringLock d n tx f c := ringLock_sensorSample ..

/-- The right tone, in order and off the ends of the heater's range, corrects the lock. -/
theorem toneWindowEnd_holds (h2 : ringState (sensorSample d n (f / 4) t) n tx f c = 2) (h0 : heater ≠ 0)
    (hmax : heater ≠ 65535) (ho : outOfOrder (sensorSample d n (f / 4) t) n f heater (ringLock d n tx f c) = false) :
    toneWindowEnd n tx f c (some c) heater t rx d =
      setRingLock (wrf (sensorSample d n (f / 4) t) (ringReg tx) [n, 9 * f + c] 15 0 heater) n tx f c
        (toneLock (sensorSample d n (f / 4) t) n f (ringLock d n tx f c) heater 0) := by
  simp [toneLock, toneWindowEnd, h2, h.lit, tlrHolds_sensorSample, h.tailor, h.on, h.mark, ringLock_corrected, outOfOrder_corrected, ho,
    groupTemp_wrf_ring, h0, hmax]

/-- A wrong tone in the second window in a row sweeps the ring again. -/
theorem toneWindowEnd_wrong {k : Nat} (hk : k ≠ c) (hw : 1 ≤ (ringLock d n tx f c).wrong) :
    toneWindowEnd n tx f c (some k) heater t rx d =
      resweep (setRingLock (wrf (sensorSample d n (f / 4) t) (ringReg tx) [n, 9 * f + c] 15 0 heater) n tx f c
        (toneLock (sensorSample d n (f / 4) t) n f (ringLock d n tx f c) heater ((ringLock d n tx f c).wrong + 1)))
        n tx f c 0 := by
  simp only [toneLock, toneWindowEnd, if_neg h.open, h.lit, tlrHolds_sensorSample, h.tailor, h.on, h.mark, ringLock_corrected, if_neg hk,
    groupTemp_wrf_ring, Bool.not_true, Bool.false_eq_true, if_false]
  exact if_pos (by omega)

end Verdict

/-! ### Received power -/

section Power
variable {d : Dev} {n f c pwr : Nat}

theorem ringState_wr_rxpwr (d : Dev) (n f c v : Nat) :
    ringState (wr d .oeRxpwr [n, 9 * f + c] v) n false f c = ringState d n false f c := by
  simp only [ringState, rdf]
  rw [rd_wr_other]
  simp only [regAddr, ringReg, regRow, dimOff, Bool.false_eq_true, if_false]
  omega

theorem oeLos_wr_rxpwr (d : Dev) (n k : Nat) (v m l : Nat) :
    rdf (wr d .oeRxpwr [n, k] v) .oeLos [n] m l = rdf d .oeLos [n] m l := by
  simp only [rdf]
  rw [rd_wr_other]
  simp only [regAddr, regRow, dimOff]
  omega

variable (hm : d.rel.marks.contains (0x15, n / 4, n, 9 * f + c) = false)
include hm

/-- Power on a ring that is not locked is recorded alone. -/
theorem rxpwrSample_unlocked (h : ringState d n false f c ≠ 2) :
    rxpwrSample n f c pwr d =
      setLos (wr d .oeRxpwr [n, 9 * f + c] pwr) n f c { losOf d n f c with below := 0 } := by
  simp only [rxpwrSample, takeMarkArg_none hm, ringState_wr_rxpwr]
  exact if_pos h

theorem rxpwrSample_above (h : ringState d n false f c = 2) (ha : losLevel d n + (rdf d .oeLos [n] 23 16 : Nat) ≤ sx 16 pwr)
    (hb : losLevel d n ≤ sx 16 pwr) :
    rxpwrSample n f c pwr d =
      setLos (wr d .oeRxpwr [n, 9 * f + c] pwr) n f c
        ⟨0, (losOf d n f c).above + 1, (losOf d n f c).lost && decide ((losOf d n f c).above + 1 < 2)⟩ := by
  unfold losLevel at ha hb
  simp only [rxpwrSample, takeMarkArg_none hm, ringState_wr_rxpwr, losLevel, oeLos_wr_rxpwr, h, ne_eq, not_true,
    if_false, Bool.false_eq_true, false_or, if_neg (Int.not_lt.mpr hb), if_pos ha]
  rfl

theorem rxpwrSample_below (h : ringState d n false f c = 2) (hb : sx 16 pwr < losLevel d n)
    (h0 : (losOf d n f c).below = 0) :
    rxpwrSample n f c pwr d =
      setLos (wr d .oeRxpwr [n, 9 * f + c] pwr) n f c ⟨1, 0, (losOf d n f c).lost⟩ := by
  have hx : losOf (wr d .oeRxpwr [n, 9 * f + c] pwr) n f c = losOf d n f c := rfl
  unfold losLevel at hb
  simp only [rxpwrSample, takeMarkArg_none hm, ringState_wr_rxpwr, losLevel, oeLos_wr_rxpwr, h, ne_eq, not_true,
    if_false, Bool.false_eq_true, false_or, if_pos hb, hx, h0]
  simp

end Power

/-- Settles O45: a sensor sample writes its temperature and its rings alone, so each row's guards are read on either side of it. -/
theorem ringLocks : Obligations.RingLocks := by
  unfold Obligations.RingLocks
  intro s n f c tx rx hs
  refine ⟨fun res t => ⟨fun h => ?idle, fun h k hw hp hl => ?locks, fun hw hp hl => ?fails⟩, fun tone heater t => ?window,
    fun pwr hm => ⟨fun h => ?unlocked, fun h ha hb => ?above, fun h hb h0 => ?below⟩, fun l => ⟨fun h1 h2 h3 => ?ready, fun h => ?wait⟩,
    fun res t tone heater pwr l i hi => ?complete⟩
  case idle => exact does_of_act rfl hs (ringSweepDone_idle (d := s.dev.fresh) h)
  case locks => exact does_of_act rfl hs (ringSweepDone_locks (d := s.dev.fresh) hw hp hl)
  case fails => exact does_of_act rfl hs (ringSweepDone_fails (d := s.dev.fresh) hw hp hl)
  case unlocked => exact does_of_act rfl hs (rxpwrSample_unlocked (d := s.dev.fresh) hm h)
  case above => exact does_of_act rfl hs (rxpwrSample_above (d := s.dev.fresh) hm h ha hb)
  case below => exact does_of_act rfl hs (rxpwrSample_below (d := s.dev.fresh) hm h hb h0)
  case ready => exact does_of_act rfl hs (if_pos ⟨h1, h2, h3⟩)
  case wait =>
    refine does_of_act rfl hs (if_neg fun ⟨h1, h2, h3⟩ => ?_)
    rcases h with h | h | h
    · exact h h1
    · exact Bool.false_ne_true (h.symm.trans h2)
    · exact Bool.false_ne_true (h.symm.trans h3)
  case complete =>
    simp only [List.mem_cons, List.not_mem_nil, or_false] at hi
    rcases hi with rfl | rfl | rfl | rfl <;> exact actWhen_next _ _ s
  case window =>
    intro e x y
    refine ⟨fun h2 h3 => ?u, fun hst hl => ?dark, fun hst hl ht => ?alone, fun h2 hl ht hp htn h0 hmax hm ho => ?holds,
      fun hst hl ht hp htn hw hm => ?wrong⟩
    case u => exact does_of_act rfl hs (toneWindowEnd_unlocked (d := s.dev.fresh) h2 h3)
    case dark => exact does_of_act rfl hs (toneWindowEnd_dark (d := s.dev.fresh) hst hl)
    case alone => exact does_of_act rfl hs (toneWindowEnd_alone (d := s.dev.fresh) hst hl ht)
    case holds =>
      subst htn
      refine does_of_act rfl hs ?_
      have hr : WindowRuns s.dev.fresh n f c t.toNat tx rx := ⟨n.isLt, f.isLt, .inl h2, hl, ht, hp, hm⟩
      exact toneWindowEnd_holds (d := s.dev.fresh) hr h2 (fun h => h0 (BitVec.eq_of_toNat_eq h))
        (fun h => hmax (BitVec.eq_of_toNat_eq h)) ho
    case wrong =>
      obtain ⟨k, rfl, hk⟩ := htn
      have hr : WindowRuns s.dev.fresh n f c t.toNat tx rx := ⟨n.isLt, f.isLt, hst, hl, ht, hp, hm⟩
      exact does_of_act rfl hs (toneWindowEnd_wrong (d := s.dev.fresh) hr (fun h => hk (Fin.ext h)) hw)

end Sys2Proof.Machine
end

section
/-! # Timed launches, frame sends and 1PPS edges (spec/13 R339 to R343, spec/14 R465) -/
namespace Sys2Proof.Machine

theorem sendFrame_ok {d : Dev} {c : SendParams} (h : c.dmaOk = true) (hm : Unmarked d 0x20 0 0) :
    sendFrame d c = (some c.frame, d) := by
  simp [sendFrame, h, dmaGet_ok hm]

theorem sendFrame_fails {d : Dev} {c : SendParams} (h : c.dmaOk = false) (hm : Unmarked d 0x20 0 0) :
    sendFrame d c = (none, dmaFail d) := by
  simp [sendFrame, h, dmaGet_fails hm .err nofun]

section Targets
variable {d : Dev} {slot : Nat} {l : Launch}

theorem launchTarget_placed (hf : d.time.launches.find? (fun l => l.slot == slot && !l.fired) = some l)
    (hs : inService d l.port = true) :
    launchTarget slot d =
      let e := sendEgr d l.frame false l.tsid (some l.reply) (some (slot, l.tick, l.dom))
      let same := (d.time.launches.filter (fun x => x.fired && x.firedAt == d.now)).map (·.slot)
      let ls := d.time.launches.map (fun x => if x.slot = slot then { x with fired := true, firedAt := d.now } else x)
      let d1 := { d with time := { d.time with launches := ls } }
      setEgrQ d1 l.port l.vc (launchInto e slot same (egrQ d1 l.port l.vc)) := by
  simp only [launchTarget, hf, hs, if_true]

theorem launchTarget_lost (hf : d.time.launches.find? (fun l => l.slot == slot && !l.fired) = some l)
    (hs : inService d l.port = false) :
    launchTarget slot d =
      complete (freeLaunch (raiseAt (lostStamp d l.port l.tsid) (srcTime (l.port / 128) slot) 5 2 [] []) slot)
        l.reply 4 [] := by
  simp only [launchTarget, hf, hs, Bool.false_eq_true, if_false]

theorem launchTarget_idle (hf : d.time.launches.find? (fun l => l.slot == slot && !l.fired) = none) :
    launchTarget slot d = d := by
  simp only [launchTarget, hf]

end Targets

section Tailor
variable {d : Dev} {t : TailorFrame}

theorem tailorFrameSend_queued (ht : d.host.tlr = .running) (hs : inService d t.port = true) :
    tailorFrameSend t d = egrPush d t.port (t.vc % 8)
      (sendEgr d t.frame (t.vc % 8 != 0) (if t.tsv then some t.tsid else none) none none) := by
  simp [tailorFrameSend, ht, hs]

theorem tailorFrameSend_lost (ht : d.host.tlr = .running) (hs : inService d t.port = false) :
    tailorFrameSend t d = lostStamp d t.port (if t.tsv then some t.tsid else none) := by
  simp [tailorFrameSend, ht, hs]

theorem tailorFrameSend_idle (ht : d.host.tlr ≠ .running) : tailorFrameSend t d = d := by
  simp [tailorFrameSend, ht]

end Tailor

section Pps
variable {d : Dev}

theorem ppsInEdge_captures (h : rdb d .timePpsCtl [] 29 = true) (hm : Unmarked d 0x21 0 0) :
    ppsInEdge d =
      let d1 := wr (wr (untrace d 0x21 0 0) .timePpsCap0Lo [] d.time.d0.ns) .timePpsCap0Hi [] (d.time.d0.ns / 2 ^ 32)
      cnt1 (wr (wr d1 .timePpsCap1Lo [] d.time.d1.ns) .timePpsCap1Hi [] (d.time.d1.ns / 2 ^ 32)) (srcTime 0 0) 10 := by
  simp only [ppsInEdge, h, if_true, takeMark_none hm]
  rfl

theorem ppsInEdge_idle (h : rdb d .timePpsCtl [] 29 = false) : ppsInEdge d = d := by
  simp only [ppsInEdge, h, Bool.false_eq_true, if_false]

end Pps

/-- Settles O48: a launch and a frame send are refused in order or take their frame; edges act where they are enabled. -/
theorem launchesAndPps : Obligations.LaunchesAndPps := by
  unfold Obligations.LaunchesAndPps
  intro s hs
  refine ⟨fun h c hp hm => ?launch, fun slot l hf => ⟨fun hi => ?placed, fun hi => ?lost⟩, fun slot hf => ?none,
    fun h c hp hm hok => ?send, fun t => ⟨fun ht hi => ?queued, fun ht hi => ?dropped, fun ht => ?stopped⟩,
    fun he hm => ?capture, fun he => ⟨?noEdge, ?noLoss⟩, fun he => ?lostEdge, fun he => ?out, fun he => ?noOut, ?outEnd⟩
  case launch =>
    have hm' := unmarked_takeCmd hm h
    refine cmdDoes_of_runCmd rfl hs hp ?_
    generalize takeCmd s.dev.fresh h = d at hm' ⊢
    generalize replyOf s.dev.fresh h 0x50 = rp
    cases hok : c.dmaOk with
    | true => simp only [sendFrame_ok hok hm', if_true]
    | false => simp only [sendFrame_fails hok hm', Bool.false_eq_true, if_false]
  case placed => exact does_of_act rfl hs (launchTarget_placed (d := s.dev.fresh) hf hi)
  case lost => exact does_of_act rfl hs (launchTarget_lost (d := s.dev.fresh) hf hi)
  case none => exact does_of_act rfl hs (launchTarget_idle (d := s.dev.fresh) hf)
  case send =>
    have hm' := unmarked_takeCmd hm h
    refine cmdDoes_of_runCmd rfl hs hp ?_
    generalize takeCmd s.dev.fresh h = d at hm' ⊢
    simp only [sendFrame_ok hok hm']
  case queued => exact does_of_act rfl hs (tailorFrameSend_queued (d := s.dev.fresh) ht hi)
  case dropped => exact does_of_act rfl hs (tailorFrameSend_lost (d := s.dev.fresh) ht hi)
  case stopped => exact does_of_act rfl hs (tailorFrameSend_idle (d := s.dev.fresh) ht)
  case capture => exact does_of_act rfl hs (ppsInEdge_captures (d := s.dev.fresh) he (unmarked_fresh hm))
  case noEdge => exact does_of_act rfl hs (ppsInEdge_idle (d := s.dev.fresh) he)
  case noLoss => exact does_of_act rfl hs (if_neg (fun h => Bool.false_ne_true (he.symm.trans h)))
  case lostEdge => exact does_of_act rfl hs (if_pos he)
  case out => exact does_of_act rfl hs (if_pos he)
  case noOut => exact does_of_act rfl hs (if_neg (fun h => Bool.false_ne_true (he.symm.trans h)))
  case outEnd => exact (act_eq_of_running hs (fun d => { d with time := { d.time with ppsOut := false } }) :)

end Sys2Proof.Machine
end

section
/-! # Event records, windows and the error log (spec/14 R361, R362, spec/16 R412, R415, R416) -/
namespace Sys2Proof.Machine

section Records
variable {d : Dev}

theorem eventRecordWrite_full (h : eventRoom d = false) : eventRecordWrite d = d := by
  simp only [eventRecordWrite, h, Bool.false_eq_true, if_false]

theorem eventRecordWrite_next (h : eventRoom d = true) (hl : d.rel.lost = 0) {e : Event} {q : List Event}
    (hq : d.rel.store = e :: q) : eventRecordWrite d = eventPut { d with rel := { d.rel with store := q } } e := by
  simp only [eventRecordWrite, h, if_true, hl, Nat.lt_irrefl, if_false, hq]

theorem eventRecordWrite_lost (h : eventRoom d = true) (hl : 0 < d.rel.lost) :
    eventRecordWrite d =
      let e := { mkEvent d 0x1304 0 0 [] [] with count := natMin 0xFFFF d.rel.lost }
      eventPut (recordOut { d with draw := d.draw + 1, rel := { d.rel with lost := 0 } } e) e := by
  simp only [eventRecordWrite, h, if_true, hl]

theorem coalWindowClose_some {i : Nat} {w : CoalWin} {r : List CoalWin} (h : takeAt d.rel.wins i = some (w, r)) :
    coalWindowClose i d = w.folds.foldl (fun d f => writeSummary d w.root.code w.root.die w.root.unit f)
      { d with rel := { d.rel with wins := r } } := by
  simp only [coalWindowClose, h]

theorem coalWindowClose_none {i : Nat} (h : takeAt d.rel.wins i = none) : coalWindowClose i d = d := by
  simp only [coalWindowClose, h]

/-- The end of a rate interval writes the summaries of the codes that folded events, in their order. -/
theorem coalRateIntervalEnd_eq :
    coalRateIntervalEnd d = (d.rel.rates.filterMap (·.fold)).foldl (fun d f => writeSummary d f.code f.die f.unit f)
      { d with rel := { d.rel with rates := [] } } := by
  rw [List.foldl_filterMap]
  refine List.foldl_ext _ _ _ fun e r _ => ?_
  cases r.fold <;> rfl

end Records

theorem meets_relLogCtl : MeetsReg (regAddr .relLogCtl []) .relLogCtl [] ∧ sleepDom (regAddr .relLogCtl []) = none := by
  decide +kernel

theorem busWrite_logPop (d : Dev) :
    busWrite (regAddr .relLogCtl []) (2 ^ 31) d = { d.written with rel := { d.rel with log := d.rel.log.drop 1 } } :=
  busWrite_lockFree_awake meets_relLogCtl.1 meets_relLogCtl.2 rfl (2 ^ 31) d

/-- Settles O51: the count of lost events goes first, then the oldest record; windows and intervals write their summaries. -/
theorem eventRecords : Obligations.EventRecords := by
  unfold Obligations.EventRecords
  intro s hs
  refine ⟨fun h => ?full, fun h hl e q hq => ?next, fun h hl => ?lost, fun i w r h => ?close, fun i h => ?stays, ?rates, fun hr => ?pop⟩
  case full => exact does_of_act rfl hs (eventRecordWrite_full (d := s.dev.fresh) h)
  case next => exact does_of_act rfl hs (eventRecordWrite_next (d := s.dev.fresh) h hl hq)
  case lost => exact does_of_act rfl hs (eventRecordWrite_lost (d := s.dev.fresh) h hl)
  case close => exact does_of_act rfl hs (coalWindowClose_some (d := s.dev.fresh) h)
  case stays => exact does_of_act rfl hs (coalWindowClose_none (d := s.dev.fresh) h)
  case rates => exact does_of_act rfl hs (coalRateIntervalEnd_eq (d := s.dev.fresh))
  case pop => exact does_of_actBar rfl hr (busWrite_logPop s.dev.fresh)

end Sys2Proof.Machine
end

section
/-! # Commits and rollbacks of the optimizer (spec/08 R223 to R225) -/
namespace Sys2Proof.Machine

section Commit
variable {d : Dev} {part : BitVec 12} {c : OptCommit}

/-- A shard of the partition that stops the commit: lost, or bound without being sealed at the step before. -/
def stopsCommit (c : OptCommit) (e : Nat × Shard) : Bool :=
  e.2.lost || (e.2.bound.isSome && !(e.2.st == 3 && e.2.step + 1 == c.step))

theorem optCommitTick_stopped (hc : d.opt.commits.find? (fun c => c.part == part) = some c) {e : Nat × Shard}
    (hb : (partShards d part).find? (stopsCommit c) = some e) :
    optCommitTick part d =
      let d1 := { d with opt := { d.opt with commits := removeFirst (fun c => c.part == part) d.opt.commits } }
      complete (raise d1 (srcOpt 0 0) 0) c.reply 2 (packFields [(13, e.1)]) := by
  have hb' : (partShards { d with opt := { d.opt with commits := removeFirst (fun c => c.part == part) d.opt.commits } } part).find?
      (fun e => e.2.lost || (e.2.bound.isSome && !(e.2.st == 3 && e.2.step + 1 == c.step))) = some e := hb
  simp only [optCommitTick, hc, hb']

theorem flip_elim (step : BitVec 32) (d : Dev) (sh : Nat) :
    (shardOf d sh).elim d (fun x => setShard d sh (flipShard step x)) =
      match shardOf d sh with
      | some x => setShard d sh (flipShard step x)
      | none => d := by
  cases shardOf d sh <;> rfl

theorem optCommitTick_flips (hc : d.opt.commits.find? (fun c => c.part == part) = some c)
    (hb : (partShards d part).find? (stopsCommit c) = none) :
    optCommitTick part d =
      let d1 := { d with opt := { d.opt with commits := removeFirst (fun c => c.part == part) d.opt.commits } }
      let up := ((partShards d part).filter (fun e => e.2.bound.isSome)).map (·.1)
      let d2 := up.foldl (fun d sh => (shardOf d sh).elim d (fun x => setShard d sh (flipShard c.step x))) d1
      complete (up.foldl afterFlip (event (cnt1 d2 (srcOpt 0 0) 6) 0x0B81 0 0 [])) c.reply 1 [] := by
  have hb' : (partShards { d with opt := { d.opt with commits := removeFirst (fun c => c.part == part) d.opt.commits } } part).find?
      (fun e => e.2.lost || (e.2.bound.isSome && !(e.2.st == 3 && e.2.step + 1 == c.step))) = none := hb
  simp only [optCommitTick, hc, hb', flip_elim] <;> rfl

theorem optCommitTick_idle (hc : d.opt.commits.find? (fun c => c.part == part) = none) : optCommitTick part d = d := by
  simp only [optCommitTick, hc]

end Commit

section Rollback
variable {d : Dev} {part : BitVec 12} {step : BitVec 32} {rp : Reply}

theorem optRollback_bound (h : ((partShards d part).filter (fun e => e.2.step == step)).any (fun e => e.2.bound.isSome) = true) :
    optRollback part step d rp = optReject d rp 0x34 [] := if_pos h

theorem optRollback_none (h : ((partShards d part).filter (fun e => e.2.step == step)).any (fun e => e.2.bound.isSome) = false)
    (hr : ((partShards d part).filter (fun e => e.2.step == step)).any (fun e => !e.2.rb) = true) :
    optRollback part step d rp = optReject d rp 0x39 [] := by
  simp only [optRollback, h, hr, Bool.false_eq_true, if_false, if_true]

/-- What a rollback to the step makes of a shard. -/
def rolledBack (step : BitVec 32) (x : Shard) : Shard :=
  if x.step = step then { x with step := step - 1, side := 1 - x.side, rb := false, lost := false }
  else { x with lost := false }

theorem optRollback_all (h : ((partShards d part).filter (fun e => e.2.step == step)).any (fun e => e.2.bound.isSome) = false)
    (hr : ((partShards d part).filter (fun e => e.2.step == step)).any (fun e => !e.2.rb) = false) :
    optRollback part step d rp =
      complete ((partShards d part).foldl (fun d e => setShard d e.1 (rolledBack step e.2)) d) rp 0 [] := by
  simp only [optRollback, h, hr, Bool.false_eq_true, if_false]
  congr 1
  refine List.foldl_ext _ _ _ fun d e _ => ?_
  rw [rolledBack]
  split <;> rfl

end Rollback

/-- Settles O30: a commit flips every bound shard or, where one stops it, none; a rollback likewise. -/
theorem commitIsAtomic : Obligations.CommitIsAtomic := by
  unfold Obligations.CommitIsAtomic
  intro s part hs
  refine ⟨fun h step tick hp => ?arm, fun c hc => ?tick, fun hc => ?idle, fun h step hp => ?roll⟩
  case arm => exact cmdDoes_of_runCmd rfl hs hp rfl
  case tick => exact ⟨fun e hb => does_of_act rfl hs (optCommitTick_stopped (d := s.dev.fresh) hc hb),
    fun hb => does_of_act rfl hs (optCommitTick_flips (d := s.dev.fresh) hc hb)⟩
  case idle => exact does_of_act rfl hs (optCommitTick_idle (d := s.dev.fresh) hc)
  case roll => exact ⟨fun h1 => cmdDoes_of_runCmd rfl hs hp (optRollback_bound (d := takeCmd s.dev.fresh h) h1),
    fun h1 h2 => cmdDoes_of_runCmd rfl hs hp (optRollback_none (d := takeCmd s.dev.fresh h) h1 h2),
    fun h1 h2 => cmdDoes_of_runCmd rfl hs hp (optRollback_all (d := takeCmd s.dev.fresh h) h1 h2)⟩

end Sys2Proof.Machine
end

section
/-! # PAT_SET and PAT_CLEAR (spec/07 R175, R176) -/
namespace Sys2Proof.Machine

section Commands
variable {c : Instr} {s : State} {h : CmdHdr} {opc : Nat} {acc : Accept} {ps : List (Option Nat)} {ok : Bool}
  {f g : Dev → Reply → Dev}

/-- A command whose operands are in range reads memory with its row's flaws. -/
theorem cmdReads_of_checked
    (hc : exec c s = act (fun d => runCmd d h opc acc ps ok (fun d rp => withFlaws h.flaws (fun d => f d rp) d)) s)
    (hok : ok = true) (hs : Running s) (hp : Passes s.dev h opc acc ps)
    (hfg : f (s.dev.cmdReading h) (replyOf s.dev.fresh h opc) = g (s.dev.cmdReading h) (replyOf s.dev.fresh h opc)) :
    CmdReads c h opc s g := by
  subst hok
  exact cmdReads_of_runCmd hc hs hp hfg

/-- A command whose operands are out of range is refused. -/
theorem cmdDoes_of_outOfRange (hc : exec c s = act (fun d => runCmd d h opc acc ps ok f) s)
    (hok : ok = false) (hs : Running s) (hp : Passes s.dev h opc acc ps) :
    CmdDoes c h opc s (fun d rp => refuseGen d rp 0x09) := by
  subst hok
  obtain ⟨h1, h2, h3⟩ := hp.fresh
  refine does_of_act hc hs ?_
  simp [runCmd, h1, h2, h3]

end Commands

theorem unmarked_cmdReading {d : Dev} {id die unit : Nat} (hm : Unmarked d id die unit) (h : CmdHdr) :
    Unmarked (d.cmdReading h) id die unit := unmarked_of_marks hm rfl

section Patterns
variable {d : Dev} {pat : Nat} {part : BitVec 12} {n : Nat} {rp : Reply}

theorem patSet_busy (h : patBusy d pat = true) (l : DmaRead) :
    patSet pat part n l d rp = complete (raise d (srcColl 0 pat) 2) rp 0x20 [] := if_pos h

/-- A pattern that no context uses takes its list, or is refused for a bad member or for want of room. -/
theorem patSet_free (h : patBusy d pat = false) (hm : Unmarked d 0x20 0 0) (b : List Byte) :
    patSet pat part n (.ok b) d rp =
      let ms := (elemsOf 8 b n).map (BitVec.ofNat 64)
      let d0 := { d with coll := { d.coll with pats := tdel d.coll.pats pat } }
      match badMember d part.toNat ms, fitAt (collBase d) (collTop d) (alignUp (8 * ms.length) 256) (collExtents d0) with
      | some r, _ => complete (raise d (srcColl 0 pat) 2) rp 0x21 (packFields [(20, r)])
      | none, none => complete (raise d (srcColl 0 pat) 2) rp 0x22 []
      | none, some a =>
        let g := ((tget? d.coll.pats pat).elim 0 (·.pgen)) + 1
        let pats := tset d.coll.pats pat ⟨true, part, g, ms, a⟩
        complete (memPut { d with coll := { d.coll with pats := pats } } a (bytesOf 8 (ms.map (·.toNat)))) rp 0
          (packFields [(16, g.toNat)]) := by
  simp only [patSet, h, Bool.false_eq_true, if_false, dmaGet_ok hm, storePattern]
  cases badMember d part.toNat ((elemsOf 8 b n).map (BitVec.ofNat 64)) with
  | some r => rfl
  | none =>
    cases fitAt (collBase d) (collTop d) (alignUp (8 * ((elemsOf 8 b n).map (BitVec.ofNat 64)).length) 256)
      (collExtents { d with coll := { d.coll with pats := tdel d.coll.pats pat } }) with
    | none => rfl
    | some a => cases tget? d.coll.pats pat <;> rfl

end Patterns

/-- Settles O26: a pattern in use refuses both commands; a free one takes its list at the lowest place, or is made invalid. -/
theorem patternCommands : Obligations.PatternCommands := by
  unfold Obligations.PatternCommands
  intro s h pat hs
  refine ⟨fun hb part n l hp h1 h2 => ?busy, fun part n l hp hn => ?range, fun hb hp => ?clearBusy,
    fun hb hm part n b hp h1 h2 => ?set, fun hb hp p hpat => ?clear⟩
  case busy => exact cmdReads_of_checked rfl (decide_eq_true ⟨h1, h2⟩) hs hp (patSet_busy (d := s.dev.cmdReading h) hb l)
  case range => exact cmdDoes_of_outOfRange rfl (decide_eq_false (by omega)) hs hp
  case clearBusy => exact cmdDoes_of_runCmd rfl hs hp (if_pos hb)
  case set =>
    exact cmdReads_of_checked rfl (decide_eq_true ⟨h1, h2⟩) hs hp
      (patSet_free (d := s.dev.cmdReading h) hb (unmarked_cmdReading hm h) b)
  case clear =>
    refine cmdDoes_of_runCmd rfl hs hp ((if_neg (fun h => Bool.false_ne_true (hb.symm.trans h))).trans ?_)
    have ht : tget? (takeCmd s.dev.fresh h).coll.pats pat.toNat = some p := hpat
    rw [ht]

end Sys2Proof.Machine
end

section
/-! # COLL_CREATE, COLL_DESTROY, COLL_ABORT and COLL_QUERY (spec/07 R177, R178, R186, R198, R203) -/
namespace Sys2Proof.Machine

section Create
variable {d : Dev} {p : CollParams} {rp : Reply}

theorem collCreate_taken (h : (ctxOf d (p.handle.toNat % 16384)).isSome = true) :
    collCreate p d rp = collReject d rp (p.handle.toNat % 16384) 0x23 := if_pos h

theorem rubRefusal_other (h : p.op.toNat ≠ opRub) : rubRefusal d p = none := if_pos h

/-- A context of parameters that pass every check but those of its cores, its Bobbin and its room is refused or built. -/
theorem collCreate_checked {pat : Pattern} (h : ctxOf d (p.handle.toNat % 16384) = none)
    (hst : (partOf d p.part.toNat).st = 1) (ht : tget? d.coll.pats p.pattern.toNat = some pat) (hv : pat.valid = true)
    (hp : pat.part = p.part) (ho : pairOk p.op.toNat p.mode.toNat p.itype.toNat p.otype.toNat = true)
    (hr : p.op.toNat ≠ opRub) :
    collCreate p d rp =
      let slot := p.handle.toNat % 16384
      let cores := placeCores d p.place.toNat
      let bobs := cores.map (fun q => bobTake d q (bobNeed p cores.length false))
      let nb := alignUp (4 * pat.members.length) 256
      if createBad p pat.members.length (cores.filter (nameUp d)) false = true then collReject d rp slot 0x09
      else if bobs.any (·.isNone) = true then collReject d rp slot 0x27
      else match fitAt (collBase d) (collTop d) (nb + spillSize d p pat.members) (collExtents d) with
        | none => collReject d rp slot 0x22
        | some a =>
          let e := buildCtx d p pat cores (bobs.map (·.getD [])) a (nb + spillSize d p pat.members) nb
          complete e rp 0 (packFields [(8, (ctxOf e slot).elim 0 (·.gen.toNat)),
            (32, (ctxOf e slot).elim 0 (·.sig.toNat))]) := by
  simp only [collCreate, h, Option.isSome_none, hst, ht, hv, hp, ho, hr, decide_false, Bool.false_and, Bool.or_false,
    Bool.false_eq_true, if_false, ne_eq, not_true, Bool.not_true, bne_self_eq_false, Bool.or_self, Nat.add_zero,
    rubRefusal_other hr]
  split
  · rfl
  · split
    · rfl
    · cases fitAt (collBase d) (collTop d) (alignUp (4 * pat.members.length) 256 + spillSize d p pat.members)
        (collExtents d) with
      | none => rfl
      | some a =>
        dsimp only
        generalize buildCtx d p pat _ _ a _ _ = e
        cases ctxOf e (p.handle.toNat % 16384) <;> rfl

end Create

/-- COLL_CREATE with a sound parameter block. -/
theorem cmdReads_collCreate {s : State} {h : CmdHdr} {b : List Byte} {p : CollParams} {g : Dev → Reply → Dev} (hs : Running s)
    (hp : Passes s.dev h 0x22 .h []) (hm : Unmarked s.dev 0x20 0 0) (hb : collBlock b = some p)
    (hfg : collCreate p (s.dev.cmdReading h) (replyOf s.dev.fresh h 0x22) =
      g (s.dev.cmdReading h) (replyOf s.dev.fresh h 0x22)) : CmdReads (.collCreate h (.ok b)) h 0x22 s g :=
  cmdDoes_of_block rfl hs hp hm hb (congrArg (fun d : Dev => { d with mem := { d.mem with flaws := [] } }) hfg)

/-- Settles O27: each command of a context is refused by its first failing check or does its function. -/
theorem contextCommands : Obligations.ContextCommands := by
  unfold Obligations.ContextCommands
  intro s h hs
  refine ⟨fun b hp hm hb => ?badBlock, fun b p hp hm hb => ⟨fun ht => ?taken, fun pat hc hst ht hv hpt ho hr => ?checked⟩,
    fun hd => ⟨fun hn => ⟨fun g hp => ?noDestroy, fun hp => ?noAbort⟩, fun c hn => ⟨fun hp => ?abort, fun hp hl => ?destroy,
      fun hp h1 => ?graceful, fun g hp h3 => ?aborted⟩, fun hp c hc => ?query⟩⟩
  case badBlock => exact cmdDoes_of_badBlock rfl hs hp hm hb
  case taken => exact cmdReads_collCreate hs hp hm hb (collCreate_taken (d := s.dev.cmdReading h) ht)
  case checked =>
    exact cmdReads_collCreate hs hp hm hb (collCreate_checked (d := s.dev.cmdReading h) hc hst ht hv hpt ho hr)
  case noDestroy =>
    refine cmdDoes_of_runCmd rfl hs hp ?_
    have hn' : named (takeCmd s.dev.fresh h) hd = none := hn
    simp only [hn']
  case noAbort =>
    refine cmdDoes_of_runCmd rfl hs hp ?_
    have hn' : named (takeCmd s.dev.fresh h) hd = none := hn
    simp only [hn']
  case abort =>
    refine cmdDoes_of_runCmd rfl hs hp ?_
    have hn' : named (takeCmd s.dev.fresh h) hd = some c := hn
    simp only [hn']
  case destroy =>
    refine cmdDoes_of_runCmd rfl hs hp ?_
    have hn' : named (takeCmd s.dev.fresh h) hd = some c := hn
    simp only [hn', hl, Bool.not_false, Bool.and_self, if_true]
  case graceful =>
    refine cmdDoes_of_runCmd rfl hs hp ?_
    have hn' : named (takeCmd s.dev.fresh h) hd = some c := hn
    simp only [hn', h1, Bool.not_true, Bool.and_false, Bool.false_eq_true, if_false, if_true]
  case aborted =>
    refine cmdDoes_of_runCmd rfl hs hp ?_
    have hn' : named (takeCmd s.dev.fresh h) hd = some c := hn
    have hl : live c = false := by simp [live, h3]
    simp only [hn', h3, hl, Bool.false_and, Bool.false_eq_true, if_false, if_true]
    exact if_neg (by decide)
  case query =>
    refine cmdDoes_of_runCmd rfl hs hp ?_
    have hc' : ctxOf (takeCmd s.dev.fresh h) (hd.toNat % 16384) = some c := hc
    simp only [hc']

end Sys2Proof.Machine
end

section
/-! # Contributions, credit, stragglers and quarantine (spec/07 R183, R184, R195 to R198) -/
namespace Sys2Proof.Machine

/-- A row that reads memory with its flaws gives what its change makes of the device that reads. -/
theorem doesRead_of_act {c : Instr} {fl : List (Nat × Ecc)} {s : State} {f g : Dev → Dev}
    (hc : exec c s = act (withFlaws fl f) s) (hs : Running s) (hfg : f (s.dev.reading fl) = g (s.dev.reading fl)) :
    DoesRead c fl s g :=
  does_of_act hc hs (congrArg (fun d : Dev => { d with mem := { d.mem with flaws := [] } }) hfg)

/-! ### Contributions -/

theorem contribReceive_none {d : Dev} {tile : Nat} (h : takenContrib d tile = none) : contribReceive tile d = d := by
  simp only [contribReceive, h]

section Contribution
variable {d : Dev} {tile : Nat} {i : Ing} {c : Ctx} {r : Frame × Dev} {v : Option Verdict × Dev}

/-- A contribution of a context that its header meets goes by the verdict of its checks. -/
theorem contribReceive_checked (hi : takenContrib d tile = some i) (h1 : i.vcIn = 1)
    (hr : takenFrame (untake d tile i.id) tile true i.frame = r) (hk : r.1.chdr.kind = 0) (hc : firstCheck r.2 r.1 = some c)
    (hv : contribVerdict r.2 c i.port r.1 = v) :
    (v.1 = none → contribReceive tile d = contribPass v.2 tile (r.1.chdr.handle.toNat % 16384) c i) ∧
      (∀ a, v.1 = some (.abort a) → contribReceive tile d =
        abortCtx (freeIng v.2 i.id) (r.1.chdr.handle.toNat % 16384) a r.1.chdr.rank.toNat r.1.chdr.chunk.toNat) ∧
      (∀ a, v.1 = some (.poison a) → contribReceive tile d =
        abortCtx (consumePoison (freeIng v.2 i.id) a) (r.1.chdr.handle.toNat % 16384) 9 noRank r.1.chdr.chunk.toNat) ∧
      (v.1 = some .stale → contribReceive tile d = staleFrame v.2 tile i.id) := by
  have hb : (i.vcIn == 1) = true := beq_iff_eq.mpr h1
  simp only [contribReceive, hi, hb, hr, if_pos (And.intro h1 hk), hc, hv]
  obtain ⟨w, e⟩ := v
  refine ⟨?_, ?_, ?_, ?_⟩
  · rintro rfl; rfl
  · rintro a rfl; rfl
  · rintro a rfl; rfl
  · rintro rfl; rfl

end Contribution

/-! ### Credit -/

section Timers
variable {d : Dev} {slot chunk : Nat} {c : Ctx} {k : Chunk}

theorem creditSend_due (hc : ctxOf d slot = some c) (hl : live c = true) (hr : c.p.root.toNat ≠ noRank)
    (hm : rubRole d c 1 = false)
    (hd : c.lastCred + natMax 1 (rdf d .collCred [] 15 8) ≤ c.granted ∨
      (c.lastCred < c.granted ∧ c.credAt + 120 * natMax 1 (rdf d .collCred [] 7 0) ≤ d.now)) :
    creditSend slot d =
      let d0 := setCtx d slot { c with lastCred := c.granted, credAt := d.now }
      let d1 := cntN d0 (srcColl (homeDie slot) slot) 6 ((downSet c).filter (targetUp d0 c.p.part.toNat)).length
      sendDown d1 slot (16 * homeDie slot) c (downSet c)
        (collFrame d1 c 2 0 c.p.root.toNat 0 0 c.p.otype.toNat c.granted 0 true 0 [] c.p.handle c.gen c.sig) := by
  have hdue : credDue d c = true := by simpa [credDue] using hd
  simp only [creditSend, hc, if_pos (And.intro hl (And.intro hr (And.intro hdue hm))), sendCredit]

theorem creditSend_idle (hc : ctxOf d slot = some c) (hg : c.granted ≤ c.lastCred) : creditSend slot d = d := by
  have hm : 1 ≤ natMax 1 (rdf d .collCred [] 15 8) := by unfold natMax; split <;> omega
  have hdue : credDue d c = false := by
    simp only [credDue, Bool.or_eq_false_iff, Bool.and_eq_false_iff, decide_eq_false_iff_not]
    omega
  simp only [creditSend, hc, hdue, Bool.false_eq_true, false_and, and_false, if_false]

/-! ### Stragglers and quarantine -/

theorem stragglerTimeout_aborts (hc : ctxOf d slot = some c) (hk : findChunk c chunk = some k) (hl : live c = true)
    (ht : k.timer.isSome = true) (hs : c.p.stragUs ≠ 0) :
    stragglerTimeout slot chunk d =
      let late := if k.done then none
        else (List.range c.members.length).find? (fun r => decide (tgetD c.next r 0 ≤ chunk))
      abortCtx (raise d (srcColl (homeDie slot) slot) 1) slot 7 (late.getD noRank) chunk := by
  have hn : k.timer.isNone = false := by cases h : k.timer <;> simp [h] at ht ⊢
  have hs' : (c.p.stragUs == 0) = false := beq_eq_false_iff_ne.mpr hs
  simp only [stragglerTimeout, hc, hk, hl, hn, hs', Bool.not_true, Bool.or_self, Bool.false_eq_true, if_false]

theorem stragglerTimeout_idle (hc : ctxOf d slot = some c) (hk : findChunk c chunk = some k) (ht : k.timer = none) :
    stragglerTimeout slot chunk d = d := by
  simp only [stragglerTimeout, hc, hk, ht, Option.isNone_none, Bool.or_true, Bool.true_or, if_true]

theorem quarantineExpiry_frees (hc : ctxOf d slot = some c) (h4 : c.st = 4) (hb : slotBusy d slot = false)
    (ha : areaBusy d c = false) (hk : c.chunks = []) :
    quarantineExpiry slot d = { d with coll := { d.coll with ctxs := tdel d.coll.ctxs slot } } := by
  simp only [quarantineExpiry, hc, h4, hb, ha, hk, and_self, if_true]

theorem quarantineExpiry_idle (hc : ctxOf d slot = some c) (h4 : c.st ≠ 4) : quarantineExpiry slot d = d := by
  simp only [quarantineExpiry, hc, h4, false_and, if_false]

end Timers

/-- Settles O28: a contribution goes by the verdict of its checks; each timer acts under its condition alone. -/
theorem contextTimers : Obligations.ContextTimers := by
  unfold Obligations.ContextTimers
  intro s hs
  refine ⟨fun tile fl ht => ?none, fun tile fl i c hi h1 => ?contrib, fun slot c hc => ⟨fun hl hr hm hd => ?credit, fun hg => ?noCredit,
    fun chunk k hk => ⟨fun hl ht hu => ?late, fun ht => ?noTimer⟩, fun h4 hb ha hk => ?frees, fun h4 => ?stays⟩⟩
  case none => exact doesRead_of_act rfl hs (contribReceive_none (d := s.dev.reading fl) ht)
  case contrib =>
    intro r hk hf slot v
    obtain ⟨hp, ha, hq, hst⟩ := contribReceive_checked (d := s.dev.reading fl) (v := v) hi h1 rfl hk hf rfl
    exact ⟨fun hv => doesRead_of_act rfl hs (hp hv), fun a hv => doesRead_of_act rfl hs (ha a hv),
      fun a hv => doesRead_of_act rfl hs (hq a hv), fun hv => doesRead_of_act rfl hs (hst hv)⟩
  case credit => exact does_of_act rfl hs (creditSend_due (d := s.dev.fresh) hc hl hr hm hd)
  case noCredit => exact does_of_act rfl hs (creditSend_idle (d := s.dev.fresh) hc hg)
  case late => exact does_of_act rfl hs (stragglerTimeout_aborts (d := s.dev.fresh) hc hk hl ht hu)
  case noTimer => exact does_of_act rfl hs (stragglerTimeout_idle (d := s.dev.fresh) hc hk ht)
  case frees => exact does_of_act rfl hs (quarantineExpiry_frees (d := s.dev.fresh) hc h4 hb ha hk)
  case stays => exact does_of_act rfl hs (quarantineExpiry_idle (d := s.dev.fresh) hc h4)

end Sys2Proof.Machine
end

section
/-! # SHARD_SET, SHARD_CLEAR and HPARAM_SET (spec/08 R204, R208, R213, R228) -/
namespace Sys2Proof.Machine

section Shards
variable {d : Dev} {p : ShardParams} {rp : Reply}

theorem shardSet_taken (h : (shardOf d p.sh.toNat).isSome = true) :
    shardSet p d rp = shardReject d rp p.sh.toNat 0x34 [] := if_pos h

section Free
variable (h : shardOf d p.sh.toNat = none)
include h

theorem shardSet_noPartition (hp : (partOf d p.part.toNat).st ≠ 1) :
    shardSet p d rp = shardReject d rp p.sh.toNat 0x24 [] := by
  simp only [shardSet, h, Option.isSome_none, Bool.false_eq_true, if_false, if_pos hp]

variable (hp : (partOf d p.part.toNat).st = 1)
include hp

theorem shardSet_noSegments (hc : p.segCount = 0) :
    shardSet p d rp = shardReject d rp p.sh.toNat 0x33 (packFields [(6, 0)]) := by
  simp only [shardSet, h, Option.isSome_none, Bool.false_eq_true, if_false, hp, ne_eq, not_true, if_pos hc]

theorem shardSet_manySegments (hc : 64 < p.segCount.toNat) :
    shardSet p d rp = shardReject d rp p.sh.toNat 0x33 (packFields [(7, 64)]) := by
  have h0 : p.segCount ≠ 0 := fun h => by simp [h] at hc
  simp only [shardSet, h, Option.isSome_none, Bool.false_eq_true, if_false, hp, ne_eq, not_true, h0, if_pos hc]

variable (h0 : p.segCount ≠ 0) (h64 : p.segCount.toNat ≤ 64) (hm : Unmarked d 0x20 0 0)
include h0 h64 hm

theorem shardSet_unread (he : p.segData = .err) : shardSet p d rp = refuseDma (dmaFail d) rp := by
  simp only [shardSet, h, Option.isSome_none, Bool.false_eq_true, if_false, hp, ne_eq, not_true, h0,
    if_neg (Nat.not_lt.mpr h64), he, dmaGet_fails hm .err nofun]

variable {b : List Byte} (hb : p.segData = .ok b)
include hb

theorem shardSet_badSegment {k : Nat}
    (hs : scanSegs d.opt.kernels p.elems.toNat 0 0 (elemsOf 16 b p.segCount.toNat) = some k) :
    shardSet p d rp = shardReject d rp p.sh.toNat 0x33 (packFields [(6, k)]) := by
  simp only [shardSet, h, Option.isSome_none, Bool.false_eq_true, if_false, hp, ne_eq, not_true, h0,
    if_neg (Nat.not_lt.mpr h64), hb, dmaGet_ok hm, hs]

variable (hs : scanSegs d.opt.kernels p.elems.toNat 0 0 (elemsOf 16 b p.segCount.toNat) = none)
include hs

theorem shardSet_noKernel (hk : ((elemsOf 16 b p.segCount.toNat).map (parseSeg d.opt.kernels)).any
      (fun g => g.prog == 15 && (tget? d.opt.kernels g.kernel).isNone) = true) :
    shardSet p d rp = shardReject d rp p.sh.toNat 0x35 [] := by
  simp only [shardSet, h, Option.isSome_none, Bool.false_eq_true, if_false, hp, ne_eq, not_true, h0,
    if_neg (Nat.not_lt.mpr h64), hb, dmaGet_ok hm, hs, hk, if_true]

/-- A list of segments that passes every check is placed. -/
theorem shardSet_placed (hk : ((elemsOf 16 b p.segCount.toNat).map (parseSeg d.opt.kernels)).any
      (fun g => g.prog == 15 && (tget? d.opt.kernels g.kernel).isNone) = false) :
    shardSet p d rp = shardPlace d rp p ((elemsOf 16 b p.segCount.toNat).map (parseSeg d.opt.kernels)) := by
  simp only [shardSet, h, Option.isSome_none, Bool.false_eq_true, if_false, hp, ne_eq, not_true, h0,
    if_neg (Nat.not_lt.mpr h64), hb, dmaGet_ok hm, hs, hk]

end Free

theorem shardPlace_full {segs : List Seg} (h : optFit d (2 * sideBytes segs) = none) :
    shardPlace d rp p segs = shardReject d rp p.sh.toNat 0x22 [] := by
  simp only [shardPlace, h]

theorem shardPlace_stored {segs : List Seg} {a : Nat} {i : List Byte} (h : optFit d (2 * sideBytes segs) = some a)
    (hm : Unmarked d 0x20 0 0) (hi : p.initData = .ok i) :
    shardPlace d rp p segs =
      let m := if p.initAddr = 0 then memClear d a (sideBytes segs) else memPut d a (slice i 0 (sideBytes segs))
      complete (setShard m p.sh.toNat (newShard p segs a (sideBytes segs))) rp 0 [] := by
  simp only [shardPlace, h, hi, dmaGet_ok hm]
  split <;> rfl

end Shards

section Hparams
variable {d : Dev} {p : HparamParams} {rp : Reply} {x : Shard}

theorem hparamSet_none (h : shardOf d p.sh.toNat = none) : hparamSet p d rp = shardReject d rp p.sh.toNat 0x30 [] := by
  simp only [hparamSet, h]

theorem hparamSet_late (h : shardOf d p.sh.toNat = some x) (h2 : 2 ≤ x.st) (hs : p.step.toNat ≤ (x.step + 1).toNat) :
    hparamSet p d rp = shardReject d rp p.sh.toNat 0x36 [] := by
  simp only [hparamSet, h, if_pos (And.intro h2 hs)]

theorem hparamSet_pends (h : shardOf d p.sh.toNat = some x) (hs : x.st < 2 ∨ (x.step + 1).toNat < p.step.toNat) :
    hparamSet p d rp =
      let y := x.hs.getD p.set.toNat ⟨[], none⟩
      let ws := (p.words ++ List.replicate 16 0).take 16
      complete (setShard d p.sh.toNat { x with hs := lset x.hs p.set.toNat ⟨y.cur, some (p.step, ws)⟩ }) rp 0 [] := by
  have hn : ¬(2 ≤ x.st ∧ p.step.toNat ≤ (x.step + 1).toNat) := fun ⟨h1, h2⟩ => by omega
  simp only [hparamSet, h, if_neg hn]

end Hparams

/-- SHARD_SET with ELEMS in range reads memory with its row's flaws. -/
theorem cmdReads_shardSet {s : State} {h : CmdHdr} {p : ShardParams} {g : Dev → Reply → Dev} (hs : Running s)
    (hp : Passes s.dev h 0x30 .h [some p.sh.toNat, some p.part.toNat, some p.role.toNat, some p.elems.toNat,
      some p.step.toNat, some p.segAddr.toNat, some p.segCount.toNat, some p.initAddr.toNat])
    (h0 : p.elems ≠ 0) (h40 : p.elems.toNat ≤ 2 ^ 40)
    (hfg : shardSet p (s.dev.cmdReading h) (replyOf s.dev.fresh h 0x30) =
      g (s.dev.cmdReading h) (replyOf s.dev.fresh h 0x30)) : CmdReads (.shardSet h p) h 0x30 s g := by
  have h1 : 1 ≤ p.elems.toNat := Nat.one_le_iff_ne_zero.mpr fun h => h0 (BitVec.eq_of_toNat_eq h)
  exact cmdReads_of_checked rfl (decide_eq_true ⟨h1, h40⟩) hs hp hfg

/-- Settles O29: each command refuses what R228 names, in its order, and else places, frees or leaves values pending. -/
theorem shardCommands : Obligations.ShardCommands := by
  unfold Obligations.ShardCommands
  intro s h hs hm
  refine ⟨fun p hp => ⟨fun he => ?range, fun h0 h40 => ⟨fun ht => ?taken, fun hf hpt => ?noPart, fun hf hpt => ⟨fun hc => ?noSegs,
      fun hc => ?manySegs, fun hc h64 he => ?unread, fun b i hc h64 hb hi => ⟨fun k hk => ?badSeg, fun hk hn => ?noKernel,
      fun hk hn => ⟨fun ho => ?full, fun a ho => ?placed⟩⟩⟩⟩⟩,
    fun sh hp => ⟨fun hf => ?clearNone, fun x hx => ⟨fun hb => ?clearBound, fun hb => ?clear⟩⟩, fun b hp hb => ?badBlock,
    fun b p hp hb => ⟨fun hf => ?noShard, fun x hx => ⟨fun h2 hst => ?late, fun hst => ?pends⟩⟩⟩
  case range =>
    refine cmdDoes_of_outOfRange rfl (decide_eq_false ?_) hs hp
    rcases he with he | he
    · simp [he]
    · omega
  case taken => exact cmdReads_shardSet hs hp h0 h40 (shardSet_taken (d := s.dev.cmdReading h) ht)
  case noPart => exact cmdReads_shardSet hs hp h0 h40 (shardSet_noPartition (d := s.dev.cmdReading h) hf hpt)
  case noSegs => exact cmdReads_shardSet hs hp h0 h40 (shardSet_noSegments (d := s.dev.cmdReading h) hf hpt hc)
  case manySegs => exact cmdReads_shardSet hs hp h0 h40 (shardSet_manySegments (d := s.dev.cmdReading h) hf hpt hc)
  case unread =>
    exact cmdReads_shardSet hs hp h0 h40
      (shardSet_unread (d := s.dev.cmdReading h) hf hpt hc h64 (unmarked_cmdReading hm h) he)
  case badSeg =>
    exact cmdReads_shardSet hs hp h0 h40
      (shardSet_badSegment (d := s.dev.cmdReading h) hf hpt hc h64 (unmarked_cmdReading hm h) hb hk)
  case noKernel =>
    exact cmdReads_shardSet hs hp h0 h40
      (shardSet_noKernel (d := s.dev.cmdReading h) hf hpt hc h64 (unmarked_cmdReading hm h) hb hk hn)
  case full =>
    exact cmdReads_shardSet hs hp h0 h40
      ((shardSet_placed (d := s.dev.cmdReading h) hf hpt hc h64 (unmarked_cmdReading hm h) hb hk hn).trans
        (shardPlace_full (d := s.dev.cmdReading h) ho))
  case placed =>
    exact cmdReads_shardSet hs hp h0 h40
      ((shardSet_placed (d := s.dev.cmdReading h) hf hpt hc h64 (unmarked_cmdReading hm h) hb hk hn).trans
        (shardPlace_stored (d := s.dev.cmdReading h) ho (unmarked_cmdReading hm h) hi))
  case clearNone =>
    refine cmdDoes_of_runCmd rfl hs hp ?_
    have hf' : shardOf (takeCmd s.dev.fresh h) sh.toNat = none := hf
    simp only [hf']
  case clearBound =>
    refine cmdDoes_of_runCmd rfl hs hp ?_
    have hx' : shardOf (takeCmd s.dev.fresh h) sh.toNat = some x := hx
    simp only [hx', hb, if_true]
  case clear =>
    refine cmdDoes_of_runCmd rfl hs hp ?_
    have hx' : shardOf (takeCmd s.dev.fresh h) sh.toNat = some x := hx
    simp only [hx', hb, Option.isSome_none, Bool.false_eq_true, if_false]
  case badBlock => exact cmdDoes_of_badBlock rfl hs hp hm hb
  case noShard => exact cmdDoes_of_block rfl hs hp hm hb (hparamSet_none (d := takeCmd s.dev.fresh h) hf)
  case late => exact cmdDoes_of_block rfl hs hp hm hb (hparamSet_late (d := takeCmd s.dev.fresh h) hx h2 hst)
  case pends => exact cmdDoes_of_block rfl hs hp hm hb (hparamSet_pends (d := takeCmd s.dev.fresh h) hx hst)

end Sys2Proof.Machine
end

section
/-! # Checkpoints (spec/08 R219, R226, spec/10 R275 to R278) -/
namespace Sys2Proof.Machine

section Capture
variable {d : Dev} {part : BitVec 12} {scope : Nat} {gen : BitVec 32} {rp : Reply}

theorem optCkpt_running (h : d.opt.ckpts.any (fun c => c.part == part) = true) :
    optCkpt part scope gen d rp = optReject d rp 0x3A [] := if_pos h

/-- The step of the first shard in scope. -/
def headStep (ss : List (Nat × Shard)) : BitVec 32 := (ss.head?.map (·.2.step)).getD 0

theorem any_ne_of_all_eq {ss : List (Nat × Shard)} {k : BitVec 32} (h : ss.all (fun e => e.2.step == k) = true) :
    ss.any (fun e => e.2.step != k) = false := by
  rw [List.any_eq_false]
  intro e he
  have := List.all_eq_true.mp h e he
  simpa using this

/-- The device once a checkpoint has its bands: its image, its pins and its job. -/
def captured (part : BitVec 12) (scope : Nat) (gen : BitVec 32) (rp : Reply) (ss : List (Nat × Shard)) (step : BitVec 32)
    (size : Nat) (t : List Nat × Dev) : Dev :=
  let img : BoltImg := { part := part, gen := gen, scope := scope, st := 1, step := step,
                         count := ss.length, size := size, time := 0, crc := 0, shards := [], bands := t.1,
                         seq := t.2.bolt.nextSeq, key := t.2.draw, lost := [] }
  let d1 := journalled (setBolt { t.2 with draw := t.2.draw + 20000 } (fun b => { b with
    imgs := insertImg img b.imgs, nextSeq := b.nextSeq + 1 }))
  let d2 := ss.foldl (fun d e => setShard d e.1 { e.2 with pins := e.2.pins ++ [e.2.side] }) d1
  let job : Ckpt := ⟨part, gen, scope, step, ss.map (fun e => ⟨e.1, e.2, none, false⟩), rp⟩
  { d2 with opt := { d2.opt with ckpts := d2.opt.ckpts ++ [job] } }

/-- A checkpoint that no other waits for and that finds its shards at one step. -/
theorem optCkpt_captures {ss : List (Nat × Shard)} (hss : (partShards d part).filter (fun e => inScopeOf scope e.2) = ss)
    (hc : d.opt.ckpts.any (fun c => c.part == part) = false) (hs : ss.all (fun e => e.2.step == headStep ss) = true) :
    optCkpt part scope gen d rp =
      let size := imageSize (ss.map (fun e => sideZ e.2.segs))
      match ckptRefusal d part gen (imageBands size) with
      | some st => optReject d rp st []
      | none => captured part scope gen rp ss (headStep ss) size (takeBands (imageBands size) d []) := by
  unfold optCkpt
  rw [hss]
  extract_lets ss' step size size'
  have hsize : size' = size := rfl
  have hstep : step = headStep ss := by cases ss <;> rfl
  clear_value step
  subst hstep
  rw [if_neg (by rw [hc]; exact Bool.false_ne_true), if_neg (by rw [any_ne_of_all_eq hs]; exact Bool.false_ne_true)]
  clear_value size size'
  subst hsize
  cases ckptRefusal d part gen (imageBands size') with
  | some st => rfl
  | none =>
    generalize takeBands (imageBands size') d [] = t
    obtain ⟨bands, e⟩ := t
    rfl

end Capture

section Sides
variable {d : Dev} {part : BitVec 12} {sh : Nat} {c : Ckpt} {x : CkptShard}

theorem ckptSideReadDone_none (h : d.opt.ckpts.find? (fun c => c.part == part) = none) :
    ckptSideReadDone part sh d = d := by
  simp only [ckptSideReadDone, h]

theorem ckptSideReadDone_keeps (h : d.opt.ckpts.find? (fun c => c.part == part) = some c)
    (hx : c.shards.find? (fun x => x.sh == sh && x.data.isNone) = some x) :
    ckptSideReadDone part sh d =
      let e := sideGet d (snapAddr x) x.snap.segs
      let y := { x with data := some (sidePack e (snapAddr x) x.snap.segs), bad := poisoned e (snapAddr x) x.snap.z }
      let c1 := { c with shards := c.shards.map (fun z => if z.sh = sh then y else z) }
      let cs := e.opt.ckpts.map (fun k => if k.part = part then c1 else k)
      unpin { e with opt := { e.opt with ckpts := cs } } sh x.snap.side := by
  simp only [ckptSideReadDone, h, hx]

end Sides

section End
variable {d : Dev} {part : BitVec 12} {gen : BitVec 32} {rs : List CwRead} {c : Ckpt} {i : BoltImg} {x : CkptShard}
variable (hc : d.opt.ckpts.find? (fun c => c.part == part && c.gen == gen) = some c) (hi : findImg d part gen = some i)
include hc hi

theorem optCkptEnd_idle (h : c.shards.any (fun x => x.data.isNone) = true ∨ flashOn d = false) :
    optCkptEnd part gen rs d = d := by
  have hb : (c.shards.any (fun x => x.data.isNone) || !flashOn d) = true := by
    rcases h with h | h <;> rw [h]
    · rfl
    · exact Bool.or_true _
  simp only [optCkptEnd, hc, hi, hb, if_true]

variable (hf : flashOn d = true) (hn : c.shards.any (fun x => x.data.isNone) = false)
include hf hn

theorem optCkptEnd_poisoned (hx : c.shards.find? (·.bad) = some x) :
    optCkptEnd part gen rs d =
      let d1 := { d with opt := { d.opt with ckpts := d.opt.ckpts.filter (fun k => k.part != part) } }
      let d2 := consumePoison d1 ((poisonIn d1 (snapAddr x) x.snap.z).getD (snapAddr x))
      let d3 := journalled (freeBands (setImg d2 { i with st := 3, bands := [] }) i.bands)
      complete (raise d3 (srcBolt 0) 2) c.reply 0x05 [] := by
  simp only [optCkptEnd, hc, hi, hf, hn, Bool.not_true, Bool.or_self, Bool.false_eq_true, if_false, hx, ckptFail]

theorem optCkptEnd_read (hx : c.shards.find? (·.bad) = none) :
    optCkptEnd part gen rs d =
      let d1 := { d with opt := { d.opt with ckpts := d.opt.ckpts.filter (fun k => k.part != part) } }
      let shards := c.shards.map (fun x => (⟨x.sh, x.snap, x.data.getD [], w32 (crc32c (x.data.getD []))⟩ : ImgShard))
      let crc := crc32c (shards.map (fun x => leBytes 4 x.crc.toNat)).flatten
      let j := { i with shards := shards, crc := w32 crc }
      let d2 := setBolt (cntN d1 (srcBolt 0) 10 (imagePages i.size)) (fun b => { b with
        wseq := i.bands.foldl (fun t x => tset t x i.seq) b.wseq })
      let r := readImage (setImg d2 j) j rs
      if badAt r.2 j r.1 ≠ [] then complete (raise (journalled (setImg r.2 { j with st := 3 })) (srcBolt 0) 2) c.reply 0x06 []
      else
        let d3 := journalled (setImg r.2 { j with st := 2, time := nsNow r.2 % 2 ^ 64 })
        complete (event d3 0x0B82 0 0 [(2, part.toNat), (4, c.step.toNat)]) c.reply 0
          (packFields [(32, c.step.toNat), (32, i.bands.length)]) := by
  simp only [optCkptEnd, hc, hi, hf, hn, Bool.not_true, Bool.or_self, Bool.false_eq_true, if_false, hx, ckptFail, ckptImage] <;> rfl

end End

/-- Settles O33: a checkpoint captures its shards at one step, keeps each side as it is read, and ends in one of three ways. -/
theorem checkpoints : Obligations.Checkpoints := by
  unfold Obligations.Checkpoints
  refine ⟨fun s part hs => ⟨fun h scope gen hp h3 => ⟨fun hc => ?running, ?capture⟩, fun sh c x hc hx fl => ?keeps,
    fun sh fl hc => ?none⟩, fun s part gen rs c i hs hc hi => ⟨fun h => ?idle, fun hf hn x hx => ?poisoned, fun hf hn hx => ?read⟩⟩
  case running =>
    exact cmdDoes_of_checked rfl (bne_iff_ne.mpr h3) hs hp (optCkpt_running (d := takeCmd s.dev.fresh h) hc)
  case capture =>
    intro ss step size hc hst
    exact cmdDoes_of_checked rfl (bne_iff_ne.mpr h3) hs hp (optCkpt_captures (d := takeCmd s.dev.fresh h) (ss := ss) rfl hc hst)
  case keeps => exact doesRead_of_act rfl hs (ckptSideReadDone_keeps (d := s.dev.reading fl) hc hx)
  case none => exact doesRead_of_act rfl hs (ckptSideReadDone_none (d := s.dev.reading fl) hc)
  case idle => exact does_of_act rfl hs (optCkptEnd_idle (d := s.dev.fresh) hc hi h)
  case poisoned => exact does_of_act rfl hs (optCkptEnd_poisoned (d := s.dev.fresh) hc hi hf hn hx)
  case read => exact does_of_act rfl hs (optCkptEnd_read (d := s.dev.fresh) hc hi hf hn hx)

end Sys2Proof.Machine
end

section
/-! # Restores and SHARD_READ (spec/08 R227, spec/10 R279, spec/14 R376) -/
namespace Sys2Proof.Machine

section Restore
variable {d : Dev} {part : BitVec 12} {gen : BitVec 32} {rp : Reply}

theorem optRestore_eq :
    optRestore part gen d rp =
      if boltUp d && (findImg d part gen).any (restoreBusy d) then optReject d rp 0x34 []
      else match imgRefusal d part gen true with
        | some st => optReject d rp st []
        | none => { d with opt := { d.opt with restores := d.opt.restores ++ [⟨part, gen, rp⟩] } } := by
  unfold optRestore
  cases findImg d part gen <;> cases imgRefusal d part gen true <;> rfl

theorem optRestoreEnd_dark (h : flashOn d = false) (rs : List CwRead) : optRestoreEnd part gen rs d = d := by
  unfold optRestoreEnd
  exact if_pos (by rw [h]; rfl)

section Read
variable {c : Restore} {i : BoltImg} {rs l : List CwRead} {e : Dev}
variable (hf : flashOn d = true) (hc : d.opt.restores.find? (fun c => c.part == part && c.gen == gen) = some c)
  (hi : findImg d part gen = some i)
  (hr : readImage { d with opt := { d.opt with
    restores := removeFirst (fun k : Restore => k.part == part && k.gen == gen) d.opt.restores } } i rs = (l, e))
include hf hc hi hr

theorem optRestoreEnd_bad (h : badAt e i l ≠ [] ∨ ∃ x ∈ shardsRead (badAt e i l) l 65536 i.shards, x.2 = true) :
    optRestoreEnd part gen rs d =
      complete (journalled (setImg e { i with st := 3 })) c.reply 0x06
        (packFields [(13, (((shardsRead (badAt e i l) l 65536 i.shards).find? (·.2)).map (·.1.sh)).getD 0)]) := by
  have h' : badAt e i l ≠ [] ∨ (shardsRead (badAt e i l) l 65536 i.shards).any (·.2) = true := by
    simpa only [List.any_eq_true] using h
  simp only [optRestoreEnd, hf, Bool.not_true, Bool.false_eq_true, if_false, hc, hi, hr, if_pos h']
  cases (shardsRead (badAt e i l) l 65536 i.shards).find? (·.2) <;> rfl

variable (hb : badAt e i l = []) (hs : ∀ x ∈ shardsRead (badAt e i l) l 65536 i.shards, x.2 = false)
include hb hs

theorem optRestoreEnd_sound :
    optRestoreEnd part gen rs d =
      match restoreAll i.step ((shardsRead (badAt e i l) l 65536 i.shards).map (·.1)) e with
      | some e => complete e c.reply 0 (packFields [(32, i.step.toNat)])
      | none => optReject e c.reply 0x22 [] := by
  have h' : ¬(badAt e i l ≠ [] ∨ (shardsRead (badAt e i l) l 65536 i.shards).any (·.2) = true) := by
    rintro (h | h)
    · exact h hb
    · obtain ⟨x, hx, ht⟩ := List.any_eq_true.mp h
      exact Bool.false_ne_true ((hs x hx).symm.trans ht)
  simp only [optRestoreEnd, hf, Bool.not_true, Bool.false_eq_true, if_false, hc, hi, hr, if_neg h'] <;> rfl

end Read

end Restore

/-! ### SHARD_READ -/

section Reads
variable {d : Dev} {sh slot first count addr : Nat} {rp : Reply} {x : Shard} {r : ShardRd}

theorem shardReadCmd_none (h : shardOf d sh = none) :
    shardReadCmd sh slot first count addr d rp = shardReject d rp sh 0x30 [] := by
  simp only [shardReadCmd, h]

theorem shardReadCmd_some (h : shardOf d sh = some x) :
    shardReadCmd sh slot first count addr d rp =
      match slotPieces x slot (x.segs.length + 1) first count with
      | none => refuseGen d rp 0x09
      | some ps =>
        let d0 := ps.foldl (fun d a => (memGet d a.1 a.2).2) d
        let bs := ps.flatMap (fun a => memRd d0 a.1 a.2)
        let d1 := setShard d0 sh { x with pins := x.pins ++ [x.side] }
        { d1 with opt := { d1.opt with reads := d1.opt.reads ++ [⟨sh, x.side, addr, bs, x.step, rp⟩] } } := by
  simp only [shardReadCmd, h] <;> cases slotPieces x slot (x.segs.length + 1) first count <;> rfl

theorem shardReadEnd_some (h : d.opt.reads.find? (fun r => r.sh == sh) = some r) :
    shardReadEnd sh d =
      let rs := removeFirst (fun r : ShardRd => r.sh == sh) d.opt.reads
      complete (cmdOutput (unpin { d with opt := { d.opt with reads := rs } } sh r.side) r.reply r.addr r.bytes)
        r.reply 0 (packFields [(32, r.step.toNat)]) := by
  simp only [shardReadEnd, h]

end Reads

/-- Settles O34: a restore whose pages are sound writes every side or none; SHARD_READ pins a side, then copies it. -/
theorem restoresAndReads : Obligations.RestoresAndReads := by
  unfold Obligations.RestoresAndReads
  intro s part gen hs
  refine ⟨fun h hp => ?restore, fun c i hc hi => ⟨fun hf rs => ?dark, fun rs => ?read⟩,
    fun h sh slot first count addr hp => ⟨fun hx => ?noShard, fun x hx => ?shard⟩, fun sh r hr => ?readEnd⟩
  case restore => exact cmdDoes_of_runCmd rfl hs hp (optRestore_eq (d := takeCmd s.dev.fresh h))
  case dark => exact does_of_act rfl hs (optRestoreEnd_dark (d := s.dev.fresh) hf rs)
  case read =>
    intro ks r hf bad ss
    have hr : readImage { s.dev.fresh with opt := { s.dev.opt with restores := ks } } i rs = (r.1, r.2) := rfl
    refine ⟨fun h => ?bad, fun e hb hx ha => ?ok, fun hb hx ha => ?full⟩
    case bad => exact does_of_act rfl hs (optRestoreEnd_bad (d := s.dev.fresh) hf hc hi hr h)
    case ok =>
      refine does_of_act rfl hs ((optRestoreEnd_sound (d := s.dev.fresh) hf hc hi hr hb hx).trans ?_)
      rw [show restoreAll i.step ((shardsRead (badAt r.2 i r.1) r.1 65536 i.shards).map (·.1)) r.2 = some e from ha]
    case full =>
      refine does_of_act rfl hs ((optRestoreEnd_sound (d := s.dev.fresh) hf hc hi hr hb hx).trans ?_)
      rw [show restoreAll i.step ((shardsRead (badAt r.2 i r.1) r.1 65536 i.shards).map (·.1)) r.2 = none from ha]
  case noShard => exact cmdReads_of_runCmd rfl hs hp (shardReadCmd_none (d := s.dev.cmdReading h) hx)
  case shard => exact cmdReads_of_runCmd rfl hs hp (shardReadCmd_some (d := s.dev.cmdReading h) hx)
  case readEnd => exact does_of_act rfl hs (shardReadEnd_some (d := s.dev.fresh) hr)

end Sys2Proof.Machine
end

section
/-! # BOLT_LIST, BOLT_DELETE, BOLT_EXPORT and BOLT_HEALTH (spec/10 R277, R280) -/
namespace Sys2Proof.Machine

/-- A choice on a negated condition, its arms swapped. -/
theorem ite_not_bool {α : Type} (b : Bool) (x y : α) : (if !b then x else y) = if b then y else x := by
  cases b <;> rfl

section Jobs
variable {d : Dev} {part : BitVec 12} {gen : BitVec 32} {j : BoltJob} {i : BoltImg}

/-- A delete that no read of its image precedes. -/
theorem boltDeleteJournalled_deletes (hj : d.bolt.deletes.find? (fun j => j.part == part && j.gen == gen) = some j)
    (hi : findImg d part gen = some i) (hf : flashOn d = true)
    (hr : ∀ c ∈ d.opt.restores, ¬(c.part = part ∧ c.gen = gen)) (he : ∀ c ∈ d.bolt.exports, ¬(c.part = part ∧ c.gen = gen)) :
    boltDeleteJournalled part gen d =
      let b := { d.bolt with
        deletes := removeFirst (fun j : BoltJob => j.part == part && j.gen == gen) d.bolt.deletes,
        imgs := d.bolt.imgs.filter (fun x => !(x.part == part && x.gen == gen)) }
      complete (journalled (freeBands { d with bolt := b } i.bands)) j.reply 0 [] := by
  have hr' : d.opt.restores.any (fun c => c.part == part && c.gen == gen) = false :=
    List.any_eq_false.mpr fun c hc => by simpa using hr c hc
  have he' : d.bolt.exports.any (fun c => c.part == part && c.gen == gen) = false :=
    List.any_eq_false.mpr fun c hc => by simpa using he c hc
  unfold boltDeleteJournalled
  simp only [hf, hr', he', hj, Bool.not_true, Bool.or_self, Bool.false_eq_true, if_false]
  rw [show findImg (setBolt d (fun b => { b with
    deletes := removeFirst (fun j : BoltJob => j.part == part && j.gen == gen) b.deletes })) part gen = some i from hi]
  rfl

theorem boltDeleteJournalled_idle (h : d.bolt.deletes.find? (fun j => j.part == part && j.gen == gen) = none ∨ flashOn d = false ∨
      (∃ c ∈ d.opt.restores, c.part = part ∧ c.gen = gen) ∨ ∃ c ∈ d.bolt.exports, c.part = part ∧ c.gen = gen) :
    boltDeleteJournalled part gen d = d := by
  unfold boltDeleteJournalled
  dsimp only
  split
  · rfl
  · next hb =>
    have hj : d.bolt.deletes.find? (fun j => j.part == part && j.gen == gen) = none := by
      refine h.resolve_right fun h => hb ?_
      simp only [Bool.or_eq_true, Bool.not_eq_true', List.any_eq_true, Bool.and_eq_true, beq_iff_eq]
      exact or_assoc.mpr h
    rw [hj]

theorem boltExportEnd_reads (hj : d.bolt.exports.find? (fun j => j.part == part && j.gen == gen) = some j)
    (hi : findImg d part gen = some i) (hf : flashOn d = true) (rs : List CwRead) :
    boltExportEnd part gen rs d =
      let ex := removeFirst (fun j : BoltJob => j.part == part && j.gen == gen) d.bolt.exports
      let r := readImage { d with bolt := { d.bolt with exports := ex } } i rs
      if badAt r.2 i r.1 ≠ [] then complete r.2 j.reply 0x06 []
      else complete (cmdOutput r.2 j.reply j.addr (asRead r.1 0 (imageData i))) j.reply 0 (packFields [(64, i.size)]) := by
  obtain ⟨⟨l, e⟩, hr⟩ : ∃ r, readImage { d with bolt := { d.bolt with
    exports := removeFirst (fun j : BoltJob => j.part == part && j.gen == gen) d.bolt.exports } } i rs = r := ⟨_, rfl⟩
  have hr' : readImage (setBolt d (fun b => { b with
    exports := removeFirst (fun j : BoltJob => j.part == part && j.gen == gen) b.exports })) i rs = (l, e) := hr
  simp only [boltExportEnd, hf, Bool.not_true, Bool.false_eq_true, if_false, hj, hi, hr, hr']

end Jobs

/-- Settles O35: each command is refused by the first status that applies or does its function; its job ends once its guards allow. -/
theorem boltCommands : Obligations.BoltCommands := by
  unfold Obligations.BoltCommands
  intro s h part gen hs
  refine ⟨fun addr limit hp => ?list, fun hp => ?delete, fun j i hj hi hf hr he => ?journal, fun hc => ?waits,
    fun addr hp => ?exports, fun j i hj hi hf rs => ?exported, fun addr hp => ?health⟩
  case list => exact cmdDoes_of_runCmd rfl hs hp (ite_not_bool ..)
  case delete =>
    refine cmdDoes_of_runCmd rfl hs hp ?_
    cases imgRefusal (takeCmd s.dev.fresh h) part gen false <;> rfl
  case journal => exact does_of_act rfl hs (boltDeleteJournalled_deletes (d := s.dev.fresh) hj hi hf hr he)
  case waits => exact does_of_act rfl hs (boltDeleteJournalled_idle (d := s.dev.fresh) hc)
  case exports =>
    refine cmdDoes_of_runCmd rfl hs hp ?_
    cases imgRefusal (takeCmd s.dev.fresh h) part gen true <;> rfl
  case exported => exact does_of_act rfl hs (boltExportEnd_reads (d := s.dev.fresh) hj hi hf rs)
  case health => exact cmdDoes_of_runCmd rfl hs hp (ite_not_bool ..)

end Sys2Proof.Machine
end

section
/-! # Pre-reduction at the tiles (spec/06 R162, R163, spec/07 R191) -/
namespace Sys2Proof.Machine

section Contribution
variable {d e : Dev} {tile id : Nat} {rest : List Nat} {i : Ing} {c : Ctx} {mm : Bool}

/-- The contribution at the head of a tile's queue, of a context that stands. -/
structure PreHead (d e : Dev) (tile id : Nat) (rest : List Nat) (i : Ing) (c : Ctx) : Prop where
  queue : tgetD d.coll.preQ tile [] = id :: rest
  frame : findIng d id = some i
  left : freeIng { d with coll := { d.coll with preQ := tput [] d.coll.preQ tile rest } } id = e
  ctx : ctxOf e (i.frame.chdr.handle.toNat % 16384) = some c

/-- The contribution's elements. -/
def preVals (i : Ing) (c : Ctx) : List Nat :=
  elemsOf (typeBytes c.p.itype.toNat) i.frame.payload i.frame.chdr.elems.toNat

/-- The tile does not combine. -/
def preOff (d : Dev) (tile : Nat) : Bool :=
  rdb d .preCtl (tix tile) 31 || rdb d .preCtl (tix tile) 30 || !pdOn d (112 + tile / 16)

theorem preReduceAdd_empty (h : tgetD d.coll.preQ tile [] = []) : preReduceAdd tile mm d = d := by
  simp only [preReduceAdd, h]

variable (h : PreHead d e tile id rest i c)
include h

theorem PreHead.findIng : findIng { d with coll := { d.coll with preQ := tput [] d.coll.preQ tile rest } } id = some i := h.frame

theorem preReduceAdd_stale (hc : live c = false ∨ c.gen ≠ i.frame.chdr.gen) : preReduceAdd tile mm d = e := by
  have hb : (!live c || c.gen != i.frame.chdr.gen) = true := by
    rcases hc with hc | hc
    · rw [hc]; rfl
    · rw [bne_iff_ne.mpr hc, Bool.or_true]
  simp only [preReduceAdd, h.queue, h.findIng, h.left, h.ctx, hb, if_true]

variable (hl : live c = true) (hg : c.gen = i.frame.chdr.gen)
include hl hg

omit h in
theorem stands_of_live : (!live c || c.gen != i.frame.chdr.gen) = false := by
  rw [hl, hg, bne_self_eq_false]
  rfl

theorem preReduceAdd_alone (ho : preOff e tile = true ∨ c.p.op.toNat = opBcast ∨ c.p.op.toNat = opBarrier) :
    preReduceAdd tile mm d = pushOut e tile
      (singleOf (i.frame.chdr.handle.toNat % 16384) i.frame.chdr.chunk.toNat i.frame.chdr.rank.toNat c.p.itype.toNat
        (preVals i c)) := by
  unfold preOff at ho
  simp only [preReduceAdd, h.queue, h.findIng, h.left, h.ctx, stands_of_live hl hg, Bool.false_eq_true, if_false, if_pos ho, preVals]

variable (ho : preOff e tile = false) (hb : c.p.op.toNat ≠ opBcast) (hr : c.p.op.toNat ≠ opBarrier) (hm : effMode c.p = 0)
  (hn : 4 ≤ membersOn e c tile * typeBytes c.p.itype.toNat) (hk : Unmarked e 0x0A (tile / 16) (tile % 16))
include ho hb hr hm hn hk

/-- Whether a partial is the whole tile's of the contribution's chunk. -/
def ofChunk (i : Ing) (x : PreSlot) : Bool :=
  x.slot == i.frame.chdr.handle.toNat % 16384 && x.chunk == i.frame.chdr.chunk.toNat && x.pos == 0 && x.size == 1

/-- A FAST contribution that finds room combines with the partial of its chunk, or the check of the addition fails. -/
theorem preReduceAdd_fast (hroom : (!(preOf e tile).any (ofChunk i) && decide (16 ≤ (preOf e tile).length)) = false) :
    preReduceAdd tile mm d =
      if mm then preMismatch e tile (i.frame.chdr.handle.toNat % 16384) i.frame.chdr.chunk.toNat
      else
        let l := preAdd c.p e.now (preOf e tile) (i.frame.chdr.handle.toNat % 16384) i.frame.chdr.chunk.toNat 0 1
          i.frame.chdr.rank.toNat (preVals i c)
        match l.find? (ofChunk i) with
        | some x =>
          if membersOn e c tile ≤ x.ranks.length then
            cnt1 (pushOut (setPre e tile (l.filter (fun x => !ofChunk i x))) tile (partialOf c.p x)) (srcPre tile) 1
          else setPre e tile l
        | none => setPre e tile l := by
  unfold preOff at ho
  unfold ofChunk at hroom ⊢
  simp only [preReduceAdd, h.queue, h.findIng, h.left, h.ctx, stands_of_live hl hg, Bool.false_eq_true, if_false, ho, hb, hr,
    or_self, hm, hn, if_true, hroom, takeMark_none hk, Option.isSome_none, Bool.or_false, preVals] <;> rfl

theorem preReduceAdd_mismatch (hp : preOf e tile = []) :
    preReduceAdd tile true d = preMismatch e tile (i.frame.chdr.handle.toNat % 16384) i.frame.chdr.chunk.toNat :=
  (preReduceAdd_fast h hl hg ho hb hr hm hn hk (by rw [hp]; rfl)).trans (if_pos rfl)

theorem preReduceAdd_begins (hp : preOf e tile = []) (h2 : 2 ≤ membersOn e c tile) :
    preReduceAdd tile false d = setPre e tile
      [⟨i.frame.chdr.handle.toNat % 16384, i.frame.chdr.chunk.toNat, 0, 1, e.now, [i.frame.chdr.rank.toNat],
        accVals c.p (preVals i c), []⟩] := by
  have hadd : preAdd c.p e.now [] (i.frame.chdr.handle.toNat % 16384) i.frame.chdr.chunk.toNat 0 1 i.frame.chdr.rank.toNat
      (preVals i c) = [⟨i.frame.chdr.handle.toNat % 16384, i.frame.chdr.chunk.toNat, 0, 1, e.now, [i.frame.chdr.rank.toNat],
        accVals c.p (preVals i c), []⟩] := by simp [preAdd, hm]
  rw [preReduceAdd_fast h hl hg ho hb hr hm hn hk (by rw [hp]; rfl), hp, hadd]
  simp [ofChunk, Nat.not_le.mpr (show 1 < membersOn e c tile by omega)]

/-- A partial with the contribution combined into it. -/
def joined (i : Ing) (c : Ctx) (x : PreSlot) : PreSlot :=
  { x with ranks := x.ranks ++ [i.frame.chdr.rank.toNat], sum := vecAdd c.p x.sum (accVals c.p (preVals i c)) }

theorem preReduceAdd_completes {x : PreSlot} (hp : preOf e tile = [x]) (hs : x.slot = i.frame.chdr.handle.toNat % 16384)
    (hc : x.chunk = i.frame.chdr.chunk.toNat) (h0 : x.pos = 0) (h1 : x.size = 1)
    (hlen : x.ranks.length + 1 = membersOn e c tile) :
    preReduceAdd tile false d =
      cnt1 (pushOut (setPre e tile []) tile
        (partialOf c.p (joined i c x))) (srcPre tile) 1 := by
  have hadd : preAdd c.p e.now [x] (i.frame.chdr.handle.toNat % 16384) i.frame.chdr.chunk.toNat 0 1 i.frame.chdr.rank.toNat
      (preVals i c) = [joined i c x] := by simp [preAdd, joined, hm, hs, hc, h0, h1]
  rw [preReduceAdd_fast h hl hg ho hb hr hm hn hk (by rw [hp]; simp), hp, hadd]
  simp [ofChunk, joined, hs, hc, h0, h1, hlen]

end Contribution

/-! ### Expiries and counts -/

section Expiry
variable {d : Dev} {tile idx : Nat} {x : PreSlot} {rest : List PreSlot} {c : Ctx}

theorem preWaitExpiry_sends (ht : takeAt (preOf d tile) idx = some (x, rest)) (hc : ctxOf d x.slot = some c) :
    preWaitExpiry tile idx d =
      let d1 := cnt1 (setPre d tile rest) (srcPre tile) 3
      if effMode c.p = 1 then
        x.items.foldl (fun d it => pushOut d tile (singleOf x.slot x.chunk it.1 c.p.itype.toNat it.2)) d1
      else cnt1 (pushOut d1 tile (partialOf c.p x)) (srcPre tile) 1 := by
  have hc' : ctxOf (cnt1 (setPre d tile rest) (srcPre tile) 3) x.slot = some c := hc
  simp only [preWaitExpiry, ht, hc']

theorem preWaitExpiry_idle (ht : takeAt (preOf d tile) idx = none) : preWaitExpiry tile idx d = d := by
  simp only [preWaitExpiry, ht]

end Expiry

section Spill
variable {d : Dev} {tile : Nat} {x : SpillOp} {c : Ctx}

theorem issue_tile (d : Dev) (op t slot chunk id a n : Nat) (b : List Byte) (l : List Nat) :
    issue d op ⟨.tile t slot chunk id, a, n, b, l⟩ =
      launchFlight (freePlane d t).2 t 3 (freePlane d t).1 0 (.memQ ⟨op, ⟨.tile t slot chunk id, a, n, b, l⟩⟩)
        [meshNo (stackTile d a)] := rfl

theorem spillCntIssue_counts (hx : d.coll.spills.find? (fun x => x.tile == tile && x.wait == 0) = some x)
    (hc : ctxOf d x.slot = some c) :
    spillCntIssue tile d =
      let rest := removeFirst (fun y : SpillOp => y.tile == tile && y.wait == 0) d.coll.spills
      let y := freePlane { d with coll := { d.coll with spills := rest } } tile
      launchFlight y.2 tile 3 y.1 0 (.memQ ⟨25, ⟨.tile tile x.slot x.chunk x.id, spillAddr c x.chunk, 4,
        leBytes 4 x.count ++ [BitVec.ofNat 8 (coreOf c x.chunk)], []⟩⟩) [meshNo (stackTile d (spillAddr c x.chunk))] := by
  have hc' : ctxOf { d with coll := { d.coll with
    spills := removeFirst (fun y : SpillOp => y.tile == tile && y.wait == 0) d.coll.spills } } x.slot = some c := hc
  simp only [spillCntIssue, hx, hc', issue_tile]
  rfl

theorem spillCntIssue_idle (h : ∀ x ∈ d.coll.spills, x.tile ≠ tile ∨ x.wait ≠ 0) : spillCntIssue tile d = d := by
  have hn : d.coll.spills.find? (fun x => x.tile == tile && x.wait == 0) = none := by
    refine List.find?_eq_none.mpr fun x hx => ?_
    simpa [imp_iff_not_or] using h x hx
  simp only [spillCntIssue, hn]

end Spill

/-- Settles O24: a contribution goes on alone, begins a partial or completes one; an expiry sends, a count follows its writes. -/
theorem preReduction : Obligations.PreReduction := by
  unfold Obligations.PreReduction
  intro s tile hs
  refine ⟨fun mm hq => ?empty, fun mm id rest i c => ?head, fun idx x rest c ht hc => ?expiry, fun idx ht => ?noExpiry,
    fun x c hx hc => ?counts, fun h => ?noCount⟩
  case empty => exact does_of_act rfl hs (preReduceAdd_empty (d := s.dev.fresh) hq)
  case head =>
    intro d ch slot vals one off v n hq hi hc
    have h : PreHead s.dev.fresh d tile id rest i c := ⟨hq, hi, rfl, hc⟩
    refine ⟨fun hst => ?stale, fun hl hg ho => ?alone, fun hl hg ho hb hr hm hn => ⟨fun hp hk => ?mismatch,
      fun hp hk h2 => ?begins, fun x hp hxs hxc h0 h1 hk hlen => ?completes⟩⟩
    case stale => exact does_of_act rfl hs (preReduceAdd_stale h hst)
    case alone => exact does_of_act rfl hs (preReduceAdd_alone h hl hg ho)
    case mismatch => exact does_of_act rfl hs (preReduceAdd_mismatch h hl hg ho hb hr hm hn hk hp)
    case begins => exact does_of_act rfl hs (preReduceAdd_begins h hl hg ho hb hr hm hn hk hp h2)
    case completes => exact does_of_act rfl hs (preReduceAdd_completes h hl hg ho hb hr hm hn hk hp hxs hxc h0 h1 hlen)
  case expiry => exact does_of_act rfl hs (preWaitExpiry_sends (d := s.dev.fresh) ht hc)
  case noExpiry => exact does_of_act rfl hs (preWaitExpiry_idle (d := s.dev.fresh) ht)
  case counts => exact does_of_act rfl hs (spillCntIssue_counts (d := s.dev.fresh) hx hc)
  case noCount => exact does_of_act rfl hs (spillCntIssue_idle (d := s.dev.fresh) h)

end Sys2Proof.Machine
end

section
/-! # A core takes, accumulates, checks and sends (spec/06 R155 to R169, spec/07 R190) -/
namespace Sys2Proof.Machine

/-! ### A context's chunks -/

theorem idx_of_findChunk {c : Ctx} {i : Nat} {k : Chunk} (h : findChunk c i = some k) : k.idx = i := by
  unfold findChunk at h
  simpa using List.find?_some h

/-- A chunk put back in the place of one that the context holds is found there. -/
theorem findChunk_setChunk {c : Ctx} {i : Nat} {k k' : Chunk} (h : findChunk c i = some k) (hk : k'.idx = i) :
    findChunk (setChunk c k') i = some k' := by
  have ha : c.chunks.any (fun x => x.idx == k'.idx) = true :=
    List.any_eq_true.mpr ⟨k, List.mem_of_find?_eq_some h, by rw [hk]; exact beq_iff_eq.mpr (idx_of_findChunk h)⟩
  have hp : (fun x : Chunk => x.idx == i) ∘ (fun x => if x.idx = k'.idx then k' else x) = fun x => x.idx == i := by
    funext x
    simp only [Function.comp]
    split
    · next hx => rw [hx]
    · rfl
  have hx := idx_of_findChunk h
  unfold findChunk at h ⊢
  rw [setChunk, if_pos ha, List.find?_map, hp, h, Option.map_some, if_pos (hx.trans hk.symm)]

@[simp] theorem setChunk_p (c : Ctx) (k : Chunk) : (setChunk c k).p = c.p := by unfold setChunk; split <;> rfl

@[simp] theorem setChunk_members (c : Ctx) (k : Chunk) : (setChunk c k).members = c.members := by
  unfold setChunk
  split <;> rfl

/-! ### Accumulation -/

section Accumulate
variable {d : Dev} {core : Nat} {x : Partial} {c : Ctx} {k : Chunk} {ecc : Ecc}

/-- The device with the operand taken off its core's staging. -/
def unstaged (d : Dev) (core : Nat) (x : Partial) : Dev :=
  { d with coll := { d.coll with stg := tput [] d.coll.stg core (removeFirst (fun y => y == x) (tgetD d.coll.stg core [])) } }

/-- The chunk with the operand combined into it. -/
def accumulated (c : Ctx) (k : Chunk) (x : Partial) : Chunk :=
  { k with acc := some (accNext c.p k.acc (operandVals c.p x)), count := k.count + x.count, log := k.log ++ [x.ranks] }

/-- How many members a chunk needs. -/
def chunkNeeds (c : Ctx) : Nat := if c.p.op.toNat = opBcast then 1 else c.members.length

theorem coreAccumulate_empty (h : tgetD d.coll.stg core [] = [] ∨ nameOn d (8 * (core / 9) + core % 9) = false) :
    coreAccumulate core ecc d = d := by
  unfold coreAccumulate
  dsimp only
  rcases h with h | h
  · rw [h]
    rfl
  · split
    · rfl
    · rw [h, Bool.not_false, Bool.or_true, if_pos rfl]

section Operand
variable (hn : nextOperand d core (tgetD d.coll.stg core []) = some x) (hu : nameUp d (8 * (core / 9) + core % 9) = true)
  (ho : nameOn d (8 * (core / 9) + core % 9) = true) (hc : ctxOf d x.slot = some c) (hk : findChunk c x.chunk = some k)
  (hl : live c = true) (hm : Unmarked d 9 ((8 * (core / 9) + core % 9) / 16) (coreNo (8 * (core / 9) + core % 9)))
include hn hu ho hc hk hl hm

omit hc hk hl in
theorem coreAccumulate_clean (hs : shadowChunk d core x = none) :
    coreAccumulate core .clean d = accumulate (unstaged d core x) x := by
  have hchk : spadCheck d (8 * (core / 9) + core % 9) .clean = (false, d) := by
    simp [spadCheck, takeMark_none hm, eccLanes]
  have hs' : shadowChunk (unstaged d core x) core x = none := hs
  unfold unstaged at hs' ⊢
  simp only [coreAccumulate, hn, hu, ho, Bool.not_true, Bool.or_self, Bool.false_eq_true, if_false, hchk, ite_self, hs']

theorem coreAccumulate_ue (hb : c.p.op.toNat ≠ opBarrier) :
    coreAccumulate core .ue d =
      abortCtx (unstaged (addSusp (raise d (srcCore (coreNo (8 * (core / 9) + core % 9))) 1) (8 * (core / 9) + core % 9)
        (ovlLimit d)) core x) x.slot 9 noRank x.chunk := by
  have hchk : spadCheck d (8 * (core / 9) + core % 9) .ue =
      (true, addSusp (raise d (srcCore (coreNo (8 * (core / 9) + core % 9))) 1) (8 * (core / 9) + core % 9) (ovlLimit d)) := by
    simp [spadCheck, takeMark_none hm, eccLanes]
  have hr : readsBobbin d x = true := by
    simp only [readsBobbin, hc, hl, hk, Option.isSome_some, Bool.and_true, Bool.true_and]
    exact bne_iff_ne.mpr hb
  simp only [coreAccumulate, hn, hu, ho, Bool.not_true, Bool.or_self, Bool.false_eq_true, if_false, hr, if_true, hchk, unstaged]

end Operand

theorem accumulate_adds (hc : ctxOf d x.slot = some c) (hk : findChunk c x.chunk = some k) (hl : live c = true)
    (hd : k.done = false) (hm : effMode c.p ≠ 1) :
    accumulate d x = checkChunk (setCtx d x.slot (setChunk c (accumulated c k x))) x.slot x.chunk := by
  simp only [accumulate, hc, hk, hl, hd, Bool.not_true, Bool.or_self, Bool.false_eq_true, if_false, if_neg hm, accumulated]

theorem checkChunk_waits {slot i : Nat} (hc : ctxOf d slot = some c) (hk : findChunk c i = some k)
    (hn : k.count + k.memCount < chunkNeeds c) : checkChunk d slot i = d := by
  unfold chunkNeeds at hn
  simp only [checkChunk, hc, hk, decide_eq_true hn, Bool.or_true, if_true]

theorem checkChunk_finishes {slot i : Nat} (hc : ctxOf d slot = some c) (hk : findChunk c i = some k) (hd : k.done = false)
    (hn : chunkNeeds c ≤ k.count) (h0 : k.memCount = 0) : checkChunk d slot i = finishChunk d slot c k := by
  unfold chunkNeeds at hn
  have hn' : decide (k.count + 0 < if c.p.op.toNat = opBcast then 1 else c.members.length) = false :=
    decide_eq_false (by omega)
  simp only [checkChunk, hc, hk, hd, h0, hn', Bool.or_self, Bool.false_eq_true, if_false, if_true]

/-- The context that holds the chunk with the operand. -/
theorem ctx_accumulated (hk : findChunk c x.chunk = some k) (slot : Nat) :
    ctxOf (setCtx d slot (setChunk c (accumulated c k x))) slot = some (setChunk c (accumulated c k x)) ∧
      findChunk (setChunk c (accumulated c k x)) x.chunk = some (accumulated c k x) :=
  ⟨by rw [ctxOf_setCtx, if_pos rfl], findChunk_setChunk hk (show k.idx = _ from idx_of_findChunk hk)⟩

theorem chunkNeeds_setChunk (c : Ctx) (k : Chunk) : chunkNeeds (setChunk c k) = chunkNeeds c := by
  simp only [chunkNeeds, setChunk_p, setChunk_members]

end Accumulate

/-! ### Comparison of a sampled chunk -/

theorem overlockView_result (d : Dev) (c : Ctx) (k : Chunk) (rep : Bool) :
    (overlockView d c k rep).1 = if rep then shadowRes c k else k.res := by
  unfold overlockView
  dsimp only
  split
  · cases placeOf d c k.idx <;> rfl
  · rfl

theorem overlockView_differs (d : Dev) (c : Ctx) (k : Chunk) (h : k.res ≠ shadowRes c k) :
    (overlockView d c k false != overlockView d c k true) = true := by
  rw [bne_iff_ne]
  intro he
  have h1 := congrArg Prod.fst he
  rw [overlockView_result, overlockView_result] at h1
  exact h h1

theorem takeMark_marked {d : Dev} {id die unit : Nat} (h : ¬ Unmarked d id die unit) :
    (takeMark d id die unit).1.isSome = true :=
  Option.isSome_iff_ne_none.mpr h

section Compare
variable {d : Dev} {slot chunk : Nat} {c : Ctx} {k : Chunk} {differ : Bool}

theorem comparable_eq_false (h : k.done = false ∨ k.sampled = false ∨ k.compared = true ∨ shadowDone c k = false) :
    comparable d c k = false := by
  rcases h with h | h | h | h <;> simp [comparable, h]

theorem overlockCompare_idle (hc : ctxOf d slot = some c) (hk : findChunk c chunk = some k) (h : comparable d c k = false) :
    overlockCompare slot chunk differ d = d := by
  simp only [overlockCompare, hc, hk, h, Bool.not_false, if_true]

variable (hc : ctxOf d slot = some c) (hk : findChunk c chunk = some k) (h : comparable d c k = true)
include hc hk h

theorem overlockCompare_agrees (hm : Unmarked d 0x0B (coreOf c chunk / 16) (coreNo (coreOf c chunk)))
    (hr : c.p.op.toNat ≠ opRub) (he : k.res = shadowRes c k) :
    overlockCompare slot chunk false d =
      cnt1 (setCtx d slot (setChunk c { k with compared := true })) (srcCore (coreNo (coreOf c chunk))) 5 := by
  have hv : (overlockView d c k false != overlockView d c k true) = false := by
    simp [overlockView, hr, he]
  have hi := idx_of_findChunk hk
  have hp (d : Dev) (i : Nat) : stitchPlace d c i = none := if_neg hr
  simp only [overlockCompare, hc, hk, h, Bool.not_true, Bool.false_eq_true, if_false, takeMark_none hm, if_neg hr,
    Option.isSome_none, hv, Bool.or_self, overlockAgree, hp, hi]

/-- The device that has read what an update of the chunk would write, where it updates a shard. -/
def compareRead (d : Dev) (c : Ctx) (chunk : Nat) : Dev :=
  match (if c.p.op.toNat = opRub then placeOf d c chunk else none) with
  | some x => (placeGet d x x.shard.side).2
  | none => d

theorem overlockCompare_differs (hdif : differ = true ∨ ¬ Unmarked d 0x0B (coreOf c chunk / 16) (coreNo (coreOf c chunk)) ∨
      k.res ≠ shadowRes c k) :
    overlockCompare slot chunk differ d =
      overlockMismatch (compareRead (takeMark d 0x0B (coreOf c chunk / 16) (coreNo (coreOf c chunk))).2 c chunk) slot c k := by
  obtain ⟨⟨m, d0⟩, hr⟩ : ∃ r, takeMark d 0x0B (coreOf c chunk / 16) (coreNo (coreOf c chunk)) = r := ⟨_, rfl⟩
  have hgo (d1 : Dev) : (m.isSome || differ || overlockView d1 c k false != overlockView d1 c k true) = true := by
    rcases hdif with h | h | h
    · rw [h, Bool.or_true, Bool.true_or]
    · have hm : m.isSome = true := by
        rw [show m = (takeMark d 0x0B (coreOf c chunk / 16) (coreNo (coreOf c chunk))).1 by rw [hr]]
        exact takeMark_marked h
      rw [hm, Bool.true_or, Bool.true_or]
    · rw [overlockView_differs d1 c k h, Bool.or_true]
  simp only [overlockCompare, hc, hk, h, Bool.not_true, Bool.false_eq_true, if_false, hr, hgo, if_true, compareRead] <;> rfl

end Compare

/-! ### A result -/

section Result
variable {d : Dev} {slot chunk : Nat} {c : Ctx} {k : Chunk}

/-- The elements that the result of a chunk carries. -/
def resultOut (c : Ctx) (k : Chunk) : List Nat :=
  k.res.map (accOutput c.p.op.toNat c.p.mode.toNat c.p.itype.toNat c.p.otype.toNat)

/-- The device that has checked a result and forgotten its chunk. -/
def chunkForgotten (d : Dev) (slot chunk : Nat) (c : Ctx) (k : Chunk) : Dev :=
  setCtx (if c.p.op.toNat = opBarrier then d else nanCheck d c chunk c.p.otype.toNat (resultOut c k)) slot
    { c with chunks := c.chunks.filter (fun x => x.idx != chunk) }

variable (hc : ctxOf d slot = some c) (hk : findChunk c chunk = some k)
include hc hk

theorem resultSend_done (hd : k.done = true) (hs : k.sampled = false ∨ k.compared = true) (hr : c.p.op.toNat ≠ opRub) :
    resultSend slot chunk d =
      cntN (sendSegs (chunkForgotten d slot chunk c k) slot c 1 chunk c.p.otype.toNat (typeBytes c.p.otype.toNat)
          (if c.p.op.toNat = opBarrier then [] else resultOut c k)).2 (srcColl (coreOf c chunk / 16) slot) 5
        (sendSegs (chunkForgotten d slot chunk c k) slot c 1 chunk c.p.otype.toNat (typeBytes c.p.otype.toNat)
          (if c.p.op.toNat = opBarrier then [] else resultOut c k)).1 := by
  have hg : (!k.done || (k.sampled && !k.compared) || c.p.op.toNat == opRub) = false := by
    rw [hd, beq_false_of_ne hr]
    rcases hs with h | h <;> simp [h]
  simp only [resultSend, hc, hk, hg, Bool.false_eq_true, if_false, chunkForgotten, resultOut]

theorem resultSend_waits (h : k.done = false ∨ (k.sampled = true ∧ k.compared = false) ∨ c.p.op.toNat = opRub) :
    resultSend slot chunk d = d := by
  have hg : (!k.done || (k.sampled && !k.compared) || c.p.op.toNat == opRub) = true := by
    rcases h with h | ⟨h, h'⟩ | h <;> simp [*]
  simp only [resultSend, hc, hk, hg, if_true]

end Result

theorem unmarked_reading {d : Dev} {id die unit : Nat} (fl : List (Nat × Ecc)) (h : Unmarked d id die unit) :
    Unmarked (d.reading fl) id die unit :=
  unmarked_of_marks h rfl

theorem unmarked_of_reading {d : Dev} {id die unit : Nat} (fl : List (Nat × Ecc)) (h : Unmarked (d.reading fl) id die unit) :
    Unmarked d id die unit :=
  unmarked_of_marks h rfl

/-- Settles O25: an operand is combined into its chunk's accumulator, a sampled chunk's two results are compared, and a
result that may go is sent and its chunk forgotten. -/
theorem coreWork : Obligations.CoreWork := by
  unfold Obligations.CoreWork
  intro s hs
  refine ⟨fun core x c k fl hn hu ho hc hk hl hsh hm => ?operand, fun core ecc fl h => ?nothing,
    fun slot chunk c k hc hk => ⟨fun hp => ⟨fun fl hm hr he => ?agrees, fun differ fl hd => ?differs⟩,
      fun differ fl h => ?idle, comparable_eq_false, fun hd h hr => ?sent, fun h => ?stays⟩⟩
  case operand =>
    have hm' : Unmarked (s.dev.reading fl) 9 ((8 * (core / 9) + core % 9) / 16) (coreNo (8 * (core / 9) + core % 9)) := unmarked_reading fl hm
    have hclean := coreAccumulate_clean (d := s.dev.reading fl) hn hu ho hm' hsh
    intro off n v sum k1
    refine ⟨fun hd he hw => ?waits, fun hd he hw h0 => ?finishes, fun hb => ?ue⟩
    case waits =>
      refine doesRead_of_act rfl hs ?_
      rw [hclean, accumulate_adds (d := unstaged (s.dev.reading fl) core x) hc hk hl hd he]
      obtain ⟨h1, h2⟩ := ctx_accumulated (d := unstaged (s.dev.reading fl) core x) hk x.slot
      rw [checkChunk_waits h1 h2 (by rw [chunkNeeds_setChunk]; exact hw)]
      rfl
    case finishes =>
      refine doesRead_of_act rfl hs ?_
      rw [hclean, accumulate_adds (d := unstaged (s.dev.reading fl) core x) hc hk hl hd he]
      obtain ⟨h1, h2⟩ := ctx_accumulated (d := unstaged (s.dev.reading fl) core x) hk x.slot
      rw [checkChunk_finishes h1 h2 hd (by rw [chunkNeeds_setChunk]; exact hw) h0]
      rfl
    case ue =>
      have hoff : off = fun d => unstaged d core x := rfl
      clear_value off
      subst hoff
      exact doesRead_of_act rfl hs (coreAccumulate_ue (d := s.dev.reading fl) hn hu ho hc hk hl hm' hb)
  case nothing => exact doesRead_of_act rfl hs (coreAccumulate_empty (d := s.dev.reading fl) h)
  case agrees =>
    have h := overlockCompare_agrees (d := s.dev.reading fl) (slot := slot.toNat) (chunk := chunk.toNat) hc hk hp
      (unmarked_reading fl hm) hr he
    exact doesRead_of_act (f := overlockCompare slot.toNat chunk.toNat false) rfl hs h
  case differs =>
    have h := overlockCompare_differs (d := s.dev.reading fl) (slot := slot.toNat) (chunk := chunk.toNat) (differ := differ)
      hc hk hp (hd.imp_right (Or.imp_left (mt (unmarked_of_reading fl))))
    simp only [overlockMismatch, congrArg (coreOf c) (idx_of_findChunk hk)] at h
    exact doesRead_of_act (f := overlockCompare slot.toNat chunk.toNat differ) rfl hs h
  case idle => exact doesRead_of_act rfl hs (overlockCompare_idle (d := s.dev.reading fl) hc hk h)
  case sent => exact does_of_act rfl hs (resultSend_done (d := s.dev.fresh) hc hk hd h hr)
  case stays => exact does_of_act rfl hs (resultSend_waits (d := s.dev.fresh) hc hk h)

end Sys2Proof.Machine
end

section
/-! # Updates of the fabric optimizer (spec/08 R210, R211, R218) -/
namespace Sys2Proof.Machine

section Updates
variable {d : Dev} {slot chunk : Nat} {c : Ctx} {k : Chunk} {x : Place}

theorem updateDue_iff :
    updateDue d slot c k x = true ↔
      live c = true ∧ c.p.op.toNat = opRub ∧ k.done = true ∧ k.updated = false ∧ k.writes = [] ∧
        segRunning d slot k.idx = false ∧ x.shard.st = 2 ∧ inOpenRound c x.shard k.idx = true ∧ slotsQueued d x = false ∧
        (k.sampled = false ∨ (x.seg.prog ≠ 15 ∧ k.compared = true) ∨
          (x.seg.prog = 15 ∧ shadowDone c k = true ∧ k.compared = false)) := by
  have hlast : (!k.sampled || (if x.seg.prog = 15 then shadowDone c k && !k.compared else k.compared)) = true ↔
      (k.sampled = false ∨ (x.seg.prog ≠ 15 ∧ k.compared = true) ∨
        (x.seg.prog = 15 ∧ shadowDone c k = true ∧ k.compared = false)) := by
    by_cases hp : x.seg.prog = 15 <;> simp [hp]
  simp only [updateDue, Bool.and_eq_true, hlast, beq_iff_eq, Bool.not_eq_true', List.isEmpty_iff, and_assoc]

/-- The device that has read the slots of a place on one side. -/
def placeRead (d : Dev) (x : Place) (side : Nat) : Dev := slotGet d x.shard side x.k x.seg x.first x.count

/-- The poisoned address among the slots of a place on one side. -/
def placePoison (d : Dev) (x : Place) (side : Nat) : Option Nat :=
  slotPoison (placeRead d x side) x.shard side x.k x.seg x.first x.count

theorem placeGet_eq (d : Dev) (x : Place) (side : Nat) : placeGet d x side = (placePoison d x side, placeRead d x side) := rfl

variable (hc : ctxOf d slot = some c) (hk : findChunk c chunk = some k) (hx : placeOf d c chunk = some x)

section Update
include hc hk hx

theorem rubUpdate_idle (h : updateDue d slot c k x = false) : rubUpdate slot chunk d = d := by
  simp only [rubUpdate, hc, hk, hx, h, Bool.not_false, if_true]

variable (h : updateDue d slot c k x = true)
include h

theorem rubUpdate_twice (hs : k.sampled = true) (hp : x.seg.prog = 15) :
    rubUpdate slot chunk d = stitchTwice d slot c k x := by
  have hg : (k.sampled && x.seg.prog == 15) = true := by rw [hs, hp]; rfl
  simp only [rubUpdate, hc, hk, hx, h, Bool.not_true, Bool.false_eq_true, if_false, hg, if_true]

/-- An update that offers nothing to a partner runs its program. -/
theorem rubUpdate_runs (hg : (k.sampled && x.seg.prog == 15) = false) (ho : offerGr d slot chunk c x (grOf d c k) = d) :
    rubUpdate slot chunk d = runProgram d slot chunk c x (grOf d c k) := by
  have hl : live c = true := (updateDue_iff.mp h).1
  simp only [rubUpdate, hc, hk, hx, h, Bool.not_true, Bool.false_eq_true, if_false, hg, ho, hl, if_true]

end Update

theorem offerGr_mirror (h : x.shard.role = 1) (gr : List Nat) : offerGr d slot chunk c x gr = d := by
  simp only [offerGr, h, if_true]

/-- A value is finite in a format. -/
def finiteIn (f : Fmt) (v : Nat) : Bool :=
  match fdec f v with
  | .num _ _ _ => true
  | _ => false

theorem nanCheck_finite {ty : Nat} {vs : List Nat} (h : ∀ f, fmtOf ty = some f → vs.all (finiteIn f) = true) :
    nanCheck d c chunk ty vs = d := by
  unfold nanCheck
  cases hf : fmtOf ty with
  | none => rfl
  | some f =>
    have hall := List.all_eq_true.mp (h f hf)
    have hnan : vs.any (fun v => fdec f v == .nan) = false := by
      rw [List.any_eq_false]
      intro v hv hn
      have := hall v hv
      rw [finiteIn, beq_iff_eq.mp hn] at this
      exact Bool.false_ne_true this
    have hinf : vs.any (fun v => match fdec f v with | .inf _ => true | _ => false) = false := by
      rw [List.any_eq_false]
      intro v hv hn
      have := hall v hv
      unfold finiteIn at this
      split at hn
      · next he =>
        rw [he] at this
        exact Bool.false_ne_true this
      · exact Bool.false_ne_true hn
    simp only [hnan, Bool.false_eq_true, if_false]
    exact if_neg (fun h => Bool.false_ne_true (hinf.symm.trans h))

theorem offerGr_finite {gr : List Nat} (hr : x.shard.role = 0) (hm : c.p.mirrorEn = false)
    (h : ∀ f, fmtOf 0 = some f → gr.all (finiteIn f) = true) : offerGr d slot chunk c x gr = d := by
  simp only [offerGr, hr, Nat.zero_ne_one, if_false, hm, Bool.false_eq_true, nanCheck_finite h]

/-- The columns that a range update of a place makes. -/
def rangeCols (d : Dev) (x : Place) (gr : List Nat) : List (List Nat) :=
  rangeUpdate x.seg.prog (x.shard.hs.getD x.seg.hset ⟨[], none⟩).cur
    ((List.range x.seg.slots).map (fun j => readSlot d x.shard x.shard.side x.k x.seg j x.first x.count)) gr

theorem runProgram_range {gr : List Nat} (hp : x.seg.prog ≠ 15) (h4 : x.seg.prog ≠ 4)
    (hb : placePoison d x x.shard.side = none) :
    runProgram d slot chunk c x gr =
      markUpdated ((List.range (rangeCols (placeRead d x x.shard.side) x gr).length).foldl (fun e j =>
        basteSlot e x.sh x.shard x.k x.seg j x.first ((rangeCols (placeRead d x x.shard.side) x gr).getD j []))
          (placeRead d x x.shard.side)) slot chunk x := by
  have hcols (d : Dev) : updateCols d x gr = rangeCols d x gr := by
    simp only [updateCols, if_neg hp, if_neg h4, rangeCols]
  simp only [runProgram, if_neg hp, placeGet_eq, hb, hcols, if_neg h4]

theorem runProgram_poisoned {gr : List Nat} {a : Nat} (hp : x.seg.prog ≠ 15) (hb : placePoison d x x.shard.side = some a) :
    runProgram d slot chunk c x gr = abortCtx (consumePoison (placeRead d x x.shard.side) a) slot 9 noRank chunk := by
  simp only [runProgram, if_neg hp, placeGet_eq, hb]

/-! ### The end of an update -/

section Done
include hc hk hx

theorem rubUpdateDone_idle (h : k.updated = false) : rubUpdateDone slot chunk d = d := by
  simp only [rubUpdateDone, hc, hk, hx, h, Bool.not_false, Bool.or_true, Bool.true_or, if_true]

variable (hl : live c = true) (hu : k.updated = true) (hr : x.shard.role = 0) (hb : x.seg.prog ≠ 4 ∨ k.blk = true)
include hl hu hr hb

theorem rubUpdateDone_poisoned {a : Nat} (hp : placePoison d x (1 - x.shard.side) = some a) :
    rubUpdateDone slot chunk d = abortCtx (consumePoison (placeRead d x (1 - x.shard.side)) a) slot 9 noRank chunk := by
  have hg : (!live c || !k.updated || x.shard.role != 0 || (x.seg.prog == 4 && !k.blk)) = false := by
    rcases hb with h | h <;> simp [hl, hu, hr, h]
  simp only [rubUpdateDone, hc, hk, hx, hg, Bool.false_eq_true, if_false, placeGet_eq, hp]

/-- The segments of the new parameters, and the device that has sent them. -/
def paramsSent (d : Dev) (slot chunk : Nat) (c : Ctx) (x : Place) : Nat × Dev :=
  sendSegs (placeRead d x (1 - x.shard.side)) slot c 4 chunk x.seg.ptype (typeBytes x.seg.ptype)
    (paramsOf (placeRead d x (1 - x.shard.side)) x (1 - x.shard.side))

/-- The device that has sent and counted the new parameters. -/
def paramsOut (d : Dev) (slot chunk : Nat) (c : Ctx) (x : Place) : Dev :=
  cntN (paramsSent d slot chunk c x).2 (srcShard x.sh) 8 (paramsSent d slot chunk c x).1

theorem rubUpdateDone_sends (hgo : c.p.gradOut = false) (hp : placePoison d x (1 - x.shard.side) = none) :
    rubUpdateDone slot chunk d =
      if stillLive (paramsOut d slot chunk c x) slot then
        if c.p.mirrorEn then
          compareMack (dropChunk (recordDigest (paramsOut d slot chunk c x) slot chunk x).2 slot chunk) slot chunk x.sh
        else sealChunk (dropChunk (recordDigest (paramsOut d slot chunk c x) slot chunk x).2 slot chunk) slot chunk
      else paramsOut d slot chunk c x := by
  have hg : (!live c || !k.updated || x.shard.role != 0 || (x.seg.prog == 4 && !k.blk)) = false := by
    rcases hb with h | h <;> simp [hl, hu, hr, h]
  simp only [rubUpdateDone, hc, hk, hx, hg, Bool.false_eq_true, if_false, placeGet_eq, hp, hgo, Bool.false_and,
    paramsOut, paramsSent] <;> rfl

end Done

end Updates

/-! ### A block of ORTHO -/

section Ortho
variable {d : Dev} {slot seg b : Nat} {c : Ctx} {sd : Shard} {g : Seg}

/-- The device that has read the old parameters and the new momentum of a block. -/
def blockRead (d : Dev) (sd : Shard) (seg : Nat) (g : Seg) (b : Nat) : Dev :=
  (memGet (memGet d (slotAddr sd sd.side seg g 0 (g.start + b * 2 ^ (2 * g.bshift))) (4 * 2 ^ (2 * g.bshift))).2
    (slotAddr sd (1 - sd.side) seg g 1 (g.start + b * 2 ^ (2 * g.bshift))) (4 * 2 ^ (2 * g.bshift))).2

theorem orthoBlockUpdate_writes (hc : ctxOf d slot = some c) (hs : shardOf d c.p.shard.toNat = some sd)
    (hg : sd.segs[seg]? = some g) (h4 : g.prog = 4) (hn : (b + 1) * 2 ^ (2 * g.bshift) ≤ g.count) (hl : live c = true)
    (hop : c.p.op.toNat = opRub) (hcs : blockChunks c sd g b ≠ [])
    (hall : ∀ i ∈ blockChunks c sd g b, ∃ k, findChunk c i = some k ∧ k.updated = true ∧ k.blk = false ∧ k.sampled = false)
    (hq : ∀ x ∈ [slotAddr sd sd.side seg g 0 (g.start + b * 2 ^ (2 * g.bshift)),
        slotAddr sd (1 - sd.side) seg g 1 (g.start + b * 2 ^ (2 * g.bshift)),
        slotAddr sd (1 - sd.side) seg g 0 (g.start + b * 2 ^ (2 * g.bshift))],
      unitsQueued d x (4 * 2 ^ (2 * g.bshift)) = false)
    (hp0 : poisonIn (blockRead d sd seg g b) (slotAddr sd sd.side seg g 0 (g.start + b * 2 ^ (2 * g.bshift)))
      (4 * 2 ^ (2 * g.bshift)) = none)
    (hp1 : poisonIn (blockRead d sd seg g b) (slotAddr sd (1 - sd.side) seg g 1 (g.start + b * 2 ^ (2 * g.bshift)))
      (4 * 2 ^ (2 * g.bshift)) = none) :
    orthoBlockUpdate slot seg b d =
      orthoWrite (blockRead d sd seg g b) slot c c.p.shard.toNat sd seg g b (blockChunks c sd g b)
        (readSlot (blockRead d sd seg g b) sd (1 - sd.side) seg g 1 (g.start + b * 2 ^ (2 * g.bshift)) (2 ^ (2 * g.bshift)))
        (readSlot (blockRead d sd seg g b) sd sd.side seg g 0 (g.start + b * 2 ^ (2 * g.bshift)) (2 ^ (2 * g.bshift))) := by
  have hready : (blockChunks c sd g b).all (fun i => match findChunk c i with
      | some k => k.updated && !k.blk
      | none => false) = true := by
    rw [List.all_eq_true]
    intro i hi
    obtain ⟨k, hk, hu, hb, -⟩ := hall i hi
    rw [hk]
    simp only [hu, hb, Bool.not_false, Bool.and_self]
  have hnone : ((blockChunks c sd g b).filterMap (findChunk c)).find? (fun k => k.sampled) = none := by
    rw [List.find?_eq_none]
    intro k hk
    obtain ⟨i, hi, hik⟩ := List.mem_filterMap.mp hk
    obtain ⟨k', hk', -, -, hs'⟩ := hall i hi
    obtain rfl := Option.some.inj (hk'.symm.trans hik)
    simp only [hs', Bool.false_eq_true, not_false_iff]
  have hq0 := hq (slotAddr sd sd.side seg g 0 (g.start + b * 2 ^ (2 * g.bshift))) (by simp)
  have hq1 := hq (slotAddr sd (1 - sd.side) seg g 1 (g.start + b * 2 ^ (2 * g.bshift))) (by simp)
  have hq2 := hq (slotAddr sd (1 - sd.side) seg g 0 (g.start + b * 2 ^ (2 * g.bshift))) (by simp)
  have hcs' : (blockChunks c sd g b).isEmpty = false := List.isEmpty_eq_false_iff.mpr hcs
  unfold blockRead at hp0 hp1 ⊢
  simp only [orthoBlockUpdate, hc, hs, hg, hl, hop, h4, bne_self_eq_false, Bool.not_true, hcs', decide_eq_false (Nat.not_lt.mpr hn),
    hq0, hq1, hq2, Bool.or_self, Bool.false_or, Bool.or_false]
  refine (if_neg ?ready).trans ?_
  case ready => exact fun h => Bool.false_ne_true ((congrArg (!·) hready).symm.trans h)
  simp only [hp0, hp1, Option.orElse, hnone]

end Ortho

/-- Settles O31: an update of a chunk runs its segment's program once it is due, its end sends the new parameters and
records the digest, and a block of ORTHO updates its parameters once every chunk has its momentum. -/
theorem rubUpdates : Obligations.RubUpdates := by
  unfold Obligations.RubUpdates
  intro s slot chunk c hs hc
  refine ⟨fun k x hk hx => ⟨?due, fun fl h hsm hp => ?twice, fun fl h hsm hr => ?mirror, fun fl h hr hm hf hp => ?range,
    fun fl h => ?idle, fun fl hl hu hr hb hgo => ?done, fun fl h => ?notDone⟩,
    fun seg b fl sd g hsd hg h4 hn hl hop hr hcs hall hq hp0 hp1 => ?ortho⟩
  case due => rw [← idx_of_findChunk hk]; exact updateDue_iff
  case twice => exact doesRead_of_act rfl hs (rubUpdate_twice (d := s.dev.reading fl) hc hk hx h hsm hp)
  case mirror =>
    have hg : (k.sampled && x.seg.prog == 15) = false := by rcases hsm with h | h <;> simp [h]
    exact doesRead_of_act rfl hs (rubUpdate_runs (d := s.dev.reading fl) hc hk hx h hg (offerGr_mirror hr _))
  case range =>
    have h15 : x.seg.prog ≠ 15 := by rintro h; rw [h] at hp; exact absurd hp (by decide)
    have h4 : x.seg.prog ≠ 4 := by rintro h; rw [h] at hp; exact absurd hp (by decide)
    have hg : (k.sampled && x.seg.prog == 15) = false := by simp [h15]
    have hrun := rubUpdate_runs (d := s.dev.reading fl) hc hk hx h hg (offerGr_finite hr hm hf)
    exact ⟨fun hb => doesRead_of_act rfl hs (hrun.trans (runProgram_range h15 h4 hb)),
      fun a hb => doesRead_of_act rfl hs (hrun.trans (runProgram_poisoned h15 hb))⟩
  case idle => exact doesRead_of_act rfl hs (rubUpdate_idle (d := s.dev.reading fl) hc hk hx h)
  case done =>
    exact ⟨fun hp => doesRead_of_act rfl hs (rubUpdateDone_sends (d := s.dev.reading fl) hc hk hx hl hu hr hb hgo hp),
      fun a hp => doesRead_of_act rfl hs (rubUpdateDone_poisoned (d := s.dev.reading fl) hc hk hx hl hu hr hb hp)⟩
  case notDone => exact doesRead_of_act rfl hs (rubUpdateDone_idle (d := s.dev.reading fl) hc hk hx h)
  case ortho =>
    refine doesRead_of_act rfl hs ((orthoBlockUpdate_writes (d := s.dev.reading fl) hc hsd hg h4 hn hl hop hcs hall hq hp0 hp1).trans ?_)
    unfold orthoWrite
    rw [if_neg (by rw [hr]; exact Nat.zero_ne_one)]
    rfl

end Sys2Proof.Machine
end

section
/-! # Mirror frames, their acknowledgements and the seal (spec/08 R216, R217, R220, R222) -/
namespace Sys2Proof.Machine

section Mirror
variable {d : Dev} {tile slot : Nat} {i : Ing} {c : Ctx} {r : Frame × Dev}

theorem mirrorReceive_none (h : takenKind d tile 6 = none) : mirrorReceive tile d = d := by
  simp only [mirrorReceive, h]

theorem mackReceive_none (h : takenKind d tile 7 = none) : mackReceive tile d = d := by
  simp only [mackReceive, h]

section Taken
variable (hr : takenFrame (untake d tile i.id) tile false i.frame = r)
include hr

theorem mirrorReceive_stale (hi : takenKind d tile 6 = some i) (hc : firstCheck r.2 r.1 = none) :
    mirrorReceive tile d = staleFrame r.2 tile i.id := by
  simp only [mirrorReceive, hi, hr, hc]

/-- A MIRROR frame of a context that its header meets goes by the verdict of its checks. -/
theorem mirrorReceive_checked (hi : takenKind d tile 6 = some i) (hc : firstCheck r.2 r.1 = some c) :
    (rubVerdict r.2 c i.port r.1 6 = .take → mirrorReceive tile d =
      takeMirror (freeIng r.2 i.id) (r.1.chdr.handle.toNat % 16384) r.1) ∧
    (∀ v, rubVerdict r.2 c i.port r.1 6 = .abort v → mirrorReceive tile d =
      abortCtx (freeIng r.2 i.id) (r.1.chdr.handle.toNat % 16384) v (if v = 0x0E then noRank else r.1.chdr.rank.toNat)
        r.1.chdr.chunk.toNat) ∧
    (rubVerdict r.2 c i.port r.1 6 = .hold → mirrorReceive tile d =
      setCtx r.2 (r.1.chdr.handle.toNat % 16384) { c with heldFr := c.heldFr ++ [(tile, i.id)] }) := by
  simp only [mirrorReceive, hi, hr, hc]
  refine ⟨fun h => ?take, fun v h => ?abort, fun h => ?hold⟩
  case take => simp only [h]
  case abort => simp only [h]
  case hold => simp only [h]

theorem mackReceive_stale (hi : takenKind d tile 7 = some i) (hc : firstCheck r.2 r.1 = none) :
    mackReceive tile d = staleFrame r.2 tile i.id := by
  simp only [mackReceive, hi, hr, hc]

theorem mackReceive_takes (hi : takenKind d tile 7 = some i) (hc : firstCheck r.2 r.1 = some c)
    (hv : rubVerdict r.2 c i.port r.1 7 = .take) :
    mackReceive tile d =
      compareMack (setCtx (cnt1 (freeIng r.2 i.id) (srcShard c.p.shard.toNat) 10) (r.1.chdr.handle.toNat % 16384)
        { c with seen := c.seen ++ [(7, r.1.chdr.chunk.toNat, 0)], macks := c.macks ++ [(r.1.chdr.chunk.toNat, r.1.chdr.credit)] })
        (r.1.chdr.handle.toNat % 16384) r.1.chdr.chunk.toNat c.p.shard.toNat := by
  simp only [mackReceive, hi, hr, hc, hv]

end Taken

/-! ### Acknowledgements -/

/-- The device that has read the digest of a finished chunk. -/
def ackRead (d : Dev) (c : Ctx) (chunk : Nat) : Dev := (memGet d (ackAddr c chunk) 4).2

/-- The device that has sent the acknowledgement of a chunk and keeps those that still wait. -/
def ackSent (d : Dev) (slot : Nat) (c : Ctx) (chunk : Nat) (r : List (Nat × BitVec 32)) : Dev :=
  sendTo (setCtx (ackRead d c chunk) slot { c with macks := r }) (homeDie slot) (16 * homeDie slot) (partnerTarget c.p)
    (collFrame (ackRead d c chunk) c 7 chunk 0 0 0 0 (mem32 (ackRead d c chunk) (ackAddr c chunk)) 0 false c.p.partnerEp.toNat []
      c.p.partnerHandle c.p.partnerGen c.p.partnerSig)

section Acknowledge
variable (hc : ctxOf d slot = some c) (hl : live c = true) (hr : rubRole d c 1 = true)
include hc hl hr

theorem mackSend_none (h : c.macks = []) : mackSend slot d = d := by
  simp only [mackSend, hc, hl, hr, Bool.not_true, Bool.or_self, Bool.false_eq_true, if_false, h]

theorem mackSend_first {chunk : Nat} {v : BitVec 32} {r : List (Nat × BitVec 32)} (h : c.macks = (chunk, v) :: r) :
    mackSend slot d =
      if targetUp d c.p.part.toNat (partnerTarget c.p) then sealChunk (ackSent d slot c chunk r) slot chunk
      else abortCtx (ackSent d slot c chunk r) slot 0x0B 0 noChunk := by
  simp only [mackSend, hc, hl, hr, Bool.not_true, Bool.or_self, Bool.false_eq_true, if_false, h, ackSent, ackRead]

end Acknowledge

/-! ### Seal -/

/-- The chunks of a shard's open round. -/
def roundChunks (c : Ctx) (x : Shard) : List Nat :=
  (List.range (roundN c.p)).map (fun q => openRoundNo c x * roundN c.p + q)

theorem all_contains_iff {l m : List Nat} : l.all (fun i => m.contains i) = true ↔ ∀ i ∈ l, i ∈ m := by
  simp

section Seal
variable {sh : Nat} {x : Shard} (hx : shardOf d sh = some x) (hb : x.bound = some slot) (hc : ctxOf d slot = some c)
include hx hb hc

theorem shardSeal_seals (hl : live c = true) (h2 : x.st = 2) (ha : ∀ i ∈ roundChunks c x, i ∈ c.sealed)
    (hw : segsOnWay d c = false) :
    shardSeal sh d =
      event (cnt1 (setShard d sh { x with st := 3 }) (srcShard sh) 7) 0x0B80 (shDie sh) sh
        [(2, sh), (4, (x.step + 1).toNat),
          (4, crc32c ((roundChunks c x).map (fun i => leBytes 4 (tgetD c.digests i 0).toNat)).flatten)] := by
  have ha' := all_contains_iff.mpr ha
  unfold roundChunks at ha' ⊢
  have hg : (x.st != 2 || !live c || !((List.range (roundN c.p)).map (fun q => openRoundNo c x * roundN c.p + q)).all
      (fun i => c.sealed.contains i) || segsOnWay d c) = false := by
    rw [ha', hl, hw, h2]
    rfl
  simp only [shardSeal, hx, hb, hc, hg, Bool.false_eq_true, if_false]

theorem shardSeal_waits (h : x.st ≠ 2 ∨ (∃ i ∈ roundChunks c x, i ∉ c.sealed) ∨ segsOnWay d c = true) : shardSeal sh d = d := by
  have hg : (x.st != 2 || !live c || !((List.range (roundN c.p)).map (fun q => openRoundNo c x * roundN c.p + q)).all
      (fun i => c.sealed.contains i) || segsOnWay d c) = true := by
    rcases h with h | ⟨i, hi, hn⟩ | h
    · simp [h]
    · have hall : (roundChunks c x).all (fun i => c.sealed.contains i) = false :=
        Bool.eq_false_iff.mpr (fun h => hn (all_contains_iff.mp h i hi))
      unfold roundChunks at hall
      rw [hall, Bool.not_false, Bool.or_true, Bool.true_or]
    · simp [h]
  simp only [shardSeal, hx, hb, hc, hg, if_true]

end Seal

end Mirror

/-- Settles O32: a MIRROR or MACK frame goes by its first check and its verdict, a mirror context acknowledges its chunks
in order, and a shard whose chunks all meet the seal conditions seals. -/
theorem mirrorAndSeal : Obligations.MirrorAndSeal := by
  unfold Obligations.MirrorAndSeal
  intro s hs
  refine ⟨fun tile => ⟨fun fl h => ?noMirror, fun h => ?noMack⟩, fun tile fl i hi => ?mirror, fun tile i hi => ?mack,
    fun slot c hc hl hr => ⟨fun fl h => ?nothing, fun fl chunk v r h => ?first⟩,
    fun sh x slot c hx hb hc hl => ⟨fun h2 ha hw => ?seals, fun h => ?waits⟩⟩
  case noMirror => exact doesRead_of_act rfl hs (mirrorReceive_none (d := s.dev.reading fl) h)
  case noMack => exact does_of_act rfl hs (mackReceive_none (d := s.dev.fresh) h)
  case mirror =>
    refine ⟨fun hc => doesRead_of_act rfl hs (mirrorReceive_stale (d := s.dev.reading fl) rfl hi hc), fun c hc => ?_⟩
    obtain ⟨ht, ha, hh⟩ := mirrorReceive_checked (d := s.dev.reading fl) rfl hi hc
    exact ⟨fun h => doesRead_of_act rfl hs (ht h), fun v h => doesRead_of_act rfl hs (ha v h),
      fun h => doesRead_of_act rfl hs (hh h)⟩
  case mack =>
    exact ⟨fun hc => does_of_act rfl hs (mackReceive_stale (d := s.dev.fresh) rfl hi hc),
      fun c hc hv => does_of_act rfl hs (mackReceive_takes (d := s.dev.fresh) rfl hi hc hv)⟩
  case nothing => exact doesRead_of_act rfl hs (mackSend_none (d := s.dev.reading fl) hc hl hr h)
  case first => exact doesRead_of_act rfl hs (mackSend_first (d := s.dev.reading fl) hc hl hr h)
  case seals => exact does_of_act rfl hs (shardSeal_seals (d := s.dev.fresh) hx hb hc hl h2 ha hw)
  case waits => exact does_of_act rfl hs (shardSeal_waits (d := s.dev.fresh) hx hb hc h)

end Sys2Proof.Machine
end

section
/-! # The host's rings (spec/14 R349 to R353) -/
namespace Sys2Proof.Machine

/-! ### Registers of the rings -/

theorem meets_ringProdCmd (r : Fin 8) :
    MeetsReg (regAddr .ringProdCmd [r.val]) .ringProdCmd [r.val] ∧ sleepDom (regAddr .ringProdCmd [r.val]) = none := by
  revert r
  decide +kernel

theorem meets_ringConsDev (r : Fin 10) :
    MeetsReg (regAddr .ringConsDev [r.val]) .ringConsDev [r.val] ∧ sleepDom (regAddr .ringConsDev [r.val]) = none := by
  revert r
  decide +kernel

theorem meets_ringCtl (r : Fin 18) :
    MeetsReg (regAddr .ringCtl [r.val]) .ringCtl [r.val] ∧ sleepDom (regAddr .ringCtl [r.val]) = none := by
  revert r
  decide +kernel

theorem busWrite_ringProdCmd (r : Fin 8) (val : Nat) (d : Dev) :
    busWrite (regAddr .ringProdCmd [r.val]) val d =
      prodWrite r (merge false .ringProdCmd (rd d .ringProdCmd [r.val]) val) d.written :=
  busWrite_lockFree_awake (meets_ringProdCmd r).1 (meets_ringProdCmd r).2 rfl val d

theorem busWrite_ringConsDev (r : Fin 10) (val : Nat) (d : Dev) :
    busWrite (regAddr .ringConsDev [r.val]) val d =
      consWrite (r.val + 8) (merge false .ringConsDev (rd d .ringConsDev [r.val]) val) d.written :=
  busWrite_lockFree_awake (meets_ringConsDev r).1 (meets_ringConsDev r).2 rfl val d

theorem busWrite_ringCtl (r : Fin 18) (val : Nat) (d : Dev) :
    busWrite (regAddr .ringCtl [r.val]) val d = ringCtlWrite r (merge false .ringCtl (rd d .ringCtl [r.val]) val) d.written :=
  busWrite_lockFree_awake (meets_ringCtl r).1 (meets_ringCtl r).2 rfl val d

theorem bit_eq_bits (x n : Nat) : bit x n = (bits x n n == 1) := by
  simp [bit, bits, Nat.shiftRight_eq_div_pow]

theorem bit_merge_ringCtl (old val : Nat) : bit (merge false .ringCtl old val) 31 = bit val 31 := by
  have h : bits (merge false .ringCtl old val) 31 31 = bits val 31 31 :=
    bits_merge .ringCtl false old val (f := fl 31 31 .rw 0) (by simp [regRow])
  rw [bit_eq_bits, h, ← bit_eq_bits]

theorem bit_setBit_same (x n : Nat) : bit (setBit x n) n = true := by
  rw [setBit_eq_putBits, bit_eq_bits, bits_putBits_same]
  simp

theorem clrBit_eq_putBits (x n : Nat) : clrBit x n = putBits x n n 0 := by
  unfold clrBit putBits
  rw [bit_eq_bits]
  have h : bits x n n < 2 := by simpa using bits_lt x n n
  by_cases hb : bits x n n = 1
  · simp [hb]
  · have h0 : bits x n n = 0 := by omega
    simp [h0]

theorem bit_clrBit_same (x n : Nat) : bit (clrBit x n) n = false := by
  rw [clrBit_eq_putBits, bit_eq_bits, bits_putBits_same]
  simp

theorem bit_clrBit_other (x : Nat) {n i : Nat} (h : i ≠ n) : bit (clrBit x n) i = bit x i := by
  rw [clrBit_eq_putBits, bit_eq_testBit, bit_eq_testBit, testBit_putBits_outside _ _ (by omega)]

/-! ### Accesses of the rings' indices -/

section Index
variable {d : Dev} {r v : Nat}

theorem prodWrite_within (h : ¬ ringSize d r < (v % 65536 + 65536 - ringCons d r) % 65536) : prodWrite r v d = setProd d r v :=
  if_neg h

theorem prodWrite_beyond (h : ringSize d r < (v % 65536 + 65536 - ringCons d r) % 65536) :
    prodWrite r v d = raise (wrf d .ringCtl [r] 30 30 1) (srcHif r) 2 [(1, r)] :=
  if_pos h

theorem consWrite_within (h : ¬ ringHeld d r < (ringProd d r + 65536 - v % 65536) % 65536) :
    consWrite r v d = ringDrain (setCons d r v) r :=
  if_neg h

theorem consWrite_beyond (h : ringHeld d r < (ringProd d r + 65536 - v % 65536) % 65536) :
    consWrite r v d = raise (wrf d .ringCtl [r] 30 30 1) (srcHif r) 2 [(1, r)] :=
  if_pos h

end Index

/-! ### What a ring's writes leave of its control register -/

theorem rd_ringCtl_setProd (d : Dev) (r n v : Nat) : rd (setProd d n v) .ringCtl [r] = rd d .ringCtl [r] := by
  unfold setProd
  split
  · exact rd_wr_other _ _ (by simp only [regAddr, regRow, dimOff]; omega)
  · exact rd_wr_other _ _ (by simp only [regAddr, regRow, dimOff]; omega)

theorem rd_ringCtl_setCons (d : Dev) (r n v : Nat) : rd (setCons d n v) .ringCtl [r] = rd d .ringCtl [r] := by
  unfold setCons
  split
  · exact rd_wr_other _ _ (by simp only [regAddr, regRow, dimOff]; omega)
  · exact rd_wr_other _ _ (by simp only [regAddr, regRow, dimOff]; omega)

theorem rd_dmaWrite (d : Dev) (a : Nat) (b : List Byte) (r : Reg) (ix : List Nat) : rd (dmaWrite d a b) r ix = rd d r ix := by
  unfold dmaWrite
  split <;> rfl

theorem rd_writeBack (d : Dev) (n i : Nat) (r : Reg) (ix : List Nat) : rd (writeBack d n i) r ix = rd d r ix := rd_dmaWrite ..

theorem rd_ringCtl_raiseVec (d : Dev) (r : Fin 18) (v : Nat) (hv : v < 32) :
    rd (raiseVec d v) .ringCtl [r.val] = rd d .ringCtl [r.val] := by
  unfold raiseVec
  split
  · refine rd_wr_other _ _ ?_
    have hr := r.isLt
    rw [Nat.div_eq_of_lt hv]
    simp only [regAddr, regRow, dimOff]
    omega
  · rfl

/-- A ring's entry is written and its index moves on; `full` says that the entries since the last interrupt give one. -/
def ringStepped (d : Dev) (r : Nat) (e : List Byte) (full : Bool) : Dev :=
  let x := ringSt d r
  let d1 := dmaWrite d (ringBase d r + ringProd d r % ringSize d r * entrySize r)
    (if 8 ≤ r ∧ r < 16 then withPhase x.total (ringSize d r) e else e)
  writeBack (setRing (setProd d1 r (ringProd d r + 1)) r { x with
    total := x.total + 1, since := if full then 0 else x.since + 1, first := if x.since = 0 then d1.now else x.first })
    r (ringProd d r + 1)

/-- The entries since the last interrupt give one. -/
def ringFull (d : Dev) (r : Nat) : Bool :=
  decide (0 < rdf d .ringMod [r] 31 16) && decide (rdf d .ringMod [r] 31 16 ≤ (ringSt d r).since + 1)

theorem rd_ringStepped (d : Dev) (r : Nat) (e : List Byte) (full : Bool) :
    rd (ringStepped d r e full) .ringCtl [r] = rd d .ringCtl [r] := by
  unfold ringStepped
  dsimp only
  rw [rd_writeBack]
  exact (rd_ringCtl_setProd _ r r _).trans (rd_dmaWrite ..)

theorem ringSt_dmaWrite (d : Dev) (a : Nat) (b : List Byte) (r : Nat) : ringSt (dmaWrite d a b) r = ringSt d r := by
  unfold dmaWrite
  split <;> rfl

theorem since_ringStepped (d : Dev) (r : Nat) (e : List Byte) (full : Bool) :
    (ringSt (ringStepped d r e full) r).since = if full then 0 else (ringSt d r).since + 1 := by
  unfold ringStepped writeBack
  dsimp only
  rw [ringSt_dmaWrite, ringSt_setRing, if_pos rfl]

theorem rdf_dmaWrite (d : Dev) (a : Nat) (b : List Byte) (r : Reg) (ix : List Nat) (m l : Nat) :
    rdf (dmaWrite d a b) r ix m l = rdf d r ix m l := by
  simp only [rdf, rd_dmaWrite]

/-- Writing an entry steps the ring on, and gives the interrupt of its vector once the entries are enough. -/
theorem ringWrite_eq (d : Dev) (r : Nat) (e : List Byte) :
    ringWrite d r e =
      if ringFull d r then raiseVec (ringStepped d r e true) (rdf d .ringCtl [r] 20 16) else ringStepped d r e false := by
  have h : ringWrite d r e =
      if ringFull d r then raiseVec (ringStepped d r e (ringFull d r)) (rdf (ringStepped d r e (ringFull d r)) .ringCtl [r] 20 16)
      else ringStepped d r e (ringFull d r) := by
    simp only [ringWrite, rdf_dmaWrite, ringFull, ringStepped] <;> rfl
  rw [h]
  split
  · next hf => rw [hf, rdf, rd_ringStepped, rdf]
  · next hf => rw [Bool.eq_false_iff.mpr hf]

theorem rd_ringWrite (d : Dev) (r : Fin 18) (e : List Byte) : rd (ringWrite d r e) .ringCtl [r.val] = rd d .ringCtl [r.val] := by
  rw [ringWrite_eq]
  split
  · rw [rd_ringCtl_raiseVec _ _ _ (bits_lt ..), rd_ringStepped]
  · exact rd_ringStepped ..

theorem rd_ringFlush (n : Nat) (d : Dev) (r : Fin 18) : rd (ringFlush n d r) .ringCtl [r.val] = rd d .ringCtl [r.val] := by
  induction n generalizing d with
  | zero => rfl
  | succ n ih =>
    unfold ringFlush
    split
    · rfl
    · split
      · exact (ih _).trans (rd_ringWrite _ r _)
      · rfl

theorem rd_ringDrain (d : Dev) (r : Fin 18) : rd (ringDrain d r) .ringCtl [r.val] = rd d .ringCtl [r.val] := rd_ringFlush ..

/-! ### A ring enabled and disabled -/

section Control
variable {d : Dev} {r : Nat} {v : Nat}

theorem ringCtlWrite_enables (hv : bit v 31 = true) (h : rdb d .ringCtl [r] 31 = false) :
    ringCtlWrite r v d =
      let d2 := setCons (setProd (wr d .ringCtl [r] (clrBit (putBits (v % 2 ^ 32) 30 30 (rdf d .ringCtl [r] 30 30)) 30)) r 0) r 0
      ringDrain (setRing d2 r { ringSt d2 r with total := 0, since := 0 }) r := by
  simp only [ringCtlWrite, hv, h, Bool.not_true, Bool.false_eq_true, if_false]

theorem ringCtlWrite_disables (hv : bit v 31 = false) :
    ringCtlWrite r v d = wr d .ringCtl [r] (putBits (v % 2 ^ 32) 30 30 (rdf d .ringCtl [r] 30 30)) := by
  simp only [ringCtlWrite, hv, Bool.not_false, if_true]

theorem bit_mod_word (v : Nat) {n : Nat} (hn : n < 32) : bit (v % 4294967296) n = bit v n := by
  rw [bit_eq_testBit, bit_eq_testBit, show 4294967296 = 2 ^ 32 from rfl, Nat.testBit_mod_two_pow, decide_eq_true hn,
    Bool.true_and]

/-- Bit 31 of a word stored with bit 30 as it was. -/
theorem bit_putBits_low (v x : Nat) : bit (putBits (v % 2 ^ 32) 30 30 x) 31 = bit v 31 := by
  rw [bit_eq_testBit, bit_eq_testBit, testBit_putBits_outside _ _ (.inr (by decide)), Nat.testBit_mod_two_pow]
  rfl

end Control

/-! ### The next descriptor -/

section Fetch
variable {d : Dev} {i : Nat}

theorem descriptorFetch_idle (b : DmaRead) (h : ringTurn d ≠ some i ∨ tlrHolds d = true ∨ pcieUp d = false) :
    descriptorFetch i b d = d :=
  if_pos h

/-- The device with the turn past a ring. -/
def turned (d : Dev) (i : Nat) : Dev := { d with host := { d.host with turn := (i + 1) % 8 } }

section Turn
variable (ht : ringTurn d = some i) (hh : tlrHolds d = false) (hp : pcieUp d = true) (hm : Unmarked d 0x20 0 0)
include ht hh hp hm

theorem descriptorFetch_waits {b : List Byte} (h : bit (leAt (slice b 0 64) 2 1) 0 = true ∧ 0 < (ringSt d i).open_) :
    descriptorFetch i (.ok b) d = turned d i := by
  have hg : ¬ (ringTurn d ≠ some i ∨ tlrHolds d = true ∨ pcieUp d = false) := by simp [ht, hh, hp]
  have hf : bit (leAt (slice b 0 64) 2 1) 0 = true ∧ 0 < (ringSt (turned d i) i).open_ := h
  unfold turned at hf ⊢
  simp only [descriptorFetch, if_neg hg, dmaGet_ok hm, if_pos hf]

theorem descriptorFetch_takes {b : List Byte} (h : ¬ (bit (leAt (slice b 0 64) 2 1) 0 = true ∧ 0 < (ringSt d i).open_)) :
    descriptorFetch i (.ok b) d =
      acceptDesc (reserveCpl (writeBack (setCons (turned d i) i (ringCons (turned d i) i + 1)) i (ringCons (turned d i) i + 1))
        (.ring i)) (.ring i) (slice b 0 64) [] := by
  have hg : ¬ (ringTurn d ≠ some i ∨ tlrHolds d = true ∨ pcieUp d = false) := by simp [ht, hh, hp]
  have hf : ¬ (bit (leAt (slice b 0 64) 2 1) 0 = true ∧ 0 < (ringSt (turned d i) i).open_) := h
  unfold turned at hf ⊢
  simp only [descriptorFetch, if_neg hg, dmaGet_ok hm, if_neg hf]

end Turn

theorem acceptDesc_joins {p : Path} {bs data : List Byte} (h : generalCheck d p bs data = none) :
    acceptDesc d p bs data = { d with host := { d.host with
      fetched := d.host.fetched ++
        [⟨pathNo p, BitVec.ofNat 32 (leAt bs 4 4), leAt bs 0 2, slice bs 8 56, data, d.host.epoch⟩] } } := by
  simp only [acceptDesc, h]

theorem acceptDesc_refused {p : Path} {bs data : List Byte} {st : Nat} (h : generalCheck d p bs data = some st) :
    acceptDesc d p bs data =
      refuseGen (cnt1 d (srcHif 0) 11) ⟨p, BitVec.ofNat 32 (leAt bs 4 4), leAt bs 0 2, d.host.epoch⟩ st := by
  simp only [acceptDesc, h]

end Fetch

/-! ### Moderated interrupts -/

section Interrupt
variable {d : Dev} {r : Nat}

/-- A moderated interrupt of a ring is due. -/
def intDue (d : Dev) (r : Nat) : Prop :=
  8 ≤ r ∧ (ringSt d r).since ≠ 0 ∧ rdf d .ringMod [r] 31 16 ≠ 0 ∧
    (ringSt d r).first + 1200 * rdf d .ringMod [r] 15 0 ≤ d.now

theorem ringInterrupt_due (h : intDue d r) :
    ringInterrupt r d = raiseVec (setRing d r { ringSt d r with since := 0 }) (rdf d .ringCtl [r] 20 16) := by
  obtain ⟨h8, hs, hm, ht⟩ := h
  unfold ringInterrupt
  exact if_neg (by simp only [hs, hm, false_or]; omega)

theorem ringInterrupt_idle (h : ¬ intDue d r) : ringInterrupt r d = d := by
  unfold ringInterrupt
  unfold intDue at h
  exact if_pos (by omega)

theorem ringFull_iff : ringFull d r = true ↔
    0 < rdf d .ringMod [r] 31 16 ∧ rdf d .ringMod [r] 31 16 ≤ (ringSt d r).since + 1 := by
  simp only [ringFull, Bool.and_eq_true, decide_eq_true_eq]

end Interrupt

/-- Settles O49: the rings' indices are stored or refused, a ring is enabled with its indices cleared, its next descriptor
joins or is refused, and a moderated interrupt is given once. -/
theorem hostRings : Obligations.HostRings := by
  unfold Obligations.HostRings
  intro s hs
  refine ⟨fun r val hr => ⟨fun h => ?doorbell, fun h => ?doorbellFar⟩, fun r val hr => ⟨fun h => ?cons, fun h => ?consFar⟩,
    fun r val hr hoff => ?enable, fun r val hr => ?disable, fun i b ht hh hp hm => ⟨fun h => ?waits, fun h => ?takes⟩,
    fun i b h => ?idle, fun d p bs data => ⟨acceptDesc_joins, fun st => acceptDesc_refused⟩,
    fun r => ⟨fun h => ?due, fun h => ?notDue, fun d e h0 => ⟨fun h => ?full, fun h => ?more⟩⟩⟩
  case doorbell => exact does_of_actBar rfl hr ((busWrite_ringProdCmd r val.toNat s.dev.fresh).trans (prodWrite_within h))
  case doorbellFar => exact does_of_actBar rfl hr ((busWrite_ringProdCmd r val.toNat s.dev.fresh).trans (prodWrite_beyond h))
  case cons => exact does_of_actBar rfl hr ((busWrite_ringConsDev r val.toNat s.dev.fresh).trans (consWrite_within h))
  case consFar => exact does_of_actBar rfl hr ((busWrite_ringConsDev r val.toNat s.dev.fresh).trans (consWrite_beyond h))
  case enable =>
    have hv : bit (merge false .ringCtl (rd s.dev.fresh .ringCtl [r.val]) (setBit val.toNat 31)) 31 = true := by
      rw [bit_merge_ringCtl, bit_setBit_same]
    have hw := (busWrite_ringCtl r (setBit val.toNat 31) s.dev.fresh).trans (ringCtlWrite_enables hv hoff)
    refine gives_of_actBar rfl hr ⟨?_, hw⟩
    rw [hw, rdb, rd_ringDrain]
    refine (congrArg (bit · 31) ((rd_ringCtl_setCons _ r r 0).trans ((rd_ringCtl_setProd _ r r 0).trans (rd_wr_same ..)))).trans ?_
    exact (bit_mod_word _ (by decide)).trans ((bit_clrBit_other _ (by decide)).trans ((bit_putBits_low _ _).trans hv))
  case disable =>
    have hv : bit (merge false .ringCtl (rd s.dev.fresh .ringCtl [r.val]) (clrBit val.toNat 31)) 31 = false := by
      rw [bit_merge_ringCtl, bit_clrBit_same]
    have hw := (busWrite_ringCtl r (clrBit val.toNat 31) s.dev.fresh).trans (ringCtlWrite_disables hv)
    refine gives_of_actBar rfl hr ⟨?_, hw⟩
    rw [hw, rdb, rd_wr_same]
    exact (bit_mod_word _ (by decide)).trans ((bit_putBits_low _ _).trans hv)
  case waits => exact does_of_act rfl hs (descriptorFetch_waits (d := s.dev.fresh) ht hh hp (unmarked_fresh hm) h)
  case takes => exact does_of_act rfl hs (descriptorFetch_takes (d := s.dev.fresh) ht hh hp (unmarked_fresh hm) h)
  case idle => exact does_of_act rfl hs (descriptorFetch_idle (d := s.dev.fresh) b h)
  case due => exact does_of_act rfl hs (ringInterrupt_due (d := s.dev.fresh) h)
  case notDue => exact does_of_act rfl hs (ringInterrupt_idle (d := s.dev.fresh) h)
  case full =>
    refine ⟨ringStepped d r e true, ?_, since_ringStepped ..⟩
    rw [ringWrite_eq, if_pos (ringFull_iff.mpr ⟨h0, h⟩)]
  case more =>
    rw [ringWrite_eq, if_neg (fun hf => by have := (ringFull_iff.mp hf).2; omega), since_ringStepped]
    rfl

end Sys2Proof.Machine
end

section
/-! # NOP, REG_READ, the firmware commands and ESTOP (spec/14 R357, R358, R368, R371 to R373, R465) -/
namespace Sys2Proof.Machine

section Refusals
variable {c : Instr} {h : CmdHdr} {opc : Nat} {acc : Accept} {ps : List (Option Nat)} {ok : Bool} {s : State}
  {f : Dev → Reply → Dev}

theorem runCmd_refused {d : Dev} {st : Nat} (h1 : stands d h opc ps = true) (h2 : cmdWaits d h.path = false)
    (h3 : pathRefusal d h.path acc = some st) :
    runCmd d h opc acc ps ok f = refuseGen (takeCmd d h) (replyOf d h opc) st := by
  simp [runCmd, h1, h2, h3]

/-- A command whose path does not take it is refused. -/
theorem cmdDoes_refused {st : Nat} (hc : exec c s = act (fun d => runCmd d h opc acc ps ok f) s) (hs : Running s)
    (h1 : stands s.dev h opc ps = true) (h2 : cmdWaits s.dev h.path = false)
    (h3 : pathRefusal s.dev h.path acc = some st) : CmdDoes c h opc s (fun d rp => refuseGen d rp st) :=
  does_of_act hc hs (runCmd_refused (d := s.dev.fresh) h1 h2 h3)

/-- A command that does not stand first on its path, or whose path waits, changes nothing. -/
theorem idles_of_runCmd (hc : exec c s = act (fun d => runCmd d h opc acc ps ok f) s) (hs : Running s)
    (hw : stands s.dev h opc ps = false ∨ cmdWaits s.dev h.path = true) : Idles c s :=
  does_of_act hc hs (runCmd_waits (d := s.dev.fresh) hw f)

end Refusals

theorem pathRefusal_ring_m {d : Dev} {p : Path} {i : Nat} (hp : p = .ring i) : pathRefusal d p .m = some 0x0A := by
  subst hp
  rfl

theorem pathRefusal_stopped {d : Dev} {p : Path} {i : Nat} (hp : p = .ring i) (h : stopped d = true) :
    pathRefusal d p .both = some 0x0C := by
  subst hp
  simp [pathRefusal, h]

/-- The piece that a row brings is the one of the descriptor it takes up. -/
theorem fetched_agrees {d : Dev} {p : Path} {piece : List Byte} (ha : ∀ a, fetchedNext d p = some a → a.data = piece) :
    (fetchedNext d p).all (fun a => a.data == piece) = true := by
  cases hf : fetchedNext d p with
  | none => rfl
  | some a => exact beq_iff_eq.mpr (ha a hf)

/-- Settles O52: each command does its function, waits, or is refused by the general checks. -/
theorem hostCommands : Obligations.HostCommands := by
  unfold Obligations.HostCommands
  intro s h hs
  refine ⟨fun hp => cmdDoes_of_runCmd rfl hs hp rfl, fun c hc hw => ?idle,
    fun i hi hw => ⟨fun c hc h1 => ?wrongPath, fun h1 hst => ?stopped⟩, fun _ => ⟨fun off count hp => ⟨?reads, ?badRead⟩,
      fun off total piece ha => ⟨fun hp => ?stage, fun hp => ?stageEnd⟩, fun x hx ht hp => ?activate, fun hx hp => ?noImage,
      fun x hx hp => ?commit, fun hp => cmdDoes_of_runCmd rfl hs hp rfl, fun hp => cmdDoes_of_runCmd rfl hs hp rfl⟩⟩
  case idle =>
    simp only [List.mem_cons, List.not_mem_nil, or_false] at hc
    rcases hc with rfl | rfl | rfl | rfl | rfl
    · exact idles_of_runCmd rfl hs hw
    · exact idles_of_runCmd rfl hs hw
    · exact idles_of_runCmd rfl hs hw
    · exact idles_of_runCmd rfl hs hw
    · exact idles_of_runCmd rfl hs hw
  case wrongPath =>
    have hr : pathRefusal s.dev h.path .m = some 0x0A := pathRefusal_ring_m hi
    simp only [List.mem_cons, List.not_mem_nil, or_false] at hc
    rcases hc with rfl | rfl | rfl | rfl
    · exact cmdDoes_refused rfl hs h1 hw hr
    · exact cmdDoes_refused rfl hs h1 hw hr
    · exact cmdDoes_refused rfl hs h1 hw hr
    · exact cmdDoes_refused rfl hs h1 hw hr
  case stopped =>
    refine cmdDoes_refused rfl hs h1 hw (pathRefusal_stopped hi ?_)
    simpa [Machine.stopped] using hst
  case reads =>
    intro h4 h1 h16 hb
    refine cmdDoes_of_runCmd rfl hs hp (if_neg ?_)
    rintro (h | rfl | h | h)
    · exact h h4
    · exact absurd h1 (by decide)
    · omega
    · omega
  case badRead => exact fun hb => cmdDoes_of_runCmd rfl hs hp (if_pos hb)
  case stage => exact cmdDoes_of_checked rfl (fetched_agrees ha) hs hp rfl
  case stageEnd => exact cmdDoes_of_checked rfl (fetched_agrees ha) hs hp (if_pos rfl)
  case activate =>
    refine cmdDoes_of_runCmd rfl hs hp ?_
    have h1 : (takeCmd s.dev.fresh h).host.checked = some x := hx
    have h2 : (takeCmd s.dev.fresh h).host.tlr = .running := ht
    simp only [h1, h2, tlrRestart]
  case noImage =>
    refine cmdDoes_of_runCmd rfl hs hp ?_
    have h1 : (takeCmd s.dev.fresh h).host.checked = none := hx
    simp only [h1]
  case commit =>
    refine cmdDoes_of_runCmd rfl hs hp ?_
    have h1 : (takeCmd s.dev.fresh h).host.image = some x := hx
    simp only [h1]

end Sys2Proof.Machine
end

section
/-! # Management frames, the boot image and the watchdog (spec/14 R365, R366, R370 to R372) -/
namespace Sys2Proof.Machine

/-! ### Management frames -/

section Mgmt
variable {d : Dev} {f : MgmtFrame}

theorem Reports.last {A : List Nat} {d e : Dev} (h : Reports A d e) : e.host.last = d.host.last := by
  obtain ⟨_, _, _, _, _, _, rfl, _⟩ := h; rfl

theorem Reports.epoch {A : List Nat} {d e : Dev} (h : Reports A d e) : e.host.epoch = d.host.epoch := by
  obtain ⟨_, _, _, _, _, _, rfl, _⟩ := h; rfl

theorem mgmtFrameReceive_idle (h : f.etype.toNat ≠ rdf d .mgmtCtl [] 15 0 ∨ f.len.toNat ≠ f.body.length ∨ f.ver ≠ 1 ∨ f.typ ≠ 0 ∨
      d.pwr.step < 4) : mgmtFrameReceive f d = d :=
  if_pos (by tauto)

/-- The tag of a management frame is that of its bytes. -/
def tagGood (f : MgmtFrame) : Prop := beVal ((hmacSha256 Config.mgmtKey (mgmtBytes f)).take 16) = f.tag.toNat

theorem tagOk_unmarked (hm : Unmarked d 0x1F 0 0) {b : Bool} (h : b = true ↔ tagGood f) : tagOk d f = (b, d) := by
  have hb : (beVal ((hmacSha256 Config.mgmtKey (mgmtBytes f)).take 16) == f.tag.toNat) = b :=
    Bool.eq_iff_iff.mpr (beq_iff_eq.trans h.symm)
  simp only [tagOk, takeMark_none hm, hb]

variable (he : f.etype.toNat = rdf d .mgmtCtl [] 15 0) (hv : f.ver = 1) (ht : f.typ = 0) (hl : f.len.toNat = f.body.length)
  (h4 : 4 ≤ d.pwr.step) (hm : Unmarked d 0x1F 0 0)
include he hv ht hl h4 hm

theorem mgmtFrameReceive_tagged {b : Bool} (h : b = true ↔ tagGood f) :
    mgmtFrameReceive f d =
      if !b then raise d (srcHif 0) 6
      else if f.seq.toNat ≤ d.host.last then
        complete (raise d (srcHif 0) 6)
          ⟨.mgmt, BitVec.ofNat 32 (leAt (slice f.body 0 64) 4 4), leAt (slice f.body 0 64) 0 2, d.host.epoch⟩ 9
          (leBytes 8 d.host.last)
      else acceptDesc { d with host := { d.host with last := f.seq.toNat } } .mgmt (slice f.body 0 64) (f.body.drop 64) := by
  have hg : ¬ (f.etype.toNat ≠ rdf d .mgmtCtl [] 15 0 ∨ f.ver ≠ 1 ∨ f.typ ≠ 0 ∨ f.len.toNat ≠ f.body.length ∨ d.pwr.step < 4) := by
    simp only [he, hv, ht, hl, ne_eq, not_true_eq_false, false_or]
    omega
  simp only [mgmtFrameReceive, if_neg hg, tagOk_unmarked hm h]

theorem mgmtFrameReceive_bad (h : ¬ tagGood f) : mgmtFrameReceive f d = raise d (srcHif 0) 6 :=
  mgmtFrameReceive_tagged he hv ht hl h4 hm (b := false) (iff_of_false Bool.false_ne_true h)

theorem mgmtFrameReceive_stale (h : tagGood f) (hs : f.seq.toNat ≤ d.host.last) :
    mgmtFrameReceive f d =
      let d1 := raise d (srcHif 0) 6
      complete d1 ⟨.mgmt, BitVec.ofNat 32 (leAt (slice f.body 0 64) 4 4), leAt (slice f.body 0 64) 0 2, d1.host.epoch⟩ 9
        (leBytes 8 d1.host.last) := by
  have hr := reports_raise d (srcHif 0) 6 [] []
  rw [mgmtFrameReceive_tagged he hv ht hl h4 hm (b := true) (iff_of_true rfl h), if_neg (by decide), if_pos hs]
  dsimp only
  rw [hr.last, hr.epoch]

theorem mgmtFrameReceive_good (h : tagGood f) (hs : d.host.last < f.seq.toNat) :
    mgmtFrameReceive f d =
      acceptDesc { d with host := { d.host with last := f.seq.toNat } } .mgmt (slice f.body 0 64) (f.body.drop 64) := by
  rw [mgmtFrameReceive_tagged he hv ht hl h4 hm (b := true) (iff_of_true rfl h), if_neg (by decide), if_neg (Nat.not_le.mpr hs)]

end Mgmt

/-! ### The boot image -/

section Boot
variable {d : Dev}

theorem bootReqSend_waits (h : bootWaits d = true) : bootReqSend d = (mgmtPush d 4 []).2 := if_pos h

theorem bootReqSend_idle (h : bootWaits d = false) : bootReqSend d = d := if_neg (by simp [h])

theorem bootImgReceive_idle (h : bootWaits d = false) (off total : Nat) (final : Bool) (piece : List Byte) :
    bootImgReceive off total final piece d = d :=
  if_neg (by simp [h])

theorem bootImgReceive_piece (h : bootWaits d = true) (off total : Nat) (piece : List Byte) :
    bootImgReceive off total false piece d =
      { d with host := { d.host with bootBuf := slice d.host.bootBuf 0 off ++ piece } } := by
  simp only [bootImgReceive, h, if_true, Bool.false_eq_true, if_false]

theorem bootImgReceive_last (h : bootWaits d = true) (off total : Nat) (piece : List Byte) :
    bootImgReceive off total true piece d =
      bootImage { d with host := { d.host with bootBuf := slice d.host.bootBuf 0 off ++ piece } }
        (slice (slice d.host.bootBuf 0 off ++ piece) 0 total) := by
  simp only [bootImgReceive, h, if_true]

theorem meets_tlrBootCtl : MeetsReg (regAddr .tlrBootCtl []) .tlrBootCtl [] ∧ sleepDom (regAddr .tlrBootCtl []) = none := by
  decide +kernel

theorem bits_merge_tlrBootCtl (old : Nat) : bits (merge false .tlrBootCtl old 0x100) 31 31 = bits old 31 31 := by
  have h : bits (merge false .tlrBootCtl old 0x100) 31 31 = bits old 31 31 ||| bits 0x100 31 31 :=
    bits_merge .tlrBootCtl false old 0x100 (f := fl 31 31 .w1s 0) (by simp [regRow])
  rw [h]
  exact Nat.or_zero _

theorem tlrBootGo_ok (h : bootWaits d = true) (hm : Unmarked d 0x20 0 0) (b : List Byte) :
    tlrBootGo (.ok b) d = bootImage d (slice b 0 (rdf d .tlrBootLen [] 23 0)) := by
  simp only [tlrBootGo, h, if_true, dmaGet_ok hm]

theorem bootWaits_wrf_tlrBootCtl (d : Dev) (m l v : Nat) : bootWaits (wrf d .tlrBootCtl [] m l v) = bootWaits d := by
  have hr : rdf (wrf d .tlrBootCtl [] m l v) .idStatus [] 3 0 = rdf d .idStatus [] 3 0 := rdf_wrf_other _ _ _ _ _ _ (by decide)
  unfold bootWaits
  rw [hr]
  rfl

theorem serves_wrf_regwr (d : Dev) (r : Reg) (ix : List Nat) (m l v : Nat) : serves (wrf (regwr d) r ix m l v) = serves d := rfl

theorem unmarked_wrf_regwr {id die unit : Nat} (h : Unmarked d id die unit) (r : Reg) (ix : List Nat) (m l v : Nat) :
    Unmarked (wrf (regwr d) r ix m l v) id die unit :=
  unmarked_of_marks h rfl

theorem busWriteX_tlrBootGo (h : bootWaits d = true) (hs : serves d = true) (hm : Unmarked d 0x20 0 0) (b : List Byte) :
    busWriteX (regAddr .tlrBootCtl []) 0x100 (some (.ok b)) false d =
      let d1 := wrf (cnt1 d (srcRel 255 0) 9) .tlrBootCtl [] 31 31 (rdf d .tlrBootCtl [] 31 31)
      bootImage d1 (slice b 0 (rdf d1 .tlrBootLen [] 23 0)) := by
  rw [busWriteX_lockFree_awake meets_tlrBootCtl.1 meets_tlrBootCtl.2 rfl]
  have hw : bootWaits (wrf (regwr d) .tlrBootCtl [] 31 31 (rdf d .tlrBootCtl [] 31 31)) = true :=
    (bootWaits_wrf_tlrBootCtl ..).trans h
  have hb : bit 0x100 8 = true := rfl
  simp only [writeReg, bits_merge_tlrBootCtl, hb, Bool.true_and]
  rw [show bits (rd d .tlrBootCtl []) 31 31 = rdf d .tlrBootCtl [] 31 31 from rfl]
  rw [if_pos ((serves_wrf_regwr ..).trans hs), tlrBootGo_ok hw (unmarked_wrf_regwr hm ..)]
  rfl

end Boot

/-! ### The watchdog and the restart -/

section Watchdog
variable {d : Dev} {c : Nat}

theorem tlrWatchdogExpiry_idle (h : d.host.tlr ≠ .running) : tlrWatchdogExpiry c d = d :=
  if_pos (bne_iff_ne.mpr h)

/-- Tailor has restarted within the last minute. -/
def restartedLately (d : Dev) : Bool := d.host.tlrAt.any (fun t => decide (d.now - t < 60 * 1200000000))

theorem tlrWatchdogExpiry_running (h : d.host.tlr = .running) (hm : Unmarked d 0x1E 0 c) :
    tlrWatchdogExpiry c d =
      let d1 := raise d { srcHif c with die := c } 10 [(1, c)]
      if restartedLately d then wr { d1 with host := { d1.host with tlr := .stopped } } .tlrState [] 0
      else wr { d1 with host := { d1.host with tlrAt := some d1.now, tlr := .restarting none } } .tlrState [] 0 := by
  have hg : (d.host.tlr != .running) = false := by rw [h]; rfl
  unfold restartedLately
  cases ha : d.host.tlrAt with
  | none => simp only [tlrWatchdogExpiry, hg, Bool.false_eq_true, if_false, takeMark_none hm, ha, Option.any, tlrRestart]
  | some t => simp only [tlrWatchdogExpiry, hg, Bool.false_eq_true, if_false, takeMark_none hm, ha, Option.any, tlrRestart]

theorem tlrRestartDone_restarted {rp : Option Reply} {x : FwImg} (h : d.host.tlr = .restarting rp) (hx : d.host.image = some x) :
    tlrRestartDone d =
      completeOpt (wr (wr { d with host := { d.host with tlr := .running } } .tlrState [] 0xF) .idFw [] x.version.toNat) rp 0
        (packFields [(32, x.version.toNat)]) := by
  simp only [tlrRestartDone, h, hx]

theorem tlrRestartDone_running (h : d.host.tlr = .running) : tlrRestartDone d = d := by
  simp only [tlrRestartDone, h]

end Watchdog

/-- Settles O53: a management frame goes by its tag and its sequence number, the boot ROM takes an image that passes its
checks, and an expiry of the watchdog restarts Tailor, or stops it on the second within a minute. -/
theorem tailorAndBoot : Obligations.TailorAndBoot := by
  unfold Obligations.TailorAndBoot
  intro s hs
  refine ⟨fun f he hv ht hl h4 hm => ⟨fun hg => ?bad, fun hg hq => ?stale, fun hg hq => ?good⟩, fun f h => ?noFrame,
    fun h => ⟨?request, fun off total piece => ⟨?piece, ?last⟩, fun b hr hm => ?go⟩, fun h => ⟨?noRequest, fun off total fin piece => ?noPiece⟩,
    fun c h hm => ⟨fun ha => ?again, fun ha => ?restarts⟩, fun c h => ?noWatch, fun rp x h hx => ?restarted, fun h => ?running⟩
  case bad => exact does_of_act rfl hs (mgmtFrameReceive_bad (d := s.dev.fresh) he hv ht hl h4 (unmarked_fresh hm) hg)
  case stale => exact does_of_act rfl hs (mgmtFrameReceive_stale (d := s.dev.fresh) he hv ht hl h4 (unmarked_fresh hm) hg hq)
  case good => exact does_of_act rfl hs (mgmtFrameReceive_good (d := s.dev.fresh) he hv ht hl h4 (unmarked_fresh hm) hg hq)
  case noFrame => exact does_of_act rfl hs (mgmtFrameReceive_idle (d := s.dev.fresh) h)
  case request => exact does_of_act rfl hs (bootReqSend_waits (d := s.dev.fresh) h)
  case piece => exact does_of_act rfl hs (bootImgReceive_piece (d := s.dev.fresh) h off.toNat total.toNat piece)
  case last =>
    -- The check of an image does not look at the buffer.
    exact does_of_act rfl hs ((bootImgReceive_last (d := s.dev.fresh) h off.toNat total.toNat piece).trans rfl)
  case go => exact gives_of_actBar rfl hr (busWriteX_tlrBootGo (d := s.dev.fresh) h hr.1 (unmarked_fresh hm) b)
  case noRequest => exact does_of_act rfl hs (bootReqSend_idle (d := s.dev.fresh) h)
  case noPiece => exact does_of_act rfl hs (bootImgReceive_idle (d := s.dev.fresh) h off.toNat total.toNat fin piece)
  case again =>
    exact does_of_act rfl hs ((tlrWatchdogExpiry_running (d := s.dev.fresh) h (unmarked_fresh hm)).trans (if_pos ha))
  case restarts =>
    exact does_of_act rfl hs ((tlrWatchdogExpiry_running (d := s.dev.fresh) h (unmarked_fresh hm)).trans
      (if_neg (fun h => Bool.false_ne_true (ha.symm.trans h))))
  case noWatch => exact does_of_act rfl hs (tlrWatchdogExpiry_idle (d := s.dev.fresh) h)
  case restarted => exact does_of_act rfl hs (tlrRestartDone_restarted (d := s.dev.fresh) h hx)
  case running => exact does_of_act rfl hs (tlrRestartDone_running (d := s.dev.fresh) h)

end Sys2Proof.Machine
end

section
/-! # Resets and the start-up (spec/15 R382 to R386, R398, R399, spec/18 R449) -/
namespace Sys2Proof.Machine

theorem tget?_regs_wr (d : Dev) (r : Reg) (ix : List Nat) (v : Nat) {a : Nat} (h : a ≠ regAddr r ix) :
    tget? (wr d r ix v).regs a = tget? d.regs a := by
  show tget? (tput _ _ _ _) a = _
  rw [tget?_tput, if_neg (Ne.symm h)]

/-! ### Cold resets -/

section Cold
variable (d : Dev)

theorem tget?_coldDev {a : Nat} (h : a ≠ regAddr .thmTrip []) : tget? (coldDev d).regs a = tget? State.reset.dev.regs a :=
  tget?_regs_wr Dev.reset .thmTrip [] (rd d .thmTrip) h

theorem rd_thmTrip_coldDev : rd (coldDev d) .thmTrip = rd d .thmTrip :=
  (rd_wr_same Dev.reset .thmTrip [] (rd d .thmTrip)).trans (Nat.mod_eq_of_lt (rd_lt d .thmTrip []))

end Cold

/-! ### The last steps of the start-up -/

section Startup
variable {d : Dev}

theorem startupComplete_done (h6 : d.pwr.step = 6) (ht : d.host.tlr = .running) (hf : d.host.fault = false) :
    startupComplete d =
      let d1 := wrf (wr { d with pwr := { d.pwr with step := 8 } } .tlrState [] 0xF) .idStatus [] 4 4 1
      let d2 := (List.range 4).foldl (fun d k => wrf d .meshBcastCtl [k] 1 0 0) d1
      event d2 0x1480 0 0 [(1, rd d2 .idSpare)] :=
  if_pos ⟨h6, ht, by simp [hf]⟩

theorem startupComplete_idle (h : d.pwr.step ≠ 6) : startupComplete d = d := if_neg (fun hd => h hd.1)

end Startup

/-! ### A WARM reset by the host -/

theorem meets_rstCtl : MeetsReg (regAddr .rstCtl []) .rstCtl [] ∧ sleepDom (regAddr .rstCtl []) = none := by decide +kernel

/-- The fields of a write of RST_CTL. -/
theorem bits_merge_rstCtl (old val : Nat) :
    bits (merge false .rstCtl old val) 31 31 = bits old 31 31 ||| bits val 31 31 ∧
      bits (merge false .rstCtl old val) 15 8 = bits val 15 8 ∧ bits (merge false .rstCtl old val) 0 0 = bits val 0 0 :=
  ⟨bits_merge .rstCtl false old val (f := fl 31 31 .w1s 0) (by simp [regRow]),
    bits_merge .rstCtl false old val (f := fl 15 8 .wo 0) (by simp [regRow]),
    bits_merge .rstCtl false old val (f := fl 0 0 .wo 0) (by simp [regRow])⟩

theorem bits_setBit_other (x : Nat) {n m l : Nat} (h : m < n ∨ n < l) : bits (setBit x n) m l = bits x m l := by
  rw [setBit_eq_putBits, bits_putBits_outside _ _ h]

section Warm
variable {d : Dev} {v : Nat}

theorem rstCtlWrite_reset (h0 : bit v 0 = true) (hk : bits v 15 8 = 0xA5) :
    rstCtlWrite v d = warm 2 (wr d .rstCtl [] (2 ^ 31 * bits v 31 31)) := by
  have hg : (bit v 0 && bits v 15 8 != 0xA5) = false := by rw [hk]; simp
  simp only [rstCtlWrite, hg, Bool.false_eq_true, if_false]
  exact if_pos h0

theorem rstCtlWrite_rejected (h0 : bit v 0 = true) (hk : bits v 15 8 ≠ 0xA5) : rstCtlWrite v d = raise d (srcSys 0 0) 5 := by
  have hg : (bit v 0 && bits v 15 8 != 0xA5) = true := by simp [h0, hk]
  simp only [rstCtlWrite, hg, if_true, sysReject]

theorem busWrite_rstCtl (val : Nat) (d : Dev) :
    busWrite (regAddr .rstCtl []) val d = rstCtlWrite (merge false .rstCtl (rd d .rstCtl []) val) d.written :=
  busWrite_lockFree_awake meets_rstCtl.1 meets_rstCtl.2 rfl val d

theorem bit_merge_rstCtl_go (old val : Nat) : bit (merge false .rstCtl old (setBit val 0)) 0 = true := by
  rw [bit_eq_bits, (bits_merge_rstCtl old (setBit val 0)).2.2, ← bit_eq_bits, bit_setBit_same]

theorem bits_merge_rstCtl_key (old val : Nat) : bits (merge false .rstCtl old (setBit val 0)) 15 8 = bits val 15 8 := by
  rw [(bits_merge_rstCtl old (setBit val 0)).2.1, bits_setBit_other _ (.inr (by decide))]

theorem bits_merge_rstCtl_lock (old val : Nat) :
    bits (merge false .rstCtl old (setBit val 0)) 31 31 = bits old 31 31 ||| bits val 31 31 := by
  rw [(bits_merge_rstCtl old (setBit val 0)).1, bits_setBit_other _ (.inr (by decide))]

end Warm

/-! ### PCIe resets -/

section Pcie
variable (d : Dev)

/-- The device whose host rings a PCIe reset has cleared. -/
def pcieCleared : Dev :=
  let d := { d with
    regs := d.regs.filter (fun e => !inHostRing e.1), cnt := d.cnt.filter (fun e => !inHostRing e.1)
    stage := d.stage.filter (fun e => !inHostRing e.1), snap := d.snap.filter (fun e => !inHostRing e.1)
    host := { d.host with rings := [], dmaHeld := [], turn := 0, irqs := [], epoch := d.host.epoch + 1 } }
  { d with pwr := { d.pwr with aspm := PwrState.reset.aspm } }

/-- What a PCIe reset leaves, whatever it does to RST_CAUSE and to the pins. -/
def PcieKeeps (d e : Dev) : Prop :=
  e.host.rings = [] ∧ e.host.fetched = d.host.fetched ∧ e.host.epoch = d.host.epoch + 1 ∧ e.coll = d.coll ∧
    e.opt = d.opt ∧ e.mem = d.mem ∧ e.time = d.time ∧ e.fwd = d.fwd ∧ e.sw = d.sw ∧
    (∀ a, inHostRing a = true → tget? e.regs a = none) ∧
    (∀ a, inHostRing a = false → a ≠ regAddr .rstCause [] → tget? e.regs a = tget? d.regs a)

theorem tget?_pcieCleared (a : Nat) :
    tget? (pcieCleared d).regs a = if inHostRing a then none else tget? d.regs a := by
  refine (tget?_filter_key (fun a => !inHostRing a) d.regs a).trans ?_
  cases inHostRing a <;> rfl

theorem pcieKeeps_cleared : PcieKeeps d (pcieCleared d) :=
  ⟨rfl, rfl, rfl, rfl, rfl, rfl, rfl, rfl, rfl, fun a h => by rw [tget?_pcieCleared, if_pos h],
    fun a h _ => by rw [tget?_pcieCleared, h]; rfl⟩

theorem inHostRing_rstCause : inHostRing (regAddr .rstCause []) = false := by decide

theorem pcieKeeps_perst (v : Nat) {e : Dev} (h : PcieKeeps d e) :
    PcieKeeps d (wr { e with pwr := { e.pwr with perstHigh := false } } .rstCause [] v) := by
  obtain ⟨h1, h2, h3, h4, h5, h6, h7, h8, h9, hin, hout⟩ := h
  refine ⟨h1, h2, h3, h4, h5, h6, h7, h8, h9, fun a ha => ?_, fun a ha hne => ?_⟩
  · refine (tget?_regs_wr _ _ _ _ ?_).trans (hin a ha)
    rintro rfl
    exact Bool.false_ne_true (inHostRing_rstCause.symm.trans ha)
  · exact (tget?_regs_wr _ _ _ _ hne).trans (hout a ha hne)

theorem pcieReset_keeps (k : PcieResetKind) : PcieKeeps d (pcieReset k d) := by
  cases k with
  | perst => exact pcieKeeps_perst d _ (pcieKeeps_cleared d)
  | hotReset => exact pcieKeeps_cleared d
  | flr => exact pcieKeeps_cleared d

end Pcie

/-! ### The I3C target's address -/

section I3c
variable {d : Dev} {i2c : Bool} {a : BitVec 7}

theorem i3cAnswers_static (h : d.host.i3cAddr = none) :
    i3cAnswers d i2c a = true ↔ a.toNat = 0x50 + d.host.i3cStrap.toNat := by
  simp only [i3cAnswers, h, i3cStatic, beq_iff_eq]

theorem i3cAnswers_assigned {x : BitVec 7} (h : d.host.i3cAddr = some x) : i3cAnswers d i2c a = true ↔ i2c = false ∧ a = x := by
  simp only [i3cAnswers, h, Bool.and_eq_true, Bool.not_eq_true', beq_iff_eq]

end I3c

theorem porRelease_starts {i : StartupIn} {d : Dev} (h : d.pwr.porHigh = false) :
    porRelease i d = startup { d with
      host := { d.host with i3cStrap := i.i3cAddr }
      pwr := { d.pwr with porHigh := true, perstHigh := i.perstHigh, found := some i } } i :=
  if_neg (by simp [h])

theorem porRelease_high {i : StartupIn} {d : Dev} (h : d.pwr.porHigh = true) : porRelease i d = d := if_pos h

/-- Settles O54: what each reset keeps, and the start-up's first and last steps. -/
theorem resets : Obligations.Resets := by
  unfold Obligations.Resets
  intro s
  refine ⟨?por, rfl, fun r => rfl, fun hs => ⟨fun h6 ht hf => ?complete, fun h => ?notYet, fun val hr hk => ?warm,
    fun val hr hk => ?rejected⟩, fun hp => ⟨fun i h => ?release, fun i h => ?high, ?i3cWarm, fun k => ?pcie, ?perst, fun a => ?assign,
      fun d i2c a => ⟨i3cAnswers_static, fun x => i3cAnswers_assigned⟩⟩⟩
  case por =>
    exact ⟨_, rfl, rfl, rfl, rfl, rfl, fun a ha => tget?_coldDev s.dev.fresh ha, rd_thmTrip_coldDev s.dev.fresh, rfl, rfl⟩
  case complete => exact does_of_act rfl hs (startupComplete_done (d := s.dev.fresh) h6 ht hf)
  case notYet => exact does_of_act rfl hs (startupComplete_idle (d := s.dev.fresh) h)
  case warm =>
    refine gives_of_actBar rfl hr ((busWrite_rstCtl (setBit val.toNat 0) s.dev.fresh).trans ?_)
    rw [rstCtlWrite_reset (bit_merge_rstCtl_go _ _) ((bits_merge_rstCtl_key _ _).trans hk), bits_merge_rstCtl_lock]
    rfl
  case rejected =>
    exact gives_of_actBar rfl hr ((busWrite_rstCtl (setBit val.toNat 0) s.dev.fresh).trans
      (rstCtlWrite_rejected (bit_merge_rstCtl_go _ _) (by rw [bits_merge_rstCtl_key]; exact hk)))
  case release => exact does_of_actPins rfl hp (porRelease_starts (d := s.dev.fresh) h)
  case high => exact does_of_actPins rfl hp (porRelease_high (d := s.dev.fresh) h)
  case i3cWarm => exact does_of_actPins rfl hp rfl
  case pcie => exact ⟨_, actPins_eq_of_powered hp _, pcieReset_keeps s.dev.fresh k⟩
  case perst => exact (actPins_eq_of_powered hp (fun d => { d with pwr := { d.pwr with perstHigh := true } }) :)
  case assign =>
    exact (actPins_eq_of_powered hp (fun d => { d with host := { d.host with i3cAddr := some a } }) :)

end Sys2Proof.Machine
end

section
/-! # Power domains, thermal samples, current limits and issue fractions (spec/09 R262 to R264, spec/15 R391 to R398) -/
namespace Sys2Proof.Machine

/-! ### Power domains -/

section Domains
variable {d : Dev} {n : Nat}

theorem pdAllowed_bounds {x : Nat} (h : pdAllowed d n x = true) :
    pdMay d n x = true ∧ x ≤ rdf d .pwrDepth [] (2 * pdClass n + 1) (2 * pdClass n) := by
  simp only [pdAllowed, Bool.and_eq_true, decide_eq_true_eq] at h
  exact ⟨h.1.2, h.1.1⟩

theorem pdSettle_held (h : tlrHolds d = true) : pdSettle n d = d := if_pos (.inr (.inr h))

section Settle
variable (hn : n < 121) (hw : d.pwr.waking.contains n = false) (hc : 72 ≤ n ∨ coreDown d (n / 9) (n % 9) = false)

theorem not_coreDown_of (hc : 72 ≤ n ∨ coreDown d (n / 9) (n % 9) = false) : ¬ (n < 72 ∧ coreDown d (n / 9) (n % 9) = true) := by
  rintro ⟨h, h'⟩
  rcases hc with hc | hc
  · omega
  · exact Bool.false_ne_true (hc.symm.trans h')

include hw hc in
theorem wakeStart_wakes (hp : pdState d n ≠ 0) :
    wakeStart d n = { d with pwr := { d.pwr with waking := d.pwr.waking ++ [n] } } :=
  if_neg (by
    rintro (h | h | h)
    · exact hp h
    · exact Bool.false_ne_true (hw.symm.trans h)
    · exact not_coreDown_of hc h)

include hn hw hc

theorem pdSettle_judged (hh : tlrHolds d = false) :
    pdSettle n d =
      if pdTarget d n = pdState d n then d
      else if pdTarget d n = 0 then wakeStart d n
      else loseState (setPd d n (pdTarget d n)) n (pdTarget d n) := by
  have hg : ¬ (121 ≤ n ∨ d.pwr.waking.contains n ∨ tlrHolds d) := by
    simp only [hw, hh, Bool.false_eq_true, or_false]
    omega
  unfold pdSettle
  rw [if_neg hg, if_neg (not_coreDown_of hc)]

theorem pdSettle_same (ht : pdTarget d n = pdState d n) : pdSettle n d = d := by
  cases hh : tlrHolds d with
  | true => exact pdSettle_held hh
  | false => rw [pdSettle_judged hn hw hc hh, if_pos ht]

theorem pdSettle_sleeps (hh : tlrHolds d = false) (ht : pdTarget d n ≠ pdState d n) (h0 : pdTarget d n ≠ 0) :
    pdSettle n d = loseState (setPd d n (pdTarget d n)) n (pdTarget d n) := by
  rw [pdSettle_judged hn hw hc hh, if_neg ht, if_neg h0]

theorem pdSettle_wakes (hh : tlrHolds d = false) (ht : pdTarget d n ≠ pdState d n) (h0 : pdTarget d n = 0) :
    pdSettle n d = { d with pwr := { d.pwr with waking := d.pwr.waking ++ [n] } } := by
  rw [pdSettle_judged hn hw hc hh, if_neg ht, if_pos h0]
  exact wakeStart_wakes hw hc (fun h => ht (h0.trans h.symm))

end Settle

/-- Noting what the link asks changes no other state of a domain. -/
theorem noteLink_frame (n m : Nat) (k : PcieLow) (d : Dev) :
    (noteLink n k d).pwr.waking = d.pwr.waking ∧ tlrHolds (noteLink n k d) = tlrHolds d ∧
      pdState (noteLink n k d) m = pdState d m ∧ (∀ c i, coreDown (noteLink n k d) c i = coreDown d c i) := by
  unfold noteLink
  split
  · exact ⟨rfl, rfl, rfl, fun _ _ => rfl⟩
  · exact ⟨rfl, rfl, rfl, fun _ _ => rfl⟩

theorem noteLink_fresh (n : Nat) (k : PcieLow) (d : Dev) : noteLink n k d.fresh = (noteLink n k d).fresh := by
  unfold noteLink
  split <;> rfl

theorem pdTarget_fresh (d : Dev) (n : Nat) : pdTarget d.fresh n = pdTarget d n := rfl

theorem wakeStart_on (h : pdState d n = 0) : wakeStart d n = d := if_pos (.inl h)

theorem domainWakeDone_waking (late : Bool) (h : d.pwr.waking.contains n = true) :
    domainWakeDone n late d =
      let p := { d.pwr with waking := d.pwr.waking.filter (· != n), heldWr := d.pwr.heldWr.filter (fun w => w.dom != n) }
      let held := d.pwr.heldWr.filter (fun w => w.dom == n)
      let d1 := cnt1 (held.foldl applyHeld (setPd { d with pwr := p } n 0)) (srcSys 0 0) 6
      let d2 := if pdClass n = 1 then { d1 with pwr := { d1.pwr with frac := lset d1.pwr.frac (n - 72) 1 } } else d1
      let d2 := if n < 72 ∧ n % 9 = 8 ∧ spareTested d2 (n / 9) = true then setCoreState d2 (n / 9) 8 2 else d2
      if late then raise d2 (srcSys (pdDie n) 0) 4 [(1, n)] else d2 :=
  if_pos h

theorem domainWakeDone_idle (late : Bool) (h : d.pwr.waking.contains n = false) : domainWakeDone n late d = d :=
  if_neg (fun h' => Bool.false_ne_true (h.symm.trans h'))

end Domains

/-! ### Issue fractions -/

section Ramp
variable {d : Dev} {c : Nat}

theorem issueRampStep_rises (h : d.pwr.frac.getD c 4 < targetFrac d c) :
    issueRampStep c d = { d with pwr := { d.pwr with frac := lset d.pwr.frac c (d.pwr.frac.getD c 4 + 1) } } :=
  if_pos h

theorem issueRampStep_stays (h : targetFrac d c ≤ d.pwr.frac.getD c 4) : issueRampStep c d = d := if_neg (Nat.not_lt.mpr h)

end Ramp

/-! ### Samples -/

section Samples
variable {d : Dev}

theorem memLevel_cool {k : Nat} {t : Int} (h : t ≤ memThrot d) (h96 : t ≤ 96) : memLevel d k 0 t = (0, none) := by
  have h1 : ¬ (0 < 3 ∧ memThrot d + 2 * ((0 : Nat) : Int) < t) := by omega
  unfold memLevel
  rw [if_neg (by omega), if_neg h1, if_neg (by omega)]

/-- MEM_STK_STATE bit 4 that a sample leaves: refresh is doubled above 85 and no longer at 82 or below. -/
def doubledRefresh (d : Dev) (k : Nat) (t : Int) : Nat :=
  if 85 < t then 1 else if t ≤ 82 then 0 else rdf d .memStkState [k] 4 4

theorem memTempSample_cool {k : Nat} {t : BitVec 8} (hm : Unmarked d 0x1A (k / 3) k) (h0 : rdf d .memStkState [k] 9 8 = 0)
    (ht : sx 8 t.toNat ≤ memThrot d) (h96 : sx 8 t.toNat ≤ 96) :
    memTempSample k t d =
      tripCheck (settleFrac (wrf (wrf (wrf d .memStkState [k] 23 16 (ofInt 8 (sx 8 t.toNat))) .memStkState [k] 9 8 0)
        .memStkState [k] 4 4 (doubledRefresh d k (sx 8 t.toNat)))) (16 + k) 2 k false := by
  have hmin : intMin 127 (sx 8 t.toNat + ((none : Option Nat).getD 0 : Nat)) = sx 8 t.toNat := by
    simp only [intMin, Option.getD_none, Int.natCast_zero, Int.add_zero]
    exact if_neg (by omega)
  have h100 : decide (100 ≤ sx 8 t.toNat) = false := decide_eq_false (by omega)
  simp only [memTempSample, takeMark_none hm, hmin, h0, memLevel_cool ht h96, Nat.lt_irrefl, and_false, if_false, h100,
    doubledRefresh]

end Samples

/-! ### Current limits -/

section Ilim
variable {d : Dev} {die : Nat}

theorem ilimAssert_low (h : d.pwr.ilimLow.contains die = true) : ilimAssert die d = d := if_pos h

theorem ilimAssert_high (h : d.pwr.ilimLow.contains die = false) :
    ilimAssert die d =
      let d1 := { d with pwr := { d.pwr with ilimLow := d.pwr.ilimLow ++ [die],
                                             ilimHold := d.pwr.ilimHold.filter (· != die) } }
      applyThrottle (raise d1 (srcSys die 0) 3) die :=
  if_neg (fun h' => Bool.false_ne_true (h.symm.trans h'))

theorem ilimRelease_low (h : d.pwr.ilimLow.contains die = true) :
    ilimRelease die d = { d with pwr := { d.pwr with
      ilimLow := d.pwr.ilimLow.filter (· != die), ilimHold := d.pwr.ilimHold ++ [die] } } :=
  if_pos h

theorem ilimRelease_high (h : d.pwr.ilimLow.contains die = false) : ilimRelease die d = d :=
  if_neg (fun h' => Bool.false_ne_true (h.symm.trans h'))

theorem ilimHoldEnd_held (h : d.pwr.ilimHold.contains die = true) :
    ilimHoldEnd die d = applyThrottle { d with pwr := { d.pwr with ilimHold := d.pwr.ilimHold.filter (· != die) } } die :=
  if_pos h

theorem ilimHoldEnd_idle (h : d.pwr.ilimHold.contains die = false) : ilimHoldEnd die d = d :=
  if_neg (fun h' => Bool.false_ne_true (h.symm.trans h'))

end Ilim

/-- Settles O56: a domain takes the deepest state allowed or wakes, a sample moves its level, a current limit forces it,
and an issue fraction rises a quarter at a time. -/
theorem powerAndThermal : Obligations.PowerAndThermal := by
  unfold Obligations.PowerAndThermal
  intro s hp
  refine ⟨fun hs => ⟨fun n k hn hw hc => ?eval, fun n => ⟨fun h hw hc => ?wake, fun h => ?on, fun late h => ?woken, fun late h => ?asleep⟩,
    fun c => ⟨fun h => ?rises, fun h => ?stays⟩, fun k t hm h0 ht h96 => ?mem⟩, fun die temps => ?die,
    fun die => ⟨fun h => ?assert, fun h => ⟨?low, ?release⟩, fun h => ?high, fun h => ?hold, fun h => ?noHold⟩⟩
  case eval =>
    obtain ⟨fw, fh, fp, fc⟩ := noteLink_frame n.val n.val k s.dev.fresh
    have hw' : (noteLink n.val k s.dev.fresh).pwr.waking.contains n.val = false := by rw [fw]; exact hw
    have hc' : 72 ≤ n.val ∨ coreDown (noteLink n.val k s.dev.fresh) (n / 9) (n % 9) = false := by rw [fc]; exact hc
    have ft : pdTarget (noteLink n.val k s.dev.fresh) n.val = ([3, 2, 1].find? (pdAllowed (noteLink n.val k s.dev) n)).getD 0 := by
      rw [noteLink_fresh, pdTarget_fresh, pdTarget]
    refine ⟨fun ht => ?_, fun hh => ?_, fun hh ht h0 => ?_, fun hh ht h0 => ?_, fun d x => pdAllowed_bounds⟩
    · exact does_of_act rfl hs (pdSettle_same hn hw' hc' (ft.trans (ht.trans fp.symm)))
    · exact does_of_act rfl hs (pdSettle_held (fh.trans hh))
    · have h := pdSettle_sleeps hn hw' hc' (fh.trans hh) (fun h => ht (ft.symm.trans (h.trans fp)))
        (fun h => h0 (ft.symm.trans h))
      rw [ft] at h
      exact does_of_act rfl hs h
    · refine does_of_act rfl hs ((pdSettle_wakes hn hw' hc' (fh.trans hh) (fun h => ht (ft.symm.trans (h.trans fp)))
        (ft.trans h0)).trans ?_)
      rw [fw]
      rfl
  case wake => exact does_of_act (f := fun d => wakeStart d n) rfl hs (wakeStart_wakes (d := s.dev.fresh) hw hc h)
  case on => exact does_of_act (f := fun d => wakeStart d n) rfl hs (wakeStart_on (d := s.dev.fresh) h)
  case woken => exact does_of_act rfl hs (domainWakeDone_waking (d := s.dev.fresh) late h)
  case asleep => exact does_of_act rfl hs (domainWakeDone_idle (d := s.dev.fresh) late h)
  case rises => exact does_of_act rfl hs (issueRampStep_rises (d := s.dev.fresh) h)
  case stays => exact does_of_act rfl hs (issueRampStep_stays (d := s.dev.fresh) h)
  case mem => exact does_of_act rfl hs (memTempSample_cool (d := s.dev.fresh) (unmarked_fresh hm) h0 ht h96)
  case die => exact does_of_actPins rfl hp rfl
  case assert => exact does_of_actPins rfl hp (ilimAssert_high (d := s.dev.fresh) h)
  case low => exact does_of_actPins rfl hp (ilimAssert_low (d := s.dev.fresh) h)
  case release => exact does_of_actPins rfl hp (ilimRelease_low (d := s.dev.fresh) h)
  case high => exact does_of_actPins rfl hp (ilimRelease_high (d := s.dev.fresh) h)
  case hold => exact does_of_actPins rfl hp (ilimHoldEnd_held (d := s.dev.fresh) h)
  case noHold => exact does_of_actPins rfl hp (ilimHoldEnd_idle (d := s.dev.fresh) h)

end Sys2Proof.Machine
end

section
/-! # Memory scrub and repair, and the upkeep of the store's blocks (spec/09 R249 to R262, spec/10 R271 to R283) -/
namespace Sys2Proof.Machine

theorem of_false {b : Bool} (h : b = false) : ¬ b = true := fun h' => Bool.false_ne_true (h.symm.trans h')

/-! ### Scrub of stacked memory -/

section MemScrub
variable {d : Dev}

theorem memScrubRead_off (h : rdb d .memCtl [] 0 = false) (e : Ecc) : memScrubRead e d = d := if_neg (of_false h)

section On
variable {e : Ecc} (h : rdb d .memCtl [] 0 = true)
include h

omit h in
theorem any_scrubReq : d.mem.reqs.any (fun x => x.op == 0 && x.r == scrubReq d) = true ↔ ⟨0, scrubReq d⟩ ∈ d.mem.reqs := by
  simp only [List.any_eq_true, Bool.and_eq_true, beq_iff_eq]
  constructor
  · rintro ⟨⟨o, r⟩, hx, rfl, rfl⟩
    exact hx
  · exact fun hx => ⟨_, hx, rfl, rfl⟩

theorem memScrubRead_issues (hw : reqWaits d 0 (scrubReq d) = true) (hn : ⟨0, scrubReq d⟩ ∉ d.mem.reqs)
    (hb : stkBuf d (memStack d d.mem.scrubPos) < 256) : memScrubRead e d = issue d 0 (scrubReq d) := by
  have h1 : d.mem.reqs.any (fun x => x.op == 0 && x.r == scrubReq d) = false :=
    Bool.eq_false_iff.mpr (fun hx => hn (any_scrubReq.mp hx))
  have h2 : decide (256 ≤ stkBuf d (memStack d (scrubReq d).addr)) = false := decide_eq_false (Nat.not_le.mpr hb)
  simp only [memScrubRead, h, if_true, hw, h1, h2, Bool.or_self, Bool.false_eq_true, if_false]

theorem memScrubRead_waits (hw : reqWaits d 0 (scrubReq d) = true)
    (hg : ⟨0, scrubReq d⟩ ∈ d.mem.reqs ∨ 256 ≤ stkBuf d (memStack d d.mem.scrubPos)) : memScrubRead e d = d := by
  have h1 : (d.mem.reqs.any (fun x => x.op == 0 && x.r == scrubReq d) ||
      decide (256 ≤ stkBuf d (memStack d (scrubReq d).addr))) = true :=
    (Bool.or_eq_true _ _).mpr (hg.imp any_scrubReq.mpr decide_eq_true)
  simp only [memScrubRead, h, if_true, hw, h1]

theorem memScrubRead_reads (hf : MemFree d 0 (scrubReq d)) (hc : MemClean d d.mem.scrubPos 64) :
    memScrubRead .clean d =
      let d1 := cnt1 (memTake d 0 (scrubReq d)) (srcMem 0) 7
      { d1 with mem := { d1.mem with
        scrubPos := if d.mem.scrubPos + 64 < memEnd then d.mem.scrubPos + 64 else 0 } } := by
  obtain ⟨hp, hfl, hm⟩ := hc
  have hclean : MemClean (cnt1 (memTake d 0 (scrubReq d)) (srcMem 0) 7) (scrubReq d).addr 64 :=
    ⟨hp, hfl, fun k hk => unmarked_of_marks (hm k hk) rfl⟩
  have hcnt : (cntAt (cnt1 (memTake d 0 (scrubReq d)) (srcMem 0) 7) (srcMem 0).cnt !=
      cntAt (memTake d 0 (scrubReq d)) (srcMem 0).cnt) = false := by
    rw [cntAt_cnt1_other _ _ (by omega)]
    exact bne_self_eq_false _
  simp only [memScrubRead, h, if_true, hf.2, Bool.false_eq_true, if_false, scrubbed,
    memCheck_clean hclean (es := [.clean]) (by simp), hcnt]
  rfl

end On

end MemScrub

section Lane
variable {d : Dev} {stack channel lane : Nat}

/-- The number of a lane of a stack's channel. -/
def laneKey (stack channel lane : Nat) : Nat := stack * 8192 + channel % 32 * 128 + lane

theorem memLanePending_due (hd : lanePendDue d (laneKey stack channel lane) = true)
    (hp : d.mem.lanePend.contains (laneKey stack channel lane) = false) :
    memLanePending stack channel lane d =
      let d1 := wr d .memStkPend [stack] (setBit (rd d .memStkPend [stack]) (channel % 32))
      let m := { d.mem with lanePend := d.mem.lanePend ++ [laneKey stack channel lane],
                            laneErr := tdel d.mem.laneErr (laneKey stack channel lane) }
      raise (saveRepair { d1 with mem := m }) (srcMem stack) 4 :=
  if_pos ⟨hd, of_false hp⟩

theorem memLanePending_idle (h : lanePendDue d (laneKey stack channel lane) = false ∨
      d.mem.lanePend.contains (laneKey stack channel lane) = true) : memLanePending stack channel lane d = d :=
  if_neg (fun hg => h.elim (fun h => of_false h hg.1) (fun h => hg.2 h))

end Lane

/-! ### Blocks and bands of the store -/

section Store
variable {d : Dev}

theorem not_up_of (h : boltUp d = false ∨ flashOn d = false) : (!boltUp d || !flashOn d) = true := by
  rcases h with h | h <;> simp [h]

theorem boltWlMove_out (h : boltUp d = false ∨ flashOn d = false) : boltWlMove d = d :=
  if_pos (by rw [not_up_of h, Bool.true_or])

theorem boltBandErase_out (h : boltUp d = false ∨ flashOn d = false) : boltBandErase d = d := if_pos (not_up_of h)

theorem boltScrubRead_out (h : boltUp d = false ∨ flashOn d = false) (rs : List CwRead) : boltScrubRead rs d = d :=
  if_pos (by rcases h with h | h <;> simp [h])

theorem boltRelocate_out (h : boltUp d = false ∨ flashOn d = false) (b : Nat) (rs : List CwRead) : boltRelocate b rs d = d :=
  if_pos (by rw [not_up_of h, Bool.true_or])

theorem boltRecordWrite_out (h : boltUp d = false ∨ flashOn d = false) (r : BoltRec) (w : Bool) : boltRecordWrite r w d = d :=
  if_pos (by rw [not_up_of h, Bool.true_or, Bool.true_or])

theorem boltProgramFail_idle {fdie plane block : Nat} (h : boltUp d = false ∨ 5462 ≤ block ∨
      d.bolt.bad.contains (4 * fdie + plane, block) = true) : boltProgramFail fdie plane block d = d :=
  if_pos (by simpa [or_assoc] using h)

theorem boltProgramFail_retires {fdie plane block : Nat} (hu : boltUp d = true) (hb : block < 5462)
    (hn : d.bolt.bad.contains (4 * fdie + plane, block) = false) :
    boltProgramFail fdie plane block d =
      retire (if (bandOfBlock d (4 * fdie + plane) block).any (bandsUsed d).contains then cntN d (srcBolt 0) 10 128 else d)
        (4 * fdie + plane) block := by
  have hg : (!boltUp d || decide (5462 ≤ block) || d.bolt.bad.contains (4 * fdie + plane, block)) = false := by
    simp only [hu, hn, decide_eq_false (Nat.not_le.mpr hb), Bool.not_true, Bool.or_self]
  simp only [boltProgramFail, hg, Bool.false_eq_true, if_false]
  cases bandOfBlock d (4 * fdie + plane) block <;> rfl

/-- The wear of the most worn band, and of the least. -/
def mostWear (d : Dev) : Nat := (List.range bandCount).foldl (fun a b => natMax a (bandWear d b)) 0

def leastWear (d : Dev) : Nat := (List.range bandCount).foldl (fun a b => natMin a (bandWear d b)) (mostWear d)

/-- The spread of wear that levelling allows. -/
def wearSpread (d : Dev) : Nat := planeCount * natMax 1 (rdf d .boltWl [] 15 0)

section Up
variable (hu : boltUp d = true) (hf : flashOn d = true)
include hu hf

omit hu hf in
theorem boltWlMove_level (h : mostWear d - leastWear d ≤ wearSpread d) : boltWlMove d = d := by
  refine if_pos ?_
  rw [Bool.or_eq_true]
  exact .inr (decide_eq_true h)

theorem boltWlMove_moves {b : Nat} {i : BoltImg} {e : Dev} (h : wearSpread d < mostWear d - leastWear d)
    (hb : coldest d ((bandsUsed d).filter (fun b => decide (0 < bandPages d b))) = some b) (hi : imgOfBand d b = some i)
    (he : moveBand { d with draw := d.draw + 1 } i b (Config.freeReads d.draw) = some e) : boltWlMove d = e := by
  have hg : ¬ ((!boltUp d || !flashOn d || decide (mostWear d - leastWear d ≤ wearSpread d)) = true) := by
    simp only [hu, hf, decide_eq_false (Nat.not_le.mpr h), Bool.not_true, Bool.or_self, Bool.false_eq_true, not_false_iff]
  refine (if_neg hg).trans ?_
  simp only [hb, hi, he, Option.getD_some]

theorem boltBandErase_dirty {b : Nat} {r : List Nat} (h : d.bolt.dirty = b :: r) : boltBandErase d = eraseBand d b := by
  simp only [boltBandErase, hu, hf, Bool.not_true, Bool.or_self, Bool.false_eq_true, if_false, h]

theorem boltBandErase_clean (h : d.bolt.dirty = []) : boltBandErase d = d := by
  simp only [boltBandErase, hu, hf, Bool.not_true, Bool.or_self, Bool.false_eq_true, if_false, h]

/-! ### Scrub of the store -/

omit hu hf in
theorem boltScrubRead_off (h : rdb d .boltCtl [] 0 = false) (rs : List CwRead) : boltScrubRead rs d = d :=
  if_pos (by simp [h])

/-- The device whose scrub has passed a page of a band. -/
def scrubPassed (d : Dev) (b pg : Nat) : Dev :=
  setBolt (countReads d b (pg % planeCount) 1) (fun x => { x with
    scrubPos := b * 65536 + pg + 1, pageAt := tset x.pageAt (b * 65536 + pg) d.now })

/-- The index in its image of a page of a band. -/
def pageIdx (i : BoltImg) (b pg : Nat) : Nat := 65536 * i.bands.findIdx (· == b) + pg

theorem boltScrubRead_reads {b pg : Nat} {i : BoltImg} (hc : rdb d .boltCtl [] 0 = true)
    (hn : nextPage d d.bolt.scrubPos = some (b, pg)) (hi : imgOfBand d b = some i) (rs : List CwRead) :
    boltScrubRead rs d =
      (readPages (scrubPassed d b pg) i (pageIdx i b pg) (pageIdx i b pg + 1)
        (rs.map (fun r => { r with idx := pageIdx i b pg }))).2 := by
  simp only [boltScrubRead, hu, hc, hf, Bool.not_true, Bool.or_self, Bool.false_eq_true, if_false, hn, hi, scrubPassed, pageIdx]

end Up

theorem rel_countReads (d : Dev) (b p n : Nat) : (countReads d b p n).rel = d.rel := by
  unfold countReads
  dsimp only
  split
  · rfl
  · split <;> rfl

theorem wseq_countReads (d : Dev) (b p n : Nat) : (countReads d b p n).bolt.wseq = d.bolt.wseq := by
  unfold countReads
  dsimp only
  split
  · rfl
  · split <;> rfl

theorem lostReads_congr {d e : Dev} (h : e.bolt.wseq = d.bolt.wseq) (i : BoltImg) : lostReads e i = lostReads d i := by
  simp only [lostReads, intact, h]

/-- No effect waits for a page. -/
def PageUnmarked (d : Dev) (idx : Nat) : Prop :=
  Unmarked d 0x0D (idx % planeCount / 32 / 4) (idx % planeCount / 32) ∧
    Unmarked d 0x0E (idx % planeCount / 32 / 4) (idx % planeCount / 32)

theorem injReads_unmarked {idx : Nat} (h : PageUnmarked d idx) (i : BoltImg) : injReads d i [idx] = ([], d) := by
  obtain ⟨h1, h2⟩ := h
  simp [injReads, takeMark_none h1, takeMark_none h2]

theorem pages_single (idx : Nat) : ((List.range 16).map (idx + 32 * ·)).filter (fun x => decide (x < idx + 1)) = [idx] := by
  have h (k : Nat) : decide (idx + 32 * k < idx + 1) = decide (k = 0) := decide_eq_decide.mpr (by omega)
  rw [List.filter_map]
  simp only [Function.comp_def, h]
  rfl

/-- One page, of which nothing is lost or injected, is read as it comes. -/
theorem readPages_single {i : BoltImg} {idx : Nat} {r : CwRead} (hl : lostReads d i = []) (hm : PageUnmarked d idx) (hr : r.idx = idx) :
    (readPages d i idx (idx + 1) [r]).2 = readWord (countWords (cnt1 d (srcBolt 0) 11) 4) i r := by
  subst hr
  have hl' : lostReads (countWords (cntN d (srcBolt 0) 11 1) 4) i = [] := (lostReads_congr rfl i).trans hl
  have hm' : PageUnmarked (countWords (cntN d (srcBolt 0) 11 1) 4) r.idx :=
    ⟨unmarked_of_marks hm.1 rfl, unmarked_of_marks hm.2 rfl⟩
  have hn : r.idx + 1 - r.idx = 1 := by omega
  simp only [readPages, hn, Nat.mul_one, pages_single, injReads_unmarked hm', hl', List.nil_append]
  simp [mergeReads, cnt1]

theorem readWord_good {i : BoltImg} {r : CwRead} (hi : intact d i r.idx = true) (hl : i.lost.contains (r.idx, r.cw.toNat) = false)
    (hw : r.word = none) (hb : r.bits ≤ 48) (hc : r.bits ≠ 0 → Config.ldpcCorrects r.bits = true) :
    readWord d i r = cntN (if r.bits = 0 then d else moveWord d (bitBin r.bits)) (srcBolt 0) 8 r.bits := by
  have hbits : (r.bits == 0 || Config.ldpcCorrects r.bits) = true := by
    by_cases h0 : r.bits = 0
    · rw [h0]
      rfl
    · rw [hc h0, Bool.or_true]
  have hgood : cwGood d i r = true := by simp only [cwGood, hi, hl, hw, hbits, Bool.not_false, Bool.and_self]
  have hno : ¬ 48 < r.bits := by omega
  simp only [readWord, hgood, if_true, hno, false_and, if_false]

/-! ### Bands moved, and records -/

section Move
variable (hu : boltUp d = true) (hf : flashOn d = true)
include hu hf

theorem boltRelocate_moves {b : Nat} {i : BoltImg} {rs : List CwRead} {e : Dev} (hr : d.bolt.reloc.contains b = true)
    (hi : imgOfBand d b = some i) (hn : imageRead d i = false) (hs : i.st ≠ 1) (he : moveBand d i b rs = some e) :
    boltRelocate b rs d = cnt1 e (srcBolt 0) 9 := by
  simp only [boltRelocate, hu, hf, hr, Bool.not_true, Bool.or_self, Bool.false_eq_true, if_false, hi, hn, beq_false_of_ne hs, he]

omit hu hf in
theorem boltRelocate_idle {b : Nat} (hr : d.bolt.reloc.contains b = false) (rs : List CwRead) : boltRelocate b rs d = d :=
  if_pos (by rw [hr, Bool.not_false, Bool.or_true])

omit hu hf in
theorem boltRecordWrite_torn (r : BoltRec) : boltRecordWrite r false d = d :=
  if_pos (by rw [Bool.not_false, Bool.or_true, Bool.true_or])

omit hu hf in
theorem boltRecordWrite_boots (w : Bool) : boltRecordWrite .boots w d = d :=
  if_pos (by rw [Bool.or_eq_true]; exact .inr rfl)

theorem boltRecordWrite_whole {r : BoltRec} (h : recNo r ≠ 5) : boltRecordWrite r true d = newRecord r (bumpRecord r d) := by
  simp only [boltRecordWrite, hu, hf, beq_false_of_ne h, Bool.not_true, Bool.or_self, Bool.false_eq_true, if_false]

end Move

/-- Writing a record's content leaves every record's version. -/
theorem newRecord_versions (r : BoltRec) (d : Dev) :
    (newRecord r d).bolt.recVer = d.bolt.recVer ∧ (newRecord r d).bolt.recBad = d.bolt.recBad := by
  cases r with
  | laneCache l =>
    unfold newRecord
    dsimp only
    cases laneRecord d l <;> exact ⟨rfl, rfl⟩
  | memTrain => exact ⟨rfl, rfl⟩
  | seamMap => exact ⟨rfl, rfl⟩
  | laserAging => exact ⟨rfl, rfl⟩
  | repair => exact ⟨rfl, rfl⟩
  | boots => exact ⟨rfl, rfl⟩

theorem rd_bumpRecord (r : BoltRec) (d : Dev) (x : Reg) (ix : List Nat) : rd (bumpRecord r d) x ix = rd d x ix := rfl

theorem seams_bumpRecord (r : BoltRec) (d : Dev) : (bumpRecord r d).seams = d.seams := rfl

theorem recNo_laneCache (l : Nat) : recNo (.laneCache l) ≠ 5 := by
  show 16 + l % 512 ≠ 5
  omega

/-- The store with a record's version counted up. -/
theorem versions_bumped (r : BoltRec) (d : Dev) :
    tgetD (bumpRecord r d).bolt.recVer (recNo r) 0 = tgetD d.bolt.recVer (recNo r) 0 + 1 ∧
      (∀ x ∈ (bumpRecord r d).bolt.recBad, recNo x ≠ recNo r) ∧
      (∀ k, k ≠ recNo r → tget? (bumpRecord r d).bolt.recVer k = tget? d.bolt.recVer k) := by
  refine ⟨?_, fun x hx => ?_, fun k hk => ?_⟩
  · simp [bumpRecord, setBolt, tgetD]
  · exact bne_iff_ne.mp (List.mem_filter.mp hx).2
  · simp only [bumpRecord, setBolt, tget?_tset, if_neg (Ne.symm hk)]

end Store

theorem nextPage_fresh (d : Dev) (pos : Nat) : nextPage d.fresh pos = nextPage d pos := by
  have hb : bandPages d.fresh = bandPages d := rfl
  have hu : bandsUsed d.fresh = bandsUsed d := rfl
  unfold nextPage
  rw [hb, hu]

/-- What the upkeep of stacked memory's sectors and lanes does. -/
theorem memoryUpkeep {s : State} (hs : Running s) :
    (rdb s.dev .memCtl [] 0 = false → ∀ e, Idles (.memScrubRead e) s) ∧
    (rdb s.dev .memCtl [] 0 = true → reqWaits s.dev 0 (scrubReq s.dev) = true → ∀ e,
      (⟨0, scrubReq s.dev⟩ ∉ s.dev.mem.reqs → stkBuf s.dev (memStack s.dev s.dev.mem.scrubPos) < 256 →
        Does (.memScrubRead e) s (fun d => issue d 0 (scrubReq d))) ∧
      (⟨0, scrubReq s.dev⟩ ∈ s.dev.mem.reqs ∨ 256 ≤ stkBuf s.dev (memStack s.dev s.dev.mem.scrubPos) →
        Idles (.memScrubRead e) s)) :=
  ⟨fun h e => does_of_act rfl hs (memScrubRead_off (d := s.dev.fresh) h e),
    fun h hw _ => ⟨fun hn hb => does_of_act rfl hs (memScrubRead_issues (d := s.dev.fresh) h hw hn hb),
      fun hg => does_of_act rfl hs (memScrubRead_waits (d := s.dev.fresh) h hw hg)⟩⟩

/-- Settles O57: scrub, repair and refresh of stacked memory, and the upkeep of the store's blocks, bands and records. -/
theorem storeUpkeep : Obligations.StoreUpkeep := by
  unfold Obligations.StoreUpkeep
  refine ⟨fun s hs => ⟨(memoryUpkeep hs).1, (memoryUpkeep hs).2, fun h hf hc => ?reads,
    fun k ch lane => ⟨fun hd hp => ?pending, fun h => ?notPending⟩, fun k => ?refresh⟩,
    fun s hs => ⟨fun h fd pl bl => ?failOut, fun h => ⟨?levelOut, ?eraseOut, fun rs => ?scrubOut, fun b rs => ?moveOut, fun r w => ?recOut⟩,
      fun hu hf => ⟨fun fd pl bl => ⟨fun hb hn => ?retires, fun h => ?noFail⟩,
        ⟨fun h => ?level, fun h b i e hb hi he => ?moves⟩, fun b r h => ?erases, fun h => ?clean, fun h rs => ?scrubOff,
        fun hc b pg i hn hi => ⟨fun rs => ?scrub, fun r hl hb hk => ?single, fun r d => readWord_good⟩,
        fun b i rs hr hi hn hst e he => ?relocates, fun b h rs => ?stays, fun r => ?torn, fun w => ?boots,
        ⟨fun l c hl => ?lane, fun l hl => ?noLane, ?seam, ?train, ?repair, fun r h5 => ?versions⟩⟩⟩⟩
  case reads => exact does_of_act rfl hs (memScrubRead_reads (d := s.dev.fresh) h hf ⟨hc.1, hc.2.1, fun k hk => unmarked_fresh (hc.2.2 k hk)⟩)
  case pending => exact does_of_act rfl hs (memLanePending_due (d := s.dev.fresh) hd hp)
  case notPending => exact does_of_act rfl hs (memLanePending_idle (d := s.dev.fresh) h)
  case refresh => exact act_eq_of_running hs (fun d => d)
  case failOut => exact does_of_act rfl hs (boltProgramFail_idle (d := s.dev.fresh) (.inl h))
  case levelOut => exact does_of_act rfl hs (boltWlMove_out (d := s.dev.fresh) h)
  case eraseOut => exact does_of_act rfl hs (boltBandErase_out (d := s.dev.fresh) h)
  case scrubOut => exact does_of_act rfl hs (boltScrubRead_out (d := s.dev.fresh) h rs)
  case moveOut => exact does_of_act rfl hs (boltRelocate_out (d := s.dev.fresh) h b rs)
  case recOut => exact does_of_act rfl hs (boltRecordWrite_out (d := s.dev.fresh) h r w)
  case retires => exact does_of_act rfl hs (boltProgramFail_retires (d := s.dev.fresh) hu hb hn)
  case noFail => exact does_of_act rfl hs (boltProgramFail_idle (d := s.dev.fresh) (.inr h))
  case level => exact does_of_act rfl hs (boltWlMove_level (d := s.dev.fresh) h)
  case moves => exact does_of_act rfl hs (boltWlMove_moves (d := s.dev.fresh) hu hf h hb hi he)
  case erases => exact does_of_act rfl hs (boltBandErase_dirty (d := s.dev.fresh) hu hf h)
  case clean => exact does_of_act rfl hs (boltBandErase_clean (d := s.dev.fresh) hu hf h)
  case scrubOff => exact does_of_act rfl hs (boltScrubRead_off (d := s.dev.fresh) h rs)
  case scrub => exact does_of_act rfl hs (boltScrubRead_reads (d := s.dev.fresh) hu hf hc ((nextPage_fresh ..).trans hn) hi rs)
  case single =>
    refine does_of_act rfl hs ((boltScrubRead_reads (d := s.dev.fresh) hu hf hc ((nextPage_fresh ..).trans hn) hi [r]).trans ?_)
    refine readPages_single ((lostReads_congr (wseq_countReads s.dev.fresh b (pg % planeCount) 1) i).trans hl) ?_ rfl
    exact ⟨unmarked_of_marks (unmarked_fresh hb) (congrArg (·.marks) (rel_countReads s.dev.fresh b (pg % planeCount) 1)),
      unmarked_of_marks (unmarked_fresh hk) (congrArg (·.marks) (rel_countReads s.dev.fresh b (pg % planeCount) 1))⟩
  case relocates => exact does_of_act rfl hs (boltRelocate_moves (d := s.dev.fresh) hu hf hr hi hn hst he)
  case stays => exact does_of_act rfl hs (boltRelocate_idle (d := s.dev.fresh) h rs)
  case torn => exact does_of_act rfl hs (boltRecordWrite_torn (d := s.dev.fresh) r)
  case boots => exact does_of_act rfl hs (boltRecordWrite_boots (d := s.dev.fresh) w)
  case lane =>
    refine does_of_act rfl hs ((boltRecordWrite_whole (d := s.dev.fresh) hu hf (recNo_laneCache l)).trans ?_)
    have hl' : laneRecord (bumpRecord (.laneCache l) s.dev.fresh) l = some c := hl
    simp only [newRecord, hl']
    rfl
  case noLane =>
    refine does_of_act rfl hs ((boltRecordWrite_whole (d := s.dev.fresh) hu hf (recNo_laneCache l)).trans ?_)
    have hl' : laneRecord (bumpRecord (.laneCache l) s.dev.fresh) l = none := hl
    simp only [newRecord, hl']
    rfl
  case seam =>
    refine does_of_act rfl hs ((boltRecordWrite_whole (d := s.dev.fresh) (r := .seamMap) hu hf (by decide)).trans ?_)
    simp only [newRecord, seams_bumpRecord]
    rfl
  case train => exact does_of_act rfl hs (boltRecordWrite_whole (d := s.dev.fresh) (r := .memTrain) hu hf (by decide))
  case repair =>
    refine does_of_act rfl hs ((boltRecordWrite_whole (d := s.dev.fresh) (r := .repair) hu hf (by decide)).trans ?_)
    simp only [newRecord, rd_bumpRecord]
    rfl
  case versions =>
    refine gives_of_act rfl hs ?_
    rw [boltRecordWrite_whole (d := s.dev.fresh) hu hf h5, (newRecord_versions ..).1, (newRecord_versions ..).2]
    exact versions_bumped r s.dev.fresh

end Sys2Proof.Machine
end

section
/-! # Error injection, suspicion decay and core sparing (spec/16 R407 to R409, R417, R419) -/
namespace Sys2Proof.Machine

/-! ### Writes of the injection control -/

theorem meets_relInjCtl : MeetsReg (regAddr .relInjCtl []) .relInjCtl [] ∧ sleepDom (regAddr .relInjCtl []) = none := by
  decide +kernel

theorem bits_merge_relInjCtl (old val : Nat) :
    bits (merge false .relInjCtl old val) 5 4 = bits val 5 4 ∧ bits (merge false .relInjCtl old val) 0 0 = bits val 0 0 :=
  ⟨bits_merge .relInjCtl false old val (f := fl 5 4 .rw 0) (by simp [regRow]),
    bits_merge .relInjCtl false old val (f := fl 0 0 .rwl 0) (by simp [regRow])⟩

/-- What a write leaves in REL_INJ_CTL: MODE and RAMP. -/
def injCtlVal (d : Dev) (val : Nat) : Nat := putBits (putBits (rd d .relInjCtl) 5 4 (bits val 5 4)) 0 0 (bits val 0 0)

section Control
variable {d : Dev} {val : Nat}

/-- A write of the injection control that no lock stops: its fields are stored, then DISARM and ARM act. -/
theorem busWrite_relInjCtl (hl : locked d .relInjCtl [] = false) {v : Nat} (h54 : bits v 5 4 = bits val 5 4) (h0 : bits v 0 0 = bits val 0 0) :
    busWrite (regAddr .relInjCtl []) v d =
      let d1 := wr d.written .relInjCtl [] (injCtlVal d val)
      let d2 := if bit v 3 then injDisarm d1 else d1
      if bit v 1 then injArm d2 else d2 := by
  obtain ⟨m54, m0⟩ := bits_merge_relInjCtl (rd d .relInjCtl []) v
  rw [busWrite_taken meets_relInjCtl.1 (asleepAt_of_sleepDom meets_relInjCtl.2 d) (by rw [hl]; rfl), hl, lockMet_unlocked hl]
  simp only [writeReg, injCtlWrite, m54, m0, h54, h0, rd_written, injCtlVal]

theorem bit_setBit_other (x : Nat) {n i : Nat} (h : i ≠ n) : bit (setBit x n) i = bit x i := by
  rw [bit_eq_bits, bits_setBit_other _ (by omega), ← bit_eq_bits]

theorem bit_word (v : Word) (n : Nat) : bit v.toNat n = v.getLsbD n := bit_eq_testBit ..

/-- A write with ARM and without DISARM. -/
theorem busWrite_arm {val : Word} (hl : locked d .relInjCtl [] = false) (h3 : val.getLsbD 3 = false) :
    busWrite (regAddr .relInjCtl []) (setBit val.toNat 1) d = injArm (wr d.written .relInjCtl [] (injCtlVal d val.toNat)) := by
  have hb3 : bit (setBit val.toNat 1) 3 = false := by rw [bit_setBit_other _ (by decide), bit_word, h3]
  rw [busWrite_relInjCtl hl (bits_setBit_other _ (.inr (by decide))) (bits_setBit_other _ (.inl (by decide)))]
  simp only [hb3, Bool.false_eq_true, if_false, bit_setBit_same, if_true]

/-- A write with DISARM and without ARM. -/
theorem busWrite_disarm {val : Word} (hl : locked d .relInjCtl [] = false) (h1 : val.getLsbD 1 = false) :
    busWrite (regAddr .relInjCtl []) (setBit val.toNat 3) d = injDisarm (wr d.written .relInjCtl [] (injCtlVal d val.toNat)) := by
  have hb1 : bit (setBit val.toNat 3) 1 = false := by rw [bit_setBit_other _ (by decide), bit_word, h1]
  rw [busWrite_relInjCtl hl (bits_setBit_other _ (.inr (by decide))) (bits_setBit_other _ (.inl (by decide)))]
  simp only [hb1, Bool.false_eq_true, if_false, bit_setBit_same, if_true]

/-! ### Arming -/

theorem bits_mod_word (v : Nat) {m l : Nat} (hm : m < 32) : bits (v % 4294967296) m l = bits v m l := by
  refine Nat.eq_of_testBit_eq fun i => ?_
  rw [testBit_bits, testBit_bits, show 4294967296 = 2 ^ 32 from rfl, Nat.testBit_mod_two_pow]
  by_cases hi : i < m + 1 - l
  · rw [decide_eq_true (show l + i < 32 by omega), Bool.true_and]
  · simp only [hi, decide_false, Bool.false_and]

theorem rdf_relInjCtl_stored (e d : Dev) (val : Nat) :
    rdf (wr e .relInjCtl [] (injCtlVal d val)) .relInjCtl [] 5 4 = bits val 5 4 ∧
      rdb (wr e .relInjCtl [] (injCtlVal d val)) .relInjCtl [] 0 = bit val 0 := by
  constructor
  · rw [rdf, rd_wr_same, bits_mod_word _ (by decide), injCtlVal, bits_putBits_outside _ _ (.inr (by decide)), bits_putBits_same]
    exact Nat.mod_eq_of_lt (bits_lt ..)
  · rw [rdb, rd_wr_same, bit_mod_word _ (by decide), injCtlVal, bit_eq_bits, bits_putBits_same, bit_eq_bits,
      Nat.mod_eq_of_lt (bits_lt ..)]

theorem rdf_wr_other (d : Dev) {r r' : Reg} {ix ix' : List Nat} (v m l : Nat) (h : regAddr r ix ≠ regAddr r' ix') :
    rdf (wr d r ix v) r' ix' m l = rdf d r' ix' m l := by
  rw [rdf, rdf, rd_wr_other _ _ h]

section Arm
variable (d)

/-- What an injection's selector and argument ask for. -/
def armAsked (d : Dev) : Inject :=
  ⟨rdf d .relInjSel [] 31 24, rdf d .relInjSel [] 21 20, rdf d .relInjSel [] 15 0, rdf d .relInjArg [] 15 0, some 1⟩

theorem armAsked_wr (v : Nat) : armAsked (wr d .relInjCtl [] v) = armAsked d := by
  simp only [armAsked, rdf_wr_other d v _ _ (show regAddr .relInjCtl [] ≠ regAddr .relInjSel [] by decide),
    rdf_wr_other d v _ _ (show regAddr .relInjCtl [] ≠ regAddr .relInjArg [] by decide)]

end Arm

theorem injArm_once (h0 : rdb d .relInjCtl [] 0 = true) (hm : rdf d .relInjCtl [] 5 4 = 0) (hi : d.rel.inject = none)
    (hu : (armAsked d).unit < injUnits (armAsked d).id) (ha : injArgOk (armAsked d).id (armAsked d).arg = true) :
    injArm d = injFlags { d with rel := { d.rel with inject := some (armAsked d) } } 1 0 := by
  have hu' : decide (injUnits (armAsked d).id ≤ (armAsked d).unit) = false := decide_eq_false (Nat.not_le.mpr hu)
  unfold armAsked at hu' ha ⊢
  have hg : (!rdb d .relInjCtl [] 0 || d.rel.inject.isSome || rdf d .relInjCtl [] 5 4 == 3 ||
      decide (injUnits (rdf d .relInjSel [] 31 24) ≤ rdf d .relInjSel [] 15 0) ||
      !injArgOk (rdf d .relInjSel [] 31 24) (rdf d .relInjArg [] 15 0)) = false := by
    simp only [h0, hm, hi, hu', ha]
    rfl
  simp only [injArm, hg, Bool.false_eq_true, if_false]
  simp only [hm]

theorem injArm_refused (h : rdb d .relInjCtl [] 0 = false ∨ d.rel.inject.isSome = true ∨
      injUnits (armAsked d).id ≤ (armAsked d).unit) : injArm d = raise d (srcRel 255 0) 8 := by
  refine if_pos ?_
  rcases h with h | h | h
  · simp [h]
  · simp [h]
  · have h' : decide (injUnits (rdf d .relInjSel [] 31 24) ≤ rdf d .relInjSel [] 15 0) = true := decide_eq_true h
    simp only [h', Bool.or_true, Bool.true_or]

end Control

/-! ### Injections -/

section Injection
variable {d : Dev}

theorem injection_none (h : d.rel.inject = none) : injection d = d := by simp only [injection, h]

theorem injection_single {i : Inject} (h : d.rel.inject = some i) (h0 : rdb d .relInjCtl [] 0 = true) (hl : i.left = some 1) :
    injection d =
      let d1 := cnt1 d (srcRel 255 0) 10
      let d2 := injFlags { d1 with rel := { d1.rel with inject := none } } 0 1
      injectEffect i { d2 with rel := { d2.rel with injected := true } } := by
  simp only [injection, h, h0, Bool.not_true, Bool.false_eq_true, if_false, hl]

/-! ### Suspicion and spares -/

theorem suspicionDecay_core {n : Nat} (h : n % 9 ≠ 8) :
    suspicionDecay n d =
      let d1 := setSusp d n 0
      { d1 with rel := { d1.rel with suspAt := tdel d1.rel.suspAt (8 * (n / 9) + n % 9) } } :=
  if_neg h

theorem suspicionDecay_spare {n : Nat} (h : n % 9 = 8) : suspicionDecay n d = setSusp d n 0 := if_pos h

theorem spareIn_takes {c j phys cause : Nat} (h : d.rel.sparing.find? (fun x => x.1 == c) = some (c, j, phys, cause))
    (hp : pdOn d (9 * c + 8) = true) :
    spareIn c true d =
      spareTakes (cnt1 { d with rel := { d.rel with sparing := d.rel.sparing.filter (fun x => x.1 != c) } }
        (srcRel (c / 2) c) 11) c j cause := by
  simp only [spareIn, h, hp, Bool.not_true, Bool.false_eq_true, if_false, if_true]

theorem spareIn_idle {c : Nat} (pass : Bool) (h : d.rel.sparing.find? (fun x => x.1 == c) = none ∨ pdOn d (9 * c + 8) = false) :
    spareIn c pass d = d := by
  unfold spareIn
  split
  · rfl
  · next hf =>
    rcases h with h | h
    · rw [h] at hf
      cases hf
    · rw [h]
      rfl

end Injection

/-- Settles O58: ARM takes a detector whose arguments lie in range, DISARM ends an injection, an injection acts and
disarms a single one, a suspicion count decays, and a tested spare takes the name of the core it replaces. -/
theorem injectionAndSuspicion : Obligations.InjectionAndSuspicion := by
  unfold Obligations.InjectionAndSuspicion
  intro s hs
  refine ⟨fun val hr hl h3 => ?arm, fun val hr hl h1 => ?disarm, fun h => ?none, fun i h h0 hl => ?single, fun n h => ?core,
    fun n h => ?spare, fun c j phys cause h hp => ?takes, fun c pass h => ?waits⟩
  case arm =>
    obtain ⟨hmode, hramp⟩ := rdf_relInjCtl_stored s.dev.fresh.written s.dev.fresh val.toNat
    have hasked := armAsked_wr s.dev.fresh.written (injCtlVal s.dev.fresh val.toNat)
    have hw := busWrite_arm (d := s.dev.fresh) hl h3
    refine ⟨fun h0 hm hi hu ha => ?_, fun h => ?_⟩
    · refine does_of_actBar rfl hr (hw.trans ((injArm_once (hramp.trans ((bit_word val 0).trans h0)) (hmode.trans hm) hi ?_ ?_).trans ?_))
      · rw [hasked]
        exact hu
      · rw [hasked]
        exact ha
      · rw [hasked]
        rfl
    · refine does_of_actBar rfl hr (hw.trans (injArm_refused (h.imp (fun h => hramp.trans ((bit_word val 0).trans h)) (Or.imp id ?_))))
      rw [hasked]
      exact id
  case disarm => exact does_of_actBar rfl hr (busWrite_disarm (d := s.dev.fresh) hl h1)
  case none => exact does_of_act rfl hs (injection_none (d := s.dev.fresh) h)
  case single => exact does_of_act rfl hs (injection_single (d := s.dev.fresh) h h0 hl)
  case core => exact does_of_act rfl hs (suspicionDecay_core (d := s.dev.fresh) h)
  case spare => exact does_of_act rfl hs (suspicionDecay_spare (d := s.dev.fresh) h)
  case takes => exact does_of_act rfl hs (spareIn_takes (d := s.dev.fresh) h hp)
  case waits => exact does_of_act rfl hs (spareIn_idle (d := s.dev.fresh) pass h)

end Sys2Proof.Machine
end

section
/-! # Patrol units and the FULL run (spec/16 R418, R420 to R422) -/
namespace Sys2Proof.Machine

/-! ### Units -/

section Units
variable {d : Dev}

theorem patrolUnitStart_idle {u : PatrolUnit} (h : patrolUnit u = false ∨ d.rel.full.isSome = true ∨ d.rel.patrol.contains u = true) :
    patrolUnitStart u d = d :=
  if_pos (by
    rw [Bool.or_eq_true, Bool.or_eq_true, Bool.not_eq_true', or_assoc]
    exact h)

/-- The device with a unit under way. -/
def patrolRuns (d : Dev) (u : PatrolUnit) : Dev := { d with rel := { d.rel with patrol := d.rel.patrol ++ [u] } }

theorem not_patrolling {u : PatrolUnit} (hu : patrolUnit u = true) (hf : d.rel.full = none) (hc : d.rel.patrol.contains u = false) :
    (!patrolUnit u || d.rel.full.isSome || d.rel.patrol.contains u) = false := by
  rw [hu, hf, hc]
  rfl

theorem patrolUnitStart_core {n j : Nat} (hn : n < 72) (hf : d.rel.full = none) (hc : d.rel.patrol.contains (.core n) = false)
    (hj : nameOf d (n / 9) (n % 9) = some j) (hu : nameUp d (8 * (n / 9) + j) = true)
    (hr : patrolReady d (8 * (n / 9) + j) = true) (hcond : d.rel.condemned = []) (hen : rdb d .relPatrolCtl [] 0 = true)
    (hs : d.rel.suspect = []) (hp : pdOn d n = true) :
    patrolUnitStart (.core n) d = patrolRuns (setCoreState d (n / 9) (n % 9) 2) (.core n) := by
  have hg := not_patrolling (u := .core n) (decide_eq_true hn) hf hc
  have hgo : (d.rel.suspect.contains (8 * (n / 9) + j) || (rdb d .relPatrolCtl [] 0 && (suspectReady d).isEmpty)) = true := by
    simp [hen, suspectReady, hs]
  simp only [patrolUnitStart, hg, Bool.false_eq_true, if_false, hj, hu, hr, Bool.not_true, Bool.or_self, hcond, List.find?_nil,
    hp, hgo, if_true, patrolRuns]

theorem patrolUnitStart_pre {t : Nat} (ht : t < 64) (hf : d.rel.full = none) (hc : d.rel.patrol.contains (.pre t) = false)
    (hs : d.rel.suspect = []) (hen : rdb d .relPatrolCtl [] 0 = true) :
    patrolUnitStart (.pre t) d = patrolRuns d (.pre t) := by
  have hg := not_patrolling (u := .pre t) (decide_eq_true ht) hf hc
  have hgo : (rdb d .relPatrolCtl [] 0 && (suspectReady d).isEmpty) = true := by simp [hen, suspectReady, hs]
  simp only [patrolUnitStart, hg, Bool.false_eq_true, if_false, hgo, if_true, patrolRuns]

theorem patrolUnitEnd_idle {u : PatrolUnit} (f : Option (BitVec 8)) (h : d.rel.patrol.contains u = false) :
    patrolUnitEnd u f d = d :=
  if_pos (by rw [h]; rfl)

/-- The device whose pre-reducer's unit has ended. -/
def preEnded (d : Dev) (t : Nat) : Dev :=
  cnt1 { d with rel := { d.rel with patrol := d.rel.patrol.filter (· != .pre t) } } (srcRel 255 0) 11

theorem patrolUnitEnd_pre {t : Nat} (h : d.rel.patrol.contains (.pre t) = true) :
    patrolUnitEnd (.pre t) none d = preEnded d t ∧
      (∀ x : BitVec 8, patrolUnitEnd (.pre t) (some x) d =
        wrf (raise (raise (preEnded d t) (srcRel (t / 16) (t % 16)) 5 [(1, 1), (1, x.toNat)]) (srcPre t) 0) .preCtl (tix t) 30 30 1) := by
  simp only [patrolUnitEnd, h, Bool.not_true, Bool.false_eq_true, if_false, patrolFail, preEnded, true_and, implies_true]

/-- The device that has reported a core's failed test. -/
def coreTestFailed (d : Dev) (n test : Nat) : Dev := raise d (srcRel (n / 18) (coreUnit d n)) 5 [(1, 0), (1, test)]

theorem patrolFail_unnamed {n test : Nat} (h : nameOf (coreTestFailed d n test) (n / 9) (n % 9) = none) :
    patrolFail (.core n) test d = failCore n 0 (coreTestFailed d n test) := by
  unfold coreTestFailed at h ⊢
  simp only [patrolFail, h]

theorem patrolFail_named {n test j : Nat} (h : nameOf (coreTestFailed d n test) (n / 9) (n % 9) = some j) :
    (patrolReady (coreTestFailed d n test) (8 * (n / 9) + j) = true →
      patrolFail (.core n) test d = failCore n 0 (coreTestFailed d n test)) ∧
    (patrolReady (coreTestFailed d n test) (8 * (n / 9) + j) = false →
      patrolFail (.core n) test d = { coreTestFailed d n test with rel := { (coreTestFailed d n test).rel with
        condemned := (coreTestFailed d n test).rel.condemned.filter (fun x => x.1 != 8 * (n / 9) + j) ++ [(8 * (n / 9) + j, 0)] } }) := by
  unfold coreTestFailed at h ⊢
  refine ⟨fun hr => ?_, fun hr => ?_⟩
  · simp only [patrolFail, h, hr, if_true]
  · simp only [patrolFail, h, hr, Bool.false_eq_true, if_false]

end Units

/-! ### The FULL run -/

section Full
variable {d : Dev}

theorem meets_relPatrolCtl :
    MeetsReg (regAddr .relPatrolCtl []) .relPatrolCtl [] ∧ sleepDom (regAddr .relPatrolCtl []) = none := by
  decide +kernel

theorem bits_merge_relPatrolCtl (old val : Nat) : bits (merge false .relPatrolCtl old val) 0 0 = bits val 0 0 :=
  bits_merge .relPatrolCtl false old val (f := fl 0 0 .rw 1) (by simp [regRow])

/-- The word that a FULL write carries keeps bit 0. -/
theorem bits_fullWord {b : Nat} (hb : b < 2) : bits (2 ^ 31 + b) 0 0 = b ∧ bit (2 ^ 31 + b) 31 = true := by
  interval_cases b <;> decide

theorem busWrite_patrolFull (d : Dev) :
    busWrite (regAddr .relPatrolCtl []) (2 ^ 31 + rdf d .relPatrolCtl [] 0 0) d =
      patrolCtlWrite (merge false .relPatrolCtl (rd d .relPatrolCtl []) (2 ^ 31 + rdf d .relPatrolCtl [] 0 0))
        (2 ^ 31 + rdf d .relPatrolCtl [] 0 0) d.written :=
  busWrite_lockFree_awake meets_relPatrolCtl.1 meets_relPatrolCtl.2 rfl _ d

/-- The device is in use: a partition is live, or a context, a shard or memory of either is held. -/
def inUse (d : Dev) : Bool :=
  d.fwd.parts.any (fun e => e.2.st == 1) || !d.coll.ctxs.isEmpty || !d.opt.shards.isEmpty
    || decide (0 < collUsed d) || decide (0 < optUsed d)

theorem inUse_wrf_written (d : Dev) (r : Reg) (ix : List Nat) (m l v : Nat) : inUse (wrf d.written r ix m l v) = inUse d := rfl

theorem full_wrf_written (d : Dev) (r : Reg) (ix : List Nat) (m l v : Nat) :
    (wrf d.written r ix m l v).rel.full = d.rel.full := rfl

/-- The device that has stored the enable of a FULL write. -/
def fullWritten (d : Dev) : Dev := wrf d.written .relPatrolCtl [] 0 0 (rdf d .relPatrolCtl [] 0 0)

/-- The device with a FULL run under way and stacked memory cleared for it. -/
def fullCleared (d : Dev) : Dev :=
  { d with rel := { d.rel with full := some 0 }, mem := { d.mem with bytes := [], poison := [] } }

/-- The device whose FULL run begins. -/
def fullBegin (d : Dev) : Dev :=
  fullCleared (fullCores (wr (wrf d .relPatrolCtl [] 30 30 1) .relPatrolStatus [] 1) 2)

theorem patrolCtlWrite_full {m val : Nat} (hv : bit val 31 = true)
    (hf : (wrf d .relPatrolCtl [] 0 0 (bits m 0 0)).rel.full = none) :
    patrolCtlWrite m val d =
      if inUse (wrf d .relPatrolCtl [] 0 0 (bits m 0 0)) then raise (wrf d .relPatrolCtl [] 0 0 (bits m 0 0)) (srcRel 255 0) 8
      else fullBegin (wrf d .relPatrolCtl [] 0 0 (bits m 0 0)) := by
  unfold patrolCtlWrite
  generalize wrf d .relPatrolCtl [] 0 0 (bits m 0 0) = e at hf ⊢
  refine (if_neg ?_).trans rfl
  rw [hv, hf]
  exact Bool.false_ne_true

theorem busWrite_patrolFull_idle (hf : d.rel.full = none) :
    busWrite (regAddr .relPatrolCtl []) (2 ^ 31 + rdf d .relPatrolCtl [] 0 0) d =
      if inUse d then raise (fullWritten d) (srcRel 255 0) 8 else fullBegin (fullWritten d) := by
  obtain ⟨h0, h31⟩ := bits_fullWord (b := rdf d .relPatrolCtl [] 0 0) (bits_lt ..)
  rw [busWrite_patrolFull, patrolCtlWrite_full h31 ((full_wrf_written ..).trans hf), bits_merge_relPatrolCtl, h0,
    inUse_wrf_written]
  rfl

theorem setCoreState_keeps (d : Dev) (c i v : Nat) :
    RegsOnly d (setCoreState d c i v) ∧ ∀ r, (regAddr r []) < 0xA00000 → rd (setCoreState d c i v) r [] = rd d r [] := by
  unfold setCoreState
  split
  · refine ⟨regsOnly_wr .., fun r hr => rd_wr_other _ _ ?_⟩
    have h : 0xA00000 ≤ regAddr .rcCoreStateSpare [c / 2, c % 2] := by simp only [regAddr, regRow, dimOff]; omega
    omega
  · refine ⟨regsOnly_wr .., fun r hr => rd_wr_other _ _ ?_⟩
    have h : 0xA00000 ≤ regAddr .rcCoreState [c / 2, c % 2, i] := by simp only [regAddr, regRow, dimOff]; omega
    omega

/-- One core's step of setting every core's state. -/
def coreStep (st : Nat) (d : Dev) (n : Nat) : Dev :=
  if coreStateAt d (n / 9) (n % 9) = 3 then d
  else setCoreState d (n / 9) (n % 9) (if st = 2 then 2 else if n % 9 < 8 ∨ spareHolds d (n / 9) ≠ 15 then 1 else 0)

theorem coreStep_keeps (st : Nat) (d : Dev) (n : Nat) :
    RegsOnly d (coreStep st d n) ∧ ∀ r, (regAddr r []) < 0xA00000 → rd (coreStep st d n) r [] = rd d r [] := by
  unfold coreStep
  split
  · exact ⟨⟨_, rfl⟩, fun _ _ => rfl⟩
  · exact setCoreState_keeps ..

theorem fullCores_eq (d : Dev) (st : Nat) : fullCores d st = (List.range 72).foldl (coreStep st) d := rfl

/-- Setting every core's state changes registers of cores alone. -/
theorem fullCores_keeps (d : Dev) (st : Nat) :
    RegsOnly d (fullCores d st) ∧ ∀ r, (regAddr r []) < 0xA00000 → rd (fullCores d st) r [] = rd d r [] := by
  rw [fullCores_eq]
  generalize List.range 72 = l
  induction l generalizing d with
  | nil => exact ⟨⟨_, rfl⟩, fun _ _ => rfl⟩
  | cons n l ih =>
    obtain ⟨h1, h2⟩ := coreStep_keeps st d n
    obtain ⟨k1, k2⟩ := ih (coreStep st d n)
    exact ⟨h1.trans k1, fun r hr => (k2 r hr).trans (h2 r hr)⟩

theorem rd_fullCleared (d : Dev) (r : Reg) (ix : List Nat) : rd (fullCleared d) r ix = rd d r ix := rfl

theorem inUse_fresh (d : Dev) : inUse d.fresh = inUse d := rfl

theorem fullWritten_frame (d : Dev) : ∃ t c, fullWritten d = { d with regs := t, cnt := c, draw := d.draw + 1 } :=
  wrf_written_frame ..

/-- What a FULL run's begin leaves. -/
theorem fullBegin_spec (d : Dev) {e : Dev} (he : e = fullBegin (fullWritten d)) :
    e.rel = { d.rel with full := some 0 } ∧ e.mem = { d.mem with bytes := [], poison := [] } ∧
      rdb e .relPatrolCtl [] 30 = true ∧ rd e .relPatrolStatus = 1 ∧
      e = { d with rel := e.rel, mem := e.mem, regs := e.regs, cnt := e.cnt, draw := d.draw + 1 } := by
  obtain ⟨t, c, hw⟩ := fullWritten_frame d
  obtain ⟨⟨u, hu⟩, hrd⟩ := fullCores_keeps (wr (wrf (fullWritten d) .relPatrolCtl [] 30 30 1) .relPatrolStatus [] 1) 2
  have hctl : rdb e .relPatrolCtl [] 30 = true := by
    rw [rdb, he, fullBegin, rd_fullCleared, hrd .relPatrolCtl (by decide), rd_wr_other _ _ (by decide)]
    exact rdb_wrf_bit (fullWritten d) .relPatrolCtl [] (by decide) 1
  have hst : rd e .relPatrolStatus = 1 := by
    rw [he, fullBegin, rd_fullCleared, hrd .relPatrolStatus (by decide), rd_wr_same]
  have hfr : e = { d with rel := { d.rel with full := some 0 }, mem := { d.mem with bytes := [], poison := [] },
                          regs := e.regs, cnt := e.cnt, draw := d.draw + 1 } := by
    rw [he, fullBegin, hu, fullCleared]
    obtain ⟨t', ht'⟩ : RegsOnly (fullWritten d) (wr (wrf (fullWritten d) .relPatrolCtl [] 30 30 1) .relPatrolStatus [] 1) :=
      (regsOnly_wrf ..).trans (regsOnly_wr ..)
    rw [ht', hw]
  refine ⟨?_, ?_, hctl, hst, ?_⟩
  · rw [hfr]
  · rw [hfr]
  · rw [hfr]

theorem patrolDone_clean (h : d.rel.full.isSome = true) :
    patrolDone [] d =
      event (wr (wrf (fullCores (cntN { d with rel := { d.rel with full := none } } (srcRel 255 0) 11 232) 1) .relPatrolCtl [] 30 30 0)
        .relPatrolStatus [] 2) 0x1580 255 0 [(2, 0)] := by
  obtain ⟨n, hn⟩ := Option.isSome_iff_exists.mp h
  have h0 : natMin 65535 0 = 0 := rfl
  simp only [patrolDone, hn, List.filter_nil, List.length_nil, h0, Nat.zero_mul, Nat.zero_add, if_true, List.foldl_nil]

theorem patrolDone_idle (h : d.rel.full = none) (fs : List (PatrolUnit × BitVec 8)) : patrolDone fs d = d := by
  simp only [patrolDone, h]

end Full

theorem exec_patrolFull (s : State) :
    exec .patrolFull s = actBar (regAddr .relPatrolCtl [])
      (fun d => busWrite (regAddr .relPatrolCtl []) (2 ^ 31 + rdf d .relPatrolCtl [] 0 0) d) s := rfl

/-- Settles O59: a unit starts where it may, ends passed or failed, a core's is abandoned, and a FULL run needs an unused
device and ends with its units counted. -/
theorem patrol : Obligations.Patrol := by
  unfold Obligations.Patrol
  intro s hs
  refine ⟨fun u h => ?idle, fun n j hn hf hc hj hu hr hcond hen hsus hp => ?core, fun t ht hf hc hsus hen => ?pre,
    fun t h => ⟨?preEnd, fun x => ?preFail⟩, fun u f h => ?noEnd,
    fun d n test => ⟨patrolFail_unnamed, fun j h => ?named⟩, fun n hn => ?yields, fun t => ?keeps,
    ⟨fun hr hf hu => ?used, fun hr hf hu => ?unused⟩, fun h => ?done, fun h fs => ?noFull⟩
  case idle => exact does_of_act rfl hs (patrolUnitStart_idle (d := s.dev.fresh) h)
  case core => exact does_of_act rfl hs (patrolUnitStart_core (d := s.dev.fresh) hn hf hc hj hu hr hcond hen hsus hp)
  case pre => exact does_of_act rfl hs (patrolUnitStart_pre (d := s.dev.fresh) ht hf hc hsus hen)
  case preEnd => exact does_of_act rfl hs (patrolUnitEnd_pre (d := s.dev.fresh) h).1
  case preFail => exact does_of_act rfl hs ((patrolUnitEnd_pre (d := s.dev.fresh) h).2 x)
  case noEnd => exact does_of_act rfl hs (patrolUnitEnd_idle (d := s.dev.fresh) f h)
  case named =>
    have hf := patrolFail_named h
    unfold coreTestFailed at hf
    exact hf
  case yields => exact does_of_act (f := patrolYield (.core n)) rfl hs (if_pos hn)
  case keeps => exact does_of_act (f := patrolYield (.pre t)) rfl hs rfl
  case used =>
    exact gives_of_actBar (exec_patrolFull s) hr ((busWrite_patrolFull_idle (d := s.dev.fresh) hf).trans (if_pos ((inUse_fresh s.dev).trans hu)))
  case unused =>
    exact gives_of_actBar (exec_patrolFull s) hr (fullBegin_spec s.dev.fresh ((busWrite_patrolFull_idle (d := s.dev.fresh) hf).trans (if_neg (of_false ((inUse_fresh s.dev).trans hu)))))
  case done => exact does_of_act rfl hs (patrolDone_clean (d := s.dev.fresh) h)
  case noFull => exact does_of_act rfl hs (patrolDone_idle (d := s.dev.fresh) h fs)

end Sys2Proof.Machine
end

section
/-! # Monitoring (spec/17): what waits under the lock -/
namespace Sys2Proof.Machine

theorem meets_pmcCtl : MeetsReg (regAddr .pmcCtl []) .pmcCtl [] ∧ sleepDom (regAddr .pmcCtl []) = none := by decide +kernel

/-- A write of PMC_CTL takes its effect whether or not a lock stands: only some of its fields are under it. -/
theorem busWrite_pmcCtl (val : Nat) (d : Dev) :
    busWrite (regAddr .pmcCtl []) val d =
      pmcCtlWrite (merge (locked d .pmcCtl []) .pmcCtl (rd d .pmcCtl []) val) (lockMet (regAddr .pmcCtl []) .pmcCtl [] val d) := by
  have ho : onlyRwl .pmcCtl = false := rfl
  rw [busWrite_taken meets_pmcCtl.1 (asleepAt_of_sleepDom meets_pmcCtl.2 d) (by rw [ho, Bool.and_false])]
  rfl

/-- During a dump, a write of PMC_CTL whose own bit 31 is clear leaves a MODE that waits. -/
theorem mode_pmcCtlWrite {d : Dev} {v : Nat} (hd : d.pmc.dump.isSome = true) (h31 : rdb d .pmcCtl [] 31 = false) :
    (pmcCtlWrite v d).pmc.mode = some (bits v 1 0) := by
  simp only [pmcCtlWrite, hd, if_true, h31, Bool.false_eq_true, if_false]
  rfl

/-- A write of the lock bit of PMC_CTL that a sleeping domain holds. No run holds one, for the block never sleeps, but
nothing in the state forbids it, and a lock counts as set from the moment its write is held. -/
def heldLock : HeldWr := ⟨0, regAddr .pmcCtl [], false, 0x80000000⟩

/-- A device that runs, with a dump under way and the lock bit of PMC_CTL held. -/
def heldLockState : State :=
  { State.reset with dev := { State.reset.dev with
      pwr := { State.reset.dev.pwr with step := 8, porHigh := true, perstHigh := true, heldWr := [heldLock] }
      pmc := { State.reset.dev.pmc with dump := some ⟨false, 0, []⟩ } } }

theorem mode_heldLock : (busWrite (regAddr .pmcCtl []) 4 heldLockState.dev.fresh).pmc.mode =
    some (bits (merge (locked heldLockState.dev.fresh .pmcCtl []) .pmcCtl (rd heldLockState.dev.fresh .pmcCtl []) 4) 1 0) := by
  have hn : lockMet (regAddr .pmcCtl []) .pmcCtl [] 4 heldLockState.dev.fresh = heldLockState.dev.fresh.written :=
    if_neg (by decide +kernel)
  rw [busWrite_pmcCtl, hn]
  exact mode_pmcCtlWrite rfl (by decide +kernel)

/-- Refutes O60: PMC_CTL counts as locked by the write that is held, its bit 31 is still clear, and so a write during the
dump leaves a MODE that waits, which the lock should have kept from it. -/
theorem not_monitoring : ¬ Obligations.Monitoring := by
  intro h
  obtain ⟨-, -, hlock, -⟩ := h heldLockState (by decide)
  have hr : Reached heldLockState := by decide
  obtain ⟨e, hx, he⟩ := hlock 4 hr (by decide +kernel) rfl
  have hw := hx.symm.trans (actBar_eq_of_reached hr (regAddr .pmcCtl []) (busWrite (regAddr .pmcCtl []) 4))
  injection hw with hw
  have hmode : e.pmc.mode = some _ := (congrArg (fun t => t.dev.pmc.mode) hw).trans mode_heldLock
  rw [he] at hmode
  have hnone : heldLockState.dev.fresh.pmc.mode = none := rfl
  exact Option.some_ne_none _ (hmode.symm.trans hnone)

end Sys2Proof.Machine
end

section
/-! # Registers, memory, tables and collectives keep stacked memory in its canonical form (log entry 5):
the ways a change is put together, then each function of the model in the model's own order. -/
namespace Sys2Proof.Machine

/-- Stacked memory is in its canonical form (log entry 5). -/
def MemWf (d : Dev) : Prop := Memory.wf d.mem.bytes = true

section
variable {d : Dev}

protected theorem MemWf.of_bytes {e : Dev} (h : MemWf d) (he : e.mem.bytes = d.mem.bytes := by rfl) : MemWf e := by
  unfold MemWf; rw [he]; exact h

protected theorem MemWf.of_mem {e : Dev} (h : MemWf d) (he : e.mem = d.mem := by rfl) : MemWf e :=
  h.of_bytes (congrArg MemState.bytes he)

protected theorem MemWf.draw {n} (h : MemWf d) : MemWf { d with draw := n } := h

protected theorem MemWf.opt {o} (h : MemWf d) : MemWf { d with opt := o } := h

protected theorem MemWf.rt {r} (h : MemWf d) : MemWf { d with rt := r } := h

protected theorem MemWf.ite {c : Prop} {_ : Decidable c} {a b : Dev} (ha : MemWf a) (hb : MemWf b) :
    MemWf (if c then a else b) := by split; exacts [ha, hb]

protected theorem MemWf.ite_snd {α : Type} {c : Prop} {_ : Decidable c} {a b : α × Dev} (ha : MemWf a.2) (hb : MemWf b.2) :
    MemWf (if c then a else b).2 := by split; exacts [ha, hb]

protected theorem MemWf.pair {α : Type} {a : α} (h : MemWf d) : MemWf (a, d).2 := h

protected theorem MemWf.of_snd {α : Type} {p : α × Dev} {a : α} (h : MemWf p.2) (he : p = (a, d)) : MemWf d := by
  subst he; exact h

protected theorem MemWf.of_snd2 {α β : Type} {p : α × β × Dev} {a : α} {b : β} (h : MemWf p.2.2) (he : p = (a, b, d)) :
    MemWf d := by subst he; exact h

protected theorem MemWf.foldl {α : Type} {f : Dev → α → Dev} {l : List α} (hf : ∀ d x, MemWf d → MemWf (f d x))
    (h : MemWf d) : MemWf (l.foldl f d) := by
  induction l generalizing d with
  | nil => exact h
  | cons x l ih => exact ih (hf _ _ h)

protected theorem MemWf.foldl_snd {α β : Type} {f : β × Dev → α → β × Dev} {l : List α} {p : β × Dev}
    (hf : ∀ p x, MemWf p.2 → MemWf (f p x).2) (h : MemWf p.2) : MemWf (l.foldl f p).2 := by
  induction l generalizing p with
  | nil => exact h
  | cons x l ih => exact ih (hf _ _ h)

/-- Bytes that go to other addresses stay in the canonical form. -/
theorem wf_foldl_tput {m : Nat → Nat} {t t0 : Tab Byte} (h : Memory.wf t0 = true) :
    Memory.wf (t.foldl (fun t e => tput 0 t (m e.1) e.2) t0) = true := by
  induction t generalizing t0 with
  | nil => exact h
  | cons e t ih => exact ih (tabWf_tput h _ _)

theorem memWf_reset : MemWf Dev.reset := rfl

end

section
-- Each lemma cites the ones before it. Elaborated all at once they wait for one another, in more threads than the
-- memory of a check holds, so they are elaborated in turn.
set_option Elab.async false
variable {d : Dev}

/-! ### Registers, counters, events and records -/

protected theorem MemWf.wr {r ix v} (h : MemWf d) : MemWf (wr d r ix v) := h.of_mem

protected theorem MemWf.wrf {r ix msb lsb v} (h : MemWf d) : MemWf (wrf d r ix msb lsb v) := h.wr

protected theorem MemWf.cntAdd {off n} (h : MemWf d) : MemWf (cntAdd d off n) := h.of_mem

protected theorem MemWf.cntN {s n k} (h : MemWf d) : MemWf (cntN d s n k) := h.cntAdd

protected theorem MemWf.cnt1 {s n} (h : MemWf d) : MemWf (cnt1 d s n) := h.cntN

protected theorem MemWf.stSet {s b} (h : MemWf d) : MemWf (stSet d s b) := h.wr

protected theorem MemWf.mgmtPush {typ body} (h : MemWf d) : MemWf (mgmtPush d typ body).2 := .ite_snd h.of_mem h

protected theorem MemWf.storePush {e} (h : MemWf d) :
    MemWf (storePush d e) := by
  unfold storePush
  refine .ite h.of_mem ?_
  extract_lets d1 _
  have hd1 : MemWf d1 := h.cnt1.stSet
  exact hd1.of_mem

protected theorem MemWf.rewriteRecord {old new} (h : MemWf d) : MemWf (rewriteRecord d old new) := h.of_mem

protected theorem MemWf.coalesce {e} (h : MemWf d) :
    MemWf (coalesce d e).2 := by
  unfold coalesce
  dsimp only
  refine .ite_snd (.ite h.of_mem h) ?_
  split
  · exact h.of_mem.rewriteRecord
  · split
    · exact h.of_mem
    · exact .ite_snd (.ite h.of_mem h) (.ite_snd h h.of_mem)

protected theorem MemWf.record0 {e} (h : MemWf d) :
    MemWf (record0 d e) := by
  unfold record0
  dsimp only
  exact .ite (.ite h.storePush.mgmtPush h.storePush.mgmtPush.cnt1.stSet) h.storePush

protected theorem MemWf.emit0 {code die unit args} (h : MemWf d) :
    MemWf (emit0 d code die unit args) :=
  .ite h.of_mem.coalesce.record0 h.of_mem.coalesce

protected theorem MemWf.recordOut {e} (h : MemWf d) :
    MemWf (recordOut d e) := by
  unfold recordOut
  extract_lets d1 _ d2
  have hd1 : MemWf d1 := by
    refine .ite ?_ h
    split
    exact .ite (.of_snd h.mgmtPush ‹_›) (.emit0 (.stSet (.cnt1 (.of_snd h.mgmtPush ‹_›))))
  have hd2 : MemWf d2 := hd1.of_mem
  exact .ite (.ite hd1.of_mem hd2.cnt1.stSet.emit0) hd1

protected theorem MemWf.record {e} (h : MemWf d) : MemWf (record d e) := h.storePush.recordOut

protected theorem MemWf.event {code die unit args lanes} (h : MemWf d) :
    MemWf (event d code die unit args lanes) :=
  .ite h.of_mem.coalesce.record h.of_mem.coalesce

protected theorem MemWf.raiseAt {s n b args lanes} (h : MemWf d) :
    MemWf (raiseAt d s n b args lanes) :=
  h.cnt1.stSet.event

protected theorem MemWf.raise {s n args lanes} (h : MemWf d) : MemWf (raise d s n args lanes) := h.raiseAt

protected theorem MemWf.binError {cls die} (h : MemWf d) :
    MemWf (binError d cls die) := by
  unfold binError
  extract_lets _ _ _ d2
  have hd2 : MemWf d2 := h.cntAdd
  exact hd2.of_mem


/-! ### Injection marks, commands and host memory -/

protected theorem MemWf.takeMark {id die unit} (h : MemWf d) :
    MemWf (takeMark d id die unit).2 := by
  unfold takeMark
  dsimp only
  split
  · exact h.of_mem
  · exact h

protected theorem MemWf.trace {id a b} (h : MemWf d) : MemWf (trace d id a b) := .ite h.of_mem h

protected theorem MemWf.untrace {id a b} (h : MemWf d) : MemWf (untrace d id a b) := h.of_mem

protected theorem MemWf.retrace {id a b} (h : MemWf d) : MemWf (retrace d id a b) := .ite h.of_mem h

protected theorem MemWf.traced {id a b} (h : MemWf d) : MemWf (traced d id a b) := h.retrace.untrace

protected theorem MemWf.dmaWrite {addr bytes} (h : MemWf d) : MemWf (dmaWrite d addr bytes) := .ite h.of_mem h.of_mem

protected theorem MemWf.dmaFlush (h : MemWf d) : MemWf (dmaFlush d) := .ite h.of_mem h

protected theorem MemWf.dmaFail (h : MemWf d) : MemWf (dmaFail d) := h.raise

protected theorem MemWf.dmaGet {r} (h : MemWf d) :
    MemWf (dmaGet d r).2 := by
  unfold dmaGet
  split
  · split
    · exact .of_snd h.takeMark ‹_›
    · exact .dmaFail (.of_snd h.takeMark ‹_›)

protected theorem MemWf.setRing {r x} (h : MemWf d) : MemWf (setRing d r x) := h.of_mem

protected theorem MemWf.setProd {r v} (h : MemWf d) : MemWf (setProd d r v) := .ite h.wr h.wr

protected theorem MemWf.setCons {r v} (h : MemWf d) : MemWf (setCons d r v) := .ite h.wr h.wr

protected theorem MemWf.writeBack {r idx} (h : MemWf d) : MemWf (writeBack d r idx) := h.dmaWrite

protected theorem MemWf.raiseVec {v} (h : MemWf d) : MemWf (raiseVec d v) := .ite h.wr h.of_mem

protected theorem MemWf.ringWrite {r e} (h : MemWf d) :
    MemWf (ringWrite d r e) :=
  .ite h.dmaWrite.setProd.setRing.writeBack.raiseVec h.dmaWrite.setProd.setRing.writeBack

protected theorem MemWf.ringPush {r e} (h : MemWf d) : MemWf (ringPush d r e) := .ite h.ringWrite h.setRing

protected theorem MemWf.wrWords {r ix n k bs} (h : MemWf d) : MemWf (wrWords d r ix n k bs) := by
  induction n generalizing d k bs with
  | zero => exact h
  | succ n ih => exact ih h.wr

protected theorem MemWf.complete {rp status result data} (h : MemWf d) :
    MemWf (complete d rp status result data) := by
  unfold complete
  dsimp only
  split
  · exact .ite h.setRing.setRing.ringPush h
  · exact h.wrWords.wrf
  · exact h.of_mem

protected theorem MemWf.completeOpt {rp status result} (h : MemWf d) :
    MemWf (completeOpt d rp status result) := by
  unfold completeOpt
  split
  · exact h
  · exact h.complete

protected theorem MemWf.cmdOutput {rp addr bytes} (h : MemWf d) :
    MemWf (cmdOutput d rp addr bytes) := by
  unfold cmdOutput
  split
  · exact h
  · exact h.dmaWrite

protected theorem MemWf.cmdErr {rp} (h : MemWf d) : MemWf (cmdErr d rp) := h.raise

protected theorem MemWf.refuseGen {rp status} (h : MemWf d) : MemWf (refuseGen d rp status) := h.cmdErr.complete

protected theorem MemWf.refuseDma {rp} (h : MemWf d) : MemWf (refuseDma d rp) := h.refuseGen

protected theorem MemWf.reserveCpl {p} (h : MemWf d) :
    MemWf (reserveCpl d p) := by
  unfold reserveCpl
  dsimp only
  split
  · exact h.setRing.setRing
  · exact h

protected theorem MemWf.takeCmd {h'} (h : MemWf d) : MemWf (takeCmd d h') := h.of_mem.cnt1

protected theorem MemWf.runCmd {h' opc acc ps ok} {f : Dev → Reply → Dev} (hf : ∀ d rp, MemWf d → MemWf (f d rp))
    (h : MemWf d) : MemWf (runCmd d h' opc acc ps ok f) := by
  unfold runCmd
  dsimp only
  refine .ite h ?_
  split
  · exact h.takeCmd.refuseGen
  · exact .ite (hf _ _ h.takeCmd) h.takeCmd.refuseGen

protected theorem MemWf.withBlock {α : Type} {parse : List Byte → Option α} {b} {f : α → Dev → Reply → Dev} {rp}
    (hf : ∀ x d rp, MemWf d → MemWf (f x d rp)) (h : MemWf d) : MemWf (withBlock parse b f d rp) := by
  unfold withBlock
  split
  · exact (h.dmaGet.of_snd ‹_›).refuseDma
  · split
    · exact (h.dmaGet.of_snd ‹_›).refuseGen
    · exact hf _ _ _ (h.dmaGet.of_snd ‹_›)

protected theorem MemWf.setPv {p v x} (h : MemWf d) : MemWf (setPv d p v x) := h.of_mem

protected theorem MemWf.claimCells {n p v} (h : MemWf d) : MemWf (claimCells n d p v) := by
  induction n generalizing d with
  | zero => exact h
  | succ n ih => exact .ite (ih h.setPv) h

protected theorem MemWf.freeShared {n p v} (h : MemWf d) : MemWf (freeShared n d p v) := by
  induction n generalizing d with
  | zero => exact h
  | succ n ih => exact .ite (ih h.setPv) (ih h.setPv)

protected theorem MemWf.setIng {x} (h : MemWf d) : MemWf (setIng d x) := h.of_mem

protected theorem MemWf.setEgrQ {p v q} (h : MemWf d) : MemWf (setEgrQ d p v q) := h.of_mem

protected theorem MemWf.egrPush {p v e} (h : MemWf d) : MemWf (egrPush d p v e) := h.setEgrQ

protected theorem MemWf.setPart {p x} (h : MemWf d) : MemWf (setPart d p x) := h.of_mem


/-! ### Bytes, poison and check codes -/

protected theorem MemWf.memWr {a bs} (h : MemWf d) : MemWf (memWr d a bs) := memWr_wf h a bs

protected theorem MemWf.memZero {a n} (h : MemWf d) : MemWf (memZero d a n) := memZero_wf h a n

protected theorem MemWf.poisonAt {a n} (h : MemWf d) : MemWf (poisonAt d a n) := h.of_bytes

protected theorem MemWf.consumePoison {a} (h : MemWf d) : MemWf (consumePoison d a) := h.retrace.raise.wr.wr

protected theorem MemWf.sectorCheck {a e} (h : MemWf d) : MemWf (sectorCheck d a e).2 := by
  unfold sectorCheck
  extract_lets
  split
  rename_i m d1 he
  have h1 : MemWf d1 := h.takeMark.of_snd he
  extract_lets _ _ d2 d3 d4
  have hd2 : MemWf d2 := h1.of_mem
  have hd3 : MemWf d3 := hd2.raise
  have hd4 : MemWf d4 := hd3.binError
  clear_value d4
  split
  · exact .pair (.raise (.ite (.trace (.poisonAt (.ite h1 h1.untrace))) h1.retrace))
  · exact .ite_snd (.pair (.ite hd4 hd4.of_bytes)) h1

protected theorem MemWf.withFlaws {fl} {f : Dev → Dev} (hf : ∀ d, MemWf d → MemWf (f d)) (h : MemWf d) :
    MemWf (withFlaws fl f d) :=
  .of_bytes (hf _ h.of_bytes) rfl

protected theorem MemWf.sectorsCheck {ks es} (h : MemWf d) : MemWf (sectorsCheck d ks es).2 := by
  induction ks generalizing d es with
  | nil => exact h
  | cons k ks ih => exact ih h.sectorCheck

protected theorem MemWf.memCheck {a n es} (h : MemWf d) : MemWf (memCheck d a n es).2 := h.sectorsCheck

protected theorem MemWf.memHigh (h : MemWf d) :
    MemWf (memHigh d) := by
  unfold memHigh
  dsimp only
  refine .ite h ?_
  split
  · exact h.of_bytes
  · exact .ite h h.of_bytes.stSet.event


/-! ### Cells, credit and frames in the core -/

protected theorem MemWf.setSeam {die link x} (h : MemWf d) : MemWf (setSeam d die link x) := h.of_mem

protected theorem MemWf.freePlane {t} (h : MemWf d) : MemWf (freePlane d t).2 := .ite_snd h h.of_mem

protected theorem MemWf.launchFlight {t chan plane age l ds} (h : MemWf d) :
    MemWf (launchFlight d t chan plane age l ds) :=
  h.of_mem

protected theorem MemWf.issue {op r} (h : MemWf d) :
    MemWf (issue d op r) := by
  unfold issue
  dsimp only
  split
  · exact h.of_bytes
  · exact h.freePlane.launchFlight

protected theorem MemWf.answer {m} (h : MemWf d) :
    MemWf (answer d m) := by
  unfold answer
  dsimp only
  split
  · exact h
  · exact h.freePlane.launchFlight


/-! ### Stacked-memory requests -/

protected theorem MemWf.memStore {r a bs} (h : MemWf d) :
    MemWf (memStore d r a bs) := by
  unfold memStore
  dsimp only
  split
  · exact h.memWr
  · exact h.of_mem

protected theorem MemWf.memTake {op r} (h : MemWf d) : MemWf (memTake d op r) := h.of_bytes

protected theorem MemWf.respond {op r data bad} (h : MemWf d) : MemWf (respond d op r data bad) := h.answer

protected theorem MemWf.scrubbed {a es} (h : MemWf d) :
    MemWf (scrubbed a es d) := by
  unfold scrubbed
  extract_lets _
  split
  · extract_lets d1 _
    have hd1 : MemWf d1 := .ite (.cnt1 (.cnt1 (.of_snd h.cnt1.memCheck ‹_›))) (.of_snd h.cnt1.memCheck ‹_›)
    exact .of_bytes (.ite (.cnt1 (.cnt1 (.of_snd h.cnt1.memCheck ‹_›))) (.of_snd h.cnt1.memCheck ‹_›))

protected theorem MemWf.memReadAct {r es} (h : MemWf d) :
    MemWf (memReadAct r es d) := by
  unfold memReadAct
  refine .ite h.scrubbed ?_
  split
  exact .respond (.of_snd h.cnt1.memCheck ‹_›)

protected theorem MemWf.memWriteAct {r es} (h : MemWf d) :
    MemWf (memWriteAct r es d) :=
  h.cnt1.sectorsCheck.memStore.respond

protected theorem MemWf.redApply {code r es} (h : MemWf d) :
    MemWf (redApply code r es d) :=
  .ite h.cnt1.memCheck.respond (.respond (.foldl (fun _ _ h => h.memStore) h.cnt1.memCheck))

protected theorem MemWf.cntApply {r es} (h : MemWf d) :
    MemWf (cntApply r es d) := by
  unfold cntApply
  dsimp only
  refine .ite h.memCheck.respond ?_
  split
  · exact h.memCheck.memWr.respond.answer
  · exact h.memCheck.memWr.respond

protected theorem MemWf.rdclrAct {r es} (h : MemWf d) : MemWf (rdclrAct r es d) := h.cnt1.memCheck.respond.memZero

protected theorem MemWf.reqAct {x} (h : MemWf d) :
    MemWf (reqAct x d) := by
  unfold reqAct
  split
  · exact h.memReadAct
  · exact h.memWriteAct
  · exact h.cntApply
  · exact h.rdclrAct
  · exact h.redApply

protected theorem MemWf.drainUnits {a n} (h : MemWf d) :
    MemWf (drainUnits d a n) :=
  .foldl (fun _ _ h => h.memTake.reqAct) h

protected theorem MemWf.memGet {a n} (h : MemWf d) : MemWf (memGet d a n).2 := h.drainUnits.cntN.memCheck

protected theorem MemWf.memPut {a bs} (h : MemWf d) : MemWf (memPut d a bs) := h.drainUnits.cntN.memWr

protected theorem MemWf.memClear {a n} (h : MemWf d) : MemWf (memClear d a n) := h.drainUnits.cntN.memZero


/-! ### Forwarding tables -/

protected theorem MemWf.setEm {em} (h : MemWf d) : MemWf (setEm d em) := h.of_mem

protected theorem MemWf.stageOp {die op} (h : MemWf d) : MemWf (stageOp d die op).2 := by
  unfold stageOp
  extract_lets _ mark
  have hm {d : Dev} {c : Changed} (h : MemWf d) : MemWf (mark d c) := h.of_mem
  clear_value mark
  refine .ite_snd (.pair h.raise) ?_
  split
  · exact h
  · extract_lets
    split
    · exact .pair (hm h.setEm)
    · split
      · exact .pair (hm h.setEm)
      · exact .pair h.raise
  · exact .pair (hm h.setEm)
  · exact .pair (hm h.of_mem)
  · exact .pair (hm h.setPart)
  · exact .pair (hm h.of_mem)

protected theorem MemWf.armCommit {due rp} (h : MemWf d) : MemWf (armCommit d due rp) := h.of_mem

protected theorem MemWf.sequence {h'} (h : MemWf d) :
    MemWf (sequence d h') := by
  unfold sequence
  dsimp only
  refine .ite h.of_mem ?_
  split
  · exact h.armCommit
  · exact h.stageOp.completeOpt

protected theorem MemWf.releaseHeld {n} (h : MemWf d) : MemWf (releaseHeld n d) := by
  induction n generalizing d with
  | zero => exact h
  | succ n ih =>
    unfold releaseHeld
    refine .ite h ?_
    split
    · exact h
    · exact ih h.of_mem.sequence

protected theorem MemWf.setFlood {die p tok} (h : MemWf d) : MemWf (setFlood d die p tok) := h.of_mem

protected theorem MemWf.settleFlood {cs} (h : MemWf d) : MemWf (settleFlood cs d) := by
  have one {p die} {d : Dev} (h : MemWf d) : MemWf (if (tget? d.fwd.flood (die * 4096 + p)).isSome then
      setFlood d die p (floodTok d die p) else d) := .ite h.setFlood h
  fun_induction settleFlood with
  | case1 => exact h
  | case2 d p r one' ih => exact ih (one (one (one (one h))))
  | case3 d c r hc ih => exact ih h

protected theorem MemWf.fwdEpochCommit {die} (h : MemWf d) : MemWf (fwdEpochCommit die d) := h.sequence

protected theorem MemWf.epochFlip (h : MemWf d) :
    MemWf (epochFlip d) := by
  unfold epochFlip
  split
  · exact h
  · extract_lets d1 _ d2 _ _ d3
    have hd1 : MemWf d1 := h.settleFlood
    have hd2 : MemWf d2 := hd1.wr
    have hd3 : MemWf d3 := hd2.of_mem
    exact hd3.completeOpt

protected theorem MemWf.settleOne {c} (h : MemWf d) :
    MemWf (settleOne d c) := by
  unfold settleOne
  dsimp only
  split
  · exact h.setEm
  · exact h.of_mem
  · exact h.setPart
  · exact h.of_mem

protected theorem MemWf.settlingEnd (h : MemWf d) :
    MemWf (settlingEnd d) :=
  .ite (.releaseHeld (.of_mem (.foldl (fun _ _ h => h.settleOne) h))) h

protected theorem MemWf.learn {die q} (h : MemWf d) :
    MemWf (learn d die q) := by
  unfold learn
  dsimp only
  split
  · split
    · exact h.setEm
    · exact h.raise
  · exact .ite h.setEm (.ite h.raise h.setEm.cnt1)

protected theorem MemWf.learnInsert {die} (h : MemWf d) :
    MemWf (learnInsert die d) := by
  unfold learnInsert
  split
  · exact h
  · exact h.of_mem.learn

protected theorem MemWf.agingSweep (h : MemWf d) : MemWf (agingSweep d) := .ite h.setEm h

protected theorem MemWf.emRepair {slot e} (h : MemWf d) : MemWf (emRepair d slot e) := h.of_mem

protected theorem MemWf.scrubSlotRead {shadow} (h : MemWf d) :
    MemWf (scrubSlotRead shadow d) := by
  unfold scrubSlotRead
  refine .ite h ?_
  extract_lets _ _ d1 _ _ _ _ d2
  have hd1 : MemWf d1 := h.of_mem
  have hd2 : MemWf d2 := hd1.raise
  split
  · split
    · exact hd1
    · extract_lets d3
      have hd3 : MemWf d3 := hd1.raise
      exact .ite hd3.emRepair.cnt1 hd3
  · refine .ite hd2 ?_
    refine .ite ?_ hd2.emRepair.cnt1
    split
    · extract_lets _
      exact .cnt1 (.emRepair (.of_snd hd2.dmaGet ‹_›))
    · exact .of_snd hd2.dmaGet ‹_›

protected theorem MemWf.shadowRecord {r} (h : MemWf d) :
    MemWf (shadowRecord d r) := by
  unfold shadowRecord
  dsimp only
  refine .ite h ?_
  refine .ite h.raise ?_
  split
  · exact h.raise.emRepair
  · split
    · exact h.raise.setEm
    · exact h.raise.raise

protected theorem MemWf.shadowPass {img} (h : MemWf d) :
    MemWf (shadowPass img d) := by
  unfold shadowPass
  refine .ite h ?_
  split
  · exact .of_snd h.dmaGet ‹_›
  · refine .ite (.cnt1 (.of_snd h.dmaGet ‹_›)) ?_
    extract_lets _ d1 _
    have hd1 : MemWf d1 := .foldl (fun _ _ h => h.shadowRecord) (.of_snd h.dmaGet ‹_›)
    exact .ite hd1 hd1.raise

protected theorem MemWf.fwdAgeCtlWrite {val} (h : MemWf d) :
    MemWf (fwdAgeCtlWrite val d) := by
  unfold fwdAgeCtlWrite
  extract_lets d1 _
  have hd1 : MemWf d1 := h.wr
  exact hd1.of_mem

protected theorem MemWf.emCtlWrite {val} (h : MemWf d) :
    MemWf (emCtlWrite val d) := by
  unfold emCtlWrite
  extract_lets _ d1 _
  have hd1 : MemWf d1 := h.wr
  exact .ite hd1.of_mem hd1


/-! ### Routing -/

protected theorem MemWf.tsqPush {p tsid lost} (h : MemWf d) :
    MemWf (tsqPush d p tsid lost) :=
  .ite h.of_mem.cnt1 h.cntN.stSet.event

protected theorem MemWf.noteSent {t cells ps} (h : MemWf d) : MemWf (noteSent d t cells ps) := h.of_mem

protected theorem MemWf.noteWarm {b} (h : MemWf d) : MemWf (noteWarm d b) := .ite h.of_mem h

protected theorem MemWf.spray {t b ms h' v} (h : MemWf d) :
    MemWf (spray d t b ms h' v).2 :=
  .ite_snd h h.noteWarm.of_mem.cnt1

protected theorem MemWf.viaBundle {p b h'} (h : MemWf d) : MemWf (viaBundle d p b h').2 := by
  unfold viaBundle
  extract_lets
  split
  · exact .pair h.raise
  · exact h.spray

protected theorem MemWf.redirect {p q h'} (h : MemWf d) : MemWf (redirect d p q h').2 := by
  unfold redirect
  dsimp only
  split
  · exact h.raise.viaBundle
  · exact .pair h.raise

protected theorem MemWf.resolveUni {p h'} (h : MemWf d) :
    MemWf (resolveUni d p h').2 := by
  unfold resolveUni
  dsimp only
  split
  · exact h.cnt1
  · exact .ite_snd h.cnt1.viaBundle (.ite_snd h.cnt1.cnt1 (.ite_snd h.cnt1 h.cnt1.redirect))

protected theorem MemWf.resolve {p h'} (h : MemWf d) : MemWf (resolve d p h').2 := by
  unfold resolve
  split
  · exact .ite_snd h (.pair h.raise)
  · exact h.resolveUni

protected theorem MemWf.setHalf {die idx half v} (h : MemWf d) : MemWf (setHalf d die idx half v) := h.of_mem

protected theorem MemWf.trackIn {die idx} (h : MemWf d) : MemWf (trackIn d die idx).2 := h.setHalf

protected theorem MemWf.flipCur {die idx} (h : MemWf d) : MemWf (flipCur d die idx) := h.of_mem

protected theorem MemWf.openFence {i idx} (h : MemWf d) :
    MemWf (openFence d i idx).2 := by
  unfold openFence
  extract_lets _ d1
  have hd1 : MemWf d1 := h.flipCur
  split
  exact .of_mem (.of_snd hd1.trackIn ‹_›)


/-! ### Collective contexts -/

protected theorem MemWf.freeCells {i} (h : MemWf d) : MemWf (freeCells d i) := .ite h.of_mem h.of_mem.setPv.freeShared

protected theorem MemWf.settleIng {i} (h : MemWf d) :
    MemWf (settleIng d i) :=
  .ite (.ite h.freeCells.of_mem h.freeCells.setIng) h.setIng

protected theorem MemWf.freeIng {id} (h : MemWf d) :
    MemWf (freeIng d id) := by
  unfold freeIng
  split
  · exact h
  · exact h.settleIng

protected theorem MemWf.noDest {die} (h : MemWf d) : MemWf (noDest d die) := h.raise

protected theorem MemWf.setCoreState {c i v} (h : MemWf d) : MemWf (setCoreState d c i v) := .ite h.wr h.wr

protected theorem MemWf.dropBcasts {u} (h : MemWf d) : MemWf (dropBcasts d u) := h.of_mem

protected theorem MemWf.abandonCore {n} (h : MemWf d) :
    MemWf (abandonCore d n) := by
  unfold abandonCore
  refine .ite ?_ h
  extract_lets d1 _ d2 _
  have hd1 : MemWf d1 := h.dropBcasts
  have hd2 : MemWf d2 := hd1.of_mem
  exact hd2.setCoreState.cnt1

protected theorem MemWf.yieldName {q} (h : MemWf d) : MemWf (yieldName d q) := h.abandonCore

protected theorem MemWf.setCtx {slot c} (h : MemWf d) : MemWf (setCtx d slot c) := h.of_mem

protected theorem MemWf.setShard {sh x} (h : MemWf d) : MemWf (setShard d sh x) := h.of_mem

protected theorem MemWf.ownPush {tile p v f} (h : MemWf d) :
    MemWf (ownPush d tile p v f) := by
  unfold ownPush
  extract_lets d1 _
  have hd1 : MemWf d1 := h.noteSent
  exact hd1.of_mem

protected theorem MemWf.sendTo {home tile t f} (h : MemWf d) :
    MemWf (sendTo d home tile t f) := by
  unfold sendTo
  refine .ite ?_ h.noDest
  refine .ite h.ownPush ?_
  split
  exact .ownPush (.of_snd h.spray ‹_›)

protected theorem MemWf.sendAll {home tile ts f} (h : MemWf d) :
    MemWf (sendAll d home tile ts f) :=
  .foldl (fun _ _ h => h.sendTo) h

protected theorem MemWf.unbind {c} (h : MemWf d) :
    MemWf (unbind d c) := by
  unfold unbind
  dsimp only
  refine .ite ?_ h
  split
  · exact h
  · exact h.setShard

protected theorem MemWf.maybeClosed {slot} (h : MemWf d) :
    MemWf (maybeClosed d slot) := by
  unfold maybeClosed
  dsimp only
  split
  · exact h
  · exact .ite h.setCtx.unbind.event h

protected theorem MemWf.advance {slot} (h : MemWf d) :
    MemWf (advance d slot) := by
  unfold advance
  split
  · exact h
  · refine .ite ?_ h
    extract_lets _ _ d1 d2 d3 d4
    have hd1 : MemWf d1 := h.setCtx
    have hd2 : MemWf d2 := .ite hd1.stSet.event hd1
    have hd3 : MemWf d3 := hd2.setCtx
    have hd4 : MemWf d4 := .ite hd3.raiseAt hd2
    exact hd4.maybeClosed

protected theorem MemWf.chunkComplete {slot chunk} (h : MemWf d) :
    MemWf (chunkComplete d slot chunk) := by
  unfold chunkComplete
  dsimp only
  split
  · exact h
  · exact .advance (.ite (.ite (.foldl (fun _ _ h => h.event) h.setCtx.cnt1.cntN) h.setCtx.cnt1.cntN) h.setCtx.cnt1)

protected theorem MemWf.rubNotice {slot c reason chunk} (h : MemWf d) :
    MemWf (rubNotice d slot c reason chunk) :=
  .ite h.sendTo (.ite h.sendTo h)

protected theorem MemWf.dropResults {c} (h : MemWf d) : MemWf (dropResults d c) := h.of_mem

protected theorem MemWf.abortCtx {slot reason rank chunk} (h :
    MemWf d) : MemWf (abortCtx d slot reason rank chunk) := by
  unfold abortCtx
  split
  · exact h
  · refine .ite ?_ h
    extract_lets _ _ d1 d2 _ _ d3 d4 d5 d6 d7
    have hd1 : MemWf d1 := h.dropResults
    have hd2 : MemWf d2 := hd1.setCtx
    clear_value d2
    have hd3 : MemWf d3 := hd2.of_mem
    clear_value d3
    have hd4 : MemWf d4 := by
      unfold d4
      split
      · exact hd3.setShard
      · exact hd3
    clear_value d4
    have hd5 : MemWf d5 := .ite hd4 hd4.sendAll
    have hd6 : MemWf d6 := hd5.rubNotice
    have hd7 : MemWf d7 := .foldl (fun _ _ h => h.freeIng) hd6
    exact hd7.raise

protected theorem MemWf.abortWhere {q reason} (h : MemWf d) :
    MemWf (abortWhere d q reason) :=
  .foldl (fun _ _ h => h.abortCtx) h

protected theorem MemWf.linkAborts {p} (h : MemWf d) :
    MemWf (linkAborts d p) := by
  unfold linkAborts
  dsimp only
  refine .foldl (fun _ _ h => ?_) h
  split
  · exact h
  · refine .ite h ?_
    split
    · exact h.abortCtx
    · exact .ite h.abortCtx h

protected theorem MemWf.bundleAborts (h : MemWf d) :
    MemWf (bundleAborts d) := by
  unfold bundleAborts
  dsimp only
  refine .foldl (fun _ _ h => ?_) h
  split
  · exact h
  · refine .ite h ?_
    split
    · exact h.abortCtx
    · exact .ite h.abortCtx h

protected theorem MemWf.flipEpoch (h : MemWf d) :
    MemWf (flipEpoch d) := by
  unfold flipEpoch
  split
  · exact h
  · exact h.epochFlip.bundleAborts

protected theorem MemWf.sendDown {slot tile c ts f} (h : MemWf d) :
    MemWf (sendDown d slot tile c ts f) := by
  unfold sendDown
  dsimp only
  split
  · exact h.sendAll.abortCtx
  · exact h.sendAll

end

end Sys2Proof.Machine
end

section
/-! # Reductions, optimizer shards, kernels and the store keep stacked memory in its canonical form. -/
namespace Sys2Proof.Machine

section
-- Each lemma cites the ones before it. Elaborated all at once they wait for one another, in more threads than the
-- memory of a check holds, so they are elaborated in turn.
set_option Elab.async false
variable {d : Dev}

/-! ### Reduction cores -/

protected theorem MemWf.addSusp {q n} (h : MemWf d) :
    MemWf (addSusp d q n) := by
  unfold addSusp
  refine .ite h ?_
  extract_lets _ _ _ _ _ d1 _ d2 _ d3 _ d4
  have hd1 : MemWf d1 := h.wrf
  have hd2 : MemWf d2 := hd1.of_mem
  have hd3 : MemWf d3 := .ite hd2.of_mem hd2
  have hd4 : MemWf d4 := hd3.of_mem
  exact .ite hd4.raise hd3

protected theorem MemWf.spadCheck {q e} (h : MemWf d) : MemWf (spadCheck d q e).2 := by
  unfold spadCheck
  extract_lets
  split
  rename_i m d1 he
  have h1 : MemWf d1 := h.takeMark.of_snd he
  extract_lets
  split
  · exact h1
  · split
    · exact .pair h1.raise.binError
    · exact .pair h1.raise.addSusp

protected theorem MemWf.pushOut {tile p} (h : MemWf d) : MemWf (pushOut d tile p) := h.of_mem

protected theorem MemWf.setPre {tile l} (h : MemWf d) : MemWf (setPre d tile l) := h.of_mem

protected theorem MemWf.preMismatch {tile slot chunk} (h : MemWf d) :
    MemWf (preMismatch d tile slot chunk) := by
  unfold preMismatch
  exact h.setPre.raise.wrf.abortCtx

protected theorem MemWf.preReduceAdd {tile mismatch} (h : MemWf d) :
    MemWf (preReduceAdd tile mismatch d) := by
  unfold preReduceAdd
  dsimp only
  split
  · exact h
  · split
    · exact h.of_mem
    · split
      · exact h.of_mem.freeIng
      · refine .ite h.of_mem.freeIng ?_
        split
        · exact h.of_mem.freeIng.pushOut
        · refine .ite h.of_mem.freeIng.pushOut.cnt1 ?_
          refine .ite h.of_mem.freeIng.takeMark.preMismatch ?_
          split
          · exact .ite h.of_mem.freeIng.takeMark.setPre.pushOut.cnt1 h.of_mem.freeIng.takeMark.setPre
          · exact h.of_mem.freeIng.takeMark.setPre

protected theorem MemWf.preWaitExpiry {tile idx} (h : MemWf d) :
    MemWf (preWaitExpiry tile idx d) := by
  unfold preWaitExpiry
  dsimp only
  split
  · exact h
  · split
    · exact h.setPre.cnt1
    · exact .ite (.foldl (fun _ _ h => h.pushOut) h.setPre.cnt1) h.setPre.cnt1.pushOut.cnt1

protected theorem MemWf.spillOperand {tile c p} (h : MemWf d) :
    MemWf (spillOperand d tile c p) :=
  .of_mem (.ite (.foldl (fun _ _ h => h.issue) h) (.cnt1 (.foldl (fun _ _ h => h.issue) h)))

protected theorem MemWf.spillCntIssue {tile} (h : MemWf d) :
    MemWf (spillCntIssue tile d) := by
  unfold spillCntIssue
  dsimp only
  split
  · exact h
  · split
    · exact h.of_mem
    · exact h.of_mem.issue

protected theorem MemWf.stageOperand {q p} (h : MemWf d) :
    MemWf (stageOperand d q p) := by
  unfold stageOperand
  dsimp only
  split
  · exact h
  · refine .ite h ?_
    refine .ite ?_ h.abandonCore.of_mem
    split
    · exact h.abandonCore.of_mem.setCtx
    · exact h.abandonCore.of_mem

protected theorem MemWf.finishChunk {slot c k} (h : MemWf d) :
    MemWf (finishChunk d slot c k) :=
  .ite h.setCtx h.setCtx.chunkComplete

protected theorem MemWf.checkChunk {slot chunk} (h : MemWf d) :
    MemWf (checkChunk d slot chunk) := by
  unfold checkChunk
  dsimp only
  split
  · exact h
  · split
    · exact h
    · refine .ite h ?_
      refine .ite h.finishChunk ?_
      split
      · exact h
      · exact .foldl (fun _ _ h => h.issue) h.setCtx

protected theorem MemWf.spillReturn {slot chunk addr data} (h : MemWf d) :
    MemWf (spillReturn d slot chunk addr data) := by
  unfold spillReturn
  dsimp only
  split
  · exact h
  · split
    · exact h
    · split
      · exact h
      · exact .ite h.finishChunk h.setCtx

protected theorem MemWf.countNotice {slot chunk n} (h : MemWf d) :
    MemWf (countNotice d slot chunk n) := by
  unfold countNotice
  split
  · exact h
  · split
    · exact h
    · exact h.setCtx.checkChunk

protected theorem MemWf.heldBack {c chunk l} (h : MemWf d) : MemWf (heldBack d c chunk l).2 := by
  induction l generalizing d with
  | nil => exact h
  | cons i r ih =>
    unfold heldBack
    dsimp only
    split
    · exact h.memGet
    · exact ih h.memGet

protected theorem MemWf.accOrdered {c k x} (h : MemWf d) : MemWf (accOrdered d c k x) := by
  unfold accOrdered
  extract_lets
  split
  extract_lets
  split
  · exact .abortCtx (.consumePoison (.of_snd h.heldBack ‹_›))
  · rename_i d1 he
    have h1 : MemWf d1 := h.heldBack.of_snd he
    split
    rename_i d2 he2
    have h2 : MemWf d2 := .of_snd (.ite_snd h1 h1.memPut.cnt1) he2
    exact h2.setCtx.checkChunk

protected theorem MemWf.accumulate {x} (h : MemWf d) :
    MemWf (accumulate d x) := by
  unfold accumulate
  dsimp only
  split
  · exact h
  · split
    · exact h
    · exact .ite h (.ite h.accOrdered h.setCtx.checkChunk)

protected theorem MemWf.shadowAdd {x c k} (h : MemWf d) : MemWf (shadowAdd d x c k) := h.setCtx

protected theorem MemWf.coreAccumulate {core ecc} (h : MemWf d) :
    MemWf (coreAccumulate core ecc d) := by
  unfold coreAccumulate
  dsimp only
  split
  · exact h
  · refine .ite h ?_
    refine .ite (.abortCtx (.of_mem (.ite_snd h.spadCheck h))) ?_
    split
    · exact .shadowAdd (.of_mem (.ite_snd h.spadCheck h))
    · exact .accumulate (.of_mem (.ite_snd h.spadCheck h))

protected theorem MemWf.overlockMismatch {slot c k} (h : MemWf d) :
    MemWf (overlockMismatch d slot c k) := by
  unfold overlockMismatch
  exact h.raise.stSet.binError.addSusp.addSusp.abortCtx

protected theorem MemWf.nanCheck {c chunk ty vs} (h : MemWf d) :
    MemWf (nanCheck d c chunk ty vs) := by
  unfold nanCheck
  dsimp only
  split
  · exact h
  · exact .ite (.cnt1 (.ite h.raise h)) (.ite h.raise h)

protected theorem MemWf.sendSegs {slot c kind chunk ot w vals} (h : MemWf d) :
    MemWf (sendSegs d slot c kind chunk ot w vals).2 := by
  unfold sendSegs
  dsimp only
  refine .foldl_snd (fun _ _ h => ?_) h
  split
  · exact .ite_snd h h.sendDown
  · exact h

protected theorem MemWf.resultSend {slot chunk} (h : MemWf d) :
    MemWf (resultSend slot chunk d) := by
  unfold resultSend
  dsimp only
  split
  · exact h
  · split
    · exact h
    · exact .ite h (.cntN (.sendSegs (.setCtx (.ite h h.nanCheck))))

protected theorem MemWf.sendCredit {slot} (h : MemWf d) :
    MemWf (sendCredit d slot) := by
  unfold sendCredit
  dsimp only
  split
  · exact h
  · exact h.setCtx.cntN.sendDown

protected theorem MemWf.creditSend {slot} (h : MemWf d) :
    MemWf (creditSend slot d) := by
  unfold creditSend
  split
  · exact h
  · exact .ite h.sendCredit h

protected theorem MemWf.stragglerTimeout {slot chunk} (h : MemWf d) :
    MemWf (stragglerTimeout slot chunk d) := by
  unfold stragglerTimeout
  dsimp only
  split
  · exact h
  · split
    · exact h
    · exact .ite h h.raise.abortCtx

protected theorem MemWf.quarantineExpiry {slot} (h : MemWf d) :
    MemWf (quarantineExpiry slot d) := by
  unfold quarantineExpiry
  split
  · exact h
  · exact .ite h.of_mem h

protected theorem MemWf.patReject {rp pat st res} (h : MemWf d) :
    MemWf (patReject d rp pat st res) :=
  h.raise.complete

protected theorem MemWf.storePattern {pat part ms n e} (h : MemWf d) (he : storePattern d pat part ms = some (n, e)) :
    MemWf e := by
  unfold storePattern at he
  dsimp only at he
  split at he
  · cases he
  · cases he; exact h.of_mem.memPut

protected theorem MemWf.patSet {pat part n list rp} (h : MemWf d) :
    MemWf (patSet pat part n list d rp) := by
  unfold patSet
  dsimp only
  refine .ite h.patReject ?_
  split
  · exact .refuseDma (.of_snd h.dmaGet ‹_›)
  · split
    · exact .patReject (.of_snd h.dmaGet ‹_›)
    · split
      · exact .patReject (.of_snd h.dmaGet ‹_›)
      · exact .complete (.storePattern (.of_snd h.dmaGet ‹_›) ‹_›)

protected theorem MemWf.collReject {rp slot st} (h : MemWf d) : MemWf (collReject d rp slot st) := h.raise.complete

protected theorem MemWf.quiesce {slot} (h : MemWf d) :
    MemWf (quiesce d slot) := by
  unfold quiesce
  split
  · exact h
  · exact h.setCtx.unbind

protected theorem MemWf.setPartState {p st} (h : MemWf d) :
    MemWf (setPartState d p st) :=
  .ite h.setPart.abortWhere h.setPart

protected theorem MemWf.partDrained {p} (h : MemWf d) : MemWf (partDrained p d) := .ite h.setPart.event h


/-! ### Memory commands -/

protected theorem MemWf.memScrubRead {ecc} (h : MemWf d) :
    MemWf (memScrubRead ecc d) :=
  .ite (.ite (.ite h h.issue) h.memTake.scrubbed) h


/-! ### Shards -/

protected theorem MemWf.sideUnpack {a l bs} (h : MemWf d) : MemWf (sideUnpack a l bs d) := by
  induction l generalizing d bs with
  | nil => exact h
  | cons x r ih => exact ih h.memPut

protected theorem MemWf.sideGet {a segs} (h : MemWf d) : MemWf (sideGet d a segs) := .foldl (fun _ _ h => h.memGet) h

protected theorem MemWf.slotGet {s side k g e n} (h : MemWf d) :
    MemWf (slotGet d s side k g e n) :=
  .foldl (fun _ _ h => h.memGet) h

protected theorem MemWf.basteSlot {sh s k g j e vs} (h : MemWf d) :
    MemWf (basteSlot d sh s k g j e vs) := by
  unfold basteSlot
  dsimp only
  refine .memPut ?_
  split
  · exact h.setShard
  · exact h

protected theorem MemWf.stageWork {q b ws} (h : MemWf d) :
    MemWf (stageWork d q b ws) :=
  .foldl (fun _ _ h => h.memPut) h

protected theorem MemWf.shardReject {rp sh st res} (h : MemWf d) :
    MemWf (shardReject d rp sh st res) :=
  h.raise.complete

protected theorem MemWf.optReject {rp st res} (h : MemWf d) : MemWf (optReject d rp st res) := h.raise.complete

protected theorem MemWf.shardPlace {rp p segs} (h : MemWf d) :
    MemWf (shardPlace d rp p segs) := by
  unfold shardPlace
  dsimp only
  split
  · exact h.shardReject
  · refine .ite h.memClear.setShard.complete ?_
    split
    · exact .refuseDma (.of_snd h.dmaGet ‹_›)
    · exact .complete (.setShard (.memPut (.of_snd h.dmaGet ‹_›)))

protected theorem MemWf.shardSet {p rp} (h : MemWf d) :
    MemWf (shardSet p d rp) := by
  unfold shardSet
  dsimp only
  refine .ite h.shardReject ?_
  refine .ite h.shardReject ?_
  refine .ite h.shardReject ?_
  refine .ite h.shardReject ?_
  split
  · exact .refuseDma (.of_snd h.dmaGet ‹_›)
  · split
    · exact .shardReject (.of_snd h.dmaGet ‹_›)
    · exact .ite (.shardReject (.of_snd h.dmaGet ‹_›)) (.shardPlace (.of_snd h.dmaGet ‹_›))

protected theorem MemWf.hparamSet {p rp} (h : MemWf d) :
    MemWf (hparamSet p d rp) := by
  unfold hparamSet
  dsimp only
  split
  · exact h.shardReject
  · exact .ite h.shardReject h.setShard.complete

protected theorem MemWf.beginRound {sh} (h : MemWf d) :
    MemWf (beginRound d sh) := by
  unfold beginRound
  split
  · exact h
  · exact .ite h.setShard h

protected theorem MemWf.openRound {slot} (h : MemWf d) :
    MemWf (openRound d slot) := by
  unfold openRound
  dsimp only
  split
  · exact h
  · exact h.of_mem.setCtx

protected theorem MemWf.afterFlip {sh} (h : MemWf d) :
    MemWf (afterFlip d sh) := by
  unfold afterFlip
  dsimp only
  split
  · exact h
  · split
    · exact h
    · exact .ite h.openRound.advance.sendCredit h.openRound.advance

protected theorem MemWf.optCommitTick {part} (h : MemWf d) :
    MemWf (optCommitTick part d) := by
  unfold optCommitTick
  dsimp only
  split
  · exact h
  · split
    · exact h.of_mem.raise.complete
    · refine .complete (.foldl (fun _ _ h => h.afterFlip) ?_)
      refine .event (.cnt1 ?_)
      refine .foldl (fun _ _ h => ?_) h.of_mem
      split
      · exact h.setShard
      · exact h

protected theorem MemWf.optRollback {part step rp} (h : MemWf d) :
    MemWf (optRollback part step d rp) :=
  .ite h.optReject (.ite h.optReject (.complete (.foldl (fun _ _ h => .ite h.setShard h.setShard) h)))


/-! ### Stitch -/

protected theorem MemWf.kernelLoad {k regs spad slots len code rp} (h : MemWf d) :
    MemWf (kernelLoad k regs spad slots len code d rp) := by
  unfold kernelLoad
  dsimp only
  refine .ite h.optReject ?_
  split
  · exact .refuseDma (.of_snd h.dmaGet ‹_›)
  · refine .ite (.optReject (.of_snd h.dmaGet ‹_›)) ?_
    split
    · exact .optReject (.of_snd h.dmaGet ‹_›)
    · split
      · exact .optReject (.of_snd h.dmaGet ‹_›)
      · exact .complete (.memPut (.of_mem (.of_snd h.dmaGet ‹_›)))

protected theorem MemWf.setGrid {x} (h : MemWf d) : MemWf (setGrid d x) := h.of_mem

protected theorem MemWf.fillCore {l i n} (h : MemWf d) : MemWf (fillCore l i n d) := by
  induction n generalizing d with
  | zero => exact h
  | succ n ih =>
    unfold fillCore
    dsimp only
    split
    · exact h
    · split
      · exact h
      · refine .ite ?_ h
        split
        · exact h
        · exact ih h.setGrid

protected theorem MemWf.fillGrid {l} (h : MemWf d) :
    MemWf (fillGrid d l) := by
  unfold fillGrid
  split
  · exact h
  · exact .foldl (fun _ _ h => h.fillCore) h

protected theorem MemWf.fillAll (h : MemWf d) : MemWf (fillAll d) := .foldl (fun _ _ h => h.fillGrid) h

protected theorem MemWf.launchGrid {k g cores seed wins limit why die rep held} (h : MemWf d) :
    MemWf (launchGrid d k g cores seed wins limit why die rep held) :=
  .fillGrid (.foldl (fun _ _ h => h.yieldName) h.of_mem)

protected theorem MemWf.stitchLaunch {p rp} (h : MemWf d) :
    MemWf (stitchLaunch p d rp) := by
  unfold stitchLaunch
  dsimp only
  split
  · exact h.raise.complete
  · exact .ite h.raise.complete (.ite h.raise.complete (.ite h.raise.complete h.launchGrid.cnt1))

protected theorem MemWf.spadWr {q a bs} (h : MemWf d) : MemWf (spadWr d q a bs) := h.of_mem

protected theorem MemWf.setGrp {l y} (h : MemWf d) :
    MemWf (setGrp d l y) := by
  unfold setGrp
  split
  · exact h
  · exact h.setGrid

protected theorem MemWf.goto {l y pc} (h : MemWf d) :
    MemWf (goto d l y pc) := by
  unfold goto
  dsimp only
  refine .ite ?_ h.setGrp
  split
  · exact h
  · exact h.setGrid.fillAll

protected theorem MemWf.onInstr {op l g} {f : Dev → Grid → Kernel → Grp → Nat → Dev}
    (hf : ∀ d x k y w, MemWf d → MemWf (f d x k y w)) (h : MemWf d) : MemWf (onInstr op l g f d) := by
  unfold onInstr
  dsimp only
  split
  · exact h
  · split
    · split
      · exact h
      · exact .ite h (hf _ _ _ _ _ h)
    · exact h

protected theorem MemWf.stitchFault {l cause g idx} (h : MemWf d) :
    MemWf (stitchFault d l cause g idx) := by
  unfold stitchFault
  dsimp only
  split
  · exact h
  · split
    · exact h.of_mem.raise.fillAll.complete
    · exact h.of_mem.raise.fillAll.abortCtx

protected theorem MemWf.aluRow {op l g f} (h : MemWf d) : MemWf (aluRow op l g f d) :=
  .onInstr (fun _ _ _ _ _ h => h.of_mem.goto) h

protected theorem MemWf.binRow {op l g f} (h : MemWf d) : MemWf (binRow op l g f d) := h.aluRow

protected theorem MemWf.unRow {op l g f} (h : MemWf d) : MemWf (unRow op l g f d) := h.aluRow

protected theorem MemWf.fpRow {op l g f} (h : MemWf d) : MemWf (fpRow op l g f d) := h.aluRow

protected theorem MemWf.cmpRow {op l g f} (h : MemWf d) : MemWf (cmpRow op l g f d) :=
  .onInstr (fun _ _ _ _ _ h => h.goto) h

protected theorem MemWf.barRelease {l core} (h : MemWf d) :
    MemWf (barRelease l core d) := by
  unfold barRelease
  dsimp only
  split
  · exact h
  · exact .ite (.foldl (fun _ _ h => h.goto) h) h

protected theorem MemWf.cvt {l x _k y w} (h : MemWf d) : MemWf (cvt l d x _k y w) := h.of_mem.goto

protected theorem MemWf.lds {l ecc x k y w} (h : MemWf d) :
    MemWf (lds l ecc d x k y w) :=
  .ite h.stitchFault (.ite (.stitchFault (.ite_snd h h.spadCheck)) (.goto (.of_mem (.ite_snd h h.spadCheck))))

protected theorem MemWf.sts {l x k y w} (h : MemWf d) :
    MemWf (sts l d x k y w) :=
  .ite h.stitchFault (.goto (.foldl (fun _ _ h => h.spadWr) h))

protected theorem MemWf.ldg {l x _k y w} (h : MemWf d) :
    MemWf (ldg l d x _k y w) :=
  .ite h.stitchFault (.goto (.of_mem (.foldl (fun _ _ h => h.issue) h)))

protected theorem MemWf.clearRb {i} (h : MemWf d) :
    MemWf (clearRb d i) := by
  unfold clearRb
  split
  · exact h.setShard
  · exact h

protected theorem MemWf.stg {l x _k y w} (h : MemWf d) :
    MemWf (stg l d x _k y w) :=
  .ite h.stitchFault (.goto (.foldl (fun _ _ h => h.issue) (.ite h h.clearRb)))

protected theorem MemWf.atom {l x _k y w} (h : MemWf d) :
    MemWf (atom l d x _k y w) :=
  .ite h.stitchFault (.goto (.of_mem (.foldl (fun _ _ h => h.issue) (.ite h h.clearRb))))

protected theorem MemWf.mma {l ecc x k y w} (h : MemWf d) :
    MemWf (mma l ecc d x k y w) :=
  .ite h.goto (.ite h.stitchFault (.ite h.spadCheck.stitchFault h.spadCheck.goto))

protected theorem MemWf.mmaFinal {k y i w v} (h : MemWf d) :
    MemWf (mmaFinal d k y i w v) :=
  .foldl (fun _ _ h => .foldl (fun _ _ h => h.of_mem.spadWr) h) h

protected theorem MemWf.mmaComplete {l g} (h : MemWf d) :
    MemWf (mmaComplete l g d) := by
  unfold mmaComplete
  split
  · exact h
  · split
    · split
      · exact h
      · exact h.mmaFinal.setGrp
    · exact h

protected theorem MemWf.answered {l g f} (h : MemWf d) :
    MemWf (answered d l g f) := by
  unfold answered
  dsimp only
  split
  · exact h
  · split
    · exact h
    · exact h.setGrp

protected theorem MemWf.memResponse {i} (h : MemWf d) :
    MemWf (memResponse i d) := by
  unfold memResponse
  dsimp only
  split
  · exact h
  · split
    · exact .ite h.of_bytes.countNotice (.ite h.of_bytes.consumePoison.abortCtx h.of_bytes.spillReturn)
    · exact .ite h.of_bytes.abortCtx (.ite h.of_bytes h.of_bytes)
    · exact .ite h.of_bytes (.ite (.stitchFault (.ite h.of_bytes.consumePoison h.of_bytes)) h.of_bytes.answered)
    · exact .ite h.of_bytes.stitchFault h.of_bytes.answered
    · exact h.of_bytes
    · exact h.of_bytes

protected theorem MemWf.stitchWatchdog {l} (h : MemWf d) :
    MemWf (stitchWatchdog l d) := by
  unfold stitchWatchdog
  dsimp only
  split
  · exact h
  · split
    · exact h
    · exact h.stitchFault


/-! ### Updates -/

protected theorem MemWf.placeGet {x side} (h : MemWf d) : MemWf (placeGet d x side).2 := h.slotGet

protected theorem MemWf.recordDigest {slot chunk x} (h : MemWf d) :
    MemWf (recordDigest d slot chunk x).2 := by
  unfold recordDigest
  dsimp only
  split
  · exact .ite h.takeMark.of_mem.trace h.takeMark
  · exact .setCtx (.ite h.takeMark.of_mem.trace h.takeMark)

protected theorem MemWf.dropChunk {slot chunk} (h : MemWf d) :
    MemWf (dropChunk d slot chunk) := by
  unfold dropChunk
  split
  · exact h
  · exact h.setCtx

protected theorem MemWf.sealChunk {slot chunk} (h : MemWf d) :
    MemWf (sealChunk d slot chunk) := by
  unfold sealChunk
  split
  · exact h
  · exact .ite h h.setCtx

protected theorem MemWf.partnerMismatch {slot chunk sh} (h : MemWf d) :
    MemWf (partnerMismatch d slot chunk sh) := by
  unfold partnerMismatch
  exact h.traced.raise.abortCtx

protected theorem MemWf.compareMack {slot chunk sh} (h : MemWf d) :
    MemWf (compareMack d slot chunk sh) := by
  unfold compareMack
  dsimp only
  split
  · exact h
  · split
    · exact .ite h.setCtx.sealChunk h.setCtx.partnerMismatch
    · exact h

protected theorem MemWf.finishMirror {slot chunk x} (h : MemWf d) :
    MemWf (finishMirror d slot chunk x) := by
  unfold finishMirror
  dsimp only
  split
  · exact .abortCtx (.consumePoison (.of_snd h.placeGet ‹_›))
  · split
    · exact .dropChunk (.recordDigest (.of_snd h.placeGet ‹_›))
    · exact .setCtx (.memPut (.dropChunk (.recordDigest (.of_snd h.placeGet ‹_›))))

protected theorem MemWf.markUpdated {slot chunk x} (h : MemWf d) :
    MemWf (markUpdated d slot chunk x) := by
  unfold markUpdated
  dsimp only
  split
  · exact h
  · split
    · exact h
    · exact .ite h.setCtx.chunkComplete.finishMirror h.setCtx.chunkComplete

protected theorem MemWf.sendMirror {slot c chunk sh gr} (h : MemWf d) :
    MemWf (sendMirror d slot c chunk sh gr) :=
  .ite (.foldl (fun _ _ h => h.sendTo.cnt1) h) h.sendTo.abortCtx

protected theorem MemWf.stitchChunk {slot chunk c x gr q rep held} (h : MemWf d) :
    MemWf (stitchChunk d slot chunk c x gr q rep held) :=
  h.spadWr.spadWr.launchGrid

protected theorem MemWf.stitchTwice {slot c k x} (h : MemWf d) :
    MemWf (stitchTwice d slot c k x) :=
  h.stitchChunk.stitchChunk

protected theorem MemWf.runProgram {slot chunk c x gr} (h : MemWf d) :
    MemWf (runProgram d slot chunk c x gr) := by
  unfold runProgram
  dsimp only
  refine .ite h.stitchChunk ?_
  split
  · exact .abortCtx (.consumePoison (.of_snd h.placeGet ‹_›))
  · exact .markUpdated (.foldl (fun _ _ h => h.basteSlot) (.of_snd h.placeGet ‹_›))

protected theorem MemWf.landWrites {t} (h : MemWf d) :
    MemWf (landWrites d t) :=
  .of_bytes (.foldl (fun _ _ h => h.memWr) h)

protected theorem MemWf.offerGr {slot chunk c x gr} (h : MemWf d) :
    MemWf (offerGr d slot chunk c x gr) :=
  .ite h (.ite h.nanCheck.sendMirror h.nanCheck)

protected theorem MemWf.overlockAgree {slot c k} (h : MemWf d) :
    MemWf (overlockAgree d slot c k) := by
  unfold overlockAgree
  dsimp only
  split
  · exact h.setCtx.cnt1
  · refine .ite ?_ h.setCtx.cnt1.offerGr
    refine .markUpdated ?_
    refine .landWrites (.ite h.setCtx.cnt1.offerGr ?_)
    split
    · exact h.setCtx.cnt1.offerGr.setShard
    · exact h.setCtx.cnt1.offerGr

protected theorem MemWf.overlockCompare {slot chunk differ} (h : MemWf d) :
    MemWf (overlockCompare slot chunk differ d) := by
  unfold overlockCompare
  dsimp only
  split
  · exact h
  · split
    · exact h
    · refine .ite h ?_
      refine .ite ?_ ?_
      · refine .overlockMismatch ?_
        split
        · exact h.takeMark.placeGet
        · exact h.takeMark
      · refine .overlockAgree ?_
        split
        · exact h.takeMark.placeGet
        · exact h.takeMark

protected theorem MemWf.rubUpdate {slot chunk} (h : MemWf d) :
    MemWf (rubUpdate slot chunk d) := by
  unfold rubUpdate
  dsimp only
  split
  · exact h
  · split
    · refine .ite h ?_
      refine .ite h.stitchTwice ?_
      split
      · exact .ite h.offerGr.runProgram h.offerGr
      · exact h.offerGr
    · exact h

protected theorem MemWf.rubUpdateDone {slot chunk} (h : MemWf d) :
    MemWf (rubUpdateDone slot chunk d) := by
  unfold rubUpdateDone
  split
  · exact h
  · split
    · refine .ite h ?_
      extract_lets _ _
      split
      · exact .abortCtx (.consumePoison (.of_snd h.placeGet ‹_›))
      · split
        · extract_lets d1 d2
          have hd1 : MemWf d1 := .cntN (.of_snd (.sendSegs (.of_snd h.placeGet ‹_›)) ‹_›)
          have hd2 : MemWf d2 := .ite hd1.sendSegs hd1
          refine .ite ?_ hd2
          split
          · extract_lets d3
            have hd3 : MemWf d3 := .dropChunk (.of_snd hd2.recordDigest ‹_›)
            exact .ite hd3.compareMack hd3.sealChunk
    · exact h

protected theorem MemWf.orthoWrite {slot c sh s seg g b cs m1 p} (h : MemWf d) :
    MemWf (orthoWrite d slot c sh s seg g b cs m1 p) := by
  unfold orthoWrite
  dsimp only
  refine .ite ?_ h.stageWork.basteSlot.setCtx
  refine .foldl (fun _ _ h => ?_) h.stageWork.basteSlot.setCtx
  split
  · exact h.finishMirror
  · exact h

protected theorem MemWf.orthoBlockUpdate {slot seg b} (h : MemWf d) :
    MemWf (orthoBlockUpdate slot seg b d) := by
  unfold orthoBlockUpdate
  dsimp only
  split
  · exact h
  · split
    · exact h
    · split
      · exact h
      · refine .ite h ?_
        split
        · exact h.memGet.memGet.consumePoison.abortCtx
        · split
          · exact .ite h.memGet.memGet.overlockMismatch h.memGet.memGet.orthoWrite
          · exact h.memGet.memGet.orthoWrite

protected theorem MemWf.stitchGridEnd {l} (h : MemWf d) :
    MemWf (stitchGridEnd l d) := by
  unfold stitchGridEnd
  dsimp only
  split
  · exact h
  · refine .ite h ?_
    split
    · exact h.of_mem.complete
    · split
      · exact h.of_mem
      · split
        · exact h.of_mem.setCtx
        · exact h.of_mem.markUpdated
        · exact h.of_mem

protected theorem MemWf.untake {tile id} (h : MemWf d) : MemWf (untake d tile id) := h.of_mem

protected theorem MemWf.staleFrame {tile id} (h : MemWf d) : MemWf (staleFrame d tile id) := h.freeIng.raise

protected theorem MemWf.newChunk {slot c chunk} (h : MemWf d) :
    MemWf (newChunk d slot c chunk).2.2 :=
  .ite_snd (.ite h.cnt1 h) (.takeMark (.ite h.cnt1 h))

protected theorem MemWf.takenFrame {tile contrib f} (h : MemWf d) :
    MemWf (takenFrame d tile contrib f).2 :=
  .ite_snd h.takeMark.takeMark h.takeMark

protected theorem MemWf.takeMirror {slot f} (h : MemWf d) : MemWf (takeMirror d slot f) := by
  unfold takeMirror
  split
  · exact h
  · extract_lets d1
    have hd1 : MemWf d1 := h.beginRound
    clear_value d1
    split
    rename_i d2 he
    have h2 : MemWf d2 := by
      split at he
      · cases he; exact hd1
      · exact hd1.newChunk.of_snd2 he
    exact .ite h2.setCtx.stragglerTimeout (.ite h2.setCtx.rubUpdate h2.setCtx)

protected theorem MemWf.mirrorReceive {tile} (h : MemWf d) :
    MemWf (mirrorReceive tile d) := by
  unfold mirrorReceive
  dsimp only
  split
  · exact h
  · split
    · exact h.untake.takenFrame.staleFrame
    · split
      · exact h.untake.takenFrame.staleFrame
      · exact h.untake.takenFrame.staleFrame
      · exact h.untake.takenFrame.freeIng.abortCtx
      · exact h.untake.takenFrame.setCtx
      · exact h.untake.takenFrame.freeIng.takeMirror

protected theorem MemWf.mackReceive {tile} (h : MemWf d) :
    MemWf (mackReceive tile d) := by
  unfold mackReceive
  dsimp only
  split
  · exact h
  · split
    · exact h.untake.takenFrame.staleFrame
    · split
      · exact h.untake.takenFrame.staleFrame
      · exact h.untake.takenFrame.staleFrame
      · exact h.untake.takenFrame.freeIng.abortCtx
      · exact h.untake.takenFrame.setCtx
      · exact h.untake.takenFrame.freeIng.cnt1.setCtx.compareMack

protected theorem MemWf.mackSend {slot} (h : MemWf d) :
    MemWf (mackSend slot d) := by
  unfold mackSend
  dsimp only
  split
  · exact h
  · refine .ite h ?_
    split
    · exact h
    · exact .ite h.memGet.setCtx.sendTo.sealChunk h.memGet.setCtx.sendTo.abortCtx

protected theorem MemWf.shardSeal {sh} (h : MemWf d) :
    MemWf (shardSeal sh d) := by
  unfold shardSeal
  dsimp only
  split
  · exact h
  · split
    · exact h
    · split
      · exact h
      · exact .ite h h.setShard.cnt1.event


/-! ### Creating a context -/

protected theorem MemWf.sendPrime {slot} (h : MemWf d) :
    MemWf (sendPrime d slot) := by
  unfold sendPrime
  dsimp only
  split
  · exact h
  · refine .foldl (fun _ _ h => ?_) h
    split
    · exact h
    · refine .ite h ?_
      split
      · exact h
      · split
        · exact h.memGet.consumePoison.abortCtx
        · exact h.memGet.sendSegs.cntN

protected theorem MemWf.buildCtx {p pat cores bob area size spill} (h : MemWf d) :
    MemWf (buildCtx d p pat cores bob area size spill) := by
  unfold buildCtx
  dsimp only
  split
  · refine .setCtx ?_
    refine .advance (.ite ?_ ?_)
    · refine .sendPrime ?_
      split
      · exact h.memClear.of_mem.setCtx.setShard
      · exact h.memClear.of_mem.setCtx
    · split
      · exact h.memClear.of_mem.setCtx.setShard
      · exact h.memClear.of_mem.setCtx
  · refine .advance (.ite ?_ ?_)
    · refine .sendPrime ?_
      split
      · exact h.memClear.of_mem.setCtx.setShard
      · exact h.memClear.of_mem.setCtx
    · split
      · exact h.memClear.of_mem.setCtx.setShard
      · exact h.memClear.of_mem.setCtx

protected theorem MemWf.collCreate {p rp} (h : MemWf d) :
    MemWf (collCreate p d rp) := by
  unfold collCreate
  dsimp only
  refine .ite h.collReject ?_
  refine .ite h.collReject ?_
  split
  · exact h.collReject
  · refine .ite h.collReject ?_
    refine .ite h.collReject ?_
    refine .ite h.collReject ?_
    refine .ite h.collReject ?_
    split
    · exact h.collReject
    · split
      · exact h.collReject
      · exact h.buildCtx.complete

protected theorem MemWf.contribVerdict {c port f} (h : MemWf d) :
    MemWf (contribVerdict d c port f).2 := by
  unfold contribVerdict
  dsimp only
  split
  · exact h
  · split
    · exact h.memGet
    · exact h.memGet.memGet

protected theorem MemWf.contribPass {tile slot c i} (h : MemWf d) : MemWf (contribPass d tile slot c i) := by
  unfold contribPass
  extract_lets _ _ _ d1 _ d2
  have hd1 : MemWf d1 := h.memPut
  have hd2 : MemWf d2 := .ite hd1.beginRound hd1
  clear_value d2
  split
  rename_i d3 he
  have h3 : MemWf d3 := by
    split at he
    · cases he; exact hd2
    · cases he; exact hd2.newChunk
  extract_lets d4 _ d5
  have hd4 : MemWf d4 := h3.setCtx
  clear_value d4
  have hd5 : MemWf d5 := hd4.of_mem
  exact .ite hd5.stragglerTimeout hd5

protected theorem MemWf.contribReceive {tile} (h : MemWf d) :
    MemWf (contribReceive tile d) := by
  unfold contribReceive
  dsimp only
  split
  · exact h
  · split
    · exact h.untake.takenFrame.staleFrame
    · split
      · exact .staleFrame (.of_snd h.untake.takenFrame.contribVerdict ‹_›)
      · exact .abortCtx (.consumePoison (.freeIng (.of_snd h.untake.takenFrame.contribVerdict ‹_›)))
      · exact .abortCtx (.freeIng (.of_snd h.untake.takenFrame.contribVerdict ‹_›))
      · exact .contribPass (.of_snd h.untake.takenFrame.contribVerdict ‹_›)

protected theorem MemWf.clBobWrite {cl val} (h : MemWf d) : MemWf (clBobWrite cl val d) := .ite h.raise h.wrf

protected theorem MemWf.collMemWrite {die lo hi size} (h : MemWf d) :
    MemWf (collMemWrite die lo hi size d) :=
  .ite h.raise h.wrf.wr.wrf

protected theorem MemWf.optMemWrite {die lo hi size} (h : MemWf d) :
    MemWf (optMemWrite die lo hi size d) :=
  .ite h.raise h.wrf.wr.wrf

protected theorem MemWf.memHashSeedWrite {val} (h : MemWf d) : MemWf (memHashSeedWrite val d) := by
  unfold memHashSeedWrite
  extract_lets
  refine .ite h.raise (.wr ?_)
  exact wf_foldl_tput rfl


/-! ### The Bolt store -/

protected theorem MemWf.setBolt {f} (h : MemWf d) : MemWf (setBolt d f) := h.of_mem

protected theorem MemWf.checkSpares {chan} (h : MemWf d) :
    MemWf (checkSpares d chan) :=
  .ite h.wr (.ite (.wr (.ite h.wr.wr.raise h.wr)) (.ite h.wr.wr.raise h.wr))

protected theorem MemWf.journalled (h : MemWf d) : MemWf (journalled d) := h.setBolt

protected theorem MemWf.retire {p block} (h : MemWf d) :
    MemWf (retire d p block) := by
  unfold retire
  exact h.setBolt.journalled.raise.checkSpares

protected theorem MemWf.eraseBand {b} (h : MemWf d) :
    MemWf (eraseBand d b) :=
  .ite h.setBolt.cnt1 (.foldl (fun _ _ h => .ite h.retire h) h.setBolt.cnt1)

protected theorem MemWf.nextBand {got b e} (h : MemWf d) (he : nextBand d got = some (b, e)) : MemWf e := by
  unfold nextBand at he
  split at he
  · cases he; exact h
  · obtain ⟨x, -, hx⟩ := Option.map_eq_some_iff.mp he
    cases hx; exact h.eraseBand

protected theorem MemWf.takeBands {n got} (h : MemWf d) : MemWf (takeBands n d got).2 := by
  induction n generalizing d got with
  | zero => exact h
  | succ n ih =>
    unfold takeBands
    split
    · exact ih (h.nextBand ‹_›)
    · exact h

protected theorem MemWf.freeBands {bs} (h : MemWf d) : MemWf (freeBands d bs) := h.setBolt

protected theorem MemWf.countReads {b p n} (h : MemWf d) :
    MemWf (countReads d b p n) :=
  .ite h (.ite h.setBolt.setBolt h.setBolt)

protected theorem MemWf.countWords {n} (h : MemWf d) : MemWf (countWords d n) := h.setBolt

protected theorem MemWf.moveWord {k} (h : MemWf d) : MemWf (moveWord d k) := h.setBolt

protected theorem MemWf.setImg {i} (h : MemWf d) : MemWf (setImg d i) := h.setBolt

protected theorem MemWf.boltReject {rp st} (h : MemWf d) : MemWf (boltReject d rp st) := h.raise.complete

protected theorem MemWf.reportUe {p} (h : MemWf d) : MemWf (reportUe d p) := h.raise

protected theorem MemWf.readWord {i r} (h : MemWf d) :
    MemWf (readWord d i r) :=
  .ite (.ite (.setBolt (.cntN (.ite h h.moveWord))) (.cntN (.ite h h.moveWord))) h.setBolt.reportUe

protected theorem MemWf.injReads {i idxs} (h : MemWf d) :
    MemWf (injReads d i idxs).2 :=
  .foldl_snd (fun _ _ h => .ite_snd h.takeMark.takeMark h.takeMark.takeMark) h

protected theorem MemWf.readPages {i lo hi rs} (h : MemWf d) :
    MemWf (readPages d i lo hi rs).2 :=
  .foldl (fun _ _ h => h.readWord) h.cntN.countWords.injReads

protected theorem MemWf.bandReads {b m} (h : MemWf d) :
    MemWf (bandReads d b m) :=
  .foldl (fun _ _ h => h.countReads) h.countReads

protected theorem MemWf.readImage {i rs} (h : MemWf d) :
    MemWf (readImage d i rs).2 :=
  .readPages (.foldl (fun _ _ h => h.setBolt.bandReads) h)

protected theorem MemWf.unpin {sh side} (h : MemWf d) :
    MemWf (unpin d sh side) := by
  unfold unpin
  dsimp only
  split
  · exact h
  · split
    · exact h.setShard
    · exact .advance (.ite h.setShard.openRound h.setShard)

protected theorem MemWf.optCkpt {part scope gen rp} (h : MemWf d) : MemWf (optCkpt part scope gen d rp) := by
  unfold optCkpt
  extract_lets ss step size
  clear_value step
  by_cases hp : d.opt.ckpts.any (fun c => c.part == part) = true
  · rw [if_pos hp]
    exact h.optReject
  rw [if_neg hp]
  by_cases hs : ss.any (fun e => e.2.step != step) = true
  · rw [if_pos hs]
    exact h.optReject
  rw [if_neg hs]
  have h1 : MemWf (takeBands (imageBands size) d []).2 := h.takeBands
  generalize takeBands (imageBands size) d [] = t at h1
  generalize ckptRefusal d part gen (imageBands size) = o
  obtain ⟨bands, e⟩ := t
  cases o with
  | some st => exact h.optReject
  | none => exact .opt (.foldl (fun _ _ h => h.setShard) (.journalled (.setBolt h1.draw)))

protected theorem MemWf.ckptSideReadDone {part sh} (h : MemWf d) :
    MemWf (ckptSideReadDone part sh d) := by
  unfold ckptSideReadDone
  dsimp only
  split
  · exact h
  · split
    · exact h
    · exact h.sideGet.of_mem.unpin

protected theorem MemWf.ckptFail {rp st} (h : MemWf d) : MemWf (ckptFail d rp st) := h.raise.complete

protected theorem MemWf.optCkptEnd {part gen rs} (h : MemWf d) : MemWf (optCkptEnd part gen rs d) := by
  unfold optCkptEnd
  split
  · refine .ite h ?_
    extract_lets _ d1 _ d2
    have hd1 : MemWf d1 := h.opt
    have hd2 : MemWf d2 := hd1.cntN.setBolt
    clear_value d2
    split
    · exact .ckptFail (.journalled (.freeBands (.setImg hd1.consumePoison)))
    · split
      rename_i l d3 he
      have h3 : MemWf d3 := hd2.setImg.readImage.of_snd he
      exact .ite h3.setImg.journalled.ckptFail (.complete (.event h3.setImg.journalled))
  · exact h

protected theorem MemWf.optRestore {part gen rp} (h : MemWf d) :
    MemWf (optRestore part gen d rp) := by
  unfold optRestore
  dsimp only
  refine .ite h.optReject ?_
  split
  · exact h.optReject
  · exact h.of_mem

protected theorem MemWf.restoreShard {step x e} (h : MemWf d) (he : restoreShard d step x = some e) : MemWf e := by
  unfold restoreShard at he
  split at he
  · cases he; exact h.sideUnpack.setShard
  · split at he
    · cases he
    · cases he; exact h.sideUnpack.setShard

protected theorem MemWf.restoreAll {step l e} (h : MemWf d) (he : restoreAll step l d = some e) : MemWf e := by
  induction l generalizing d with
  | nil => cases he; exact h
  | cons x r ih =>
    obtain ⟨d1, h1, h2⟩ := Option.bind_eq_some_iff.mp he
    exact ih (h.restoreShard h1) h2

protected theorem MemWf.optRestoreEnd {part gen rs} (h : MemWf d) :
    MemWf (optRestoreEnd part gen rs d) := by
  unfold optRestoreEnd
  refine .ite h ?_
  split
  · extract_lets _ d1
    have hd1 : MemWf d1 := h.of_mem
    split
    · extract_lets _ _ _
      refine .ite (.complete (.journalled (.setImg (.of_snd hd1.readImage ‹_›)))) ?_
      split
      · exact .complete (.restoreAll (.of_snd hd1.readImage ‹_›) ‹_›)
      · exact .optReject (.of_snd hd1.readImage ‹_›)
  · exact h

protected theorem MemWf.shardReadCmd {sh slot first count addr rp} (h : MemWf d) :
    MemWf (shardReadCmd sh slot first count addr d rp) := by
  unfold shardReadCmd
  split
  · exact h.shardReject
  · split
    · exact h.refuseGen
    · extract_lets d1 _ d2 _
      have hd1 : MemWf d1 := .foldl (fun _ _ h => h.memGet) h
      have hd2 : MemWf d2 := hd1.setShard
      exact hd2.of_mem

protected theorem MemWf.shardReadEnd {sh} (h : MemWf d) :
    MemWf (shardReadEnd sh d) := by
  unfold shardReadEnd
  dsimp only
  split
  · exact h
  · exact h.of_mem.unpin.cmdOutput.complete

protected theorem MemWf.boltDeleteJournalled {part gen} (h : MemWf d) :
    MemWf (boltDeleteJournalled part gen d) := by
  unfold boltDeleteJournalled
  dsimp only
  refine .ite h ?_
  split
  · exact h
  · refine .complete ?_
    split
    · exact h.setBolt.setBolt.freeBands.journalled
    · exact h.setBolt

protected theorem MemWf.boltExportEnd {part gen rs} (h : MemWf d) :
    MemWf (boltExportEnd part gen rs d) := by
  unfold boltExportEnd
  extract_lets _ d1
  have hd1 : MemWf d1 := h.setBolt
  refine .ite h ?_
  split
  · split
    exact .ite (.complete (.of_snd hd1.readImage ‹_›)) (.complete (.cmdOutput (.of_snd hd1.readImage ‹_›)))
  · exact h

protected theorem MemWf.boltProgramFail {fdie plane block} (h : MemWf d) :
    MemWf (boltProgramFail fdie plane block d) :=
  .ite h (.retire (.ite h.cntN h))

protected theorem MemWf.moveBand {i b rs e} (h : MemWf d) (he : moveBand d i b rs = some e) : MemWf e := by
  unfold moveBand at he
  split at he
  · rename_i n _ d1 hb
    have h1 : MemWf d1 := h.takeBands.of_snd hb
    extract_lets _ _ at he
    split at he
    rename_i l d2 hr
    have h2 : MemWf d2 := h1.bandReads.readPages.of_snd hr
    cases he
    exact .journalled (.setBolt (.freeBands (.cntN h2.setImg)))
  · cases he

protected theorem MemWf.boltWlMove (h : MemWf d) : MemWf (boltWlMove d) := by
  unfold boltWlMove
  extract_lets
  refine .ite h ?_
  split
  · exact h
  · split
    · exact h
    · cases hm : moveBand _ _ _ _ with
      | none => exact h
      | some e => exact h.draw.moveBand hm

protected theorem MemWf.boltBandErase (h : MemWf d) :
    MemWf (boltBandErase d) := by
  unfold boltBandErase
  refine .ite h ?_
  split
  · exact h
  · exact h.eraseBand

protected theorem MemWf.boltScrubRead {rs} (h : MemWf d) :
    MemWf (boltScrubRead rs d) := by
  unfold boltScrubRead
  dsimp only
  refine .ite h ?_
  split
  · exact h
  · split
    · exact h
    · exact h.countReads.setBolt.readPages

protected theorem MemWf.boltRelocate {b rs} (h : MemWf d) : MemWf (boltRelocate b rs d) := by
  unfold boltRelocate
  refine .ite h ?_
  split
  · exact h
  · refine .ite h ?_
    split
    · exact (h.moveBand ‹_›).cnt1
    · exact h

protected theorem MemWf.newRecord {r} (h : MemWf d) :
    MemWf (newRecord r d) := by
  unfold newRecord
  split
  · split
    · exact h.setBolt
    · exact h
  · exact h.setBolt
  · exact h.setBolt
  · exact h.of_mem.setBolt
  · exact h.setBolt
  · exact h

protected theorem MemWf.bumpRecord {r} (h : MemWf d) : MemWf (bumpRecord r d) := h.setBolt

protected theorem MemWf.boltRecordWrite {r whole} (h : MemWf d) :
    MemWf (boltRecordWrite r whole d) :=
  .ite h h.bumpRecord.newRecord

end

end Sys2Proof.Machine
end

section
/-! # Egress, links, monitoring, faults, forwarding and optics keep stacked memory in its canonical form. -/
namespace Sys2Proof.Machine

section
-- Each lemma cites the ones before it. Elaborated all at once they wait for one another, in more threads than the
-- memory of a check holds, so they are elaborated in turn.
set_option Elab.async false
variable {d : Dev}

/-! ### Egress -/

protected theorem MemWf.swQueue {die r} (h : MemWf d) : MemWf (swQueue d die r) := .ite h.raise h.of_mem

protected theorem MemWf.setMir {s n} (h : MemWf d) : MemWf (setMir d s n) := h.of_mem

protected theorem MemWf.mirTake {s t cells} (h : MemWf d) : MemWf (mirTake d s t cells) := h.setMir.noteSent

protected theorem MemWf.mirHold {die h'} (h : MemWf d) : MemWf (mirHold d die h') := h.of_mem.stSet.event

protected theorem MemWf.mirrorIng {i s} (h : MemWf d) : MemWf (mirrorIng d i s).2 := by
  unfold mirrorIng
  dsimp only
  split
  · exact h.mirTake
  · split
    · exact .pair h.raise
    · exact .pair h.mirHold

protected theorem MemWf.mirrorAll {i} (h : MemWf d) :
    MemWf (mirrorAll d i).2 :=
  .foldl_snd (fun _ _ h => .ite_snd h.mirrorIng h) h

protected theorem MemWf.mirPush {s t f} (h : MemWf d) : MemWf (mirPush d s t f) := h.of_mem

protected theorem MemWf.mirrorOwn {s t f} (h : MemWf d) :
    MemWf (mirrorOwn d s t f) :=
  .ite h.mirTake.mirPush (.ite h.raise h.mirHold)

protected theorem MemWf.mirrorOut {p e} (h : MemWf d) :
    MemWf (mirrorOut d p e) := by
  unfold mirrorOut
  split
  · exact h
  · refine .foldl (fun _ _ h => ?_) h
    refine .ite ?_ h
    split
    · refine .ite ?_ h.mirrorOwn
      split
      exact .setIng (.of_snd h.mirrorIng ‹_›)
    · exact h.mirrorOwn

protected theorem MemWf.mirrorCopySend {s} (h : MemWf d) :
    MemWf (mirrorCopySend s d) := by
  unfold mirrorCopySend
  dsimp only
  split
  · exact h
  · refine .ite ?_ h
    split
    · exact h.of_mem.mirTake.mirPush
    · split
      · exact h.of_mem
      · exact h.of_mem.setIng.mirTake

protected theorem MemWf.untrack {i} (h : MemWf d) :
    MemWf (untrack d i).2 := by
  unfold untrack
  dsimp only
  split
  · exact .ite_snd h.setHalf h
  · exact h

protected theorem MemWf.copySent {id} (h : MemWf d) :
    MemWf (copySent d id) := by
  unfold copySent
  split
  · exact h
  · split
    exact .settleIng (.of_snd h.untrack ‹_›)

protected theorem MemWf.swNoDest {i} (h : MemWf d) :
    MemWf (swNoDest d i) := by
  unfold swNoDest
  split
  · exact h
  · exact h.swQueue

protected theorem MemWf.setShp {p c s} (h : MemWf d) : MemWf (setShp d p c s) := h.of_mem

protected theorem MemWf.shpCharge {p e len} (h : MemWf d) : MemWf (shpCharge d p e len) := .ite h h.setShp

protected theorem MemWf.drr {p tier n v} (h : MemWf d) : MemWf (drr d p tier n v).2 := by
  induction n generalizing d v with
  | zero => exact h
  | succ n ih =>
    unfold drr
    dsimp only
    split
    · exact .ite_snd h.of_mem (ih h.of_mem)
    · exact ih (.of_mem (.ite h.of_mem h) rfl)

protected theorem MemWf.pickVc {p} (h : MemWf d) :
    MemWf (pickVc d p).2 := by
  unfold pickVc
  dsimp only
  refine .ite_snd h ?_
  refine .ite_snd h.drr ?_
  refine .ite_snd h.drr ?_
  split
  · exact .ite_snd h h
  · exact h

protected theorem MemWf.noteStart {p e f} (h : MemWf d) : MemWf (noteStart d p e f) := by
  unfold noteStart
  extract_lets _ d1 d2 d3 d4 d5 d6
  have hd1 : MemWf d1 := .ite h.raise h
  have hd2 : MemWf d2 := .ite hd1.raise hd1
  have hd3 : MemWf d3 := .ite hd2.cnt1 hd2
  have hd4 : MemWf d4 := by
    unfold d4
    split
    · exact hd3.setMir.cnt1
    · exact hd3
  have hd5 : MemWf d5 := by
    unfold d5
    split
    · exact hd4.tsqPush
    · exact hd4
  have hd6 : MemWf d6 := hd5.cnt1
  split
  · exact .ite hd6.raiseAt hd6
  · exact hd5

protected theorem MemWf.letGo {e} (h : MemWf d) :
    MemWf (letGo d e) := by
  unfold letGo
  refine .ite ?_ h
  split
  · exact h.freeIng
  · exact h

protected theorem MemWf.startVc {p v} (h : MemWf d) :
    MemWf (startVc d p v) := by
  unfold startVc
  dsimp only
  split
  · exact h
  · exact h.setEgrQ.shpCharge.setPv.noteStart.mirrorOut.letGo.of_mem

protected theorem MemWf.frameTxStart {p} (h : MemWf d) :
    MemWf (frameTxStart p d) := by
  unfold frameTxStart
  refine .ite h ?_
  split
  · split
    · exact .of_snd h.pickVc ‹_›
    · exact .startVc (.of_snd h.pickVc ‹_›)

protected theorem MemWf.freeLaunch {slot} (h : MemWf d) : MemWf (freeLaunch d slot) := h.of_mem

protected theorem MemWf.endEgr {e status} (h : MemWf d) :
    MemWf (endEgr d e status) := by
  unfold endEgr
  dsimp only
  refine .completeOpt ?_
  split
  · refine .freeLaunch ?_
    split
    · exact h.letGo
    · split
      · exact h.letGo.copySent
      · exact h.letGo
  · split
    · exact h.letGo
    · split
      · exact h.letGo.copySent
      · exact h.letGo

protected theorem MemWf.swSent {p e} (h : MemWf d) :
    MemWf (swSent d p e) := by
  unfold swSent
  split
  · exact h.swQueue
  · exact h

protected theorem MemWf.lcfStart {p} (h : MemWf d) : MemWf (lcfStart d p) := .of_mem (.foldl (fun _ _ h => h.setPv) h)

protected theorem MemWf.lcfSend {p} (h : MemWf d) : MemWf (lcfSend p d) := .ite (.ite h.lcfStart h.of_mem) h

protected theorem MemWf.frameTxEnd {p} (h : MemWf d) :
    MemWf (frameTxEnd p d) := by
  unfold frameTxEnd
  split
  · exact h
  · extract_lets d1 _ d2 _ _ d3
    have hd1 : MemWf d1 := h.swSent
    have hd2 : MemWf d2 := hd1.of_mem.endEgr
    have hd3 : MemWf d3 := .ite hd2 hd2.of_mem
    exact .ite hd3.lcfStart hd3

protected theorem MemWf.releaseNoDest {i} (h : MemWf d) :
    MemWf (releaseNoDest d i) :=
  h.swNoDest.untrack.noDest.settleIng

protected theorem MemWf.floodLimit {i} (h : MemWf d) :
    MemWf (floodLimit d i).2 :=
  .ite_snd h.setFlood (.ite h h.stSet.event)

protected theorem MemWf.replicate {i ps} (h : MemWf d) : MemWf (replicate d i ps) := h.setIng.noteSent.cntN

protected theorem MemWf.dispatchIng {i dst} (h : MemWf d) :
    MemWf (dispatchIng d i dst) := by
  unfold dispatchIng
  dsimp only
  split
  · exact .ite h.setIng.noteSent h.releaseNoDest
  · split
    · exact h.releaseNoDest
    · exact h.replicate
  · split
    · exact h.cnt1.releaseNoDest
    · exact h.cnt1.floodLimit.replicate

protected theorem MemWf.floodRelease {id} (h : MemWf d) :
    MemWf (floodRelease id d) := by
  unfold floodRelease
  dsimp only
  split
  · exact h
  · exact .ite h.setFlood.setIng h


/-! ### Links and lanes -/

protected theorem MemWf.respray {p} (h : MemWf d) :
    MemWf (respray d p) := by
  unfold respray
  refine .foldl (fun _ _ h => ?_) h
  split
  · exact h
  · split
    · split
      · split
        exact .dispatchIng (.of_snd h.viaBundle ‹_›)
      · exact h
    · exact h

protected theorem MemWf.giveUp {p} (h : MemWf d) :
    MemWf (giveUp d p) := by
  unfold giveUp
  refine .foldl (fun _ _ h => ?_) h
  split
  · exact h
  · split
    · split
      exact .dispatchIng (.of_snd h.redirect ‹_›)
    · exact h

protected theorem MemWf.loseStamps {p} (h : MemWf d) :
    MemWf (loseStamps d p) := by
  unfold loseStamps
  dsimp only
  refine .foldl (fun _ _ h => ?_) h
  refine .setEgrQ ?_
  refine .foldl (fun _ _ h => ?_) h
  split
  · exact h.tsqPush
  · exact h

protected theorem MemWf.leaveService {p} (h : MemWf d) :
    MemWf (leaveService d p) := by
  unfold leaveService
  exact h.of_mem.loseStamps.respray.linkAborts

protected theorem MemWf.dropLink {p} (h : MemWf d) :
    MemWf (dropLink d p) := by
  unfold dropLink
  dsimp only
  split
  · exact h.of_mem.endEgr
  · exact h.of_mem

protected theorem MemWf.setLane {l x} (h : MemWf d) : MemWf (setLane d l x) := h.of_mem

protected theorem MemWf.setLnState {l st} (h : MemWf d) : MemWf (setLnState d l st) := h.wrf

protected theorem MemWf.setCause {l c} (h : MemWf d) : MemWf (setCause d l c) := h.setLane.wrf

protected theorem MemWf.lateCause {l c} (h : MemWf d) : MemWf (lateCause d l c) := .ite h.setCause h

protected theorem MemWf.wakeLane {l} (h : MemWf d) : MemWf (wakeLane d l) := h.wrf.wrf

protected theorem MemWf.countClaim {l} (h : MemWf d) : MemWf (countClaim d l) := .ite h.setLane.raise h

protected theorem MemWf.dropClaim {l} (h : MemWf d) : MemWf (dropClaim d l) := h.setLane.wrf

protected theorem MemWf.unclaim {l} (h : MemWf d) : MemWf (unclaim d l) := h.countClaim.dropClaim

protected theorem MemWf.countClaims (h : MemWf d) : MemWf (countClaims d) := .foldl (fun _ _ h => h.countClaim) h

protected theorem MemWf.toDown {l} (h : MemWf d) : MemWf (toDown d l) := h.wakeLane.unclaim.setLane.setLnState

protected theorem MemWf.toHold {l} (h : MemWf d) : MemWf (toHold d l) := h.wakeLane.setLane.setLnState

protected theorem MemWf.putTaps {l t} (h : MemWf d) : MemWf (putTaps d l t) := .foldl (fun _ _ h => h.wr.wr) h

protected theorem MemWf.setTaps {l t} (h : MemWf d) : MemWf (setTaps d l t) := h.setLane.putTaps

protected theorem MemWf.sendTraining {l} (h : MemWf d) : MemWf (sendTraining d l) := h.setLane

protected theorem MemWf.startSweeps {l} (h : MemWf d) :
    MemWf (startSweeps d l) :=
  .foldl (fun _ _ h => .foldl (fun _ _ h => .ite h.wrf h) h) h

protected theorem MemWf.toWait {l} (h : MemWf d) : MemWf (toWait d l) := h.setTaps.startSweeps.setLane.setLnState

protected theorem MemWf.toTrain {l} (h : MemWf d) : MemWf (toTrain d l) := h.setLane.setLnState.sendTraining

protected theorem MemWf.trainFail {l cause} (h : MemWf d) : MemWf (trainFail d l cause) := h.setCause.raise.toHold

protected theorem MemWf.endUp {l} (h : MemWf d) : MemWf (endUp d l) := h.setLane

protected theorem MemWf.laneLeave {p l cause} (h : MemWf d) :
    MemWf (laneLeave d p l cause) :=
  .ite (.ite h.endUp.setCause.raise.toHold h.endUp.setCause.raise.toDown) h.lateCause

protected theorem MemWf.portDown {p cause} (h : MemWf d) :
    MemWf (portDown d p cause) := by
  unfold portDown
  extract_lets _ _ d1 d2
  have hd1 : MemWf d1 := .foldl (fun _ _ h => h.laneLeave) h
  have hd2 : MemWf d2 := .ite hd1.dropLink hd1
  exact .ite hd2.leaveService hd2

protected theorem MemWf.stopTraining {p} (h : MemWf d) :
    MemWf (stopTraining d p) :=
  .foldl (fun _ _ h => .ite h.setCause.toDown (.ite h.setCause.toDown h)) h

protected theorem MemWf.startTraining {p} (h : MemWf d) :
    MemWf (startTraining d p) :=
  .foldl (fun _ _ h => .ite h.toWait h) h

protected theorem MemWf.setPortState {p st} (h : MemWf d) : MemWf (setPortState d p st) := h.wrf

protected theorem MemWf.setDisabled {p} (h : MemWf d) :
    MemWf (setDisabled d p) :=
  h.of_mem.setPortState.portDown.stopTraining

protected theorem MemWf.deadRel {p} (h : MemWf d) : MemWf (deadRel d p) := h.raiseAt

protected theorem MemWf.releaseEgr {p e} (h : MemWf d) :
    MemWf (releaseEgr d p e) := by
  unfold releaseEgr
  dsimp only
  refine .endEgr (.deadRel ?_)
  split
  · refine .tsqPush ?_
    split
    · exact h.setMir
    · exact h
  · split
    · exact h.setMir
    · exact h

protected theorem MemWf.releaseStaging {p} (h : MemWf d) :
    MemWf (releaseStaging d p) :=
  .foldl (fun _ _ h => .foldl (fun _ _ h => h.releaseEgr) h.setEgrQ) h

protected theorem MemWf.releaseOwn {p} (h : MemWf d) :
    MemWf (releaseOwn d p) :=
  .foldl (fun _ _ h => h.of_mem.releaseEgr) (.foldl (fun _ _ h => h.releaseEgr) h.of_mem)

protected theorem MemWf.releaseWaiting {p} (h : MemWf d) :
    MemWf (releaseWaiting d p) := by
  unfold releaseWaiting
  dsimp only
  refine .foldl (fun _ _ h => ?_) h
  split
  · exact h
  · split
    · exact h
    · refine .settleIng (.untrack ?_)
      refine .foldl (fun _ _ h => ?_) (.foldl (fun _ _ h => h.deadRel) h)
      split
      · exact h.setMir
      · exact h

protected theorem MemWf.releaseFlights {p} (h : MemWf d) :
    MemWf (releaseFlights d p) := by
  unfold releaseFlights
  dsimp only
  refine .foldl (fun _ _ h => ?_) h
  split
  · refine .ite h ?_
    split
    · exact h.of_mem
    · refine .settleIng (.untrack ?_)
      refine .foldl (fun _ _ h => ?_) h.of_mem
      split
      · exact h.of_mem.deadRel.setMir
      · exact h.of_mem.deadRel
  · exact h

protected theorem MemWf.releaseMirHeld {p} (h : MemWf d) :
    MemWf (releaseMirHeld d p) := by
  unfold releaseMirHeld
  dsimp only
  refine .foldl (fun _ _ h => ?_) h.of_mem
  split
  · exact h.deadRel.freeIng
  · exact h.deadRel

protected theorem MemWf.releasePort {p} (h : MemWf d) :
    MemWf (releasePort d p) :=
  h.releaseStaging.releaseWaiting.releaseFlights.releaseOwn.releaseMirHeld

protected theorem MemWf.rtPortWrite {p val} (h : MemWf d) : MemWf (rtPortWrite p val d) := by
  unfold rtPortWrite
  refine .ite h.raise ?_
  extract_lets _ d1
  have hd1 : MemWf d1 := h.wr
  clear_value d1
  refine .ite hd1 ?_
  split
  · refine .ite (.ite (.setDisabled (.ite hd1 hd1.releasePort)) ?_) hd1.setDisabled
    exact .rt (.ite hd1 hd1.releasePort)
  · exact .startTraining (.setPortState hd1.rt)
  · exact .giveUp (.ite hd1.setPortState.leaveService hd1.setPortState)
  · have h2 : MemWf ((portLanes d1 p).foldl (fun d l => laneLeave d p l 6) d1) := .foldl (fun _ _ h => h.laneLeave) hd1
    exact .startTraining (.setPortState (.ite h2.dropLink h2))
  · exact hd1

protected theorem MemWf.portBypass {p} (h : MemWf d) :
    MemWf (portBypass p d) :=
  .ite h.setPortState.event.stopTraining h

protected theorem MemWf.portDisabledDrained {p} (h : MemWf d) :
    MemWf (portDisabledDrained p d) :=
  .ite h.setDisabled h

protected theorem MemWf.portDeadRelease {p} (h : MemWf d) : MemWf (portDeadRelease p d) := .ite h.releasePort h

protected theorem MemWf.portRestored {p} (h : MemWf d) : MemWf (portRestored p d) := .ite h.setPortState.event h

protected theorem MemWf.placeDemoted {p} (h : MemWf d) :
    MemWf (placeDemoted d p) :=
  .foldl (fun _ _ h => h.setEgrQ) (.foldl (fun _ _ h => h.setEgrQ) h)

protected theorem MemWf.lcfReceive {p l} (h : MemWf d) : MemWf (lcfReceive p l d) := by
  unfold lcfReceive
  refine .ite h ?_
  split
  · refine .ite h ?_
    extract_lets d1 _ _ _ d2
    have hd1 : MemWf d1 := .foldl (fun _ _ h => h.setPv) h
    clear_value d1
    have hd2 : MemWf d2 := hd1.of_mem
    exact .ite hd2.placeDemoted hd2
  · exact .raise (.ite h.cnt1 h)

protected theorem MemWf.laneCause {l cause} (h : MemWf d) :
    MemWf (laneCause d l cause) :=
  .ite h.portDown (.ite h.trainFail h.lateCause)

protected theorem MemWf.cdrLoss {l strand} (h : MemWf d) : MemWf (cdrLoss l strand d) := .ite h.laneCause h

protected theorem MemWf.fecCodeword {l errs} (h : MemWf d) :
    MemWf (fecCodeword l errs d) :=
  .ite h (.ite h.takeMark.cnt1.setLane (.ite h.takeMark.cnt1.cnt1.cntN.binError.setLane h.takeMark.cnt1.cnt1.setLane))

protected theorem MemWf.ucwLinkDown {l} (h : MemWf d) : MemWf (ucwLinkDown l d) := .ite h.portDown h

protected theorem MemWf.claimSpare {l s} (h : MemWf d) :
    MemWf (claimSpare d l s) :=
  .sendTraining (.setLnState (.ite h.setLane.wrf.wr.wr.countClaim h.setLane.wrf.wr.wr))

protected theorem MemWf.mapSpare {l s} (h : MemWf d) :
    MemWf (mapSpare d l s) :=
  .ite h.trainFail (.ite h.claimSpare (.ite h.dropClaim.trainFail.claimSpare h.trainFail))

protected theorem MemWf.latchFom {l foms signs} (h : MemWf d) :
    MemWf (latchFom d l foms signs) :=
  .ite h.wr h.wr.putTaps.setLane

protected theorem MemWf.weakCheck {l foms} (h : MemWf d) :
    MemWf (weakCheck d l foms) :=
  .foldl (fun _ _ h => .ite h.raise h) h.setLane

protected theorem MemWf.fomWindowEnd {l wins signs} (h : MemWf d) : MemWf (fomWindowEnd l wins signs d) := by
  unfold fomWindowEnd
  extract_lets _ _ d1 _ _ _ _ bad d2
  have hd1 : MemWf d1 := h.latchFom.sendTraining
  have hd2 : MemWf d2 := hd1.setLane
  clear_value bad
  refine .ite h (.ite hd1.weakCheck (.ite hd1 (.ite hd2.setLnState.sendTraining (.ite ?_ hd2))))
  split
  · exact .ite (.ite hd2.mapSpare hd2.setLane) hd2.setLane
  · exact hd2.setLane

protected theorem MemWf.trainingFrameReceive {l f} (h : MemWf d) :
    MemWf (trainingFrameReceive l f d) := by
  unfold trainingFrameReceive
  extract_lets _ _ _ d1 _ d2 d3 _ d4
  have hd1 : MemWf d1 := h.setTaps.cnt1
  have hd2 : MemWf d2 := hd1.setLane
  have hd3 : MemWf d3 := .ite h (.ite h.cnt1 hd2.of_mem)
  have hd4 : MemWf d4 := hd3.setLane
  exact .ite h (.ite h.trainFail hd4.wrf)

protected theorem MemWf.trainTimeout {l} (h : MemWf d) :
    MemWf (trainTimeout l d) := by
  unfold trainTimeout
  split
  · split
    · exact h.mapSpare
    · exact h.trainFail
  · exact h.trainFail
  · exact h

protected theorem MemWf.startCredits {p} (h : MemWf d) :
    MemWf (startCredits d p) :=
  .foldl (fun _ _ h => h.setPv) h.of_mem

protected theorem MemWf.alignDone {p skewed} (h : MemWf d) :
    MemWf (alignDone p skewed d) := by
  unfold alignDone
  extract_lets _ d1
  have hd1 : MemWf d1 := .foldl (fun _ _ h => h.setLane.setLnState) h
  exact .ite h (.ite (.foldl (fun _ _ h => h.trainFail) h) hd1.startCredits.event)

protected theorem MemWf.holdExpiry {l} (h : MemWf d) : MemWf (holdExpiry l d) := .ite (.ite h.toWait h.toDown) h

protected theorem MemWf.retrainPort {p} (h : MemWf d) :
    MemWf (retrainPort p d) := by
  unfold retrainPort
  extract_lets _ _ d1 d2
  have hd1 : MemWf d1 := .foldl (fun _ _ h => .ite h.setCause.unclaim h) h
  have hd2 : MemWf d2 := hd1.portDown
  exact .ite h (.foldl (fun _ _ h => .ite h.toWait h.toDown) hd2)

protected theorem MemWf.lnCtlWrite {l val} (h : MemWf d) : MemWf (lnCtlWrite l val d) := .ite h.wrf.retrainPort h.wrf

protected theorem MemWf.txQuietEnter {l} (h : MemWf d) : MemWf (txQuietEnter l d) := .ite h.wrf h

protected theorem MemWf.txWake {l} (h : MemWf d) : MemWf (txWake l d) := .ite h.wrf h

protected theorem MemWf.rxQuietEnter {l} (h : MemWf d) : MemWf (rxQuietEnter l d) := .ite h.wrf h

protected theorem MemWf.rxWake {l} (h : MemWf d) : MemWf (rxWake l d) := h.wrf

protected theorem MemWf.lnPortWrite {t val} (h : MemWf d) :
    MemWf (lnPortWrite t val d) :=
  .ite h.raise (.foldl (fun _ _ h => .ite h.startTraining h) h.wr)

protected theorem MemWf.swRsvWrite {l v val} (h : MemWf d) : MemWf (swRsvWrite l v val d) := .ite h.raise h.wr

protected theorem MemWf.rtOrdSeedWrite {die val} (h : MemWf d) : MemWf (rtOrdSeedWrite die val d) := .ite h.raise h.wr

protected theorem MemWf.mirCtlWrite {die s val} (h : MemWf d) : MemWf (mirCtlWrite die s val d) := .ite h.raise h.wr


/-! ### Performance monitoring -/

protected theorem MemWf.telRecord {r} (h : MemWf d) :
    MemWf (telRecord d r) :=
  .ite (.ite h.ringPush.mgmtPush h.ringPush.mgmtPush.raise) h.ringPush

protected theorem MemWf.writeDump {frozen} (h : MemWf d) :
    MemWf (writeDump d frozen) :=
  .ite h.wr.telRecord.of_mem h.raise

protected theorem MemWf.dumpNext (h : MemWf d) :
    MemWf (dumpNext d) := by
  unfold dumpNext
  dsimp only
  split
  · split
    · exact h.of_mem.telRecord
    · exact h.of_mem
  · exact h

protected theorem MemWf.dumpMany {n} (h : MemWf d) : MemWf (dumpMany n d) := by
  induction n generalizing d with
  | zero => exact h
  | succ n ih => exact ih h.dumpNext

protected theorem MemWf.dumpStep (h : MemWf d) : MemWf (dumpStep d) := .ite h.dumpNext h

protected theorem MemWf.freeze (h : MemWf d) : MemWf (freeze d) := .ite h (.ite h.raise h.of_mem.cnt1.writeDump.wrf)

protected theorem MemWf.pmcFreezeTick (h : MemWf d) : MemWf (pmcFreezeTick d) := .ite h.wrf.freeze h

protected theorem MemWf.pmcDump (h : MemWf d) : MemWf (pmcDump d) := .ite h (.ite h.raise h.writeDump)

protected theorem MemWf.pmcDumpEnd (h : MemWf d) :
    MemWf (pmcDumpEnd d) := by
  unfold pmcDumpEnd
  split
  · exact h
  · extract_lets d1 _ d2 d3 _
    have hd1 : MemWf d1 := h.dumpMany
    have hd2 : MemWf d2 := hd1.of_mem.cnt1
    have hd3 : MemWf d3 := .ite hd2.wrf hd2
    split
    · extract_lets d4
      have hd4 : MemWf d4 := hd3.wrf
      exact hd4.of_mem
    · exact hd3

protected theorem MemWf.pmcCtlWrite {val} (h : MemWf d) : MemWf (pmcCtlWrite val d) := .ite h.of_mem.wr h.wr

protected theorem MemWf.pmcFreezeWrite {val} (h : MemWf d) :
    MemWf (pmcFreezeWrite val d) := by
  unfold pmcFreezeWrite
  extract_lets _ _ _ d1 _ d2
  have hd1 : MemWf d1 := h.wrf
  have hd2 : MemWf d2 := .ite hd1.of_mem hd1
  exact .ite hd2.freeze hd2

protected theorem MemWf.swatchRecordWrite {die} (h : MemWf d) :
    MemWf (swatchRecordWrite die d) := by
  unfold swatchRecordWrite
  split
  · exact h
  · exact .ite h.of_mem.telRecord.cnt1 h

protected theorem MemWf.pmcSelApply {r ix val} (h : MemWf d) :
    MemWf (pmcSelApply r ix val d) := by
  unfold pmcSelApply
  split
  · exact h
  · refine .ite ?_ h.raise
    extract_lets _ _ d1
    have hd1 : MemWf d1 := h.wr
    exact hd1.of_mem


/-! ### Faults -/

protected theorem MemWf.drainVc2 {n p} (h : MemWf d) : MemWf (drainVc2 n d p) := by
  induction n generalizing d with
  | zero => exact h
  | succ n ih => exact ih h.startVc.frameTxEnd

protected theorem MemWf.landAborts (h : MemWf d) :
    MemWf (landAborts d) :=
  .foldl (fun _ _ h => h.egrPush) (.foldl (fun _ _ h => h.of_mem.egrPush) h.of_mem)

protected theorem MemWf.flushAborts (h : MemWf d) :
    MemWf (flushAborts d) := by
  unfold flushAborts
  dsimp only
  refine .foldl (fun _ _ h => ?_) h.landAborts
  refine .ite h ?_
  split
  · exact h
  · exact h.frameTxEnd.drainVc2

protected theorem MemWf.partsOff (h : MemWf d) : MemWf (partsOff d) := h.of_mem

protected theorem MemWf.portOff {p} (h : MemWf d) : MemWf (portOff d p) := h.releasePort.portDown.stopTraining

protected theorem MemWf.portsOff (h : MemWf d) : MemWf (portsOff d) := by
  unfold portsOff
  extract_lets _ d1
  have hd1 : MemWf d1 := .foldl (fun _ _ h => .ite h h.setPortState) h
  clear_value d1
  exact .foldl (fun _ _ h => h.portOff) hd1.of_mem

protected theorem MemWf.setRingLock {n tx f c x} (h : MemWf d) : MemWf (setRingLock d n tx f c x) := h.of_mem

protected theorem MemWf.holdRings {q} (h : MemWf d) : MemWf (holdRings d q) := h.of_mem

protected theorem MemWf.stopAll {reason} (h : MemWf d) :
    MemWf (stopAll d reason) := by
  unfold stopAll
  exact h.abortWhere.flushAborts.partsOff.portsOff.holdRings

protected theorem MemWf.deviceFault {cause die unit} (h : MemWf d) : MemWf (deviceFault d cause die unit) := by
  unfold deviceFault
  extract_lets d2 d3 d4 d5
  have hd2 : MemWf d2 := h.raise
  have hd3 : MemWf d3 := .ite hd2 hd2.wr
  have hd4 : MemWf d4 := .ite hd3.freeze hd3
  have hd5 : MemWf d5 := hd4.stopAll
  clear_value d5
  have host {d : Dev} {x} (h : MemWf d) : MemWf { d with host := x } := h
  exact host hd5.wrf


/-! ### Forwarding -/

protected theorem MemWf.laneMark {id p} (h : MemWf d) :
    MemWf (laneMark d id p).2 := by
  unfold laneMark
  refine .foldl_snd (fun _ _ h => ?_) h
  refine .ite_snd h ?_
  split
  exact .ite_snd (.of_snd h.takeMark ‹_›) h

protected theorem MemWf.asReceived {p f} (h : MemWf d) : MemWf (asReceived d p f).2 := h.laneMark.laneMark

protected theorem MemWf.newIng {p v f res shr guard} (h : MemWf d) :
    MemWf (newIng d p v f res shr guard).2 :=
  h.of_mem

protected theorem MemWf.pruneHolds (h : MemWf d) : MemWf (pruneHolds d) := h.of_mem

protected theorem MemWf.holdClaims {k part} (h : MemWf d) : MemWf (holdClaims d k part) := h.of_mem

protected theorem MemWf.takeIn {p v f cells} (h : MemWf d) :
    MemWf (takeIn d p v f cells).2 := by
  unfold takeIn
  extract_lets d1 _ _ d2
  have hd1 : MemWf d1 := h.pruneHolds
  have hd2 : MemWf d2 := hd1.setPv
  split
  · extract_lets d3
    have hd3 : MemWf d3 := .ite (.holdClaims (.of_snd hd2.newIng ‹_›)) (.of_snd hd2.newIng ‹_›)
    exact .ite hd3 hd3.claimCells

protected theorem MemWf.takeInGuard {p v f cells} (h : MemWf d) :
    MemWf (takeInGuard d p v f cells).2 :=
  h.pruneHolds.of_mem.newIng

protected theorem MemWf.discardIng {i} (h : MemWf d) : MemWf (discardIng d i) := h.settleIng

protected theorem MemWf.setPolDie {die k x} (h : MemWf d) : MemWf (setPolDie d die k x) := h.of_mem

protected theorem MemWf.meter {i} (h : MemWf d) : MemWf (meter d i).2 := .ite_snd h h.setPolDie

protected theorem MemWf.learnRequest {i} (h : MemWf d) : MemWf (learnRequest d i) := .ite (.ite h.of_mem h.raise) h

protected theorem MemWf.sample {i} (h : MemWf d) :
    MemWf (sample d i).2 :=
  .ite_snd h (.ite_snd h.of_mem (.ite_snd h.of_mem.raise (.ite h.of_mem h.of_mem)))

protected theorem MemWf.swStomped {i p v} (h : MemWf d) :
    MemWf (swStomped d i p v) := by
  unfold swStomped
  split
  · exact .ite h.swQueue h
  · exact h

protected theorem MemWf.stompOne {x : Nat × Dev} {i via p} (h : MemWf x.2) : MemWf (stompOne x i via p).2 := by
  unfold stompOne
  extract_lets
  split
  rename_i w d1 he
  have h1 : MemWf d1 := h.setEgrQ.pickVc.of_snd he
  exact .ite_snd h1.startVc.raise.swStomped h

protected theorem MemWf.countFcs {i} (h : MemWf d) : MemWf (countFcs d i) := .raise (.ite h.cnt1 h)

protected theorem MemWf.discFcs {i} (h : MemWf d) : MemWf (discFcs d i) := h.countFcs.discardIng

protected theorem MemWf.stomped {i n} (h : MemWf d) :
    MemWf (stomped d i n) :=
  .ite h.discFcs h.countFcs.trackIn.settleIng

protected theorem MemWf.badFcs {i dst} (h : MemWf d) : MemWf (badFcs d i dst) := by
  unfold badFcs
  split
  extract_lets _ d1
  have hd1 : MemWf d1 := by
    unfold d1
    split
    · exact h.cnt1
    · exact h
  refine .ite hd1.discFcs ?_
  split
  rename_i i' d2 he
  have h2 : MemWf d2 := .of_snd (.ite_snd hd1.floodLimit hd1) he
  extract_lets p
  have hp : MemWf p.2 := .foldl_snd (fun _ _ h => h.stompOne) h2
  exact .ite h2.discFcs hp.stomped

protected theorem MemWf.orderGate {i} (h : MemWf d) :
    MemWf (orderGate d i) :=
  .ite h.openFence.setIng (.ite h.setIng h.setIng.raise)

protected theorem MemWf.order {id} (h : MemWf d) :
    MemWf (order d id) := by
  unfold order
  dsimp only
  split
  · exact h
  · exact .ite h.setIng (.ite h.orderGate h.trackIn.setIng)

protected theorem MemWf.takeIng {i} (h : MemWf d) :
    MemWf (takeIng d i) := by
  unfold takeIng
  extract_lets _
  split
  · extract_lets d1 _
    have hd1 : MemWf d1 := .setIng (.of_snd h.mirrorAll ‹_›)
    exact hd1.of_mem

protected theorem MemWf.foreignPush {i} (h : MemWf d) : MemWf (foreignPush d i) := h.of_mem.discardIng

protected theorem MemWf.foreignIn {i} (h : MemWf d) :
    MemWf (foreignIn d i) :=
  .ite h.cnt1.foreignPush h.cnt1.setIng.stSet.event

protected theorem MemWf.capIn {i} (h : MemWf d) : MemWf (capIn d i).2 := by
  unfold capIn
  dsimp only
  split
  · exact .pair h.raise
  · exact h

protected theorem MemWf.goodTail {i} (h : MemWf d) : MemWf (goodTail d i) := .learnRequest (.ite h h.raise)

protected theorem MemWf.forwardIng {i} (h : MemWf d) :
    MemWf (forwardIng d i) :=
  .ite h.meter.sample.resolve.badFcs h.meter.sample.resolve.goodTail.mirrorAll.setIng.dispatchIng.order

protected theorem MemWf.pipeline {i} (h : MemWf d) : MemWf (pipeline d i) := by
  unfold pipeline
  refine .ite (.ite h.foreignIn h.discFcs) (.ite h.cnt1.stSet.raise.discardIng ?_)
  extract_lets d1
  have hd1 : MemWf d1 := .ite h.raise h
  refine .ite hd1.raise.discardIng ?_
  split
  rename_i j d2 he2
  have h2 : MemWf d2 := hd1.capIn.of_snd he2
  refine .ite ?_ h2.forwardIng
  split
  rename_i k d3 he3
  have h3 : MemWf d3 := h2.meter.of_snd he3
  exact .ite h3.goodTail.takeIng h3.discFcs

protected theorem MemWf.unstall {n die} (h : MemWf d) : MemWf (unstall n d die) := by
  induction n generalizing d with
  | zero => exact h
  | succ n ih =>
    unfold unstall
    dsimp only
    split
    · exact h
    · exact ih (.ite h.pipeline h.orderGate)

protected theorem MemWf.unstallDie {die} (h : MemWf d) : MemWf (unstallDie d die) := h.unstall

protected theorem MemWf.frameReceive {p f} (h : MemWf d) : MemWf (frameReceive p f d) := by
  unfold frameReceive
  refine .ite h (.ite h.lcfReceive ?_)
  extract_lets d1
  have hd1 : MemWf d1 := h.unstallDie
  split
  rename_i f' d2 he2
  have h2 : MemWf d2 := hd1.asReceived.of_snd he2
  extract_lets
  split
  rename_i m d3 he3
  have h3 : MemWf d3 := h2.laneMark.of_snd he3
  extract_lets _ d4
  have hd4 : MemWf d4 := .ite h3.raise.portDown h3
  split
  rename_i i d5 he5
  have h5 : MemWf d5 := .of_snd (.ite_snd hd4.takeInGuard hd4.takeIn) he5
  exact .ite h5.discFcs (.ite h5.setIng h5.pipeline)

protected theorem MemWf.foreignDequeue {die} (h : MemWf d) :
    MemWf (foreignDequeue die d) := by
  unfold foreignDequeue
  dsimp only
  split
  · exact .ite h.of_mem.foreignPush h.of_mem
  · exact h.of_mem

protected theorem MemWf.orderFenceRequest {die idx} (h : MemWf d) :
    MemWf (orderFenceRequest die idx d) := by
  unfold orderFenceRequest
  split
  · refine .ite h ?_
    extract_lets d2 _
    have hd2 : MemWf d2 := h.flipCur
    exact hd2.of_mem
  · exact h

protected theorem MemWf.orderRelease {idx} (h : MemWf d) :
    MemWf (orderRelease idx d) := by
  unfold orderRelease
  dsimp only
  split
  · exact .foldl (fun _ _ h => h.unstallDie) h
  · refine .ite ?_ h
    refine .foldl (fun _ _ h => h.unstallDie) ?_
    split
    · refine .setIng (.openFence ?_)
      split
      · exact h.of_mem.setIng
      · exact h.of_mem
    · split
      · exact h.of_mem.setIng
      · exact h.of_mem

protected theorem MemWf.depthSample {t} (h : MemWf d) :
    MemWf (depthSample t d) := by
  unfold depthSample
  extract_lets _ d1 _ d2
  have hd1 : MemWf d1 := by
    refine .foldl (fun _ _ h => ?_) h
    extract_lets d3 _
    have hd3 : MemWf d3 := .foldl (fun _ _ h => h.of_mem) h
    exact .ite hd3.of_mem hd3
  have hd2 : MemWf d2 := hd1.of_mem
  exact .foldl (fun _ _ h => h.noteWarm) hd2

protected theorem MemWf.bcastRequest {t k unit} (h : MemWf d) :
    MemWf (bcastRequest t k unit d) :=
  .ite h.freePlane.launchFlight h.raise


/-! ### Optical engines -/

protected theorem MemWf.setRingState {n tx f c st} (h : MemWf d) : MemWf (setRingState d n tx f c st) := h.wrf

protected theorem MemWf.setFeed {n g x} (h : MemWf d) : MemWf (setFeed d n g x) := h.of_mem

protected theorem MemWf.setThim {n f st} (h : MemWf d) : MemWf (setThim d n f st) := h.wr

protected theorem MemWf.holdRing {n tx f c} (h : MemWf d) : MemWf (holdRing d n tx f c) := h.setRingLock.wr

protected theorem MemWf.ffAlone {n tx f c} (h : MemWf d) : MemWf (ffAlone d n tx f c) := h.setRingLock.wrf

protected theorem MemWf.sensorSample {n g temp} (h : MemWf d) :
    MemWf (sensorSample d n g temp) := by
  unfold sensorSample
  dsimp only
  refine .foldl (fun _ _ h => ?_) h.wrf
  refine .foldl (fun _ _ h => ?_) h
  split
  · exact h.wrf
  · exact h.wrf
  · exact h

protected theorem MemWf.oeCtlWrite {n val} (h : MemWf d) : MemWf (oeCtlWrite n val d) := h.wr

protected theorem MemWf.opticsCause {l cause} (h : MemWf d) :
    MemWf (opticsCause d l cause) :=
  .ite h.portDown (.ite h.trainFail h.lateCause)

protected theorem MemWf.ringSweepDone {n tx f c res temp rx} (h : MemWf d) :
    MemWf (ringSweepDone n tx f c res temp rx d) := by
  unfold ringSweepDone
  dsimp only
  refine .ite h ?_
  split
  · exact h.sensorSample.cnt1.setRingLock.wr
  · exact .ite h.sensorSample.cnt1.setRingLock.setRingState.raise h.sensorSample.cnt1.setRingLock.setRingState

protected theorem MemWf.takeMarkArg {id die unit arg} (h : MemWf d) :
    MemWf (takeMarkArg d id die unit arg).2 :=
  .ite_snd h.of_mem h

protected theorem MemWf.sweepCause {l} (h : MemWf d) :
    MemWf (sweepCause d l) :=
  .foldl (fun _ _ h => .ite h.setLane h) (.ite h.portDown (.ite h h.lateCause))

protected theorem MemWf.resweep {n tx f c cause} (h : MemWf d) :
    MemWf (resweep d n tx f c cause) := by
  unfold resweep
  dsimp only
  split
  · exact h.setRingLock.setRingState.raise.sweepCause
  · exact h.setRingLock.setRingState.raise

protected theorem MemWf.toneWindowEnd {n tx f c tone heater temp rx} (h : MemWf d) :
    MemWf (toneWindowEnd n tx f c tone heater temp rx d) := by
  unfold toneWindowEnd
  extract_lets d1
  have hd1 : MemWf d1 := h.sensorSample
  refine .ite hd1 (.ite hd1.holdRing (.ite hd1.ffAlone (.ite hd1 ?_)))
  split
  extract_lets d2 _ _ d3
  have hd2 : MemWf d2 := .wrf (.of_snd hd1.takeMarkArg ‹_›)
  have hd3 : MemWf d3 := hd2.setRingLock
  exact .ite hd3.resweep
    (.ite (.ite hd3.setRingState hd3) (.ite hd3.resweep (.ite hd3.resweep (.ite hd3.resweep hd3))))

protected theorem MemWf.setLos {n f c x} (h : MemWf d) : MemWf (setLos d n f c x) := h.of_mem

protected theorem MemWf.rxpwrSample {n f c pwr} (h : MemWf d) :
    MemWf (rxpwrSample n f c pwr d) := by
  unfold rxpwrSample
  dsimp only
  refine .ite h.takeMarkArg.wr.setLos ?_
  refine .ite ?_ (.ite h.takeMarkArg.wr.setLos h.takeMarkArg.wr.setLos)
  refine .ite ?_ h.takeMarkArg.wr.setLos
  split
  · exact h.takeMarkArg.wr.setLos.opticsCause
  · exact h.takeMarkArg.wr.setLos

protected theorem MemWf.oeLaneReady {l} (h : MemWf d) : MemWf (oeLaneReady l d) := .ite h.toTrain h

protected theorem MemWf.capCheck {m i low} (h : MemWf d) :
    MemWf (capCheck d m i low) :=
  .ite (.ite h h.of_mem.raise) h.of_mem

protected theorem MemWf.ageCheck {m i} (h : MemWf d) : MemWf (ageCheck d m i) := .ite h.of_mem.raise h

protected theorem MemWf.biasWrite {m i val low} (h : MemWf d) :
    MemWf (biasWrite d m i val low) :=
  .capCheck (.ageCheck (.wrf (.ite h.raise h)))

protected theorem MemWf.feedMeasure (h : MemWf d) :
    MemWf (feedMeasure d) :=
  .ite h (.foldl (fun _ _ h => h.of_mem.capCheck) (.foldl (fun _ _ h => .foldl (fun _ _ h => h.of_mem.wr) h) h))

protected theorem MemWf.outEn {m old new} (h : MemWf d) :
    MemWf (outEn d m old new) :=
  .foldl (fun _ _ h => .ite h.setFeed.holdRings (.ite h.setFeed h)) h

protected theorem MemWf.elsCtlWrite {m val} (h : MemWf d) : MemWf (elsCtlWrite m val d) := h.wr.outEn

protected theorem MemWf.elsBus {m cmd reg data replies} (h : MemWf d) :
    MemWf (elsBus m cmd reg data replies d) := by
  unfold elsBus
  refine .ite h ?_
  split
  · extract_lets _ _ d1 _ _ _ d2
    have hd1 : MemWf d1 := .of_mem (.of_snd h.takeMark ‹_›)
    have hd2 : MemWf d2 := .raise (.of_mem (.of_snd h.takeMark ‹_›))
    split
    · exact .ite hd1.of_mem (.ite hd1.of_mem.biasWrite (.ite hd1.wrf.outEn hd1))
    · exact .ite hd2.wrf hd2

protected theorem MemWf.feedKill {n g} (h : MemWf d) : MemWf (feedKill n g d) := .ite h h.setFeed.holdRings.raise

protected theorem MemWf.feedProbe {n g} (h : MemWf d) : MemWf (feedProbe n g d) := .ite h.setFeed.cnt1 h

protected theorem MemWf.startProbe {n f} (h : MemWf d) : MemWf (startProbe d n f) := .ite h.setThim.cnt1 h

protected theorem MemWf.thimbleProbe {n f} (h : MemWf d) : MemWf (thimbleProbe n f d) := .ite h.startProbe h

protected theorem MemWf.feedProbeEnd {n g light} (h : MemWf d) :
    MemWf (feedProbeEnd n g light d) :=
  .ite h (.ite (.foldl (fun _ _ h => h.startProbe) h.setFeed) h.setFeed)

protected theorem MemWf.thimbleTrip {n f} (h : MemWf d) :
    MemWf (thimbleTrip n f d) :=
  .ite h (.foldl (fun _ _ h => h.opticsCause) (.foldl (fun _ _ h => .ite h.holdRing h) h.setThim.raise))

protected theorem MemWf.probePort {p} (h : MemWf d) : MemWf (probePort d p) := .foldl (fun _ _ h => h.startProbe) h

end

end Sys2Proof.Machine
end

section
/-! # Time, host, mesh, policing, power and reliability keep stacked memory in its canonical form. -/
namespace Sys2Proof.Machine

section
-- Each lemma cites the ones before it. Elaborated all at once they wait for one another, in more threads than the
-- memory of a check holds, so they are elaborated in turn.
set_option Elab.async false
variable {d : Dev}

/-! ### Time -/

protected theorem MemWf.writeSummary {root die unit f} (h : MemWf d) :
    MemWf (writeSummary d root die unit f) :=
  h.of_mem.cnt1.record

protected theorem MemWf.coalWindowClose {i} (h : MemWf d) :
    MemWf (coalWindowClose i d) := by
  unfold coalWindowClose
  dsimp only
  split
  · exact h
  · exact .foldl (fun _ _ h => h.writeSummary) h.of_mem

protected theorem MemWf.coalRateIntervalEnd (h : MemWf d) :
    MemWf (coalRateIntervalEnd d) := by
  unfold coalRateIntervalEnd
  dsimp only
  refine .foldl (fun _ _ h => ?_) h.of_mem
  split
  · exact h.writeSummary
  · exact h

protected theorem MemWf.setDom {i x} (h : MemWf d) : MemWf (setDom d i x) := .ite h.of_mem h.of_mem

protected theorem MemWf.advanceDom {i} (h : MemWf d) : MemWf (advanceDom d i) := h.setDom

protected theorem MemWf.timeReject (h : MemWf d) : MemWf (timeReject d) := h.raiseAt

protected theorem MemWf.ppsRise (h : MemWf d) : MemWf (ppsRise d) := h.of_mem

protected theorem MemWf.ppsOutEdge (h : MemWf d) : MemWf (ppsOutEdge d) := .ite h.ppsRise h

protected theorem MemWf.ppsCross {i old} (h : MemWf d) : MemWf (ppsCross d i old) := .ite h.ppsOutEdge h

protected theorem MemWf.timeSetLoad {i} (h : MemWf d) :
    MemWf (timeSetLoad i d) :=
  .ite (.ite (.ite h.of_mem.setDom.ppsOutEdge h.of_mem.setDom) h.of_mem.timeReject) h

protected theorem MemWf.switchGo (h : MemWf d) : MemWf (switchGo d) := .ite h.timeReject h.of_mem.wrf

protected theorem MemWf.timeSwitched (h : MemWf d) :
    MemWf (timeSwitched d) := by
  unfold timeSwitched
  dsimp only
  split
  · exact h
  · exact h.coalRateIntervalEnd.of_mem.wrf.cnt1.event

protected theorem MemWf.lostStamp {p tsid} (h : MemWf d) :
    MemWf (lostStamp d p tsid) := by
  unfold lostStamp
  split
  · exact h.tsqPush
  · exact h

protected theorem MemWf.sendFrame {c} (h : MemWf d) :
    MemWf (sendFrame d c).2 := by
  unfold sendFrame
  split
  exact .of_snd h.dmaGet ‹_›

protected theorem MemWf.launchTarget {slot} (h : MemWf d) :
    MemWf (launchTarget slot d) := by
  unfold launchTarget
  dsimp only
  split
  · exact h
  · exact .ite h.of_mem.setEgrQ h.lostStamp.raiseAt.freeLaunch.complete

protected theorem MemWf.tailorFrameSend {t} (h : MemWf d) :
    MemWf (tailorFrameSend t d) :=
  .ite h (.ite h.egrPush h.lostStamp)

protected theorem MemWf.tsqPop {die} (h : MemWf d) : MemWf (tsqPop die d) := h.of_mem

protected theorem MemWf.commitsDue (h : MemWf d) : MemWf (commitsDue d) := .foldl (fun _ _ h => h.optCommitTick) h

protected theorem MemWf.fireTargets (h : MemWf d) :
    MemWf (fireTargets d) := by
  unfold fireTargets
  extract_lets d1 _ d2 d3 _ d4
  have hd1 : MemWf d1 := .ite h.flipEpoch h
  have hd2 : MemWf d2 := hd1.of_mem
  have hd3 : MemWf d3 := .ite hd2.pmcFreezeTick hd2
  have hd4 : MemWf d4 := .foldl (fun _ _ h => h.launchTarget) hd3
  exact .ite hd4.timeSwitched hd4

protected theorem MemWf.timeStep {i val} (h : MemWf d) : MemWf (timeStep i val d) := h.of_mem

protected theorem MemWf.applySteps (h : MemWf d) : MemWf (applySteps d) := .foldl (fun _ _ h => h.setDom) h.of_mem

protected theorem MemWf.ppsInEdge (h : MemWf d) :
    MemWf (ppsInEdge d) := by
  unfold ppsInEdge
  dsimp only
  refine .ite ?_ h
  split
  · exact .trace (.of_snd h.takeMark ‹_›)
  · exact .cnt1 (.wr (.wr (.wr (.wr (.untrace (.of_snd h.takeMark ‹_›))))))

protected theorem MemWf.ppsLost (h : MemWf d) : MemWf (ppsLost d) := .ite h.traced.raiseAt h


/-! ### Host rings and firmware -/

protected theorem MemWf.ringFlush {n r} (h : MemWf d) : MemWf (ringFlush n d r) := by
  induction n generalizing d with
  | zero => exact h
  | succ n ih =>
    unfold ringFlush
    split
    · exact h
    · exact .ite (ih h.setRing.ringWrite) h

protected theorem MemWf.ringDrain {r} (h : MemWf d) : MemWf (ringDrain d r) := h.ringFlush

protected theorem MemWf.ringsWake (h : MemWf d) : MemWf (ringsWake d) := .ite (.foldl (fun _ _ h => h.ringDrain) h) h

protected theorem MemWf.ringError {r} (h : MemWf d) : MemWf (ringError d r) := h.wrf.raise

protected theorem MemWf.ringReject {r} (h : MemWf d) : MemWf (ringReject d r) := h.raise

protected theorem MemWf.ringCtlWrite {r val} (h : MemWf d) :
    MemWf (ringCtlWrite r val d) :=
  .ite h.wr (.ite (.ite h.wr h.ringReject) h.wr.setProd.setCons.setRing.ringDrain)

protected theorem MemWf.prodWrite {r val} (h : MemWf d) : MemWf (prodWrite r val d) := .ite h.ringError h.setProd

protected theorem MemWf.consWrite {r val} (h : MemWf d) :
    MemWf (consWrite r val d) :=
  .ite h.ringError h.setCons.ringDrain

protected theorem MemWf.acceptDesc {p bs data} (h : MemWf d) :
    MemWf (acceptDesc d p bs data) := by
  unfold acceptDesc
  dsimp only
  split
  · exact h.cnt1.refuseGen
  · exact h.of_mem

protected theorem MemWf.descriptorFetch {i r} (h : MemWf d) :
    MemWf (descriptorFetch i r d) := by
  unfold descriptorFetch
  dsimp only
  refine .ite h ?_
  split
  · exact h.dmaGet.ringError
  · exact .ite h.dmaGet.of_mem h.dmaGet.of_mem.setCons.writeBack.reserveCpl.acceptDesc

protected theorem MemWf.tblWinWrite {die val} (h : MemWf d) :
    MemWf (tblWinWrite die val d) :=
  .ite h (.ite h.raise h.wrf.acceptDesc)

protected theorem MemWf.msixCtlWrite {v val} (h : MemWf d) :
    MemWf (msixCtlWrite v val d) :=
  .ite h.wr.wr.raiseVec h.wr

protected theorem MemWf.ringInterrupt {r} (h : MemWf d) : MemWf (ringInterrupt r d) := .ite h h.setRing.raiseVec

protected theorem MemWf.eventPut {e} (h : MemWf d) : MemWf (eventPut d e) := h.ringPush.cnt1

protected theorem MemWf.eventRecordWrite (h : MemWf d) :
    MemWf (eventRecordWrite d) := by
  unfold eventRecordWrite
  dsimp only
  refine .ite ?_ h
  refine .ite h.of_mem.recordOut.eventPut ?_
  split
  · exact h
  · exact h.of_mem.eventPut

protected theorem MemWf.tagOk {f} (h : MemWf d) :
    MemWf (tagOk d f).2 := by
  unfold tagOk
  dsimp only
  split <;> exact .of_snd h.takeMark ‹_›

protected theorem MemWf.mgmtFrameReceive {f} (h : MemWf d) :
    MemWf (mgmtFrameReceive f d) :=
  .ite h (.ite h.tagOk.raise (.ite h.tagOk.raise.complete h.tagOk.of_mem.acceptDesc))

protected theorem MemWf.mgmtSend (h : MemWf d) :
    MemWf (mgmtSend d) := by
  unfold mgmtSend
  dsimp only
  split
  · exact h
  · exact h.of_mem

protected theorem MemWf.fwReject (h : MemWf d) : MemWf (fwReject d) := h.raise

protected theorem MemWf.tlrRestart {rp} (h : MemWf d) : MemWf (tlrRestart d rp) := h.of_mem.wr

protected theorem MemWf.tlrRestartDone (h : MemWf d) :
    MemWf (tlrRestartDone d) := by
  unfold tlrRestartDone
  dsimp only
  split
  · exact h.of_mem.wr.wr.completeOpt
  · exact h

protected theorem MemWf.tlrWatchdogExpiry {c} (h : MemWf d) : MemWf (tlrWatchdogExpiry c d) := by
  unfold tlrWatchdogExpiry
  refine .ite h ?_
  split
  rename_i d1 he
  have h1 : MemWf d1 := h.takeMark.of_snd he
  extract_lets _ _ d2
  have hd2 : MemWf d2 := h1.raise
  clear_value d2
  exact .ite (.wr hd2.of_mem) (.tlrRestart hd2.of_mem)

protected theorem MemWf.bootReqSend (h : MemWf d) : MemWf (bootReqSend d) := .ite h.mgmtPush h

protected theorem MemWf.bootImage {b} (h : MemWf d) :
    MemWf (bootImage d b) := by
  unfold bootImage
  dsimp only
  split
  · exact h.of_mem.wr.wr.wrf
  · exact h.of_mem.fwReject.wrf

protected theorem MemWf.bootImgReceive {off total final piece} (h : MemWf d) :
    MemWf (bootImgReceive off total final piece d) :=
  .ite (.ite h.of_mem.bootImage h.of_mem) h

protected theorem MemWf.tlrBootGo {img} (h : MemWf d) :
    MemWf (tlrBootGo img d) := by
  unfold tlrBootGo
  refine .ite ?_ h
  split
  · split
    · exact .wrf (.of_snd h.dmaGet ‹_›)
    · exact .bootImage (.of_snd h.dmaGet ‹_›)


/-! ### The mesh and the Seam -/

protected theorem MemWf.tookGrant {t ks} (h : MemWf d) : MemWf (tookGrant d t ks) := h.of_mem

protected theorem MemWf.tookTurn {t n} (h : MemWf d) : MemWf (tookTurn d t n) := h.of_mem

protected theorem MemWf.pickPlane {t dst} (h : MemWf d) :
    MemWf (pickPlane d t dst).2 :=
  .cnt1 (.ite_snd h (.ite_snd h h.of_mem))

protected theorem MemWf.reserve {k n} (h : MemWf d) : MemWf (reserve d k n) := h.of_mem

protected theorem MemWf.injectCopy {t i c} (h : MemWf d) :
    MemWf (injectCopy d t i c) := by
  unfold injectCopy
  extract_lets _ _ _ _ d1 _
  have hd1 : MemWf d1 := .foldl (fun _ _ h => h.reserve) h
  split
  · extract_lets _
    exact .launchFlight (.setIng (.of_snd (.ite_snd hd1.freePlane hd1.pickPlane) ‹_›))

protected theorem MemWf.injectOper {t o} (h : MemWf d) :
    MemWf (injectOper d t o) := by
  unfold injectOper
  dsimp only
  split
  · exact h.of_mem
  · exact .ite h.of_mem.spillOperand (.foldl (fun _ _ h => h.pickPlane.launchFlight) h.of_mem)

protected theorem MemWf.injectOwn {t o} (h : MemWf d) :
    MemWf (injectOwn d t o) :=
  h.of_mem.reserve.pickPlane.launchFlight

protected theorem MemWf.inject {t x2} (h : MemWf d) :
    MemWf (inject d t x2) := by
  unfold inject
  split
  · exact h.injectCopy
  · exact h.injectOper
  · exact h.injectOwn

protected theorem MemWf.meshInject {t} (h : MemWf d) :
    MemWf (meshInject t d) := by
  unfold meshInject
  split
  · exact h
  · exact .ite h h.tookTurn.tookGrant.inject

protected theorem MemWf.dropFlight {id} (h : MemWf d) : MemWf (dropFlight d id) := h.of_mem

protected theorem MemWf.unreserve {k n} (h : MemWf d) : MemWf (unreserve d k n) := h.of_mem

protected theorem MemWf.acceptCopy {fl id via k} (h : MemWf d) :
    MemWf (acceptCopy d fl id via k) := by
  unfold acceptCopy
  dsimp only
  split
  · exact h
  · exact .ite h.unreserve.setEgrQ h.unreserve.setEgrQ.freeIng

protected theorem MemWf.acceptOwn {fl e k} (h : MemWf d) : MemWf (acceptOwn d fl e k) := h.unreserve.setEgrQ

protected theorem MemWf.seamSendFlit {die link data} (h : MemWf d) : MemWf (seamSendFlit d die link data) := h.setSeam

protected theorem MemWf.seamCross {fl die link} (h : MemWf d) :
    MemWf (seamCross d fl die link) :=
  .setSeam (.foldl (fun _ _ h => h.seamSendFlit) h)

protected theorem MemWf.returnCredits {fl} (h : MemWf d) :
    MemWf (returnCredits d fl) := by
  unfold returnCredits
  dsimp only
  split
  · exact h
  · exact h.setSeam

protected theorem MemWf.leave {fl} (h : MemWf d) : MemWf (leave d fl) := h.returnCredits.dropFlight

protected theorem MemWf.noteHop {a b plane n} (h : MemWf d) : MemWf (noteHop d a b plane n) := h.of_mem

protected theorem MemWf.moveTo {fl b ds pvs chan} (h : MemWf d) : MemWf (moveTo d fl b ds pvs chan) := by
  unfold moveTo
  extract_lets _ _ x d1 d2
  clear_value x
  have hd1 : MemWf d1 := by
    rcases x with _ | ⟨die, link⟩
    exacts [h, h.seamCross]
  have hd2 : MemWf d2 := hd1.noteHop
  clear_value d2
  exact hd2.of_mem

protected theorem MemWf.routeTree {fl id pvs via} (h : MemWf d) :
    MemWf (routeTree d fl id pvs via) :=
  .ite (.foldl (fun _ _ h => h.acceptCopy) (.foldl (fun _ _ h => h.moveTo) h.leave)) h

protected theorem MemWf.routeBcast {fl origin kind} (h : MemWf d) :
    MemWf (routeBcast d fl origin kind) :=
  .ite (.ite (.of_mem (.foldl (fun _ _ h => h.moveTo) h.leave)) (.foldl (fun _ _ h => h.moveTo) h.leave)) h

protected theorem MemWf.tookOutputs {fl} (h : MemWf d) : MemWf (tookOutputs d fl) := h.of_mem

protected theorem MemWf.memArrive {fl m} (h : MemWf d) : MemWf (memArrive d fl m) := .ite h h.leave.of_bytes

protected theorem MemWf.arrive {fl} (h : MemWf d) :
    MemWf (arrive d fl) := by
  unfold arrive
  dsimp only
  split
  · exact h.leave.stageOperand
  · exact h.leave.acceptOwn
  · exact h.memArrive
  · exact h.leave.of_bytes
  · exact h

protected theorem MemWf.routeOn {fl} (h : MemWf d) :
    MemWf (routeOn d fl) := by
  unfold routeOn
  dsimp only
  split
  · refine .ite h.routeTree ?_
    split
    · exact h
    · exact .ite h.leave.moveTo h
  · exact h.routeBcast
  · refine .ite h.arrive ?_
    split
    · exact h
    · exact .ite h.leave.moveTo h

protected theorem MemWf.routeWon {fl} (h : MemWf d) : MemWf (routeWon d fl) := .ite h h.tookOutputs.routeOn

protected theorem MemWf.meshFlitRoute {id ecc} (h : MemWf d) :
    MemWf (meshFlitRoute id ecc d) := by
  unfold meshFlitRoute
  dsimp only
  split
  · exact h
  · exact .ite h.takeMark.routeWon (.ite h.takeMark.raise.binError.routeWon h.takeMark.raise.deviceFault)

protected theorem MemWf.meshEscape {id} (h : MemWf d) :
    MemWf (meshEscape id d) := by
  unfold meshEscape
  dsimp only
  split
  · exact .ite h.of_mem.cnt1 h
  · exact h

protected theorem MemWf.seamState {die link st} (h : MemWf d) : MemWf (seamState d die link st) := h.wrf.wrf

protected theorem MemWf.seamFail {die link} (h : MemWf d) :
    MemWf (seamFail d die link) :=
  h.seamState.raise.deviceFault

protected theorem MemWf.chargeWire {die link wire inj} (h : MemWf d) :
    MemWf (chargeWire d die link wire inj) :=
  .ite h.setSeam.setSeam.seamState h.setSeam

protected theorem MemWf.seamPut {die link fs} (h : MemWf d) : MemWf (seamPut d die link fs) := h.setSeam

protected theorem MemWf.seamNak {die link ack} (h : MemWf d) :
    MemWf (seamNak die link ack d) :=
  .ite h.retrace.cnt1.setSeam.seamPut.seamFail h.retrace.cnt1.setSeam.seamPut

protected theorem MemWf.seamGood {die link f} (h : MemWf d) :
    MemWf (seamGood die link f d) := by
  unfold seamGood
  dsimp only
  refine .ite ?_ ?_
  · refine .seamNak (.setSeam ?_)
    split
    · exact .ite (.foldl (fun _ _ h => h.chargeWire) h.traced) h
    · exact h
  · refine .setSeam ?_
    split
    · exact .ite (.foldl (fun _ _ h => h.chargeWire) h.traced) h
    · exact h

protected theorem MemWf.seamBad {die link f} (h : MemWf d) :
    MemWf (seamBad die link f d) :=
  .ite h.cnt1.binError.trace.setSeam.seamPut.seamFail h.cnt1.binError.trace.setSeam.seamPut

protected theorem MemWf.seamFlitReceive {die link f} (h : MemWf d) :
    MemWf (seamFlitReceive die link f d) :=
  .ite h.takeMark.setSeam (.ite h.takeMark.setSeam.seamGood h.takeMark.setSeam.seamBad)

protected theorem MemWf.seamAgain {die link} (h : MemWf d) : MemWf (seamAgain d die link) := h.setSeam

protected theorem MemWf.seamResume {die link} (h : MemWf d) :
    MemWf (seamResume d die link) :=
  .ite h h.setSeam.seamState.seamAgain

protected theorem MemWf.seamRepair {die link wire} (h : MemWf d) :
    MemWf (seamRepair die link wire d) := by
  unfold seamRepair
  extract_lets _ _ _ d2 d3 d4
  have hd2 : MemWf d2 := .ite h.of_mem h
  have hd3 : MemWf d3 := hd2.setSeam
  have hd4 : MemWf d4 := hd3.wrf.raise
  exact .ite hd2.seamFail (.ite hd2 (.ite hd2.seamFail hd4.seamResume))


/-! ### Policing and shaping -/

protected theorem MemWf.polApply {old new k die} (h : MemWf d) :
    MemWf (polApply d old new k die) :=
  .ite h h.setPolDie

protected theorem MemWf.polWrite {k new} (h : MemWf d) :
    MemWf (polWrite d k new) :=
  .of_mem (.foldl (fun _ _ h => h.polApply) h)

protected theorem MemWf.polCmdWrite {die val} (h : MemWf d) :
    MemWf (polCmdWrite die val d) :=
  .ite (.ite h.raise (.ite h.polWrite h.polWrite.of_mem.wrf)) (.ite h h.of_mem.wrf)

protected theorem MemWf.polShow {lo hi die c} (h : MemWf d) : MemWf (polShow d lo hi die c) := h.wr.wr

protected theorem MemWf.polRead {k} (h : MemWf d) :
    MemWf (polRead d k) :=
  .foldl (fun _ _ h => h.polShow.polShow.polShow) h.wr.wr.wr

protected theorem MemWf.polCmdComplete (h : MemWf d) :
    MemWf (polCmdComplete d) := by
  unfold polCmdComplete
  dsimp only
  split
  · exact h
  · exact .wrf (.of_mem (.ite h (.ite h.polRead.setPolDie h.polRead)))

protected theorem MemWf.shpWrite {p c r val} (h : MemWf d) : MemWf (shpWrite p c r val d) := .ite h.raise h.wr.setShp


/-! ### Power and thermal -/

protected theorem MemWf.sysReject (h : MemWf d) : MemWf (sysReject d) := h.raise

protected theorem MemWf.lockTo {k} (h : MemWf d) :
    MemWf (lockTo d k) := by
  unfold lockTo
  extract_lets d1 _
  have hd1 : MemWf d1 := h.wrf.wrf.wrf
  exact hd1.of_mem

protected theorem MemWf.enterHoldover (h : MemWf d) :
    MemWf (enterHoldover d) := by
  unfold enterHoldover
  extract_lets d1 _
  have hd1 : MemWf d1 := h.wrf.wrf
  exact hd1.of_mem.raise

protected theorem MemWf.refFail {k} (h : MemWf d) :
    MemWf (refFail k d) := by
  unfold refFail
  extract_lets d1 d2 _
  have hd1 : MemWf d1 := h.wrf
  have hd2 : MemWf d2 := hd1.wrf
  exact .ite hd1 (.ite (.ite hd2.of_mem.trace hd1.of_mem) hd1.enterHoldover)

protected theorem MemWf.switchTo {k} (h : MemWf d) : MemWf (switchTo d k) := h.lockTo.raise

protected theorem MemWf.refSwitch (h : MemWf d) :
    MemWf (refSwitch d) := by
  unfold refSwitch
  split
  · exact .ite h.traced.switchTo h
  · exact h

protected theorem MemWf.refRevert (h : MemWf d) : MemWf (refRevert d) := .ite h.switchTo h

protected theorem MemWf.clkRefWrite {val} (h : MemWf d) :
    MemWf (clkRefWrite val d) := by
  unfold clkRefWrite
  extract_lets _ d1 _ d2 _
  have hd1 : MemWf d1 := h.wr
  have hd2 : MemWf d2 := hd1.untrace
  exact .ite h.sysReject hd2.of_mem

protected theorem MemWf.holdoverRelock {k} (h : MemWf d) : MemWf (holdoverRelock k d) := .ite h.lockTo h

protected theorem MemWf.saveRepair (h : MemWf d) : MemWf (saveRepair d) := .ite h.bumpRecord.newRecord h

protected theorem MemWf.memLanePending {stack channel lane} (h : MemWf d) :
    MemWf (memLanePending stack channel lane d) :=
  .ite h.wr.of_bytes.saveRepair.raise h

protected theorem MemWf.setSusp {n v} (h : MemWf d) : MemWf (setSusp d n v) := h.wrf

protected theorem MemWf.coreLost {c j phys cause} (h : MemWf d) :
    MemWf (coreLost d c j phys cause) := by
  unfold coreLost
  exact h.wrf.raise.abortWhere

protected theorem MemWf.spareTakes {c j cause} (h : MemWf d) :
    MemWf (spareTakes d c j cause) :=
  h.wr.wrf.setCoreState.setSusp.raise.saveRepair

protected theorem MemWf.fallAsleep {n} (h : MemWf d) : MemWf (fallAsleep d n) := h.of_mem

protected theorem MemWf.setPd {n s} (h : MemWf d) : MemWf (setPd d n s) := .wrf (.ite h.of_mem (.ite h.fallAsleep h))

protected theorem MemWf.idleStep (h : MemWf d) : MemWf (idleStep d) := h.of_mem

protected theorem MemWf.loseState {n s} (h : MemWf d) : MemWf (loseState d n s) := by
  unfold loseState
  refine .ite (.foldl (fun _ _ h => .ite h.holdRing h) h) (.ite h ?_)
  split
  · split
    · exact h.of_mem
    · exact h
  · exact .foldl (fun _ _ h => h.setRingState) h
  · exact filter_bytes_wf h _
  · exact h

protected theorem MemWf.wakeStart {n} (h : MemWf d) : MemWf (wakeStart d n) := .ite h h.of_mem

protected theorem MemWf.noteLink {n k} (h : MemWf d) : MemWf (noteLink n k d) := .ite h.of_mem h

protected theorem MemWf.pdSettle {n} (h : MemWf d) :
    MemWf (pdSettle n d) :=
  .ite h (.ite h.setPd (.ite h (.ite h.wakeStart h.setPd.loseState)))

protected theorem MemWf.pwrEval {n k} (h : MemWf d) : MemWf (pwrEval n k d) := h.noteLink.pdSettle

protected theorem MemWf.settleFrac (h : MemWf d) : MemWf (settleFrac d) := h.of_mem

protected theorem MemWf.issueRampStep {c} (h : MemWf d) : MemWf (issueRampStep c d) := .ite h.of_mem h

protected theorem MemWf.thermalTrip {cause unit} (h : MemWf d) : MemWf (thermalTrip d cause unit) := by
  unfold thermalTrip
  extract_lets d1 d2 d3
  have hd1 : MemWf d1 := h.wr
  have hd2 : MemWf d2 := hd1.holdRings
  have hd3 : MemWf d3 := .foldl (fun _ _ h => h.setThim) hd2
  clear_value d3
  exact hd3.of_mem

protected theorem MemWf.tripCheck {key cause unit hot} (h : MemWf d) :
    MemWf (tripCheck d key cause unit hot) :=
  .ite h.of_mem.thermalTrip h.of_mem

protected theorem MemWf.applyThrottle {die} (h : MemWf d) :
    MemWf (applyThrottle d die) :=
  .settleFrac (.ite h.wrf.wrf.raise h.wrf.wrf)

protected theorem MemWf.thmInject {die i l} (h : MemWf d) : MemWf (thmInject d die i l).2 := by
  induction l generalizing d i with
  | nil => exact h
  | cons t r ih => exact ih h.takeMark

protected theorem MemWf.thmSample {die temps} (h : MemWf d) :
    MemWf (thmSample die temps d) := by
  unfold thmSample
  split
  · extract_lets _ _ d2 _ _ d3
    have hd2 : MemWf d2 := .wrf (.wrf (.of_snd h.thmInject ‹_›))
    have hd3 : MemWf d3 := hd2.of_mem.applyThrottle
    exact hd3.tripCheck

protected theorem MemWf.ilimAssert {die} (h : MemWf d) :
    MemWf (ilimAssert die d) :=
  .ite h h.of_mem.raise.applyThrottle

protected theorem MemWf.ilimRelease {die} (h : MemWf d) : MemWf (ilimRelease die d) := .ite h.of_mem h

protected theorem MemWf.ilimHoldEnd {die} (h : MemWf d) : MemWf (ilimHoldEnd die d) := .ite h.of_mem.applyThrottle h

protected theorem MemWf.memTempSample {s temp} (h : MemWf d) :
    MemWf (memTempSample s temp d) := by
  unfold memTempSample
  dsimp only
  refine .tripCheck ?_
  refine .settleFrac (.ite ?_ ?_)
  · refine .event (.stSet ?_)
    split
    · exact h.takeMark.wrf.wrf.wrf.of_bytes
    · exact h.takeMark.wrf.wrf.wrf
  · split
    · exact h.takeMark.wrf.wrf.wrf.of_bytes
    · exact h.takeMark.wrf.wrf.wrf

protected theorem MemWf.fuseLoad (h : MemWf d) : MemWf (fuseLoad d) := h.wrf.wr.wr.wr

protected theorem MemWf.dropRecord {r} (h : MemWf d) : MemWf (dropRecord d r) := h.setBolt.raise

protected theorem MemWf.dropImage {i} (h : MemWf d) : MemWf (dropImage d i) := h.setBolt.freeBands.journalled.raise

protected theorem MemWf.setLast {boots} (h : MemWf d) : MemWf (setLast d boots) := h.of_mem

protected theorem MemWf.findCopies {i} (h : MemWf d) : MemWf (findCopies d i) := h.setBolt

protected theorem MemWf.goodRecord {e} (h : MemWf d) (he : goodRecord d = some e) : MemWf e := by
  unfold goodRecord at he
  split at he
  · cases he; exact h
  · split at he
    · cases he
    · split at he
      · cases he; exact h
      · cases he; exact h.setBolt

protected theorem MemWf.mount {i warm} (h : MemWf d) : MemWf (mount d i warm) := by
  unfold mount
  extract_lets d1
  have hd1 : MemWf d1 := .ite h h.findCopies
  clear_value d1
  split
  · rename_i d2 he
    have h2 : MemWf d2 := by
      split at he
      · exact hd1.goodRecord he
      · cases he
    extract_lets d3 d4 d5 d6
    have hd4 : MemWf d4 := .foldl (fun _ _ h => h.dropImage) h2.wr
    have hd5 : MemWf d5 := .foldl (fun _ _ h => h.dropRecord) hd4.setBolt
    have hd6 : MemWf d6 := hd5.checkSpares
    exact .ite hd6 (.ite hd6.setLast (.setLast (.setBolt (.ite hd6 hd6.bumpRecord))))
  · exact .ite hd1.wr.raise hd1.wr.raise.setLast

protected theorem MemWf.saveMaps (h : MemWf d) : MemWf (saveMaps d) := .ite h.bumpRecord.setBolt h

protected theorem MemWf.seamsUp {i} (h : MemWf d) :
    MemWf (seamsUp d i) :=
  .saveMaps (.foldl (fun _ _ h => h.setSeam.wr) h)

protected theorem MemWf.placeSpares (h : MemWf d) :
    MemWf (placeSpares d) := by
  unfold placeSpares
  dsimp only
  split
  · exact .foldl (fun _ _ h => .ite (.ite h.setCoreState h.setCoreState.setCoreState) h) h.wr.wr.of_bytes
  · exact h

protected theorem MemWf.selfTestFail {n} (h : MemWf d) :
    MemWf (selfTestFail d n) := by
  unfold selfTestFail
  dsimp only
  split
  · exact h.setCoreState
  · exact .ite h.setCoreState.spareTakes (.ite h.setCoreState h.setCoreState.coreLost)

protected theorem MemWf.coresTested {i} (h : MemWf d) :
    MemWf (coresTested d i) :=
  .wrf (.foldl (fun _ _ h => h.selfTestFail) h)

protected theorem MemWf.coresOff (h : MemWf d) : MemWf (coresOff d) := .foldl (fun _ _ h => .ite h.setPd h) h

protected theorem MemWf.trainSettings {i s} (h : MemWf d) :
    MemWf (trainSettings d i s) := by
  unfold trainSettings
  dsimp only
  split <;> exact h.of_bytes

protected theorem MemWf.trainStack {i s} (h : MemWf d) :
    MemWf (trainStack i d s) :=
  .ite h.wrf.wr h.wrf.trainSettings.wr.wr.wr.wr

protected theorem MemWf.discover {i m} (h : MemWf d) :
    MemWf (discover i d m) := by
  unfold discover
  split
  · exact h.wrf
  · extract_lets _ d1 d2
    have hd1 : MemWf d1 := h.wr.wr.wrf
    have hd2 : MemWf d2 := by
      refine .foldl (fun _ _ h => ?_) hd1
      extract_lets _ _ d3
      have hd3 : MemWf d3 := h.wr
      exact .ite hd3.of_mem.biasWrite hd3.ageCheck
    exact .foldl (fun _ _ h => .ite h.setFeed h) hd2

protected theorem MemWf.setStep {n} (h : MemWf d) : MemWf (setStep d n) := h.of_mem

protected theorem MemWf.startSteps {i warm} (h : MemWf d) :
    MemWf (startSteps d i warm) := by
  unfold startSteps
  extract_lets d1 d2 d3 d4 d5 d6
  have hd1 : MemWf d1 := .foldl (fun _ _ h => h.applyThrottle) h
  have hd2 : MemWf d2 := hd1.fuseLoad.wrf
  have hd3 : MemWf d3 := hd2.mount.setStep
  have hd4 : MemWf d4 := hd3.seamsUp.placeSpares.coresTested
  have hd5 : MemWf d5 := hd4.coresOff.setStep
  have hd6 : MemWf d6 := .foldl (fun _ _ h => h.discover) (.foldl (fun _ _ h => h.trainStack) hd5)
  refine .ite hd2.setStep ?_
  refine .ite hd2.setStep ?_
  split
  · exact hd3.seamsUp.seamFail
  · exact .ite hd6.setStep hd6

protected theorem MemWf.startup {i} (h : MemWf d) :
    MemWf (startup d i) :=
  .ite h.wrf.wrf.lockTo.startSteps (.ite h.wrf.wrf.lockTo.startSteps h.wrf.wrf.setStep)

protected theorem MemWf.porRelease {i} (h : MemWf d) : MemWf (porRelease i d) := .ite h h.of_mem.startup

protected theorem MemWf.refGood {k} (h : MemWf d) :
    MemWf (refGood k d) := by
  unfold refGood
  dsimp only
  split
  · exact .ite h.wrf.lockTo.startSteps h.wrf
  · exact h.wrf

protected theorem MemWf.startupComplete (h : MemWf d) :
    MemWf (startupComplete d) :=
  .ite (.event (.foldl (fun _ _ h => h.wrf) h.setStep.wr.wrf)) h

protected theorem MemWf.coldDev (_h : MemWf d) : MemWf (coldDev d) := by
  unfold coldDev
  exact .of_mem (d := Dev.reset) memWf_reset

protected theorem MemWf.brownout {r} (h : MemWf d) :
    MemWf (brownout r d) := by
  unfold brownout
  split <;> exact h.coldDev.wr

protected theorem MemWf.warm {cause} (_h : MemWf d) : MemWf (warm cause d) := by
  unfold warm
  extract_lets _ _ _ _ _ _ _ _ _ d1 d2 d3
  have hd1 : MemWf d1 := .of_mem (d := Dev.reset) memWf_reset
  clear_value d1
  have hd2 : MemWf d2 := .foldl (fun _ _ h => h.setCoreState) hd1
  have hd3 : MemWf d3 := hd2.wr.wrf
  split
  · exact .ite hd3.startSteps hd3
  · exact hd3

protected theorem MemWf.rstCtlWrite {val} (h : MemWf d) :
    MemWf (rstCtlWrite val d) :=
  .ite h.sysReject (.ite h.wr.warm h.wr)

protected theorem MemWf.pcieReset {k} (h : MemWf d) :
    MemWf (pcieReset k d) := by
  unfold pcieReset
  dsimp only
  split
  · exact h.of_mem.wr
  · exact h.of_mem


/-! ### Reliability -/

protected theorem MemWf.relReject (h : MemWf d) : MemWf (relReject d) := h.raise

protected theorem MemWf.injFlags {armed done} (h : MemWf d) : MemWf (injFlags d armed done) := h.wrf.wrf

protected theorem MemWf.injArm (h : MemWf d) : MemWf (injArm d) := .ite h.relReject h.of_mem.injFlags

protected theorem MemWf.injDisarm (h : MemWf d) : MemWf (injDisarm d) := h.of_mem.injFlags

protected theorem MemWf.injCtlWrite {m val} (h : MemWf d) :
    MemWf (injCtlWrite m val d) :=
  .ite (.injArm (.ite h.wr.injDisarm h.wr)) (.ite h.wr.injDisarm h.wr)

protected theorem MemWf.injSetWrite {r m} (h : MemWf d) : MemWf (injSetWrite r m d) := .ite h.relReject h.wr

protected theorem MemWf.flipReplica {die slot} (h : MemWf d) : MemWf (flipReplica d die slot) := h.of_mem

protected theorem MemWf.injectEffect {i} (h : MemWf d) :
    MemWf (injectEffect i d) := by
  unfold injectEffect
  dsimp only
  split
  · exact h.cdrLoss
  · exact h.chargeWire
  · exact h.flipReplica
  · exact h.thimbleTrip
  · exact h.feedKill
  · exact h.ilimAssert
  · exact h.refFail
  · exact h.brownout
  · exact h.deviceFault
  · exact h.of_mem
  · exact h.of_mem
  · exact h.of_mem
  · exact h.of_mem
  · exact h.of_mem
  · exact h.of_mem
  · exact h.of_mem
  · exact h.of_mem
  · exact h.of_mem
  · exact h.of_mem
  · exact h.of_mem
  · exact h.of_mem
  · exact h.of_mem
  · exact h.of_mem

protected theorem MemWf.injection (h : MemWf d) : MemWf (injection d) := by
  unfold injection
  split
  · exact h
  · refine .ite h ?_
    extract_lets d1 _ d2
    have hd1 : MemWf d1 := h.cnt1
    have hd2 : MemWf d2 := by
      unfold d2
      split
      · exact hd1
      · exact .injFlags hd1.of_mem
      · exact .injFlags hd1.of_mem
      · exact hd1.of_mem
    clear_value d2
    exact .injectEffect hd2.of_mem

protected theorem MemWf.logPop {val} (h : MemWf d) : MemWf (logPop val d) := .ite h.of_mem h

protected theorem MemWf.suspicionDecay {n} (h : MemWf d) :
    MemWf (suspicionDecay n d) := by
  unfold suspicionDecay
  extract_lets d1 _
  have hd1 : MemWf d1 := h.setSusp
  exact .ite hd1 hd1.of_mem

protected theorem MemWf.failCore {n cause} (h : MemWf d) :
    MemWf (failCore n cause d) := by
  unfold failCore
  dsimp only
  split
  · exact h.setCoreState.setPd.setPd.of_mem
  · exact .ite h.setCoreState.setPd.setPd.of_mem.wakeStart h.setCoreState.setPd.setPd.of_mem.coreLost

protected theorem MemWf.patrolFail {u test} (h : MemWf d) : MemWf (patrolFail u test d) := by
  unfold patrolFail
  split
  · extract_lets d1
    have hd1 : MemWf d1 := h.raise
    clear_value d1
    split
    · exact .ite hd1.failCore hd1.of_mem
    · exact hd1.failCore
  · exact h.raise.raise.wrf
  · exact h.raise.chargeWire
  · exact h.raise.deviceFault

protected theorem MemWf.spareIn {c pass} (h : MemWf d) :
    MemWf (spareIn c pass d) := by
  unfold spareIn
  split
  · exact h
  · refine .ite h ?_
    extract_lets _ d1 _ d2
    have hd1 : MemWf d1 := h.of_mem.cnt1
    have hd2 : MemWf d2 := hd1.of_mem.raise
    exact .ite hd1.spareTakes hd2.setCoreState.setPd.coreLost

protected theorem MemWf.patrolUnitStart {u} (h : MemWf d) :
    MemWf (patrolUnitStart u d) := by
  unfold patrolUnitStart
  dsimp only
  refine .ite h ?_
  split
  · split
    · exact h
    · refine .ite h ?_
      split
      · exact h.failCore
      · exact .ite h (.ite h.setCoreState.of_mem h)
  · exact .ite h.of_mem h

protected theorem MemWf.patrolUnitEnd {u fail} (h : MemWf d) :
    MemWf (patrolUnitEnd u fail d) := by
  unfold patrolUnitEnd
  dsimp only
  refine .ite h ?_
  split
  · split
    · split
      · exact .of_mem h.of_mem.cnt1.setCoreState rfl
      · exact h.of_mem.cnt1.setCoreState
    · exact h.of_mem.cnt1
  · refine .patrolFail ?_
    split
    · split
      · exact .of_mem h.of_mem.cnt1.setCoreState rfl
      · exact h.of_mem.cnt1.setCoreState
    · exact h.of_mem.cnt1

protected theorem MemWf.patrolYield {u} (h : MemWf d) :
    MemWf (patrolYield u d) := by
  unfold patrolYield
  split
  · exact .ite h.abandonCore h
  · exact h

protected theorem MemWf.fullCores {st} (h : MemWf d) :
    MemWf (fullCores d st) :=
  .foldl (fun _ _ h => .ite h h.setCoreState) h

protected theorem MemWf.patrolCtlWrite {m val} (h : MemWf d) : MemWf (patrolCtlWrite m val d) := by
  unfold patrolCtlWrite
  refine .ite h.wrf (.ite h.wrf.relReject ?_)
  exact (rfl : Memory.wf [] = true)

protected theorem MemWf.patrolDone {fails} (h : MemWf d) :
    MemWf (patrolDone fails d) := by
  unfold patrolDone
  dsimp only
  split
  · exact h
  · exact .event (.foldl (fun _ _ h => h.patrolFail) h.of_mem.cntN.fullCores.wrf.wr)

end

end Sys2Proof.Machine
end

section
/-! # Every register access and every TIME cycle keeps stacked memory in its canonical form. -/
namespace Sys2Proof.Machine

section
-- Each lemma cites the ones before it. Elaborated all at once they wait for one another, in more threads than the
-- memory of a check holds, so they are elaborated in turn.
set_option Elab.async false
variable {d : Dev}

/-! ### Register accesses -/

protected theorem MemWf.rsvdCount (h : MemWf d) : MemWf (rsvdCount d) := h.raise

protected theorem MemWf.regwr (h : MemWf d) : MemWf (regwr d) := h.cnt1

protected theorem MemWf.lockReject {die r} (h : MemWf d) :
    MemWf (lockReject die r d) := by
  unfold lockReject
  dsimp only
  split
  · exact h.raise.raise
  · exact h.raise.raise
  · exact h.raise.raise
  · exact h.raise.raise
  · exact h.raise.raise
  · exact h.raise.raise
  · exact h.raise.raise
  · exact h.raise.raise
  · exact h.raise.raise
  · exact h.raise

protected theorem MemWf.emSeedWrite {die r other val} (h : MemWf d) :
    MemWf (emSeedWrite die r other val d) :=
  .ite h.wr h.raise

protected theorem MemWf.portWrite {p val} (h : MemWf d) :
    MemWf (portWrite p val d) :=
  .ite h.rtPortWrite.probePort h.rtPortWrite

protected theorem MemWf.writeReg {die r ix m val img low} (h : MemWf d) :
    MemWf (writeReg die r ix m val img low d) := by
  unfold writeReg
  dsimp only
  split
  · exact h.emSeedWrite
  · exact h.emSeedWrite
  · exact h.fwdAgeCtlWrite
  · exact h.emCtlWrite
  · exact .ite h.fwdEpochCommit h
  · exact h.swRsvWrite
  · exact h.portWrite
  · exact h.rtOrdSeedWrite
  · exact h.mirCtlWrite
  · exact h.polCmdWrite
  · exact h.shpWrite
  · exact h.shpWrite
  · exact h.shpWrite
  · exact h.clBobWrite
  · exact h.collMemWrite
  · exact h.optMemWrite
  · exact h.memHashSeedWrite
  · exact h.lnPortWrite
  · exact h.oeCtlWrite
  · exact h.lnCtlWrite
  · exact h.biasWrite
  · exact h.elsCtlWrite
  · exact .ite h.wrf.switchGo h.wrf
  · exact h.timeStep
  · exact .ite h.tsqPop h
  · exact h.ringCtlWrite
  · exact h.prodWrite
  · exact h.consWrite
  · split
    · exact .ite h.wrf.tlrBootGo h.wrf
    · exact h.wrf
  · exact h.tblWinWrite
  · exact h.rstCtlWrite
  · exact h.clkRefWrite
  · exact h.injCtlWrite
  · exact h.injSetWrite
  · exact h.injSetWrite
  · exact h.logPop
  · exact h.patrolCtlWrite
  · exact h.pmcSelApply
  · exact h.pmcSelApply
  · exact h.pmcSelApply
  · exact h.pmcSelApply
  · exact h.pmcCtlWrite
  · exact h.pmcFreezeWrite
  · exact h.msixCtlWrite
  · exact h.wr

protected theorem MemWf.writePair {die lo ix ml mh} (h : MemWf d) :
    MemWf (writePair die lo ix ml mh d) := by
  unfold writePair
  extract_lets _ d2 _
  have hd2 : MemWf d2 := h.wr.wr
  split
  · exact h.collMemWrite
  · exact h.optMemWrite
  · refine .ite h.ringReject ?_
    split
    · exact h.wr.wr
    · exact h
  · refine .ite h.ringReject ?_
    split
    · exact h.wr.wr
    · exact h
  · exact .ite hd2 hd2.of_mem
  · split
    · exact h.wr.wr
    · exact h

protected theorem MemWf.applyReg {off r ix val img low} (h : MemWf d) :
    MemWf (applyReg off r ix val img low d) := by
  unfold applyReg
  dsimp only
  refine .ite (.ite h.lockReject h) ?_
  split
  · exact .of_mem (.ite h.lockReject h)
  · exact .writeReg (.ite h.lockReject h)

protected theorem MemWf.applyHeld {w} (h : MemWf d) :
    MemWf (applyHeld d w) := by
  unfold applyHeld
  split
  · exact h.writeReg
  · exact h

protected theorem MemWf.domainWakeDone {n late} (h : MemWf d) :
    MemWf (domainWakeDone n late d) := by
  unfold domainWakeDone
  refine .ite ?_ h
  extract_lets _ _ d1 d2 _ d3 d4
  have hd1 : MemWf d1 := h.of_mem.setPd
  have hd2 : MemWf d2 := .cnt1 (.foldl (fun _ _ h => h.applyHeld) hd1)
  have hd3 : MemWf d3 := .ite hd2.of_mem hd2
  have hd4 : MemWf d4 := .ite hd3.setCoreState hd3
  exact .ite hd4.raise hd4

protected theorem MemWf.applyPair {off lo hi ix vl vh} (h : MemWf d) :
    MemWf (applyPair off lo hi ix vl vh d) :=
  .ite (.ite h.lockReject h) (.writePair (.ite h.lockReject h))

protected theorem MemWf.unstage {key} (h : MemWf d) : MemWf (unstage d key) := h.of_mem

protected theorem MemWf.regWrite32 {off r ix val img low} (h : MemWf d) :
    MemWf (regWrite32 off r ix val img low d) := by
  unfold regWrite32
  dsimp only
  split
  · exact h.of_mem
  · exact h.unstage.applyPair
  · exact h.applyReg

protected theorem MemWf.busWriteX {off val img low} (h : MemWf d) :
    MemWf (busWriteX off val img low d) := by
  unfold busWriteX
  refine .ite h ?_
  split
  · exact h.rsvdCount
  · exact h.regwr
  · exact h.regwr.regWrite32

protected theorem MemWf.busWrite {off val} (h : MemWf d) : MemWf (busWrite off val d) := h.of_mem.busWriteX

protected theorem MemWf.halfWrite {off val} (h : MemWf d) :
    MemWf (halfWrite off val d) := by
  unfold halfWrite
  split
  · exact h.of_mem.regWrite32
  · exact h

protected theorem MemWf.busWrite64 {off val} (h : MemWf d) :
    MemWf (busWrite64 off val d) := by
  unfold busWrite64
  dsimp only
  refine .ite h ?_
  refine .ite (.ite h.rsvdCount h) ?_
  split
  · split
    · exact .applyPair (.unstage (.regwr (.ite h.rsvdCount h)))
    · exact .halfWrite (.halfWrite (.regwr (.ite h.rsvdCount h)))
  · exact .halfWrite (.regwr (.ite h.rsvdCount h))

protected theorem MemWf.busRead {off} (h : MemWf d) :
    MemWf (busRead off d).2 := by
  unfold busRead
  dsimp only
  split
  · exact h.rsvdCount
  · exact h.of_mem
  · split
    · exact h.of_mem
    · exact h
  · split
    · exact h.of_mem
    · split
      · exact h.of_mem
      · exact h
    · exact h

protected theorem MemWf.busRead64 {off} (h : MemWf d) : MemWf (busRead64 off d).2 := .ite h.rsvdCount h

protected theorem MemWf.busReads {n off} (h : MemWf d) : MemWf (busReads n off d).2 := by
  induction n generalizing d off with
  | zero => exact h
  | succ n ih => exact ih h.busRead

protected theorem MemWf.setBar {r} (h : MemWf d) : MemWf (setBar r d) := h.of_mem

protected theorem MemWf.rsvdAccess {off write wide} (h : MemWf d) :
    MemWf (rsvdAccess off write wide d) := by
  unfold rsvdAccess
  refine .ite ?_ (.ite (.ite h.rsvdCount h.rsvdCount.setBar) h)
  refine .ite (.ite h.rsvdCount h.rsvdCount.setBar) ?_
  refine .ite ?_ h
  extract_lets p1
  have hp1 : MemWf p1.2 := h.busRead64
  exact hp1.setBar

protected theorem MemWf.portStateWrite {p st val} (h : MemWf d) :
    MemWf (portStateWrite p st val d) :=
  .ite h.busWrite h


/-! ### The TIME cycle -/

protected theorem MemWf.cntIf {b s n k} (h : MemWf d) : MemWf (cntIf b d s n k) := .ite h.cntN h

protected theorem MemWf.engineCounters {k q} (h : MemWf d) :
    MemWf (engineCounters k d q) :=
  .ite (.foldl (fun _ _ h => h.of_mem.cntN) h) h

protected theorem MemWf.seamCycle {die e} (h : MemWf d) :
    MemWf (seamCycle d die e) := by
  unfold seamCycle
  extract_lets _ _ d2
  have hd2 : MemWf d2 := h.cntN
  refine .ite h ?_
  refine .foldl (fun _ _ h => ?_) hd2
  extract_lets _
  exact h.setSeam

protected theorem MemWf.cycleCounters (h : MemWf d) :
    MemWf (cycleCounters d) := by
  unfold cycleCounters
  extract_lets _ _ _ _ d1 d2 d3 d4 d5 d6 d7 d8 d9 d10 d11 d12 d13
  have hd1 : MemWf d1 := h.cntIf
  have hd2 : MemWf d2 := hd1.cntIf
  have hd3 : MemWf d3 := hd2.cntIf
  have hd4 : MemWf d4 := hd3.memHigh
  have hd5 : MemWf d5 := hd4.cntIf
  have hd6 : MemWf d6 := hd5.cntIf
  have hd7 : MemWf d7 := hd6.cntIf
  have hd8 : MemWf d8 := by
    refine .foldl (fun _ _ h => ?_) hd7
    extract_lets d14 d15
    have hd14 : MemWf d14 := h.cntIf
    have hd15 : MemWf d15 := hd14.cntIf
    exact hd15.cntIf
  have hd9 : MemWf d9 := .foldl (fun _ _ h => h.cntIf) hd8
  have hd10 : MemWf d10 := .ite hd9 (.foldl (fun _ _ h => h.seamCycle.seamCycle) hd9)
  have hd11 : MemWf d11 := .foldl (fun _ _ h => h.cntIf) hd10
  have hd12 : MemWf d12 := .foldl (fun _ _ h => h.cntIf) hd11
  have hd13 : MemWf d13 := .foldl (fun _ _ h => h.cntIf) hd12
  exact .foldl (fun _ _ h => h.engineCounters) hd13

protected theorem MemWf.occCount {off r ix} (h : MemWf d) :
    MemWf (occCount d off r ix) := by
  unfold occCount
  dsimp only
  split
  · exact h
  · exact .ite h.cntAdd h

protected theorem MemWf.occCounters (h : MemWf d) :
    MemWf (occCounters d) := by
  unfold occCounters
  refine .foldl (fun _ _ h => ?_) h
  refine .ite ?_ h
  split
  · exact h.occCount
  · exact h

protected theorem MemWf.settleDom {i old} (h : MemWf d) :
    MemWf (settleDom d i old) :=
  .ite h.timeSetLoad h.ppsCross.timeSetLoad

protected theorem MemWf.timeCycle (h : MemWf d) :
    MemWf (timeCycle d) := by
  unfold timeCycle
  extract_lets _ _ _ _ d1 d2 d3
  have hd1 : MemWf d1 := h.of_mem.commitsDue.advanceDom.advanceDom.applySteps
  have hd2 : MemWf d2 := hd1.settleDom.settleDom
  have hd3 : MemWf d3 := .ite hd2.coalRateIntervalEnd hd2
  exact hd3.fireTargets

protected theorem MemWf.tick (h : MemWf d) :
    MemWf (tick d) := by
  unfold tick
  refine .ite ?_ h
  extract_lets _ d1
  have hd1 : MemWf d1 := h.of_mem.countClaims.dmaFlush.ringsWake.mgmtSend
  exact hd1.timeCycle.cycleCounters.occCounters.feedMeasure.idleStep.dumpStep.fillAll

end

end Sys2Proof.Machine
end

section
/-! # Stacked memory keeps its canonical form: every command, and every step -/
namespace Sys2Proof.Machine

/-! ### The ways a command changes the device -/

protected theorem MemWf.of_actWhen {p f} {s t : State} (h : MemWf s.dev) (ht : actWhen p f s = .next t)
    (hf : ∀ d, MemWf d → MemWf (f d)) : MemWf t.dev := by
  unfold actWhen at ht
  split at ht <;> cases ht
  · exact hf _ h
  · exact h

protected theorem MemWf.of_act {f} {s t : State} (h : MemWf s.dev) (ht : act f s = .next t)
    (hf : ∀ d, MemWf d → MemWf (f d)) : MemWf t.dev := h.of_actWhen ht hf

protected theorem MemWf.of_actBar {off f} {s t : State} (h : MemWf s.dev) (ht : actBar off f s = .next t)
    (hf : ∀ d, MemWf d → MemWf (f d)) : MemWf t.dev := h.of_actWhen ht hf

protected theorem MemWf.of_actPins {f} {s t : State} (h : MemWf s.dev) (ht : actPins f s = .next t)
    (hf : ∀ d, MemWf d → MemWf (f d)) : MemWf t.dev := h.of_actWhen ht hf

protected theorem MemWf.of_actAlways {f} {s t : State} (h : MemWf s.dev) (ht : actAlways f s = .next t)
    (hf : ∀ d, MemWf d → MemWf (f d)) : MemWf t.dev := by cases ht; exact hf _ h

protected theorem MemWf.of_memApply {op r f} {s t : State} (h : MemWf s.dev) (ht : memApply op r f s = .next t)
    (hf : ∀ d, MemWf d → MemWf (f d)) : MemWf t.dev := by
  unfold memApply at ht
  split at ht
  · cases ht
  · exact h.of_act ht fun _ h => .ite h (hf _ h.memTake)

/-! ### Commands whose change is written out in `exec` -/

section
variable {d : Dev}

theorem MemWf.execRegisterWrite_next {off host tailor} {s t : State} (hs : MemWf s.dev)
    (ht : execRegisterWrite off host tailor s = .next t) : MemWf t.dev := by
  refine hs.of_actBar ht fun d h => ?_
  have h1 : MemWf (tailor.elim d fun v => busWrite off v.toNat d) := by
    cases tailor
    exacts [h, h.busWrite]
  cases tailor <;> cases host
  exacts [h1, h1.busWrite, h1, h1.busWrite]

theorem MemWf.execPairLoRead_next {a} {s t : State} (hs : MemWf s.dev)
    (ht : execPairLoRead a s = .next t) : MemWf t.dev := by
  refine hs.of_actBar ht fun d h => ?_
  refine .ite ?_ ?_
  · refine .ite ?_ h
    extract_lets p1
    have hp1 : MemWf p1.2 := h.busRead64
    exact hp1.setBar
  · refine .ite ?_ h
    extract_lets p1
    have hp1 : MemWf p1.2 := h.busRead
    exact hp1.setBar

theorem MemWf.execTblEmRead_next {h part ep} {s t : State} (hs : MemWf s.dev)
    (ht : execTblEmRead h part ep s = .next t) : MemWf t.dev := by
  refine hs.of_act ht fun d h => ?_
  refine .runCmd (fun _ _ h => ?_) h
  split <;> exact h.complete

theorem MemWf.execTblGrpStage_next {h g valid part mask} {s t : State} (hs : MemWf s.dev)
    (ht : execTblGrpStage h g valid part mask s = .next t) : MemWf t.dev := by
  refine hs.of_act ht fun d h => ?_
  refine .runCmd (fun _ _ h => ?_) h
  split
  · exact .sequence (.of_snd h.dmaGet ‹_›)
  · exact .refuseDma (.of_snd h.dmaGet ‹_›)

theorem MemWf.execTblGrpRead_next {h g addr} {s t : State} (hs : MemWf s.dev)
    (ht : execTblGrpRead h g addr s = .next t) : MemWf t.dev := by
  refine hs.of_act ht fun d h => ?_
  refine .runCmd (fun _ _ h => ?_) h
  extract_lets _ d1
  have hd1 : MemWf d1 := h.dmaWrite
  exact hd1.complete

theorem MemWf.execTblPartStage_next {h part learnEn ageMax floodRate mask} {s t : State} (hs : MemWf s.dev)
    (ht : execTblPartStage h part learnEn ageMax floodRate mask s = .next t) : MemWf t.dev := by
  refine hs.of_act ht fun d h => ?_
  refine .runCmd (fun _ _ h => ?_) h
  split
  · exact .sequence (.of_snd h.dmaGet ‹_›)
  · exact .refuseDma (.of_snd h.dmaGet ‹_›)

theorem MemWf.execTblBundleStage_next {h b n list} {s t : State} (hs : MemWf s.dev)
    (ht : execTblBundleStage h b n list s = .next t) : MemWf t.dev := by
  refine hs.of_act ht fun d h => ?_
  refine .runCmd (fun _ _ h => ?_) h
  split
  · exact .sequence (.of_snd h.dmaGet ‹_›)
  · exact .refuseDma (.of_snd h.dmaGet ‹_›)

theorem MemWf.execPatClear_next {h pat} {s t : State} (hs : MemWf s.dev)
    (ht : execPatClear h pat s = .next t) : MemWf t.dev := by
  refine hs.of_act ht fun d h => ?_
  refine .runCmd (fun d _ h => .ite h.patReject ?_) h
  extract_lets _ d1
  have hd1 : MemWf d1 := by
    unfold d1
    split
    · exact h.of_mem
    · exact h
  exact hd1.complete

theorem MemWf.execCollDestroy_next {h handle graceful} {s t : State} (hs : MemWf s.dev)
    (ht : execCollDestroy h handle graceful s = .next t) : MemWf t.dev := by
  refine hs.of_act ht fun d h => ?_
  refine .runCmd (fun _ _ h => ?_) h
  extract_lets _
  split
  · exact h.collReject
  · exact .ite h.abortCtx.quiesce.complete (.ite h.setCtx.maybeClosed.complete (.ite h.quiesce.complete h.complete))

theorem MemWf.execCollAbort_next {h handle} {s t : State} (hs : MemWf s.dev)
    (ht : execCollAbort h handle s = .next t) : MemWf t.dev := by
  refine hs.of_act ht fun d h => ?_
  refine .runCmd (fun _ _ h => ?_) h
  extract_lets _
  split
  · exact h.collReject
  · exact h.abortCtx.complete

theorem MemWf.execCollQuery_next {h handle} {s t : State} (hs : MemWf s.dev)
    (ht : execCollQuery h handle s = .next t) : MemWf t.dev := by
  refine hs.of_act ht fun d h => ?_
  refine .runCmd (fun _ _ h => ?_) h
  extract_lets _ _
  exact h.complete

theorem MemWf.execShardClear_next {h sh} {s t : State} (hs : MemWf s.dev)
    (ht : execShardClear h sh s = .next t) : MemWf t.dev := by
  refine hs.of_act ht fun d h => ?_
  refine .runCmd (fun _ _ h => ?_) h
  split
  · exact h.complete
  · exact .ite h.shardReject h.of_mem.complete

theorem MemWf.execExit_next {l g} {s t : State} (hs : MemWf s.dev)
    (ht : execExit l g s = .next t) : MemWf t.dev := by
  refine hs.of_act ht fun d h => ?_
  refine .onInstr (fun _ _ _ _ _ h => ?_) h
  extract_lets _
  exact h.goto

theorem MemWf.execBra_next {l g} {s t : State} (hs : MemWf s.dev)
    (ht : execBra l g s = .next t) : MemWf t.dev := by
  refine hs.of_act ht fun d h => ?_
  refine .onInstr (fun _ _ _ _ _ h => ?_) h
  extract_lets _ _ _ _
  exact .ite h.goto (.ite h.goto h.goto)

theorem MemWf.execBoltList_next {h addr limit} {s t : State} (hs : MemWf s.dev)
    (ht : execBoltList h addr limit s = .next t) : MemWf t.dev := by
  refine hs.of_act ht fun d h => ?_
  refine .runCmd (fun _ _ h => ?_) h
  refine .ite h.boltReject ?_
  extract_lets _
  exact h.cmdOutput.complete

theorem MemWf.execBoltDelete_next {h part gen} {s t : State} (hs : MemWf s.dev)
    (ht : execBoltDelete h part gen s = .next t) : MemWf t.dev := by
  refine hs.of_act ht fun d h => ?_
  refine .runCmd (fun _ _ h => ?_) h
  split
  · exact h.boltReject
  · exact h.setBolt

theorem MemWf.execBoltExport_next {h part gen addr} {s t : State} (hs : MemWf s.dev)
    (ht : execBoltExport h part gen addr s = .next t) : MemWf t.dev := by
  refine hs.of_act ht fun d h => ?_
  refine .runCmd (fun _ _ h => ?_) h
  split
  · exact h.boltReject
  · exact h.setBolt

theorem MemWf.execTimeLaunch_next {h c} {s t : State} (hs : MemWf s.dev)
    (ht : execTimeLaunch h c s = .next t) : MemWf t.dev := by
  refine hs.of_act ht fun d h => ?_
  refine .runCmd (fun _ _ h => ?_) h
  refine .ite h.complete ?_
  refine .ite h.complete ?_
  refine .ite h.complete ?_
  split
  · split
    · exact .refuseDma (.of_snd h.sendFrame ‹_›)
    · extract_lets _ _
      exact .of_mem (.of_snd h.sendFrame ‹_›)

theorem MemWf.execFrameSend_next {h c} {s t : State} (hs : MemWf s.dev)
    (ht : execFrameSend h c s = .next t) : MemWf t.dev := by
  refine hs.of_act ht fun d h => ?_
  refine .runCmd (fun _ _ h => ?_) h
  split
  · split
    · exact .refuseDma (.of_snd h.sendFrame ‹_›)
    · exact .ite (.egrPush (.of_snd h.sendFrame ‹_›)) (.complete (.lostStamp (.of_snd h.sendFrame ‹_›)))

theorem MemWf.execRegRead_next {h off count} {s t : State} (hs : MemWf s.dev)
    (ht : execRegRead h off count s = .next t) : MemWf t.dev := by
  refine hs.of_act ht fun d h => ?_
  refine .runCmd (fun _ _ h => ?_) h
  refine .ite h.complete ?_
  extract_lets p1
  have hp1 : MemWf p1.2 := h.busReads
  exact hp1.complete

theorem MemWf.execFwStage_next {h off total final piece} {s t : State} (hs : MemWf s.dev)
    (ht : execFwStage h off total final piece s = .next t) : MemWf t.dev := by
  refine hs.of_act ht fun d h => ?_
  refine .runCmd (fun d _ h => ?_) h
  extract_lets _ _ d1 img _ d2
  have hd1 : MemWf d1 := h.of_mem
  have hd2 : MemWf d2 := hd1.of_mem
  clear_value d2 img
  refine .ite ?_ hd1.complete
  cases img
  exacts [.complete hd2.of_mem, .complete (.fwReject hd2.of_mem)]

theorem MemWf.execFwActivate_next {h} {s t : State} (hs : MemWf s.dev)
    (ht : execFwActivate h s = .next t) : MemWf t.dev := by
  refine hs.of_act ht fun d h => ?_
  refine .runCmd (fun _ _ h => ?_) h
  split
  · exact h.of_mem.tlrRestart
  · exact h.fwReject.complete

theorem MemWf.execFwCommitSvn_next {h} {s t : State} (hs : MemWf s.dev)
    (ht : execFwCommitSvn h s = .next t) : MemWf t.dev := by
  refine hs.of_act ht fun d h => ?_
  refine .runCmd (fun _ _ h => ?_) h
  extract_lets _ _ d1
  have hd1 : MemWf d1 := h.of_mem.wr
  exact .ite h.complete hd1.complete

theorem MemWf.execEstop_next {h} {s t : State} (hs : MemWf s.dev)
    (ht : execEstop h s = .next t) : MemWf t.dev := by
  refine hs.of_act ht fun d h => ?_
  refine .runCmd (fun d _ h => ?_) h
  extract_lets d1
  have hd1 : MemWf d1 := h.raise
  clear_value d1
  exact .complete (.stopAll hd1.of_mem)

end

/-! ### Every command -/

/-- Every command that answers keeps the canonical form. -/
theorem MemWf.exec_next {c : Instr} {s t : State} (h : MemWf s.dev) (ht : exec c s = .next t) : MemWf t.dev := by
  cases c
  case registerWrite => exact h.execRegisterWrite_next ht
  case blockLock => exact h.of_actBar (show execBlockLock _ _ s = _ from ht) fun _ h => .ite h.busWrite h
  case rsvdAccess => exact h.of_actBar ht fun _ h => h.rsvdAccess
  case unsupportedAccess off n w =>
    exact h.of_actBar (show execUnsupportedAccess off n w s = _ from ht) fun _ h => .ite h h.setBar
  case pairLoWrite => exact h.of_actBar (show execPairLoWrite _ _ s = _ from ht) fun _ h => .ite h.busWrite h
  case pairHiWrite => exact h.of_actBar (show execPairHiWrite _ _ s = _ from ht) fun _ h => .ite h.busWrite h
  case pair64Write => exact h.of_actBar ht fun _ h => h.busWrite64
  case pairLoRead => exact h.execPairLoRead_next ht
  case frameReceive => exact h.of_act ht fun _ h => h.frameReceive
  case foreignDequeue => exact h.of_act ht fun _ h => h.foreignDequeue
  case frameTxStart => exact h.of_act ht fun _ h => h.frameTxStart
  case frameTxEnd => exact h.of_act ht fun _ h => h.frameTxEnd
  case orderFenceRequest => exact h.of_act ht fun _ h => h.orderFenceRequest
  case orderRelease => exact h.of_act ht fun _ h => h.orderRelease
  case lcfReceive => exact h.of_act ht fun _ h => h.lcfReceive
  case lcfSend => exact h.of_act ht fun _ h => h.lcfSend
  case learnInsert => exact h.of_act ht fun _ h => h.learnInsert
  case agingSweep => exact h.of_act ht fun _ h => h.agingSweep
  case fwdAgeCtlWrite => exact h.of_actBar ht fun _ h => h.busWrite
  case fwdEmSeedWrite => exact h.of_actBar ht fun _ h => h.busWrite
  case floodRelease => exact h.of_act ht fun _ h => h.floodRelease
  case partDrained => exact h.of_act ht fun _ h => h.partDrained
  case tblEmStage =>
    exact h.of_act (show execTblEmStage _ _ s = _ from ht) fun _ h => .runCmd (fun _ _ h => h.sequence) h
  case tblEmDelete =>
    exact h.of_act (show execTblEmDelete _ _ _ s = _ from ht) fun _ h => .runCmd (fun _ _ h => h.sequence) h
  case tblEmRead => exact h.execTblEmRead_next ht
  case tblGrpStage => exact h.execTblGrpStage_next ht
  case tblGrpRead => exact h.execTblGrpRead_next ht
  case tblPartStage => exact h.execTblPartStage_next ht
  case tblPartState =>
    exact h.of_act (show execTblPartState _ _ _ s = _ from ht) fun _ h => .runCmd (fun _ _ h =>
      h.setPartState.complete) h
  case tblBundleStage => exact h.execTblBundleStage_next ht
  case tblCommit =>
    exact h.of_act (show execTblCommit _ _ _ s = _ from ht) fun _ h => .runCmd (fun _ _ h => h.sequence) h
  case fwdEpochCommit => exact h.of_actBar ht fun _ h => h.busWrite
  case epochFlip => exact h.of_act ht fun _ h => h.flipEpoch
  case settlingEnd => exact h.of_act ht fun _ h => h.settlingEnd
  case scrubSlotRead => exact h.of_act ht fun _ h => h.scrubSlotRead
  case shadowPass => exact h.of_act ht fun _ h => h.shadowPass
  case swRsvWrite => exact h.of_actBar ht fun _ h => h.busWrite
  case meshInject => exact h.of_act ht fun _ h => h.meshInject
  case meshFlitRoute => exact h.of_act ht fun _ h => h.meshFlitRoute
  case meshEscape => exact h.of_act ht fun _ h => h.meshEscape
  case seamFlitReceive => exact h.of_act ht fun _ h => h.seamFlitReceive
  case seamNakReceive => exact h.of_act ht fun _ h => h.seamNak
  case seamRepair => exact h.of_act ht fun _ h => h.seamRepair
  case depthSample => exact h.of_act ht fun _ h => h.depthSample
  case portActivate => exact h.of_actBar ht fun _ h => h.portStateWrite
  case portDrain => exact h.of_actBar ht fun _ h => h.portStateWrite
  case portDisable => exact h.of_actBar ht fun _ h => h.portStateWrite
  case portRestore => exact h.of_actBar ht fun _ h => h.portStateWrite
  case portBypass => exact h.of_act ht fun _ h => h.portBypass
  case portDisabledDrained => exact h.of_act ht fun _ h => h.portDisabledDrained
  case portDeadRelease => exact h.of_act ht fun _ h => h.portDeadRelease
  case portRestored => exact h.of_act ht fun _ h => h.portRestored
  case bcastRequest => exact h.of_act ht fun _ h => h.bcastRequest
  case mirCtlWrite => exact h.of_actBar ht fun _ h => h.busWrite
  case mirrorCopySend => exact h.of_act ht fun _ h => h.mirrorCopySend
  case rtOrdSeedWrite => exact h.of_actBar ht fun _ h => h.busWrite
  case polEntryRead => exact h.of_actBar ht fun _ h => h.busWrite
  case polEntryWrite => exact h.of_actBar ht fun _ h => h.busWrite
  case polCmdComplete => exact h.of_act ht fun _ h => h.polCmdComplete
  case shpWrite => exact h.of_actBar ht fun _ h => h.busWrite
  case preReduceAdd => exact h.of_act ht fun _ h => h.preReduceAdd
  case preWaitExpiry => exact h.of_act ht fun _ h => h.preWaitExpiry
  case clBobWrite => exact h.of_actBar ht fun _ h => h.busWrite
  case coreAccumulate => exact h.of_act ht fun _ h => .withFlaws (fun _ h => h.coreAccumulate) h
  case resultSend => exact h.of_act ht fun _ h => h.resultSend
  case overlockCompare => exact h.of_act ht fun _ h => .withFlaws (fun _ h => h.overlockCompare) h
  case patSet =>
    exact h.of_act (show execPatSet _ _ _ _ _ s = _ from ht) fun _ h => .runCmd (fun _ _ h =>
      .withFlaws (fun _ h => h.patSet) h) h
  case patClear => exact h.execPatClear_next ht
  case collCreate =>
    exact h.of_act (show execCollCreate _ _ s = _ from ht) fun _ h => .runCmd (fun _ _ h =>
      .withBlock (fun _ _ _ h => .withFlaws (fun _ h => h.collCreate) h) h) h
  case collDestroy => exact h.execCollDestroy_next ht
  case collAbort => exact h.execCollAbort_next ht
  case collQuery => exact h.execCollQuery_next ht
  case contribReceive => exact h.of_act ht fun _ h => .withFlaws (fun _ h => h.contribReceive) h
  case creditSend => exact h.of_act ht fun _ h => h.creditSend
  case stragglerTimeout => exact h.of_act ht fun _ h => h.stragglerTimeout
  case quarantineExpiry => exact h.of_act ht fun _ h => h.quarantineExpiry
  case collMemWrite => exact h.of_actBar ht fun _ h => h.busWrite
  case spillCntIssue => exact h.of_act ht fun _ h => h.spillCntIssue
  case shardSet =>
    exact h.of_act (show execShardSet _ _ s = _ from ht) fun _ h => .runCmd (fun _ _ h =>
      .withFlaws (fun _ h => h.shardSet) h) h
  case shardClear => exact h.execShardClear_next ht
  case hparamSet =>
    exact h.of_act (show execHparamSet _ _ s = _ from ht) fun _ h => .runCmd (fun _ _ h =>
      .withBlock (fun _ _ _ h => h.hparamSet) h) h
  case optCommit =>
    exact h.of_act (show execOptCommit _ _ _ _ s = _ from ht) fun _ h => .runCmd (fun _ _ h =>
      .ite h.optReject (.ite h.optReject h.of_mem)) h
  case optCommitTick => exact h.of_act ht fun _ h => h.optCommitTick
  case optRollback =>
    exact h.of_act (show execOptRollback _ _ _ s = _ from ht) fun _ h => .runCmd (fun _ _ h => h.optRollback) h
  case optCkpt =>
    exact h.of_act (show execOptCkpt _ _ _ _ s = _ from ht) fun _ h => .runCmd (fun _ _ h => h.optCkpt) h
  case optCkptEnd => exact h.of_act ht fun _ h => h.optCkptEnd
  case optRestore =>
    exact h.of_act (show execOptRestore _ _ _ s = _ from ht) fun _ h => .runCmd (fun _ _ h => h.optRestore) h
  case shardRead =>
    exact h.of_act (show execShardRead _ _ _ _ _ _ s = _ from ht) fun _ h => .runCmd (fun _ _ h =>
      .withFlaws (fun _ h => h.shardReadCmd) h) h
  case kernelLoad =>
    exact h.of_act (show execKernelLoad _ _ _ _ _ _ _ s = _ from ht) fun _ h => .runCmd (fun _ _ h =>
      .withFlaws (fun _ h => h.kernelLoad) h) h
  case stitchLaunch =>
    exact h.of_act (show execStitchLaunch _ _ s = _ from ht) fun _ h => .runCmd (fun _ _ h =>
      .withBlock (fun _ _ _ h => h.stitchLaunch) h) h
  case stitchGridEnd => exact h.of_act ht fun _ h => h.stitchGridEnd
  case stitchWatchdog => exact h.of_act ht fun _ h => h.stitchWatchdog
  case rubUpdate => exact h.of_act ht fun _ h => .withFlaws (fun _ h => h.rubUpdate) h
  case rubUpdateDone => exact h.of_act ht fun _ h => .withFlaws (fun _ h => h.rubUpdateDone) h
  case orthoBlockUpdate => exact h.of_act ht fun _ h => .withFlaws (fun _ h => h.orthoBlockUpdate) h
  case mirrorReceive => exact h.of_act ht fun _ h => .withFlaws (fun _ h => h.mirrorReceive) h
  case mackReceive => exact h.of_act ht fun _ h => h.mackReceive
  case mackSend => exact h.of_act ht fun _ h => .withFlaws (fun _ h => h.mackSend) h
  case shardSeal => exact h.of_act ht fun _ h => h.shardSeal
  case stitchNop => exact h.of_act ht fun _ h => .onInstr (fun _ _ _ _ _ h => h.goto) h
  case exit => exact h.execExit_next ht
  case bra => exact h.execBra_next ht
  case bar => exact h.of_act ht fun _ h => .onInstr (fun _ _ _ _ _ h => .ite h.goto h.setGrp) h
  case barRelease => exact h.of_act ht fun _ h => h.barRelease
  case fence => exact h.of_act ht fun _ h => .onInstr (fun _ _ _ _ _ h => .ite h.goto h) h
  case sval => exact h.of_act ht fun _ h => h.aluRow
  case iadd => exact h.of_act ht fun _ h => h.binRow
  case isub => exact h.of_act ht fun _ h => h.binRow
  case imul => exact h.of_act ht fun _ h => h.binRow
  case and => exact h.of_act ht fun _ h => h.binRow
  case or => exact h.of_act ht fun _ h => h.binRow
  case xor => exact h.of_act ht fun _ h => h.binRow
  case shl => exact h.of_act ht fun _ h => h.binRow
  case shr => exact h.of_act ht fun _ h => h.binRow
  case sar => exact h.of_act ht fun _ h => h.binRow
  case icmp => exact h.of_act ht fun _ h => h.cmpRow
  case movi => exact h.of_act ht fun _ h => h.aluRow
  case sel => exact h.of_act ht fun _ h => .onInstr (fun _ _ _ _ _ h => h.goto) h
  case iadd64 => exact h.of_act ht fun _ h => .onInstr (fun _ _ _ _ _ h => h.goto) h
  case fadd => exact h.of_act ht fun _ h => h.fpRow
  case fmul => exact h.of_act ht fun _ h => h.fpRow
  case ffma => exact h.of_act ht fun _ h => h.fpRow
  case fmax => exact h.of_act ht fun _ h => h.binRow
  case fmin => exact h.of_act ht fun _ h => h.binRow
  case fcmp => exact h.of_act ht fun _ h => h.cmpRow
  case cvt => exact h.of_act ht fun _ h => .onInstr (fun _ _ _ _ _ h => h.cvt) h
  case rcp => exact h.of_act ht fun _ h => h.unRow
  case rsqrt => exact h.of_act ht fun _ h => h.unRow
  case sqrt => exact h.of_act ht fun _ h => h.unRow
  case exp2 => exact h.of_act ht fun _ h => h.unRow
  case log2 => exact h.of_act ht fun _ h => h.unRow
  case lds => exact h.of_act ht fun _ h => .onInstr (fun _ _ _ _ _ h => h.lds) h
  case sts => exact h.of_act ht fun _ h => .onInstr (fun _ _ _ _ _ h => h.sts) h
  case ldg => exact h.of_act ht fun _ h => .onInstr (fun _ _ _ _ _ h => h.ldg) h
  case stg => exact h.of_act ht fun _ h => .onInstr (fun _ _ _ _ _ h => h.stg) h
  case atom => exact h.of_act ht fun _ h => .onInstr (fun _ _ _ _ _ h => h.atom) h
  case mma => exact h.of_act ht fun _ h => .onInstr (fun _ _ _ _ _ h => h.mma) h
  case mmaComplete => exact h.of_act ht fun _ h => h.mmaComplete
  case mwait => exact h.of_act ht fun _ h => .onInstr (fun _ _ _ _ _ h => .ite h.goto h) h
  case optMemWrite => exact h.of_actBar ht fun _ h => h.busWrite
  case memRead => exact h.of_memApply ht fun _ h => h.memReadAct
  case memWrite => exact h.of_memApply ht fun _ h => h.memWriteAct
  case memResponse => exact h.of_act ht fun _ h => h.memResponse
  case redF32 => exact h.of_memApply ht fun _ h => h.redApply
  case redBf16 => exact h.of_memApply ht fun _ h => h.redApply
  case redBf16w => exact h.of_memApply ht fun _ h => h.redApply
  case redI32 => exact h.of_memApply ht fun _ h => h.redApply
  case redI64 => exact h.of_memApply ht fun _ h => h.redApply
  case addF32 => exact h.of_memApply ht fun _ h => h.redApply
  case addBf16 => exact h.of_memApply ht fun _ h => h.redApply
  case addI32 => exact h.of_memApply ht fun _ h => h.redApply
  case addI64 => exact h.of_memApply ht fun _ h => h.redApply
  case cnt => exact h.of_memApply ht fun _ h => h.cntApply
  case rdclr => exact h.of_memApply ht fun _ h => h.rdclrAct
  case memHashSeedWrite => exact h.of_actBar ht fun _ h => h.busWrite
  case memScrubRead => exact h.of_act ht fun _ h => h.memScrubRead
  case memLanePending => exact h.of_act ht fun _ h => h.memLanePending
  case memTempSample => exact h.of_act ht fun _ h => h.memTempSample
  case memRefresh k => exact h.of_act (show execMemRefresh k s = _ from ht) fun _ h => h
  case boltList => exact h.execBoltList_next ht
  case boltDelete => exact h.execBoltDelete_next ht
  case boltExport => exact h.execBoltExport_next ht
  case boltHealth =>
    exact h.of_act (show execBoltHealth _ _ s = _ from ht) fun _ h => .runCmd (fun _ _ h =>
      .ite h.boltReject h.cmdOutput.complete) h
  case boltProgramFail => exact h.of_act ht fun _ h => h.boltProgramFail
  case boltWlMove => exact h.of_act ht fun _ h => h.boltWlMove
  case boltBandErase => exact h.of_act ht fun _ h => h.boltBandErase
  case boltScrubRead => exact h.of_act ht fun _ h => h.boltScrubRead
  case boltRelocate => exact h.of_act ht fun _ h => h.boltRelocate
  case boltRecordWrite => exact h.of_act ht fun _ h => h.boltRecordWrite
  case lnPortWrite => exact h.of_actBar ht fun _ h => h.busWrite
  case fecCodeword => exact h.of_act ht fun _ h => h.fecCodeword
  case ucwLinkDown => exact h.of_act ht fun _ h => h.ucwLinkDown
  case cdrLoss => exact h.of_act ht fun _ h => h.cdrLoss
  case fomWindowEnd => exact h.of_act ht fun _ h => h.fomWindowEnd
  case trainingFrameReceive => exact h.of_act ht fun _ h => h.trainingFrameReceive
  case trainTimeout => exact h.of_act ht fun _ h => h.trainTimeout
  case alignDone => exact h.of_act ht fun _ h => h.alignDone
  case holdExpiry => exact h.of_act ht fun _ h => h.holdExpiry
  case laneRetrain => exact h.of_actBar (show execLaneRetrain _ _ s = _ from ht) fun _ h => .ite h.busWrite h
  case txQuietEnter => exact h.of_act ht fun _ h => h.txQuietEnter
  case txWake => exact h.of_act ht fun _ h => h.txWake
  case rxQuietEnter => exact h.of_act ht fun _ h => h.rxQuietEnter
  case rxWake => exact h.of_act ht fun _ h => h.rxWake
  case ringSweepDone => exact h.of_act ht fun _ h => h.ringSweepDone
  case toneWindowEnd => exact h.of_act ht fun _ h => h.toneWindowEnd
  case oeLaneReady => exact h.of_act ht fun _ h => h.oeLaneReady
  case rxpwrSample => exact h.of_act ht fun _ h => h.rxpwrSample
  case elsBusTransaction =>
    exact h.of_act (show execElsBusTransaction _ _ _ _ _ s = _ from ht) fun _ h => .ite h.elsBus h
  case elsBiasWrite => exact h.of_actBar ht fun _ h => h.busWriteX
  case elsCtlWrite => exact h.of_actBar ht fun _ h => h.busWrite
  case elsAlert => exact h.of_act (show execElsAlert _ _ s = _ from ht) fun _ h => h.raise
  case feedKill => exact h.of_act ht fun _ h => h.feedKill
  case feedProbe => exact h.of_act ht fun _ h => h.feedProbe
  case feedProbeEnd => exact h.of_act ht fun _ h => h.feedProbeEnd
  case thimbleTrip => exact h.of_act ht fun _ h => h.thimbleTrip
  case thimbleProbe => exact h.of_act ht fun _ h => h.thimbleProbe
  case thimbleProbeEnd => exact h.of_act (show execThimbleProbeEnd _ _ s = _ from ht) fun _ h => .ite h.setThim h
  case thimbleResp => exact h.of_act (show execThimbleResp _ _ s = _ from ht) fun _ h => .ite h.setThim h
  case thimbleLit => exact h.of_act (show execThimbleLit _ _ s = _ from ht) fun _ h => .ite h.setThim h
  case timeIncWrite => exact h.of_actBar ht fun _ h => h.busWrite64
  case timeAdj => exact h.of_actBar ht fun _ h => h.busWrite
  case timeSetLoad => exact h.of_act ht fun _ h => h.timeSetLoad
  case domainSwitchGo => exact h.of_actBar ht fun _ h => h.busWrite
  case timeSwitched => exact h.of_act ht fun _ h => h.timeSwitched
  case tsqPop => exact h.of_actBar ht fun _ h => h.busWrite
  case timeLaunch => exact h.execTimeLaunch_next ht
  case launchTarget => exact h.of_act ht fun _ h => h.launchTarget
  case frameSend => exact h.execFrameSend_next ht
  case ppsInEdge => exact h.of_act ht fun _ h => h.ppsInEdge
  case ppsLost => exact h.of_act ht fun _ h => h.ppsLost
  case ppsOutEdge => exact h.of_act ht fun _ h => h.ppsOutEdge
  case ppsOutEnd => exact h.of_act (show execPpsOutEnd s = _ from ht) fun _ h => h.of_mem
  case ringDoorbell => exact h.of_actBar ht fun _ h => h.busWrite
  case descriptorFetch => exact h.of_act ht fun _ h => h.descriptorFetch
  case ringConsWrite => exact h.of_actBar ht fun _ h => h.busWrite
  case ringEnable => exact h.of_actBar ht fun _ h => h.busWrite
  case ringDisable => exact h.of_actBar ht fun _ h => h.busWrite
  case ringInterrupt => exact h.of_act ht fun _ h => h.ringInterrupt
  case eventRecordWrite => exact h.of_act ht fun _ h => h.eventRecordWrite
  case coalWindowClose => exact h.of_act ht fun _ h => h.coalWindowClose
  case coalRateIntervalEnd => exact h.of_act ht fun _ h => h.coalRateIntervalEnd
  case nop => exact h.of_act (show execNop _ s = _ from ht) fun _ h => .runCmd (fun _ _ h => h.complete) h
  case regRead => exact h.execRegRead_next ht
  case fwStage => exact h.execFwStage_next ht
  case fwActivate => exact h.execFwActivate_next ht
  case fwCommitSvn => exact h.execFwCommitSvn_next ht
  case estop => exact h.execEstop_next ht
  case estopClear =>
    exact h.of_act (show execEstopClear _ s = _ from ht) fun _ h => .runCmd (fun _ _ h => h.of_mem.complete) h
  case mgmtFrameReceive => exact h.of_act ht fun _ h => h.mgmtFrameReceive
  case bootReqSend => exact h.of_act ht fun _ h => h.bootReqSend
  case bootImgReceive => exact h.of_act ht fun _ h => h.bootImgReceive
  case tlrBootGo => exact h.of_actBar ht fun _ h => h.busWriteX
  case tlrWatchdogExpiry => exact h.of_act ht fun _ h => h.tlrWatchdogExpiry
  case tlrRestartDone => exact h.of_act ht fun _ h => h.tlrRestartDone
  case porAssert => exact h.of_actAlways ht fun _ h => h.coldDev
  case brownout => exact h.of_actAlways ht fun _ h => h.brownout
  case porRelease => exact h.of_actPins ht fun _ h => h.porRelease
  case startupComplete => exact h.of_act ht fun _ h => h.startupComplete
  case warmReset => exact h.of_actBar ht fun _ h => h.busWrite
  case i3cWarm => exact h.of_actPins ht fun _ h => h.warm
  case pcieReset => exact h.of_actPins ht fun _ h => h.pcieReset
  case refFail => exact h.of_actPins ht fun _ h => h.refFail
  case refSwitch => exact h.of_actPins ht fun _ h => h.refSwitch
  case refRevert => exact h.of_actPins ht fun _ h => h.refRevert
  case refSelect => exact h.of_actBar ht fun _ h => h.busWrite
  case holdoverRelock => exact h.of_actPins ht fun _ h => h.holdoverRelock
  case pwrEval => exact h.of_act ht fun _ h => h.pwrEval
  case domainWake => exact h.of_act (show execDomainWake _ s = _ from ht) fun _ h => h.wakeStart
  case domainWakeDone => exact h.of_act ht fun _ h => h.domainWakeDone
  case thmSample => exact h.of_actPins ht fun _ h => h.thmSample
  case ilimAssert => exact h.of_actPins ht fun _ h => h.ilimAssert
  case ilimHoldEnd => exact h.of_actPins ht fun _ h => h.ilimHoldEnd
  case issueRampStep => exact h.of_act ht fun _ h => h.issueRampStep
  case injectArm => exact h.of_actBar ht fun _ h => h.busWrite
  case injectDisarm => exact h.of_actBar ht fun _ h => h.busWrite
  case injection => exact h.of_act ht fun _ h => h.injection
  case errorLogPop => exact h.of_actBar ht fun _ h => h.busWrite
  case suspicionDecay => exact h.of_act ht fun _ h => h.suspicionDecay
  case patrolUnitStart => exact h.of_act ht fun _ h => h.patrolUnitStart
  case patrolUnitEnd => exact h.of_act ht fun _ h => h.patrolUnitEnd
  case patrolYield => exact h.of_act ht fun _ h => h.patrolYield
  case patrolFull => exact h.of_actBar (show execPatrolFull s = _ from ht) fun _ h => h.busWrite
  case patrolDone => exact h.of_act ht fun _ h => h.patrolDone
  case spareIn => exact h.of_act ht fun _ h => h.spareIn
  case pmcSelWrite => exact h.of_actBar (show execPmcSelWrite _ _ s = _ from ht) fun _ h => .ite h.busWrite h
  case pmcModeWrite => exact h.of_actBar ht fun _ h => h.busWrite
  case pmcDump => exact h.of_act ht fun _ h => h.pmcDump
  case pmcDumpEnd => exact h.of_act ht fun _ h => h.pmcDumpEnd
  case pmcFreezeGo => exact h.of_actBar ht fun _ h => h.busWrite
  case pmcFreezeTick => exact h.of_act ht fun _ h => h.pmcFreezeTick
  case swatchRecordWrite => exact h.of_act ht fun _ h => h.swatchRecordWrite
  case thimbleRespDark => exact h.of_act (show execThimbleRespDark _ _ s = _ from ht) fun _ h => .ite h.setThim h
  case optRestoreEnd => exact h.of_act ht fun _ h => h.optRestoreEnd
  case boltExportEnd => exact h.of_act ht fun _ h => h.boltExportEnd
  case shardReadEnd => exact h.of_act ht fun _ h => h.shardReadEnd
  case ckptSideReadDone => exact h.of_act ht fun _ h => .withFlaws (fun _ h => h.ckptSideReadDone) h
  case boltDeleteJournalled => exact h.of_act ht fun _ h => h.boltDeleteJournalled
  case perstRelease => exact h.of_actPins (show execPerstRelease s = _ from ht) fun _ h => h.of_mem
  case refGood => exact h.of_actPins ht fun _ h => h.refGood
  case ilimRelease => exact h.of_actPins ht fun _ h => h.ilimRelease
  case tailorFrameSend => exact h.of_act ht fun _ h => h.tailorFrameSend
  case i3cDynamicAddress => exact h.of_actPins (show execI3cDynamicAddress _ s = _ from ht) fun _ h => h.of_mem

/-- Settles O44: `exec_next` for a command at the front of the queue, `MemWf.tick` for the TIME cycle of an empty
one. -/
theorem memoryKeepsItsForm : Obligations.MemoryKeepsItsForm := by
  refine ⟨memory_wf_reset, ?_, fun _ _ _ _ _ h ht => MemWf.exec_next h ht, fun _ a b h => memWr_wf h a b,
    fun _ a n h => memZero_wf h a n⟩
  intro s t (h : MemWf s.dev) ht
  cases hp : s.pending with
  | nil =>
    rw [step_nil hp] at ht
    cases ht
    exact h.tick
  | cons c r =>
    rw [step_cons hp] at ht
    exact MemWf.exec_next (s := { s with pending := r }) h ht

end Sys2Proof.Machine
end

section
/-! # What a port sets off leaves its STATE (spec/04 R96, R115, R116, R118)

A write of RT_PORT sets its STATE and then acts on lanes, frames and reports, which write other registers. -/
namespace Sys2Proof.Machine

/-! ### Registers that are no port's RT_PORT -/

/-- A register lies beside every port's RT_PORT. -/
def OffPorts (r : Reg) (ix : List Nat) : Prop := ∀ port : Fin 512, regAddr r ix ≠ regAddr .rtPort (lix port)

section
variable (die unit l n : Nat)

theorem offPorts_lnState : OffPorts .lnState (lix l) := by
  simp only [OffPorts, regAddr, regRow, dimOff, lix]; omega

theorem offPorts_lnCtl : OffPorts .lnCtl (lix l) := by
  simp only [OffPorts, regAddr, regRow, dimOff, lix]; omega

theorem offPorts_lnSpare : OffPorts .lnSpare (lix l) := by
  simp only [OffPorts, regAddr, regRow, dimOff, lix]; omega

theorem offPorts_lnTaps {t : Nat} (ht : t < 5) :
    OffPorts .lnTapsLo (lix l ++ [t]) ∧ OffPorts .lnTapsHi (lix l ++ [t]) := by
  constructor <;> simp only [OffPorts, regAddr, regRow, dimOff, lix, List.cons_append, List.nil_append] <;> omega

theorem offPorts_oeRing {r : Reg} (hr : r ∈ [Reg.oeTxring, Reg.oeRxring]) (i : Nat) : OffPorts r [n, i] := by
  rcases List.mem_pair.mp hr with rfl | rfl <;> simp only [OffPorts, regAddr, regRow, dimOff, lix] <;> omega

theorem offPorts_tblWinCpl {k : Nat} (hk : k < 8) : OffPorts .tblWinCpl [n, k] := by
  simp only [OffPorts, regAddr, regRow, dimOff, lix]; omega

theorem offPorts_tblWinCtl : OffPorts .tblWinCtl [n] := by
  simp only [OffPorts, regAddr, regRow, dimOff, lix]; omega

theorem offPorts_msixPba : OffPorts .msixPba [0] := by
  simp only [OffPorts, regAddr, regRow, dimOff, lix]; omega

theorem offPorts_ringProdCmd (hn : n < 8) : OffPorts .ringProdCmd [n] := by
  simp only [OffPorts, regAddr, regRow, dimOff, lix]; omega

theorem offPorts_srcLn : OffPorts (srcLn l).st (srcLn l).ix := by
  simp only [OffPorts, srcLn, regAddr, regRow, dimOff, lix]; omega

theorem offPorts_srcRt : OffPorts (srcRt die unit).st (srcRt die unit).ix := by
  simp only [OffPorts, srcRt, regAddr, regRow, dimOff, lix]; omega

theorem offPorts_srcFwd : OffPorts (srcFwd die).st (srcFwd die).ix := by
  simp only [OffPorts, srcFwd, regAddr, regRow, dimOff, lix]; omega

theorem offPorts_srcColl : OffPorts (srcColl die unit).st (srcColl die unit).ix := by
  simp only [OffPorts, srcColl, regAddr, regRow, dimOff, lix]; omega

theorem offPorts_srcTime : OffPorts (srcTime die unit).st (srcTime die unit).ix := by
  simp only [OffPorts, srcTime, regAddr, regRow, dimOff, lix]; omega

theorem offPorts_srcPmc : OffPorts srcPmc.st srcPmc.ix := by
  simp only [OffPorts, srcPmc, regAddr, regRow, dimOff, lix]; omega

/-- The registers that a report itself writes lie beside the ports' too. -/
theorem rtPort_notMem_reportRegs (port : Fin 512) : regAddr .rtPort (lix port) ∉ reportRegs := by
  simp only [reportRegs, regAddr, regRow, dimOff, lix, List.mem_cons, List.not_mem_nil, or_false, not_or]; omega

end

/-! ### The ways a change is put together -/

/-- A port's STATE. -/
def PortIn (port : Fin 512) (state : Nat) (d : Dev) : Prop := portState d port = state

section
-- Elaborated in turn, as the lemmas about stacked memory are, and for the same reason.
set_option Elab.async false
variable {d : Dev} {port : Fin 512} {state : Nat}

protected theorem PortIn.of_regs {e : Dev} (h : PortIn port state d) (he : e.regs = d.regs := by rfl) :
    PortIn port state e := (portState_regs he port).trans h

protected theorem PortIn.ite {c : Prop} {_ : Decidable c} {a b : Dev} (ha : PortIn port state a)
    (hb : PortIn port state b) : PortIn port state (if c then a else b) := by split; exacts [ha, hb]

protected theorem PortIn.ite_snd {α : Type} {c : Prop} {_ : Decidable c} {a b : α × Dev} (ha : PortIn port state a.2)
    (hb : PortIn port state b.2) : PortIn port state (if c then a else b).2 := by split; exacts [ha, hb]

protected theorem PortIn.pair {α : Type} {a : α} (h : PortIn port state d) : PortIn port state (a, d).2 := h

protected theorem PortIn.of_snd {α : Type} {p : α × Dev} {a : α} (h : PortIn port state p.2) (he : p = (a, d)) :
    PortIn port state d := by subst he; exact h

/-- What keeps it for each member of a list keeps it over the list. -/
protected theorem PortIn.foldl_mem {α : Type} {f : Dev → α → Dev} {l : List α}
    (hf : ∀ x ∈ l, ∀ d, PortIn port state d → PortIn port state (f d x)) (h : PortIn port state d) :
    PortIn port state (l.foldl f d) := by
  induction l generalizing d with
  | nil => exact h
  | cons x l ih =>
    obtain ⟨hx, hl⟩ := List.forall_mem_cons.mp hf
    exact ih hl (hx d h)

protected theorem PortIn.foldl {α : Type} {f : Dev → α → Dev} {l : List α}
    (hf : ∀ d x, PortIn port state d → PortIn port state (f d x)) (h : PortIn port state d) :
    PortIn port state (l.foldl f d) := h.foldl_mem fun x _ d => hf d x

/-! ### Registers and reports -/

protected theorem PortIn.wr {r ix v} (h : PortIn port state d) (hr : OffPorts r ix) : PortIn port state (wr d r ix v) :=
  (rdf_wr_other d v 30 28 (hr port)).trans h

protected theorem PortIn.wrf {r ix msb lsb v} (h : PortIn port state d) (hr : OffPorts r ix) :
    PortIn port state (wrf d r ix msb lsb v) := h.wr hr

protected theorem PortIn.stSet {s : Src} {b} (h : PortIn port state d) (hs : OffPorts s.st s.ix) :
    PortIn port state (stSet d s b) := h.wr hs

protected theorem PortIn.event {code die unit args lanes} (h : PortIn port state d) :
    PortIn port state (event d code die unit args lanes) :=
  ((reports_event d code die unit args lanes).rdf (rtPort_notMem_reportRegs port) 30 28).trans h

protected theorem PortIn.cntAdd {off n} (h : PortIn port state d) : PortIn port state (cntAdd d off n) := h.of_regs

protected theorem PortIn.cntN {s n k} (h : PortIn port state d) : PortIn port state (cntN d s n k) := h.cntAdd

protected theorem PortIn.cnt1 {s n} (h : PortIn port state d) : PortIn port state (cnt1 d s n) := h.cntN

protected theorem PortIn.raiseAt {s : Src} {n b args lanes} (h : PortIn port state d) (hs : OffPorts s.st s.ix) :
    PortIn port state (raiseAt d s n b args lanes) := (h.cnt1.stSet hs).event

protected theorem PortIn.raise {s : Src} {n args lanes} (h : PortIn port state d) (hs : OffPorts s.st s.ix) :
    PortIn port state (raise d s n args lanes) := h.raiseAt hs

protected theorem PortIn.dmaWrite {addr bytes} (h : PortIn port state d) :
    PortIn port state (dmaWrite d addr bytes) :=
  .ite h.of_regs h.of_regs

protected theorem PortIn.setRing {r x} (h : PortIn port state d) : PortIn port state (setRing d r x) := h.of_regs

theorem rd_of_regAddr_eq (d : Dev) {r r' : Reg} {ix ix' : List Nat} (ha : regAddr r ix = regAddr r' ix')
    (hr : rowReset (regRow r) = rowReset (regRow r')) : rd d r ix = rd d r' ix' := by
  unfold rd; rw [ha, hr]

/-- The model bounds no index of a device ring: one far beyond the ten there are would meet an RT_PORT, which a
producer index of 16 bits then leaves in DISABLED. -/
protected theorem PortIn.ringProdDev {i v} (h : PortIn port 0 d) (hv : v < 65536) :
    PortIn port 0 (wr d .ringProdDev [i] v) := by
  by_cases ha : regAddr .ringProdDev [i] = regAddr .rtPort (lix port)
  · rw [PortIn, portState, rdf, ← rd_of_regAddr_eq _ ha rfl, rd_wr_same, Nat.mod_eq_of_lt (by omega)]
    unfold bits; omega
  · exact (rdf_wr_other d v 30 28 ha).trans h

protected theorem PortIn.setProd {r v} (h : PortIn port 0 d) : PortIn port 0 (setProd d r v) := by
  unfold setProd
  split
  · exact h.wr (offPorts_ringProdCmd _ ‹_›)
  · exact h.ringProdDev (Nat.mod_lt _ (by decide))

protected theorem PortIn.writeBack {r idx} (h : PortIn port state d) : PortIn port state (writeBack d r idx) :=
  h.dmaWrite

protected theorem PortIn.raiseVec {v} (h : PortIn port state d) (hv : v < 32) : PortIn port state (raiseVec d v) := by
  refine .ite (h.wr ?_) h.of_regs
  rw [Nat.div_eq_of_lt hv]
  exact offPorts_msixPba

protected theorem PortIn.ringWrite {r e} (h : PortIn port 0 d) :
    PortIn port 0 (ringWrite d r e) :=
  .ite (h.dmaWrite.setProd.setRing.writeBack.raiseVec (bits_lt ..)) h.dmaWrite.setProd.setRing.writeBack

protected theorem PortIn.ringPush {r e} (h : PortIn port 0 d) : PortIn port 0 (ringPush d r e) :=
  .ite h.ringWrite h.setRing

protected theorem PortIn.wrWords {r ix n k bs} (hr : ∀ j < k + n, OffPorts r (ix ++ [j])) (h : PortIn port state d) :
    PortIn port state (wrWords d r ix n k bs) := by
  induction n generalizing d k bs with
  | zero => exact h
  | succ n ih => exact ih (fun j hj => hr j (by omega)) (h.wr (hr k (by omega)))

protected theorem PortIn.complete {rp status result data} (h : PortIn port 0 d) :
    PortIn port 0 (complete d rp status result data) := by
  unfold complete
  dsimp only
  split
  · exact .ite h.setRing.setRing.ringPush h
  · exact .wrf (.wrWords (fun _ => offPorts_tblWinCpl _) h) (offPorts_tblWinCtl _)
  · exact h.of_regs

protected theorem PortIn.completeOpt {rp status result} (h : PortIn port 0 d) :
    PortIn port 0 (completeOpt d rp status result) := by
  unfold completeOpt
  split
  · exact h
  · exact h.complete

protected theorem PortIn.setPv {p v x} (h : PortIn port state d) : PortIn port state (setPv d p v x) := h.of_regs

protected theorem PortIn.freeShared {n p v} (h : PortIn port state d) : PortIn port state (freeShared n d p v) := by
  induction n generalizing d with
  | zero => exact h
  | succ n ih => exact .ite (ih h.setPv) (ih h.setPv)

protected theorem PortIn.setIng {x} (h : PortIn port state d) : PortIn port state (setIng d x) := h.of_regs

protected theorem PortIn.setEgrQ {p v q} (h : PortIn port state d) : PortIn port state (setEgrQ d p v q) := h.of_regs

protected theorem PortIn.setFlood {die p tok} (h : PortIn port state d) : PortIn port state (setFlood d die p tok) :=
  h.of_regs

protected theorem PortIn.tsqPush {p tsid lost} (h : PortIn port state d) :
    PortIn port state (tsqPush d p tsid lost) :=
  .ite h.of_regs.cnt1 (h.cntN.stSet (offPorts_srcTime _ _)).event

protected theorem PortIn.noteSent {t cells ps} (h : PortIn port state d) :
    PortIn port state (noteSent d t cells ps) :=
  h.of_regs

protected theorem PortIn.noteWarm {b} (h : PortIn port state d) : PortIn port state (noteWarm d b) := .ite h.of_regs h

protected theorem PortIn.spray {t b ms h' v} (h : PortIn port state d) :
    PortIn port state (spray d t b ms h' v).2 :=
  .ite_snd h h.noteWarm.of_regs.cnt1

protected theorem PortIn.viaBundle {p b h'} (h : PortIn port state d) : PortIn port state (viaBundle d p b h').2 := by
  unfold viaBundle
  extract_lets
  split
  · exact .pair (h.raise (offPorts_srcRt _ _))
  · exact h.spray

protected theorem PortIn.redirect {p q h'} (h : PortIn port state d) : PortIn port state (redirect d p q h').2 := by
  unfold redirect
  dsimp only
  split
  · exact (h.raise (offPorts_srcRt _ _)).viaBundle
  · exact .pair (h.raise (offPorts_srcRt _ _))

protected theorem PortIn.setHalf {die idx half v} (h : PortIn port state d) :
    PortIn port state (setHalf d die idx half v) :=
  h.of_regs

protected theorem PortIn.freeCells {i} (h : PortIn port state d) : PortIn port state (freeCells d i) :=
  .ite h.of_regs h.of_regs.setPv.freeShared

protected theorem PortIn.settleIng {i} (h : PortIn port state d) :
    PortIn port state (settleIng d i) :=
  .ite (.ite h.freeCells.of_regs h.freeCells.setIng) h.setIng

protected theorem PortIn.freeIng {id} (h : PortIn port state d) :
    PortIn port state (freeIng d id) := by
  unfold freeIng
  split
  · exact h
  · exact h.settleIng

protected theorem PortIn.noDest {die} (h : PortIn port state d) : PortIn port state (noDest d die) :=
  h.raise (offPorts_srcFwd _)

protected theorem PortIn.setCtx {slot c} (h : PortIn port state d) : PortIn port state (setCtx d slot c) := h.of_regs

protected theorem PortIn.setShard {sh x} (h : PortIn port state d) : PortIn port state (setShard d sh x) := h.of_regs

protected theorem PortIn.ownPush {tile p v f} (h : PortIn port state d) :
    PortIn port state (ownPush d tile p v f) := by
  unfold ownPush
  extract_lets d1 _
  have hd1 : PortIn port state d1 := h.noteSent
  exact hd1.of_regs

protected theorem PortIn.sendTo {home tile t f} (h : PortIn port state d) :
    PortIn port state (sendTo d home tile t f) := by
  unfold sendTo
  refine .ite ?_ h.noDest
  refine .ite h.ownPush ?_
  split
  exact .ownPush (.of_snd h.spray ‹_›)

protected theorem PortIn.sendAll {home tile ts f} (h : PortIn port state d) :
    PortIn port state (sendAll d home tile ts f) :=
  .foldl (fun _ _ h => h.sendTo) h

protected theorem PortIn.rubNotice {slot c reason chunk} (h : PortIn port state d) :
    PortIn port state (rubNotice d slot c reason chunk) :=
  .ite h.sendTo (.ite h.sendTo h)

protected theorem PortIn.dropResults {c} (h : PortIn port state d) : PortIn port state (dropResults d c) := h.of_regs

protected theorem PortIn.abortCtx {slot reason rank chunk} (h :
    PortIn port state d) : PortIn port state (abortCtx d slot reason rank chunk) := by
  unfold abortCtx
  split
  · exact h
  · refine .ite ?_ h
    extract_lets _ _ d1 d2 _ _ d3 d4 d5 d6 d7
    have hd1 : PortIn port state d1 := h.dropResults
    have hd2 : PortIn port state d2 := hd1.setCtx
    clear_value d2
    have hd3 : PortIn port state d3 := hd2.of_regs
    clear_value d3
    have hd4 : PortIn port state d4 := by
      unfold d4
      split
      · exact hd3.setShard
      · exact hd3
    clear_value d4
    have hd5 : PortIn port state d5 := .ite hd4 hd4.sendAll
    have hd6 : PortIn port state d6 := hd5.rubNotice
    have hd7 : PortIn port state d7 := .foldl (fun _ _ h => h.freeIng) hd6
    exact hd7.raise (offPorts_srcColl _ _)

protected theorem PortIn.linkAborts {p} (h : PortIn port state d) :
    PortIn port state (linkAborts d p) := by
  unfold linkAborts
  dsimp only
  refine .foldl (fun _ _ h => ?_) h
  split
  · exact h
  · refine .ite h ?_
    split
    · exact h.abortCtx
    · exact .ite h.abortCtx h

protected theorem PortIn.swQueue {die r} (h : PortIn port state d) : PortIn port state (swQueue d die r) :=
  .ite (h.raise offPorts_srcPmc) h.of_regs

protected theorem PortIn.untrack {i} (h : PortIn port state d) :
    PortIn port state (untrack d i).2 := by
  unfold untrack
  dsimp only
  split
  · exact .ite_snd h.setHalf h
  · exact h

protected theorem PortIn.copySent {id} (h : PortIn port state d) :
    PortIn port state (copySent d id) := by
  unfold copySent
  split
  · exact h
  · split
    exact .settleIng (.of_snd h.untrack ‹_›)

protected theorem PortIn.swNoDest {i} (h : PortIn port state d) :
    PortIn port state (swNoDest d i) := by
  unfold swNoDest
  split
  · exact h
  · exact h.swQueue

protected theorem PortIn.letGo {e} (h : PortIn port state d) :
    PortIn port state (letGo d e) := by
  unfold letGo
  refine .ite ?_ h
  split
  · exact h.freeIng
  · exact h

protected theorem PortIn.freeLaunch {slot} (h : PortIn port state d) : PortIn port state (freeLaunch d slot) :=
  h.of_regs

protected theorem PortIn.endEgr {e status} (h : PortIn port 0 d) :
    PortIn port 0 (endEgr d e status) := by
  unfold endEgr
  dsimp only
  refine .completeOpt ?_
  split
  · refine .freeLaunch ?_
    split
    · exact h.letGo
    · split
      · exact h.letGo.copySent
      · exact h.letGo
  · split
    · exact h.letGo
    · split
      · exact h.letGo.copySent
      · exact h.letGo

protected theorem PortIn.releaseNoDest {i} (h : PortIn port state d) :
    PortIn port state (releaseNoDest d i) :=
  h.swNoDest.untrack.noDest.settleIng

protected theorem PortIn.floodLimit {i} (h : PortIn port state d) :
    PortIn port state (floodLimit d i).2 :=
  .ite_snd h.setFlood (.ite h (h.stSet (offPorts_srcFwd _)).event)

protected theorem PortIn.replicate {i ps} (h : PortIn port state d) : PortIn port state (replicate d i ps) :=
  h.setIng.noteSent.cntN

protected theorem PortIn.dispatchIng {i dst} (h : PortIn port state d) :
    PortIn port state (dispatchIng d i dst) := by
  unfold dispatchIng
  dsimp only
  split
  · exact .ite h.setIng.noteSent h.releaseNoDest
  · split
    · exact h.releaseNoDest
    · exact h.replicate
  · split
    · exact h.cnt1.releaseNoDest
    · exact h.cnt1.floodLimit.replicate

protected theorem PortIn.respray {p} (h : PortIn port state d) :
    PortIn port state (respray d p) := by
  unfold respray
  refine .foldl (fun _ _ h => ?_) h
  split
  · exact h
  · split
    · split
      · split
        exact .dispatchIng (.of_snd h.viaBundle ‹_›)
      · exact h
    · exact h

protected theorem PortIn.giveUp {p} (h : PortIn port state d) :
    PortIn port state (giveUp d p) := by
  unfold giveUp
  refine .foldl (fun _ _ h => ?_) h
  split
  · exact h
  · split
    · split
      exact .dispatchIng (.of_snd h.redirect ‹_›)
    · exact h

protected theorem PortIn.loseStamps {p} (h : PortIn port state d) :
    PortIn port state (loseStamps d p) := by
  unfold loseStamps
  dsimp only
  refine .foldl (fun _ _ h => ?_) h
  refine .setEgrQ ?_
  refine .foldl (fun _ _ h => ?_) h
  split
  · exact h.tsqPush
  · exact h

protected theorem PortIn.leaveService {p} (h : PortIn port state d) :
    PortIn port state (leaveService d p) := by
  unfold leaveService
  exact h.of_regs.loseStamps.respray.linkAborts

protected theorem PortIn.dropLink {p} (h : PortIn port 0 d) :
    PortIn port 0 (dropLink d p) := by
  unfold dropLink
  dsimp only
  split
  · exact h.of_regs.endEgr
  · exact h.of_regs

protected theorem PortIn.setLane {l x} (h : PortIn port state d) : PortIn port state (setLane d l x) := h.of_regs

protected theorem PortIn.setLnState {l st} (h : PortIn port state d) : PortIn port state (setLnState d l st) :=
  h.wrf (offPorts_lnState l)

protected theorem PortIn.setCause {l c} (h : PortIn port state d) : PortIn port state (setCause d l c) :=
  h.setLane.wrf (offPorts_lnState l)

protected theorem PortIn.lateCause {l c} (h : PortIn port state d) : PortIn port state (lateCause d l c) :=
  .ite h.setCause h

protected theorem PortIn.wakeLane {l} (h : PortIn port state d) : PortIn port state (wakeLane d l) :=
  (h.wrf (offPorts_lnState l)).wrf (offPorts_lnCtl l)

protected theorem PortIn.countClaim {l} (h : PortIn port state d) : PortIn port state (countClaim d l) :=
  .ite (h.setLane.raise (offPorts_srcLn l)) h

protected theorem PortIn.dropClaim {l} (h : PortIn port state d) : PortIn port state (dropClaim d l) :=
  h.setLane.wrf (offPorts_lnSpare l)

protected theorem PortIn.unclaim {l} (h : PortIn port state d) : PortIn port state (unclaim d l) :=
  h.countClaim.dropClaim

protected theorem PortIn.toDown {l} (h : PortIn port state d) : PortIn port state (toDown d l) :=
  h.wakeLane.unclaim.setLane.setLnState

protected theorem PortIn.toHold {l} (h : PortIn port state d) : PortIn port state (toHold d l) :=
  h.wakeLane.setLane.setLnState

protected theorem PortIn.putTaps {l t} (h : PortIn port state d) : PortIn port state (putTaps d l t) :=
  .foldl_mem (fun _ ht _ h => (h.wr (offPorts_lnTaps l (List.mem_range.mp ht)).1).wr
    (offPorts_lnTaps l (List.mem_range.mp ht)).2) h

protected theorem PortIn.setTaps {l t} (h : PortIn port state d) : PortIn port state (setTaps d l t) :=
  h.setLane.putTaps

protected theorem PortIn.startSweeps {l} (h : PortIn port state d) :
    PortIn port state (startSweeps d l) :=
  .foldl (fun _ _ h => .foldl_mem (fun _ hr _ h => .ite (h.wrf (offPorts_oeRing _ hr _)) h) h) h

protected theorem PortIn.toWait {l} (h : PortIn port state d) : PortIn port state (toWait d l) :=
  h.setTaps.startSweeps.setLane.setLnState

protected theorem PortIn.endUp {l} (h : PortIn port state d) : PortIn port state (endUp d l) := h.setLane

protected theorem PortIn.laneLeave {p l cause} (h : PortIn port state d) :
    PortIn port state (laneLeave d p l cause) :=
  have hr := h.endUp.setCause.raise (offPorts_srcLn l)
  .ite (.ite hr.toHold hr.toDown) h.lateCause

protected theorem PortIn.portDown {p cause} (h : PortIn port 0 d) :
    PortIn port 0 (portDown d p cause) := by
  unfold portDown
  extract_lets _ _ d1 d2
  have hd1 : PortIn port 0 d1 := .foldl (fun _ _ h => h.laneLeave) h
  have hd2 : PortIn port 0 d2 := .ite hd1.dropLink hd1
  exact .ite hd2.leaveService hd2

protected theorem PortIn.stopTraining {p} (h : PortIn port state d) :
    PortIn port state (stopTraining d p) :=
  .foldl (fun _ _ h => .ite h.setCause.toDown (.ite h.setCause.toDown h)) h

protected theorem PortIn.startTraining {p} (h : PortIn port state d) :
    PortIn port state (startTraining d p) :=
  .foldl (fun _ _ h => .ite h.toWait h) h

end

end Sys2Proof.Machine
end

section
/-! # A write of a port's STATE or ROLE (spec/04 R95, R96, R115, R116, R118) -/
namespace Sys2Proof.Machine

/-! ### RT_PORT is met at its address -/

theorem regAddr_rtPort (p : Nat) :
    regAddr .rtPort (lix p) = 0x800000 + p / 128 * 0x800000 + p / 8 % 16 * 0x10000 + (0x4000 + p % 8 * 4) := by
  simp only [regAddr, regRow, dimOff, lix]; omega

/-- No counter of a tile stands between those of its BOLT port and its shapers. -/
theorem isCnt_dieTile_ports {i j x : Nat} (hi : i < 4) (hj : j < 16) (hx : 0x3FF0 ≤ x ∧ x < 0x4100) :
    isCnt (0x800000 + i * 0x800000 + j * 0x10000 + x) = false := by
  simp only [isCnt, cntBlocks, splitIx, List.any_cons, List.any_nil, List.nil_append, List.cons_append,
    Bool.or_eq_false_iff, Bool.or_false]
  and_intros <;> simp <;> omega

theorem findReg_rtPort {i j k : Nat} (hi : i < 4) (hj : j < 16) (hk : k < 8) :
    findReg dieTileRegs (regAddr .rtPort [i, j, k]) = some (.rtPort, [i, j, k]) := by
  refine findReg_skip (pre := [.swTileCtl, .swCtMap, .swShr, .swLcf, .swStatus, .swRsv]) ?_ ?_ ?_
  · simp [regAddr, dimOff, regRow, splitIx]; omega
  · simp [regAddr, regRow]
  · simp [regAddr, dimOff, regRow, splitIx]; omega

theorem meets_rtPort (p : Fin 512) :
    MeetsReg (regAddr .rtPort (lix p)) .rtPort (lix p) ∧ sleepDom (regAddr .rtPort (lix p)) = none := by
  have hi : p.val / 128 < 4 := by omega
  have hj : p.val / 8 % 16 < 16 := by omega
  have hf : findReg dieTileRegs (regAddr .rtPort (lix p)) = some (.rtPort, lix p) :=
    findReg_rtPort hi hj (Nat.mod_lt p.val (by omega : 0 < 8))
  rw [regAddr_rtPort] at hf ⊢
  refine ⟨meets_dieTile hi hj (by omega) (by omega) (isCnt_dieTile_ports hi hj (by omega)) ?_ hf rfl rfl, ?_⟩
  · rw [Nat.add_sub_assoc (by omega)]
    exact isCnt_dieTile_ports hi hj (by omega)
  · have ho : (0x800000 + p.val / 128 * 0x800000 + p.val / 8 % 16 * 0x10000 + (0x4000 + p.val % 8 * 4) - 0x800000) %
        0x800000 = p.val / 8 % 16 * 0x10000 + (0x4000 + p.val % 8 * 4) := by omega
    simp only [sleepDom, ho]
    rw [if_pos (by omega), if_pos (by omega), if_neg (by omega), if_neg (by omega)]

theorem bits_merge_rtPort (old val : Nat) :
    let m := merge false .rtPort old val
    bits m 30 28 = bits val 30 28 ∧ bits m 27 26 = bits val 27 26 ∧ bits m 24 24 = bits val 24 24 ∧
      bits m 23 16 = bits val 23 16 :=
  ⟨bits_merge .rtPort false old val (f := fl 30 28 .rw 0) (by simp [regRow]),
    bits_merge .rtPort false old val (f := fl 27 26 .rw 0) (by simp [regRow]),
    bits_merge .rtPort false old val (f := fl 24 24 .rw 0) (by simp [regRow]),
    bits_merge .rtPort false old val (f := fl 23 16 .rw 0) (by simp [regRow])⟩

/-- A write acts by its value's four fields alone. -/
theorem portWrite_merge (p old val : Nat) (d : Dev) :
    portWrite p (merge false .rtPort old val) d = portWrite p val d := by
  obtain ⟨h1, h2, h3, h4⟩ := bits_merge_rtPort old val
  simp only [portWrite, rtPortWrite, h1, h2, h3, h4]

theorem busWrite_rtPort (p : Fin 512) (val : Word) (d : Dev) :
    busWrite (regAddr .rtPort (lix p)) val.toNat d = portWrite p val.toNat d.written := by
  have hp : 8 * (16 * (p.val / 128) + p.val / 8 % 16) + p.val % 8 = p.val := by omega
  rw [busWrite_lockFree_awake (meets_rtPort p).1 (meets_rtPort p).2 rfl, ← portWrite_merge p (rd d .rtPort (lix p))]
  simp only [writeReg, lix, List.getD_cons_zero, List.getD_cons_succ, hp]

/-! ### What a write does -/

section
variable {d : Dev} {p : Fin 512} {val : Nat}

/-- The write sets the role to 3, changes it in service, or makes a change of STATE that Table 04-2 does not list. -/
def PortRefused (d : Dev) (p : Fin 512) (val : Nat) : Prop :=
  bits val 27 26 = 3 ∨ (bits val 27 26 ≠ portRole d p ∧ portState d p ≠ 0 ∧ portState d p ≠ 3) ∨
    (!stateOk (portState d p) (bits val 30 28)) = true

theorem rtPortWrite_refused (h : PortRefused d p val) : rtPortWrite p val d = raise d (srcRt (p / 128) 0) 0 := if_pos h

/-- One whose STATE stays as it was probes no fibre. -/
theorem portWrite_of_kept (h : portState (rtPortWrite p val d) p = portState d p) :
    portWrite p val d = rtPortWrite p val d :=
  if_neg fun hc => hc.1 h

theorem portWrite_refused (h : PortRefused d p val) : portWrite p val d = raise d (srcRt (p / 128) 0) 0 := by
  have hw := rtPortWrite_refused h
  rw [portWrite_of_kept, hw]
  rw [hw]
  exact PortIn.raise (port := p) rfl (offPorts_srcRt _ _)

/-- A value with the port's own role, in a change that Table 04-2 lists, is not refused. -/
theorem not_portRefused (hr : bits val 27 26 = portRole d p) (h3 : portRole d p ≠ 3)
    (hs : stateOk (portState d p) (bits val 30 28) = true) : ¬PortRefused d p val := by
  simp [PortRefused, hr, h3, hs]

theorem portIn_setPortState (d : Dev) (p : Fin 512) {state : Nat} (h : state < 8) :
    PortIn p state (setPortState d p state) := rdf_wrf_fits d .rtPort (lix p) (by decide) h

section
variable (hr : bits val 27 26 = portRole d p) (h3 : portRole d p ≠ 3)
include hr h3

theorem rtPortWrite_activate (hv : bits val 30 28 = 1) (ho : portState d p = 0 ∨ portState d p = 2) :
    rtPortWrite p val d = startTraining (setPortState { portFields d p val with
      rt := { (portFields d p val).rt with toDisable := (portFields d p val).rt.toDisable.filter (· != p.val) } } p 1) p := by
  have hn := not_portRefused hr h3 (by rcases ho with ho | ho <;> rw [ho, hv] <;> rfl)
  have hne : portState d p ≠ bits val 30 28 := by omega
  refine (if_neg hn).trans ?_
  rw [if_neg hne, hv]
  rfl

theorem rtPortWrite_drain (hv : bits val 30 28 = 2) (ho : portState d p = 1) :
    rtPortWrite p val d = giveUp (if inService d p then leaveService (setPortState (portFields d p val) p 2) p else
      setPortState (portFields d p val) p 2) p := by
  have hn := not_portRefused hr h3 (by rw [ho, hv]; rfl)
  have hne : portState d p ≠ bits val 30 28 := by omega
  refine (if_neg hn).trans ?_
  rw [if_neg hne, hv]
  rfl

theorem rtPortWrite_disable (hv : bits val 30 28 = 0) (ho : portState d p = 3) :
    rtPortWrite p val d = setDisabled (portFields d p val) p := by
  have hn := not_portRefused hr h3 (by rw [ho, hv]; rfl)
  have hne : portState d p ≠ bits val 30 28 := by omega
  refine (if_neg hn).trans ?_
  rw [if_neg hne, hv]
  exact if_neg (by omega)

theorem rtPortWrite_restore (hv : bits val 30 28 = 4) (ho : portState d p = 3) :
    rtPortWrite p val d =
      let d1 := portFields d p val
      let d2 := (portLanes d1 p).foldl (fun d l => laneLeave d p l 6) d1
      startTraining (setPortState (if linkUp d1 p then dropLink d2 p else d2) p 4) p := by
  have hn := not_portRefused hr h3 (by rw [ho, hv]; rfl)
  have hne : portState d p ≠ bits val 30 28 := by omega
  refine (if_neg hn).trans ?_
  rw [if_neg hne, hv]
  rfl

end

/-- A port that reaches ACTIVE or RESTORING probes its fibres. -/
theorem portWrite_of_moved {state : Nat} (h : PortIn p state (rtPortWrite p val d)) (ho : portState d p ≠ state)
    (hs : state = 1 ∨ state = 4) : portWrite p val d = probePort (rtPortWrite p val d) p := by
  have h' : portState (rtPortWrite p val d) p = state := h
  exact if_pos (by rw [h']; exact ⟨ho.symm, hs⟩)

/-- One that reaches another state does not. -/
theorem portWrite_of_left {state : Nat} (h : PortIn p state (rtPortWrite p val d)) (hs : state = 0 ∨ state = 2) :
    portWrite p val d = rtPortWrite p val d := by
  have h' : portState (rtPortWrite p val d) p = state := h
  exact if_neg (by rw [h']; omega)

section
variable (hr : bits val 27 26 = portRole d p) (h3 : portRole d p ≠ 3)
include hr h3

theorem portWrite_activate (hv : bits val 30 28 = 1) (ho : portState d p = 0 ∨ portState d p = 2) :
    portWrite p val d = probePort (startTraining (setPortState { portFields d p val with
      rt := { (portFields d p val).rt with toDisable := (portFields d p val).rt.toDisable.filter (· != p.val) } } p 1) p) p := by
  have hw := rtPortWrite_activate hr h3 hv ho
  rw [portWrite_of_moved (state := 1) ?_ (by omega) (.inl rfl), hw]
  rw [hw]
  exact (portIn_setPortState _ p (by decide)).startTraining

theorem portWrite_drain (hv : bits val 30 28 = 2) (ho : portState d p = 1) :
    portWrite p val d = giveUp (if inService d p then leaveService (setPortState (portFields d p val) p 2) p else
      setPortState (portFields d p val) p 2) p := by
  have hw := rtPortWrite_drain hr h3 hv ho
  rw [portWrite_of_left (state := 2) ?_ (.inr rfl), hw]
  rw [hw]
  have h2 := portIn_setPortState (portFields d p val) p (state := 2) (by decide)
  exact (PortIn.ite h2.leaveService h2).giveUp

theorem portWrite_disable (hv : bits val 30 28 = 0) (ho : portState d p = 3) :
    portWrite p val d = setDisabled (portFields d p val) p := by
  have hw := rtPortWrite_disable hr h3 hv ho
  rw [portWrite_of_left (state := 0) ?_ (.inl rfl), hw]
  rw [hw]
  exact (portIn_setPortState _ p (by decide)).portDown.stopTraining

theorem portWrite_restore (hv : bits val 30 28 = 4) (ho : portState d p = 3) :
    portWrite p val d =
      let d1 := portFields d p val
      let d2 := (portLanes d1 p).foldl (fun d l => laneLeave d p l 6) d1
      probePort (startTraining (setPortState (if linkUp d1 p then dropLink d2 p else d2) p 4) p) p := by
  have hw := rtPortWrite_restore hr h3 hv ho
  rw [portWrite_of_moved (state := 4) ?_ (by omega) (.inr rfl), hw]
  rw [hw]
  exact (portIn_setPortState _ p (by decide)).startTraining

end
end

/-! ### The commands -/

/-- A command whose value names its state writes RT_PORT. -/
theorem portStateWrite_eq {p : Fin 512} {st : Nat} {val : Word} (h : bits val.toNat 30 28 = st) (d : Dev) :
    portStateWrite p st val d = portWrite p val.toNat d.written := (if_pos h).trans (busWrite_rtPort p val d)

section
variable {s : State} {c : Instr} {p : Fin 512} {st : Nat} {val : Word}

theorem portStateWrite_does {g : Dev → Dev} (hc : exec c s = actBar (regAddr .rtPort (lix p)) (portStateWrite p st val) s)
    (hs : Reached s) (hv : bits val.toNat 30 28 = st) (hg : portWrite p val.toNat s.dev.fresh.written = g s.dev.fresh) :
    Does c s g := does_of_actBar hc hs ((portStateWrite_eq hv _).trans hg)

/-- A value refused is reported, whatever the state it names. -/
theorem portStateWrite_refused (hc : exec c s = actBar (regAddr .rtPort (lix p)) (portStateWrite p st val) s)
    (hs : Reached s) (hv : bits val.toNat 30 28 = st)
    (h : PortRefused s.dev p val.toNat) :
    Does c s (fun d => raise d.written (srcRt (p / 128) 0) 0) :=
  portStateWrite_does hc hs hv (portWrite_refused (d := s.dev.fresh.written) h)

end

/-- Table 04-2: a port drains out of service from ACTIVE alone. -/
theorem stateOk_drain {old : Nat} (h1 : old ≠ 1) (h2 : old ≠ 2) : stateOk old 2 = false := by
  unfold stateOk
  split <;> simp_all

/-- Table 04-2: a port restores from BYPASS alone. -/
theorem stateOk_restore {old : Nat} (h3 : old ≠ 3) (h4 : old ≠ 4) : stateOk old 4 = false := by
  unfold stateOk
  split <;> simp_all

/-- Settles O11: a value refused is reported alone; the others store the fields, and the port acts by its new state, which
lasts through all that it sets off. -/
theorem portStateWrites : Obligations.PortStateWrites := by
  refine ⟨fun s p val hs => ⟨fun h => ⟨fun hv => ?_, fun hv => ?_, fun hv => ?_, fun hv => ?_⟩, fun hv ho => ?activate3,
    fun hv h1 h2 => ?drain, fun hv h3 h4 => ?restore⟩,
    fun s p val hs hr h3 => ⟨fun hv ho => ?activated, fun hv ho => ?drained, fun hv ho => ?disabled, fun hv ho => ?restored⟩⟩
  iterate 4 exact portStateWrite_refused rfl hs hv (h.imp_right .inl)
  case activate3 => exact portStateWrite_refused rfl hs hv (.inr (.inr (by rw [hv, ho]; rfl)))
  case drain => exact portStateWrite_refused rfl hs hv (.inr (.inr (by rw [hv, stateOk_drain h1 h2]; rfl)))
  case restore => exact portStateWrite_refused rfl hs hv (.inr (.inr (by rw [hv, stateOk_restore h3 h4]; rfl)))
  case activated =>
    exact gives_of_actBar rfl hs ⟨portIn_setPortState _ p (by decide),
      (portStateWrite_eq hv _).trans (portWrite_activate (d := s.dev.fresh.written) hr h3 hv ho)⟩
  case drained => exact portStateWrite_does rfl hs hv (portWrite_drain (d := s.dev.fresh.written) hr h3 hv ho)
  case disabled => exact portStateWrite_does rfl hs hv (portWrite_disable (d := s.dev.fresh.written) hr h3 hv ho)
  case restored => exact portStateWrite_does rfl hs hv (portWrite_restore (d := s.dev.fresh.written) hr h3 hv ho)

end Sys2Proof.Machine
end
